-- ==== Sys2Proof/Word.lean ====
section
/-!
DEFINITION. Sys2Proof/Word.lean: the word of a register (R2: every register is 32 bits wide) and the byte.
-/

namespace Sys2Proof

/-- A register word (R2). -/
abbrev Word := BitVec 32

/-- A byte. -/
abbrev Byte := BitVec 8

end Sys2Proof
end

