-- ==== Sys2Proof/Syntax.lean ====
section
/-!
DEFINITION. Sys2Proof/Syntax.lean: the commands of the block, one constructor for each row of the table of operations and
events, with the operands the model gives them (the table gives no bits: log 1). Operands are what an event brings from
outside or what the spec leaves to a measurement; everything else is read from the state.
-/

namespace Sys2Proof

/-- A bus master of the control interconnect (Table 17.2), with the I2C side port of R397, which reaches the FLT window
by its own path. -/
inductive Master where
  | core | host | loader | dma | consort | debug | sidePort
  deriving DecidableEq, Repr

/-- The master codes of Table 17.2; the side port has none in the table and is numbered after them. -/
def Master.code : Master → Nat
  | .core => 0 | .host => 1 | .loader => 2 | .dma => 3 | .consort => 4 | .debug => 5 | .sidePort => 6

/-- A block received on one data lane: its 4-bit header (R42), its 128 payload bits as they arrive, still scrambled
(R43), and its arrival time in unit intervals after an origin common to the group's lanes (R53). -/
structure LaneBlk where
  hdr : BitVec 4
  raw : BitVec 128
  at_ui : Nat
  deriving DecidableEq, Repr

/-- A write of the NVM that has begun: an erase of a 64 KiB sector or a program of up to 4 KiB, each at a multiple of its size (R412);
the firmware's next write of the fault log (R414); or its rewrite of USER_CAL, with the stored adaptation of the serdes targets, whose
format is opaque (R422, Table 16.8). -/
inductive NvmWrite where
  | erase (sector : Nat)
  | program (page : Nat) (bytes : List Byte)
  | faultLog
  | userCal (adapt : List (Nat × List Byte))
  deriving DecidableEq, Repr

/-- A lane group, 0 to 36 (R38, Table 0.6). -/
abbrev Grp := Fin 37
/-- A data lane, 0 to 7 (R38). -/
abbrev Lane := Fin 8
/-- A slot with a slot processing stage, 0 to 1,535 (Table 0.6). -/
abbrev SlpSlot := Fin 1536
/-- A slot, 0 to 1,663 (R20). -/
abbrev Slot := Fin 1664
/-- A cadence, 0 to 15. -/
abbrev Cad := Fin 16

/-- A take entry of 16 bytes with its fields read (R127, Table 5.1). -/
structure TakeEntry where
  sec : Nat
  ns : Nat
  out : Nat
  type : Nat
  src : Nat
  afollow : Bool
  field2 : Bool
  now : Bool
  salvo : Nat
  deriving DecidableEq, Repr

/-- Where an entry came from (Table 5.7, ORIGIN): a bus master's registers, the take ring, a take message; or, on a
standby, the active twin's journal (R364), with the ORIGIN code the record carries. -/
inductive Origin where
  | regs (m : Master) | ring | msg | journal (code : Nat)
  deriving DecidableEq, Repr

/-- A logical MAC, 0 to 63 (R159). -/
abbrev Mac := Fin 64

/-- A frame offered to a MAC for transmission (R170): its bytes from the destination address on, without FCS; its traffic
class; the identifier of a requested transmit timestamp (R328); and the flow queue that offered it, where one did (R205). -/
structure TxFrame where
  bytes : List Byte
  tc : Nat
  ts : Option Nat
  flow : Option Nat
  deriving DecidableEq, Repr


/-- What a received frame meets that the model does not compute: the bytes its MAC's share of the receive buffer already holds
(R168), and whether the link cut it off before its FCS. -/
structure RxInfo where
  held : Nat
  cut : Bool
  deriving DecidableEq, Repr

/-- An egress flow, 0 to 4,095 (R180). -/
abbrev Flow := Fin 4096
/-- A flow context (R180). -/
abbrev Ctx := Fin 12288
/-- A bundle (R179). -/
abbrev Bundle := Fin 384
/-- A general queue (R206), 12,288 to 16,383, as its number less 12,288. -/
abbrev GenQ := Fin 4096


/-- Who reads the frame store (R239). -/
inductive StoreReader where
  | syncPicture (n : Fin 512) | syncAnc (n : Fin 512) | pool | surface | otc | bar2 | dma | scrub
  deriving DecidableEq, Repr


/-- A Plotter engine, 0 to 31 (R242). -/
abbrev Eng := Fin 32


/-- An audio sample of 24 bits (R277). -/
abbrev Sample := BitVec 24
/-- A matrix channel, 0 to 27,647 (R276). -/
abbrev Chan := Fin 27648
/-- A serial audio port, 0 to 15 (R298). -/
abbrev Port := Fin 16

/-- A reference input, 0 to 3 (R337). -/
abbrev Refin := Fin 4
/-- A candidate of Lodestar, 0 to 5 (Table 13.1). -/
abbrev Cand := Fin 6

/-- A level-2 unit of digests, 0 to 51 (R366). -/
abbrev DigUnit := Fin 52


/-- A fault: its source, the unit's level and index (R386) and the sub-index AUX. -/
structure FaultAt where
  src : Nat
  lvl : Nat
  unit : Nat
  aux : Nat
  deriving DecidableEq, Repr

/-- A fault source (R384). -/
abbrev Src := Fin 256


/-- A clock that the monitor of R473 checks (Table 19.1); the external clocks are not among them. -/
inductive Clock where
  | aclk | sysclk | fclk | cclk | pclk
  | hclk (s : Fin 2)
  | laneTx (g : Grp)
  | ether (p : Fin 16)
  | audioBit (p : Port)
  deriving DecidableEq, Repr

/-- An event source (R435). -/
abbrev EvtSrc := Fin 512
/-- An MSI-X vector. -/
abbrev Vec := Fin 64

/-- The commands: one constructor for each row of spec/opcode_table.json. -/
inductive Instr where
  /-- REGISTER_WRITE (R8). A write to a register with no row of its own stores each field by its access code and class, with S fields judged against the owning block's run state. -/
  | registerWrite (m : Master) (off : Nat) (v : Word)
  /-- DECODE_MISS (R3). An access outside every window, or of a width or alignment that R2 rejects, goes to the default target, which returns an error response. -/
  | decodeMiss (m : Master) (off : Nat) (wr : Bool)
  /-- SELECT_WRITE (R17). A write to a master's own copy of a channel-select register stores the value and opens or closes that master's window. -/
  | selectWrite (m : Master) (off : Nat) (v : Word)
  /-- LOW_WORD_READ (R6). A read of the low word of a 64-bit or 48-bit value latches the high word for the reading master. -/
  | lowWordRead (m : Master) (off : Nat)
  /-- TIME_FRAC_READ (R317). A read of TIM.TIME_FRAC latches TIME_NS and TIME_SEC for the reading master. -/
  | timeFracRead (m : Master)
  /-- TARGET_TIMEOUT (R431). An access left unanswered for 1 ms is completed by the interconnect as the default target would complete it, and HS_TMO is raised. -/
  | targetTimeout (m : Master) (off : Nat) (wr : Bool)
  /-- DATA_BLOCK_RX (R44). A data block received on a lane delivers one slot word per phase to the group's input slots. -/
  | dataBlockRx (g : Grp) (l : Lane) (b : LaneBlk)
  /-- IDLE_BLOCK_RX (R48). A received IDLE control block is discarded as rate filler. -/
  | idleBlockRx (g : Grp) (l : Lane) (raw : BitVec 128)
  /-- BAD_CONTROL_BLOCK (R49). A control block with a bad CRC or an unlisted type is treated as IDLE and counted in LNG.CNT_CTL. -/
  | badControlBlock (g : Grp) (l : Lane) (raw : BitVec 128)
  /-- TRAIN_BLOCK_RX (R65). A received TRAIN block counts down toward the ALIGN that ends training. -/
  | trainBlockRx (g : Grp) (l : Lane) (raw : BitVec 128)
  /-- ALIGN_BLOCK_RX (R53). ALIGN blocks received on the eight lanes align the group and take it UP, or are judged as marker failures while it is UP. -/
  | alignBlockRx (g : Grp) (bs : List LaneBlk)
  /-- MARKER_MISSING (R55). The expected ALIGN index passing without an ALIGN counts as a marker failure. -/
  | markerMissing (g : Grp) (lanes : List Lane)
  /-- ROLE_BLOCK_RX (R74). ROLE blocks on at least 5 lanes at one index are accepted as the partner's role word. -/
  | roleBlockRx (g : Grp) (bs : List LaneBlk)
  /-- REST_BLOCK_RX (R58). A valid REST from at least 5 lanes takes an UP receiver to REST. -/
  | restBlockRx (g : Grp) (bs : List LaneBlk)
  /-- EXIT_BLOCK_RX (R71). EXIT blocks take a compatibility receiver in REST to LOCK and then to UP on the ALIGN. -/
  | exitBlockRx (g : Grp) (bs : List LaneBlk)
  /-- CLOCK_LOS (R61). Clock-lane loss of signal takes an UP group DOWN, returns an acquiring receiver to ACQ, or is expected in native REST. -/
  | clockLos (g : Grp)
  /-- CLOCK_LOL (R61). Clock loss of lock takes an UP group DOWN and is handled like LOS in the other states. -/
  | clockLol (g : Grp)
  /-- CLOCK_LOS_CLEAR (R59). The clock lane becoming active again takes a native receiver in REST to ACQ. -/
  | clockLosClear (g : Grp)
  /-- CLOCK_VALID (R58). LOS and LOL clear for 200 ns take a receiver from ACQ to LOCK. -/
  | clockValid (g : Grp)
  /-- BLOCK_LOCK (R58). Every lane seeing 64 consecutive valid headers takes the receiver from LOCK to ALIGN. -/
  | blockLock (g : Grp) (lanes : BitVec 8)
  /-- RETRAIN_TIMER (R58). With RETRAIN_AUTO = 1, 1 µs after entry into DOWN the receiver moves to ACQ. -/
  | retrainTimer (g : Grp)
  /-- RETRAIN_AUTO_WRITE (R58). A write of RETRAIN_AUTO = 1 while the receiver is in DOWN takes it to ACQ within 64 cc, or at the 1 µs mark. -/
  | retrainAutoWrite (g : Grp) (v : Bool)
  /-- ELASTIC_SLIP (R57). The per-slot elastic buffer deletes or inserts a V = 0 word to stay centred and counts the slip. -/
  | elasticSlip (slot : Slot) (ins : Bool)
  /-- TRQ_TIMER (R66). A receiver in ACQ, LOCK or ALIGN for more than 100 µs with TRQ_EN = 1 sets TRQ in its group's transmitted role words. -/
  | trqTimer (g : Grp)
  /-- RX_REQ_WRITE (R59). A write of RX_REQ moves the receive direction to OFF, SLEEP or ACQ within 64 cc. -/
  | rxReqWrite (g : Grp) (v : BitVec 2)
  /-- TX_REQ_WRITE (R68). A write of TX_REQ starts full training, a native wake or an EXIT burst, or enters SLEEP or OFF through the entry sequence. -/
  | txReqWrite (g : Grp) (v : BitVec 2)
  /-- TRAINING_STEP_END (R65). The timed idle, PRBS and TRAIN steps of a training sequence end, and the transmitter passes to the next step or to RUN after the ALIGN. -/
  | trainingStepEnd (g : Grp)
  /-- MARKER_PERIOD_START (R50). The transmit block index wraps to 0, every data lane sends ALIGN, and MSEQ rises by 1. -/
  | markerPeriodStart (g : Grp)
  /-- ROLE_INDEX (R50). At indices 4,096, 8,192 and 12,288 every data lane sends ROLE. -/
  | roleIndex (g : Grp) (k : Fin 3)
  /-- ROLE_WORD_CHANGE (R52). A change of ROLE or HEALTHY advances ROLE_SEQ and marks the role word for sending. -/
  | roleWordChange
  /-- ROLE_WORD_SEND (R52). A changed role word is sent at the next index that would otherwise carry IDLE. -/
  | roleWordSend (g : Grp)
  /-- REST_SEND (R69). A transmitter entering SLEEP sends REST at the next IDLE index and then stops its lanes as its mode requires. -/
  | restSend (g : Grp)
  /-- LNG_CNT_CLR (R77). LNG.CMD.CNT_CLR clears the five group counters. -/
  | lngCntClr (g : Grp)
  /-- FORCE_RETRAIN (R61). LNG.CMD.FORCE_RETRAIN takes the receiver to DOWN from UP, to ACQ from DOWN, or restarts acquisition. -/
  | forceRetrain (g : Grp)
  /-- FORCE_TRAIN (R65). LNG.CMD.FORCE_TRAIN makes a transmitter in RUN send the full training sequence. -/
  | forceTrain (g : Grp)
  /-- INPUT_ENABLE (R99). A write of SLP.IN_CFG.IN_EN starts or stops the input stage, and a stopped stage holds the parser in SEARCH and clears DET_FMT. -/
  | inputEnable (slot : SlpSlot) (en : Bool)
  /-- EAV_FOUND (R98). A valid EAV advances the TRS parser through SEARCH, VERIFY, LOCKED and FLYWHEEL. -/
  | eavFound (slot : SlpSlot)
  /-- EAV_MISS (R98). An expected EAV position passing without a valid EAV counts in CNT_TRS and moves the parser toward FLYWHEEL or SEARCH. -/
  | eavMiss (slot : SlpSlot)
  /-- INPUT_FRAME_START (R101). At each input frame start the timing analyser measures the offset from its cadence and updates TIMED. -/
  | inputFrameStart (slot : SlpSlot)
  /-- PAYLOAD_ID_PACKET (R102). An ST 352 packet with a valid checksum updates the reported payload ID and raises PID_CHG on change. -/
  | payloadIdPacket (slot : SlpSlot)
  /-- ANC_PACKET_CAPTURE (R107). An input ancillary packet that matches a capturing filter is written as a record to the capture queue, or dropped when the queue is full. -/
  | ancPacketCapture (slot : SlpSlot)
  /-- OUTPUT_ENABLE (R90). A write of SLP.OUT_CFG.OUT_EN starts or stops an output stage. -/
  | outputEnable (o : SlpSlot) (en : Bool)
  /-- COUNTER_START (R90). An enabled output's raster counter starts at the next frame start of OUT_CAD. -/
  | counterStart (o : Slot)
  /-- COUNTER_LINE_START (R120). At a counter line start the output starts the generator if its trigger or null source calls for it and rebuilds ancillary data. -/
  | counterLineStart (o : Slot) (ins : List (List Byte))
  /-- COUNTER_FRAME_START (R109). A counter frame start is the commit point of the output's F fields. -/
  | counterFrameStart (o : Slot)
  /-- SOURCE_LINE_START (R91). A source line start re-phases the counter while the output passes its source, and is the return point after a substitute. -/
  | sourceLineStart (o : Slot) (ins : List (List Byte))
  /-- TRIGGER_CHANGE (R120). A change of a source condition reaches the output's substitute trigger T within 8 fc. -/
  | triggerChange (o : Slot)
  /-- ROUTE_WRITE (R126). A write to XP.ROUTE.SRC while the output is stopped sets SRC_ACT, or raises CLASS_VIOL while it runs. -/
  | routeWrite (m : Master) (v : Word)
  /-- XP_CNT_CLR (R125). XP.CMD.CNT_CLR clears XP.CNT_SUB. -/
  | xpCntClr (o : Slot)
  /-- TAKE_GO (R152). A write of HIF.TK_DB.GO submits the master's staged entry, with OUT from its XP.OUT_SEL for a TAKE. -/
  | takeGo (m : Master)
  /-- TAKE_FLUSH (R152). HIF.TK_DB.FLUSH removes every uncommitted pending take on the selected output with CANCELLED. -/
  | takeFlush (m : Master)
  /-- TAKE_RING_ENTRY (R153). The take engine consumes the next entry from the take ring. -/
  | takeRingEntry (bytes : List Byte)
  /-- TAKE_MESSAGE (R156). A take message is checked for target, format, key, tag and sequence, and its entries are processed in order. -/
  | takeMessage (arriving : Option (List Byte)) (tagOk : Bool)
  /-- TAKE_ENTRY (R130). A TAKE entry is checked and accepted into its output's queue with a due frame, or held unarmed in a salvo, or rejected. -/
  | takeEntry
  /-- ARM_ENTRY (R143). An ARM entry arms an open salvo whose unarmed members number COUNT, or fails it. -/
  | armEntry
  /-- CANCEL_ENTRY (R133). A CANCEL entry removes the uncommitted pending takes it names. -/
  | cancelEntry
  /-- TAKE_EXECUTE (R141). At a take's switch point the take engine changes S(o) so that the output cuts to the new source. -/
  | takeExecute (o : Slot)
  /-- SALVO_EXPIRY (R143). A salvo not armed within SALVO_TMO expires, and its members end ORPHAN. -/
  | salvoExpiry (salvo : BitVec 16)
  /-- TAKE_ENGINE_ENABLE (R134). A write of TK_CTL.EN starts the take engine, or its fall ends every pending take with DISABLED and closes every salvo. -/
  | takeEngineEnable (en : Bool)
  /-- TK_CNT_CLR (R158). HIF.TK_CMD.CNT_CLR clears the six take counters. -/
  | tkCntClr
  /-- CONTROL_SIDE_DOWN (R135). The control side going down discards every pending take and unfinished entry without a result. -/
  | controlSideDown
  /-- CONTROL_SIDE_UP (R434). The control side running again raises CTRL_UP, counts lost takes and sends deferred event messages. -/
  | controlSideUp
  /-- AUDIO_FOLLOW (R289). At the first tick at or after an AFOLLOW take's switch point, input 0 of the output's 16 channels changes source and fades. -/
  | audioFollow (o : Slot)
  /-- AUTO_NEGOTIATION_DONE (R161). Auto-negotiation and link training complete on a port. -/
  | autoNegotiationDone (p : Fin 16)
  /-- LINK_UP (R163). A MAC's PCS and FEC reach lock, the link comes up and LINK_UP is raised. -/
  | linkUp (m : Mac)
  /-- LINK_DOWN (R163). A MAC's link goes down, the frame in flight ends with a complemented FCS, and LINK_DOWN is raised. -/
  | linkDown (m : Mac)
  /-- RX_FRAME (R164). A frame received store-and-forward is checked, filtered and handed on to classification, or counted in one drop counter. -/
  | rxFrame (m : Mac) (bytes : List Byte) (info : RxInfo)
  /-- TX_FRAME_START (R170). The MAC starts the highest-class ready head frame that its gate lets through. -/
  | txFrameStart (m : Mac) (avail : List Nat)
  /-- TX_UNDERRUN (R171). The transmit buffer runs empty mid-frame; the frame ends with a complemented FCS and THR is raised by 1. -/
  | txUnderrun (m : Mac) (sent : Nat)
  /-- TX_LINK_DROP (R173). A frame offered while the link is down is discarded and counted. -/
  | txLinkDrop (m : Mac) (f : TxFrame)
  /-- TX_GATE_DROP (R175). A head frame not allowed to start for one whole gate cycle is dropped and counted. -/
  | txGateDrop (m : Mac) (tc : Fin 8)
  /-- MAC_ENABLE (R160). A write of MAC.CFG.EN starts an active MAC, raises INACTIVE for an inactive one, or stops it and ends the frames in flight. -/
  | macEnable (m : Mac) (en : Bool)
  /-- GATE_CFG_CHANGE (R176). GATE_CTL.CFG_CHANGE copies the admin list into the pending list with a change time X, or is refused with CFG_ERR. -/
  | gateCfgChange (m : Mac)
  /-- GATE_LIST_CHANGE (R176). At the change time X the pending gate list takes effect and GATE_CHG is raised. -/
  | gateListChange (m : Mac)
  /-- GATE_ENTRY_BOUNDARY (R174). At each entry boundary of the gate list in force, the gate states change. -/
  | gateEntryBoundary (m : Mac)
  /-- MAC_CNT_CLR (R178). MAC.CMD.CNT_CLR clears the MAC's counters. -/
  | macCntClr (m : Mac)
  /-- LINK_RESTART (R161). MAC.CMD.LINK_RESTART restarts auto-negotiation and training, or alignment. -/
  | linkRestart (m : Mac)
  /-- CONTEXT_ENABLE (R181). A write of FLW.CTX_CTL.EN starts a flow context after its checks, or stops it and returns its cells. -/
  | contextEnable (c : Ctx) (en : Bool)
  /-- BUNDLE_ENABLE (R216). A write of FLW.BDL_CTL.EN starts or stops an ingress bundle's raster. -/
  | bundleEnable (b : Bundle) (en : Bool)
  /-- BUNDLE_FRAME (R186). A bundle raster frame is played toward its target instant t_ref + PLAY_DELAY. -/
  | bundleFrame (b : Bundle)
  /-- BUNDLE_LINE_TIMEOUT (R192). TMO_LINES lines without a complete video line make the bundle's slot absent. -/
  | bundleLineTimeout (b : Bundle)
  /-- LEG_LOSS (R192). A leg that delivers no packet for its set time is lost and LEG_LOSS is raised. -/
  | legLoss (c : Flow) (leg : Fin 2)
  /-- VIDEO_PACKET_RELEASE (R198). An egress video packet is released at its scheduled time, or when its samples complete. -/
  | videoPacketRelease (f : Flow)
  /-- AUDIO_PACKET_RELEASE (R200). An egress audio packet leaves once the tick of its last sample has passed. -/
  | audioPacketRelease (f : Flow)
  /-- ANC_PACKET_RELEASE (R201). Egress ancillary packets of a line leave after the line they occupy. -/
  | ancPacketRelease (f : Flow)
  /-- FLW_BLK_CNT_CLR (R216). FLW.BLK_CMD.CNT_CLR clears the three block counters. -/
  | flwBlkCntClr
  /-- FLW_CNT_CLR (R216). FLW.CMD.CNT_CLR clears the five context counters. -/
  | flwCntClr (c : Ctx)
  /-- QUEUE_ENABLE (R207). A write of QM.Q_CFG.EN starts a general queue after its checks, or stops it. -/
  | queueEnable (q : GenQ) (en : Bool)
  /-- QUEUE_INDEX_WRITE (R208). Software writes the producer or consumer index it owns, or the write is ignored and raises IDX_ERR. -/
  | queueIndexWrite (m : Master) (prod : Bool) (v : Word)
  /-- QUEUE_ELEMENT_CONSUME (R209). The device reads an element from a DIR = 1 queue while the fill is above zero and then advances CONS. -/
  | queueElementConsume (q : GenQ)
  /-- QUEUE_ELEMENT_PRODUCE (R209). The device writes an element to a DIR = 0 queue, advances PROD and writes back the index, or counts an overflow. -/
  | queueElementProduce (q : GenQ) (bytes : List Byte)
  /-- QUEUE_NOTIFY_TIMER (R211). TIMER µs after the first unnotified element, the queue sends its MSI-X notification. -/
  | queueNotifyTimer (q : GenQ)
  /-- HOST_TX_ELEMENT (R213). A host transmit element sends its frame on MAC m, or is consumed unsent and counted in TX_BAD. -/
  | hostTxElement (m : Mac) (elem : List Byte)
  /-- Q_CNT_CLR (R217). QM.Q_CMD.CNT_CLR clears Q_CNT_OVF. -/
  | qCntClr (q : Fin 16384)
  /-- HWM_CLR (R217). QM.Q_CMD.HWM_CLR sets HWM to FILL. -/
  | hwmClr (q : Fin 16384)
  /-- IDX_CLR (R217). QM.Q_CMD.IDX_CLR sets PROD and CONS to 0 while the queue is stopped. -/
  | idxClr (q : GenQ)
  /-- SYNC_START (R222). A write of FS.SYNC_CTL.EN = 1 starts a synchroniser after its checks, or refuses with an ERR code. -/
  | syncStart (n : Fin 512)
  /-- SYNC_STOP (R224). A write of EN = 0 stops the synchroniser within 64 cc and discards its frames. -/
  | syncStop (n : Fin 512)
  /-- SYNC_FRAME_CHOICE (R226). At R − 64 lines the synchroniser chooses the frame for the next cadence frame start, counting drops and repeats. -/
  | syncFrameChoice (n : Fin 512) (k : Int)
  /-- SYNC_FRAME_PLAY (R226). At a cadence frame start the chosen frame begins to play, and the slot becomes present from EMPTY. -/
  | syncFramePlay (n : Fin 512) (k : Int)
  /-- SYNC_FRAME_INCOMPLETE (R227). A frame whose input fails before completion is incomplete and is never played, or is patched if it has begun to play. -/
  | syncFrameIncomplete (n : Fin 512)
  /-- SYNC_HOLD_TIMEOUT (R228). HOLD_TMO consecutive repeats while HOLDING discard the complete frames and enter EMPTY. -/
  | syncHoldTimeout (n : Fin 512)
  /-- SYNC_FREEZE (R229). A write of FS.SYNC_CTL.FRZ stops or resumes acceptance without a loss of source. -/
  | syncFreeze (n : Fin 512) (v : Bool)
  /-- FS_CNT_CLR (R241). FS.BLK_CMD.CNT_CLR clears both ECC counters. -/
  | fsCntClr
  /-- ECC_ADDR_CLR (R241). FS.BLK_CMD.ADDR_CLR clears the captured ECC address. -/
  | eccAddrClr
  /-- SYNC_CNT_CLR (R241). FS.SYNC_CMD.CNT_CLR clears the four synchroniser counters. -/
  | syncCntClr (n : Fin 512)
  /-- BAR2_READ (R237). A BAR2 read returns store data through its window, or errors with all ones beyond the store. -/
  | bar2Read (o : Fin 0x10000000) (len : Nat)
  /-- BAR2_WRITE (R238). A BAR2 write reaches the store in SURF and HOST only, and is discarded with WIN_WP or WIN_RANGE elsewhere. -/
  | bar2Write (o : Fin 0x10000000) (bytes : List (Option Byte))
  /-- ECC_CE (R239). A corrected store error is counted, raises ECC_CE and its fault source, and is written back. -/
  | eccCe
  /-- ECC_UE (R239). An uncorrectable store error is counted, captures its address, raises ECC_UE and reads as its reader requires. -/
  | eccUe (addr : Fin 48000000000) (reader : StoreReader)
  /-- PATROL_SCRUB (R240). The patrol scrubber reads the store once every PERIOD_H hours and writes back correctable granules. -/
  | patrolScrub (ces : Nat) (ues : List (Fin 48000000000))
  /-- ENGINE_START (R244). A write of PLT.ENG_CTL.EN = 1 checks the start conditions and arms the engine for its first frame. -/
  | engineStart (e : Eng)
  /-- ENGINE_STOP (R244). A write of EN = 0 stops the engine within 64 cc, makes its outputs absent and stops its feeds. -/
  | engineStop (e : Eng)
  /-- ENGINE_FRAME (R243). At each cadence frame start the engine composes frame k for its outputs and writes the freeze buffer. -/
  | engineFrame (e : Eng) (late : List (Fin 16 × Nat))
  /-- ENGINE_COMMIT (R267). ENG_CMD.COMMIT arms the engine's commit group. -/
  | engineCommit (e : Eng)
  /-- ENGINE_COMMIT_POINT (R267). At the commit point the shadow set of the engine or group is checked, and it is applied or rejected as a whole. -/
  | engineCommitPoint (e : Eng)
  /-- ENGINE_CNT_CLR (R275). ENG_CMD.CNT_CLR clears the engine's three counters. -/
  | engineCntClr (e : Eng)
  /-- COEF_DATA_ACCESS (R253). An access to PLT.COEF_DATA reaches the coefficient at IDX and advances IDX by 1. -/
  | coefDataAccess (m : Master) (v : Option Word)
  /-- MATRIX_TICK (R284). At each 48 kHz tick the matrix computes every output channel from its inputs, with ramps, fades and delays. -/
  | matrixTick (n : Nat) (ports : List (Port × List Bool)) (elems : List (Port × List Byte))
  /-- AMX_COMMIT (R293). AMX.BLK_CMD.COMMIT arms a matrix commit. -/
  | amxCommit
  /-- AMX_COMMIT_POINT (R294). At the first tick 2 µs after COMMIT the whole shadow set is checked, and applied or rejected. -/
  | amxCommitPoint
  /-- MATRIX_ENABLE (R295). A write of AMX.BLK_CTL.EN checks and starts the matrix at a tick, or stops it at the next tick. -/
  | matrixEnable (en : Bool)
  /-- AMX_CNT_CLR (R297). AMX.BLK_CMD.CNT_CLR clears CNT_CLIP and CNT_REJ. -/
  | amxCntClr
  /-- AUDIO_DIRECTION_ENABLE (R314). A write of TX_EN or RX_EN starts a port direction at the next tick after its check, or stops it. -/
  | audioDirectionEnable (p : Port) (tx en : Bool)
  /-- FRAME_SYNC_RX (R301). A slave direction's frame sync starts slot 0, or raises a frame error on a wrong count. -/
  | frameSyncRx (p : Port) (tx : Bool) (clocks rate : Nat) (frames : List (List Bool))
  /-- FRAME_SYNC_MISSING (R301). A frame sync still missing one bit clock after the expected count is a frame error. -/
  | frameSyncMissing (p : Port) (tx : Bool)
  /-- SRC_LOCK (R304). A stable foreign rate for the required frames and time takes the sample-rate converter to LOCKED. -/
  | srcLock (p : Port)
  /-- SRC_UNLOCK (R304). Eight missing frame syncs, three frame errors or a rate step return the converter to ACQ. -/
  | srcUnlock (p : Port)
  /-- AUD_CNT_CLR (R314). AUD.CMD.CNT_CLR clears the five port counters. -/
  | audCntClr (p : Port)
  /-- TIME_SET (R318). TIM.CMD.SET loads the time counter, or is refused with STEP_ERR. -/
  | timeSet
  /-- TIME_ADJ (R318). TIM.CMD.ADJ adds TIM.ADJ.NS to the time counter. -/
  | timeAdj
  /-- SRV_PUSH (R321). TIM.CMD.SRV_PUSH delivers SRV_OFS as a PTP servo sample. -/
  | srvPush
  /-- CAD_SNAP (R320). TIM.CMD.CAD_SNAP sets RES to 0 at once and raises SNAP. -/
  | cadSnap
  /-- SRV_RESET (R322). TIM.CMD.SRV_RESET sets the servo integral to 0. -/
  | srvReset
  /-- TIM_CNT_CLR (R336). TIM.CMD.CNT_CLR clears the three TIM counters. -/
  | timCntClr
  /-- INCR_WRITE (R316). A write to INCR is clamped and applies from the next cc. -/
  | incrWrite (hi : Bool) (v : Word)
  /-- SERVO_SAMPLE (R322). An offset sample updates the integral, output and INCR, or makes a servo step or switch step. -/
  | servoSample
  /-- PPS_EDGE (R321). A 1PPS edge on the selected REFIN pair yields a hardware servo sample. -/
  | ppsEdge (n : Refin) (t : Nat)
  /-- FRAME_PULSE (R321). A frame pulse on the selected REFIN yields a hardware servo sample. -/
  | framePulse (n : Refin) (t : Nat)
  /-- CADENCE_FRAME_START (R331). Cadence time reaching F(k) delivers frame start k to every bound block in one cc. -/
  | cadenceFrameStart (c : Cad)
  /-- TRIGGER_FIRE (R334). A general trigger fires when time reaches T_n, raises TRIG_n, and re-arms or clears EN. -/
  | triggerFire (n : Fin 8)
  /-- TX_TIMESTAMP_ENTRY (R328). A frame sent with TS_REQ leaves one entry in its MAC's timestamp queue, or the entry is dropped on overflow. -/
  | txTimestampEntry (m : Mac)
  /-- TSQ_POP (R329). A write of 1 to bit m of TIM.TSQ_POP removes MAC m's head timestamp entry. -/
  | tsqPop (m : Mac)
  /-- LODESTAR_ENABLE (R349). A write of REF.CTL.EN runs Lodestar, or its fall leads to FREE with no selection. -/
  | lodestarEnable (en : Bool)
  /-- REFIN_EDGE (R337). An edge on a REFIN input is timed and updates the candidate's presence. -/
  | refinEdge (n : Refin) (t : Nat) (cycles : Nat)
  /-- REFIN_LOSS (R337). Missing or mistimed pulses or edges make a REFIN candidate absent. -/
  | refinLoss (n : Refin)
  /-- PTP_KEEP (R337). REF.CMD.PTP_KEEP keeps the PTP candidate present for 1.5 s. -/
  | ptpKeep
  /-- PTP_KEEP_TIMEOUT (R337). 1.5 s without PTP_KEEP makes the PTP candidate absent. -/
  | ptpKeepTimeout
  /-- REQUAL (R343). REF.CMD.REQUAL restarts qualification of every candidate. -/
  | requal
  /-- LRN_CLR (R351). REF.CMD.LRN_CLR empties the learn table. -/
  | lrnClr
  /-- LRN_DATA_READ (R351). A read of REF.LRN_DATA returns the bin mean and advances LRN_IDX. -/
  | lrnDataRead (m : Master)
  /-- LODESTAR_MEASUREMENT (R342). Once per second each present candidate is measured and judged for violations, qualification and disqualification. -/
  | lodestarMeasurement (y : List (Refin × Int)) (pll : Int)
  /-- WAIT_TO_RESTORE (R344). With REVERT = 1, a higher-priority candidate qualified for WTR seconds takes over. -/
  | waitToRestore (n : Cand)
  /-- REFERENCE_SELECTION (R344). Within 1 ms of a change, the selection is re-evaluated and a change steps SYSCLK phase and raises SEL_CHG. -/
  | referenceSelection
  /-- L1_LOCK (R346). A PLL phase error within 10 ns for 1 s sets L1_LOCK. -/
  | l1Lock
  /-- HIST_OK (R349). HIST seconds of uninterrupted LOCK set HIST_OK. -/
  | histOk
  /-- HOLD_EXPIRE (R348). HOLD_MAX hours in HOLD take Lodestar to FREE. -/
  | holdExpire
  /-- HOLDOVER_MODEL_UPDATE (R350). Once per second the holdover prediction M is computed from temperature and ageing. -/
  | holdoverModelUpdate (temp : BitVec 16)
  /-- LEARN_RECORD (R351). Once per minute in LOCK the observed oscillator offset is recorded in its temperature bin. -/
  | learnRecord
  /-- AGE_DAY (R350). AGE_DAYS rises by 1 every 86,400 s of ACLK. -/
  | ageDay
  /-- CONSORT_ENABLE (R360). A write of CON.CTL.EN starts pairing, or its fall leads to OFF within 64 cc. -/
  | consortEnable (en : Bool)
  /-- HEARTBEAT_TX (R358). Every 10 µs Consort hardware forms a HEARTBEAT unit. -/
  | heartbeatTx
  /-- CONSORT_UNIT_TX (R356). At each data index of group 36 one waiting unit is sent in priority order, or IDLE. -/
  | consortUnitTx
  /-- HEARTBEAT_RX (R359). A valid heartbeat updates pairing, partner status and the twin time offset, and is judged for demotion and dual activity. -/
  | heartbeatRx (bytes : List Byte) (t4 : Nat)
  /-- TWIN_TIME_SAMPLE (R359). Every TIME_SMP ms the Consort agent delivers the mean twin offset to the servo. -/
  | twinTimeSample
  /-- PAIR_TIMEOUT (R360). No valid heartbeat for PAIR_TMO scaled by TWIN_ID makes a device in PAIR ACTIVE, or raises LINK_FAULT. -/
  | pairTimeout (pulled healthy : Bool)
  /-- PARTNER_LOSS (R362). 40 µs without a valid heartbeat, or the twin link down with the partner unhealthy, loses the partner or raises LINK_FAULT. -/
  | partnerLoss (pulled healthy : Bool)
  /-- CTRL_TIMEOUT (R363). Heartbeats carrying CTRL = 0 for CTRL_TMO, or CTRL = 2 for RST_TMO, take a STANDBY device to TAKEOVER. -/
  | ctrlTimeout
  /-- HANDOVER_COMPLETE (R372). At the handover completion instant H the state becomes ACTIVE. -/
  | handoverComplete
  /-- FORCE_ACTIVE (R363). CON.CMD.FORCE_ACTIVE enters TAKEOVER from PAIR, JOIN or STANDBY. -/
  | forceActive
  /-- JOIN (R371). CON.CMD.JOIN in STANDBY copies COPY.REGIONS again. -/
  | join
  /-- YIELD (R373). CON.CMD.YIELD on an ACTIVE device with a ready STANDBY partner sends a YIELD unit with instant Y. -/
  | yieldCmd
  /-- YIELD_INSTANT (R373). At Y the partner enters TAKEOVER and the yielding device enters STANDBY. -/
  | yieldInstant
  /-- YIELD_ROLE_SWITCH (R373). At Y + 10 µs the yielding device sends STANDBY in the role words of groups 0–35. -/
  | yieldRoleSwitch
  /-- YIELD_RX (R373). A received YIELD unit schedules the standby's entry into TAKEOVER at Y. -/
  | yieldRx (bytes : List Byte)
  /-- CON_CNT_CLR (R377). CON.CMD.CNT_CLR clears the six CON counters. -/
  | conCntClr
  /-- JOURNAL_RX (R364). A standby applies each received journal record as an entry accepted at the active's time. -/
  | journalRx (bytes : List Byte)
  /-- DIGEST_SEND (R367). An ACTIVE device sends every unit digest within 100 µs of the last frame it covers. -/
  | digestSend (u : DigUnit) (c : Cad) (k : Int)
  /-- DIGEST_RX (R367). A STANDBY compares a received digest with its own and counts mismatches. -/
  | digestRx (bytes : List Byte)
  /-- DIGEST_TIMEOUT (R367). A digest without a counterpart within 2 frame periods counts as a mismatch. -/
  | digestTimeout (u : DigUnit) (c : Cad) (k : Word)
  /-- REQ_RX (R370). The active takes a snapshot of the requested region and sends it in STATE units followed by SNAP. -/
  | reqRx (bytes img : List Byte)
  /-- STATE_RX (R370). A STATE unit writes region data into the standby's shadow. -/
  | stateRx (bytes : List Byte)
  /-- SNAP_RX (R370). A SNAP unit makes the standby check the shadow and commit it, or request it again. -/
  | snapRx (bytes : List Byte)
  /-- REGION_COMMIT (R370). The Consort agent commits a complete region shadow, applies held journal records and sets REG_DONE. -/
  | regionCommit (writes : List (Nat × Word))
  /-- ABORT_RX (R371). An ABORT discards the uncommitted region shadow and the standby goes to STANDBY with READY = 0. -/
  | abortRx (bytes : List Byte)
  /-- FAULT_RECORD (R387). A rise of a fault source's condition is recorded with its effective severity and takes that severity's actions. -/
  | faultRecord (rise pulse fall : List FaultAt)
  /-- SRC_ACK (R387). FLT.SRC_CMD.ACK acknowledges the selected source's record. -/
  | srcAck (src : Src)
  /-- SRC_CLR (R387). FLT.SRC_CMD.CLR removes a record whose condition has gone, or is refused with CLR_REFUSED. -/
  | srcClr (src : Src)
  /-- SRC_INJ (R389). FLT.SRC_CMD.INJ makes the checker's next check use inverted check bits once. -/
  | srcInj (src : Src)
  /-- SRC_FORCE (R389). A write of FLT.SRC_CMD.FORCE sets or removes the forced condition of a source without a checker. -/
  | srcForce (src : Src) (v : Bool)
  /-- INJ_STUCK (R389). An injection not consumed within 100 ms is cancelled and raises INJ_STUCK. -/
  | injStuck (src : Src)
  /-- LOG_CLR (R391). FLT.CMD.LOG_CLR empties the first-fault log. -/
  | logClr
  /-- ACK_ALL (R387). FLT.CMD.ACK_ALL acknowledges every record. -/
  | ackAll
  /-- FLT_CNT_CLR (R399). FLT.CMD.CNT_CLR clears every SRC_CNT. -/
  | fltCntClr
  /-- LOG_DATA_READ (R399). A read of FLT.LOG_DATA_7 advances LOG_IDX by 1. -/
  | logDataRead (m : Master)
  /-- SP_SAFE_IDLE (R382). A side-port write of SP_CTL.SAFE_IDLE forces or releases safe-idle. -/
  | spSafeIdle (v : Bool)
  /-- DEV_RESET (R388). A side-port write of SP_CTL.DEV_RESET resets the device, unless a HALT source's condition is present. -/
  | devReset
  /-- WDOG_KICK (R392). A write to FLT.WDOG_KICK advances, completes or breaks the kick sequence. -/
  | wdogKick (v : Word)
  /-- WATCHDOG_EXPIRY (R392). TMO × 10 ms without a kick resets and restarts the control side, or holds it at MAX_RST. -/
  | watchdogExpiry (writing : Bool)
  /-- THERMAL_SAMPLE (R394). Every 1 ms the sensors are sampled, Tj is formed and the shedding ladder is evaluated. -/
  | thermalSample (ts : List (BitVec 12))
  /-- THERMAL_TRIP (R396). The analogue comparator, or the digital rule at 120 °C, trips the device to safe-idle and HALT. -/
  | thermalTrip
  /-- SHED_STEP_TIMER (R395). Every SHED_STEP seconds the shed threshold H rises or falls by 1. -/
  | shedStepTimer
  /-- SIDE_PORT_WRITE (R397). An I2C write transaction writes each complete 4-byte group to FLT registers. -/
  | sidePortWrite (off : BitVec 16) (data : List Byte)
  /-- SIDE_PORT_READ (R397). An I2C read transaction returns FLT registers from the given offset. -/
  | sidePortRead (off : BitVec 16) (regs : Nat)
  /-- AON_POWER_UP (R378). The always-on rail rising resets the always-on domain and every register. -/
  | aonPowerUp
  /-- DEVICE_RESET_ASSERT (R400). RST_N low puts the device in reset with transmitters idle and HEALTHY low. -/
  | deviceResetAssert
  /-- POWER_GOOD_FALL (R400). A power-good input falling causes a device reset at once. -/
  | powerGoodFall (k : Fin 4)
  /-- DEVICE_RESET_RELEASE (R400). RST_N rising with every power-good high ends device reset, samples straps and starts the boot ROM. -/
  | deviceResetRelease (pg : BitVec 4) (bootSrc twinId nvmOwn : Bool)
  /-- NVM_OWN_CHANGE (R412). A change of NVM_OWN releases or retakes the xSPI bus and raises OWN_CHG. -/
  | nvmOwnChange (level writing : Bool) (card : List (Nat × List Byte))
  /-- SECTOR_WRITE_DONE (R412). An NVM sector write that has begun completes, then the bus is released or a reset proceeds. -/
  | sectorWriteDone (w : NvmWrite)
  /-- BOOT_HEADER_SELECT (R411). The boot ROM reads both boot headers, selects one and loads the key slots. -/
  | bootHeaderSelect
  /-- FIRMWARE_VERIFY_DONE (R403). The firmware image is read and verified, and firmware starts or the boot ROM halts. -/
  | firmwareVerifyDone
  /-- HBM_TRAINING_DONE (R403). Both HBM3E stacks finish training and READY rises, or HBM_FAIL is raised. -/
  | hbmTrainingDone (failed : BitVec 2)
  /-- CALIBRATION_APPLY (R421). Firmware applies USER_CAL, FACTORY_CAL with CAL_FALLBACK, or none with CAL_NONE. -/
  | calibrationApply (mv : Nat)
  /-- CHART_PHASE_A (R417). The Chart is verified and its phase A records are applied, ending with CHART_DONE. -/
  | chartPhaseA (n : Nat)
  /-- CHART_WRITE (R416). A WRITE record writes one register. -/
  | chartWrite
  /-- CHART_WRITE_SEQ (R416). A WRITE_SEQ record writes values to consecutive offsets. -/
  | chartWriteSeq
  /-- CHART_WRITE_FIFO (R416). A WRITE_FIFO record writes all its values to one offset. -/
  | chartWriteFifo
  /-- CHART_MODIFY (R416). A MODIFY record read-modify-writes a register under a mask. -/
  | chartModify
  /-- CHART_POLL (R417). A POLL record reads a register until it matches. -/
  | chartPoll
  /-- CHART_POLL_TIMEOUT (R417). A POLL with no match within TMO µs fails with POLL. -/
  | chartPollTimeout
  /-- CHART_WAIT (R416). A WAIT record waits the given µs before the next record. -/
  | chartWait
  /-- CHART_STORE (R416). A STORE record writes data to the frame store. -/
  | chartStore
  /-- CHART_PHASE (R417). A PHASE record ends phase A. -/
  | chartPhase
  /-- CHART_TUNE (R416). A TUNE record passes tuning data to the lane-calibration cores or the port's calibration path. -/
  | chartTune
  /-- CHART_END (R416). An END record ends the Chart. -/
  | chartEnd
  /-- REF_WAIT_EXPIRY (R405). REF_WAIT expiring lets firmware apply phase B on its own time and set UNREF. -/
  | refWaitExpiry
  /-- PHASE_B (R417). NVM.CMD.PHASE_B applies Chart phase B, then RUNNING rises and the transmit gate opens. -/
  | phaseB (n : Nat)
  /-- RESTORE_FACTORY (R423). NVM.CMD.RESTORE_FACTORY starts copying FACTORY_CAL over USER_CAL, or is refused. -/
  | restoreFactory (writing : Bool)
  /-- RESTORE_COMPLETE (R423). The restore copy ends with RESTORE_DONE or RESTORE_FAIL. -/
  | restoreComplete (verified : Bool)
  /-- HOST_RESET (R428). A PCIe hot reset, link-down or FLR resets the host interface only. -/
  | hostReset (down : Bool)
  /-- BUS_CLR (R432). BUS.CMD.CLR clears both captures and counts. -/
  | busClr
  /-- EVENT_SOURCE_PENDING (R435). An event source becoming pending drives its vector, pins and ring as configured. -/
  | eventSourcePending (src : EvtSrc)
  /-- VEC_ACK (R436). A write to EVT.VEC_ACK re-arms vectors and sends a new message if a source still pends. -/
  | vecAck (k : Fin 2) (v : Word)
  /-- MSIX_UNMASK (R436). Unmasking a vector whose PBA bit is set sends the held message. -/
  | msixUnmask (v : Vec)
  /-- SOFT_SET (R439). EVT.SOFT with SET = 1 sets soft bit IDX. -/
  | softSet (idx : Fin 128)
  /-- SOFT_CLR (R439). EVT.SOFT with CLR = 1 clears soft bit IDX. -/
  | softClr (idx : Fin 128)
  /-- MAILBOX_GO (R441). MGT.MBX_DB.GO submits a register-mode request and sets BUSY, or raises MBX_BUSY. -/
  | mailboxGo (m : Master)
  /-- MAILBOX_RING_REQUEST (R442). Firmware consumes a request from the mailbox request ring. -/
  | mailboxRingRequest (bytes : List Byte)
  /-- MAILBOX_RESPONSE (R441). Firmware writes the response, BUSY falls and MBX_DONE is raised. -/
  | mailboxResponse
  /-- GET_INFO (R443). Mailbox GET_INFO returns the firmware version, generation and boot step. -/
  | getInfo
  /-- ECHO (R443). Mailbox ECHO returns the same bytes. -/
  | echo
  /-- BOOT_LOAD (R443). Mailbox BOOT_LOAD loads firmware or Chart from host memory during a host boot. -/
  | bootLoad (data : Option (List Byte))
  /-- BOOT_START (R443). Mailbox BOOT_START runs the start sequence from step 4 on the loaded images. -/
  | bootStart
  /-- STAGE_WRITE (R462). Mailbox STAGE_WRITE restarts, appends or repeats a staging block. -/
  | stageWrite (data : Option (List Byte))
  /-- STAGE_VERIFY (R463). Mailbox STAGE_VERIFY verifies the staged image and moves staging to VERIFIED. -/
  | stageVerify
  /-- ACTIVATE (R464). Mailbox ACTIVATE schedules activation of the verified image at instant I. -/
  | activate
  /-- ACTIVATE_CANCEL (R464). Mailbox ACTIVATE_CANCEL returns a scheduled activation to VERIFIED. -/
  | activateCancel
  /-- KEY_REPLACE (R454). Mailbox KEY_REPLACE checks a key package and rewrites the key copy, or refuses it. -/
  | keyReplace (pkg : Option (List Byte)) (writing readBack : Bool)
  /-- NVM_READ (R443). Mailbox NVM_READ copies an NVM range to host memory, except the key regions. -/
  | nvmRead
  /-- ACTIVATION_INSTANT (R465). At instant I the activation begins: a firmware image restarts the control side and a Chart image is copied. -/
  | activationInstant (writing : Bool)
  /-- ACTIVATION_COMPLETE (R465). The image copy completes, ACT_DONE is raised and staging returns to LOADING. -/
  | activationComplete (ok : Bool)
  /-- DEBUG_REQUEST (R457). A write of KEY.DBG_CTL.REQ requests debug mode from the next device reset. -/
  | debugRequest
  /-- DEBUG_CLEAR (R457). KEY.DBG_CTL.CLR clears the debug request. -/
  | debugClear
  /-- DMA_DESCRIPTOR (R445). The DMA engine consumes a descriptor and moves data between host memory and the frame store. -/
  | dmaDescriptor (elem : List Byte) (data : Option (List Byte))
  /-- DMA_COMPLETE (R446). A finished or failed descriptor writes its completion record and raises DMA_ERR on failure. -/
  | dmaComplete
  /-- CLOCK_MONITOR_WINDOW (R473). Each 10 µs window checks every running clock against ACLK and raises CLK_MON or SYSCLK_LOSS. -/
  | clockMonitorWindow (bad : List Clock) (sysStopped : Bool)
  /-- PCLK_LOCK (R475). The PCLK PLL locks and PCLK_ON rises. -/
  | pclkLock
  /-- PCLK_IDLE_TIMEOUT (R475). 10 ms after the last engine stops, the PCLK PLL stops. -/
  | pclkIdleTimeout
  /-- CROSSING_SIDE_RESET (R480). One side of a crossing entering reset makes the other side discard in-flight pulses, mark it absent and count losses. -/
  | crossingSideReset (x : Fin 26) (unit : Nat) (orderly : Bool) (lost : Nat)
  /-- CROSSING_RESTART (R482). Both sides out of reset complete the READY handshake and the crossing restarts from zero. -/
  | crossingRestart (x : Fin 26) (unit : Nat)
  /-- XING_CNT_CLR (R484). GLB.XING_CMD.CNT_CLR clears XING_LOST and XING_LAST. -/
  | xingCntClr
  /-- CLR_ALL (R486). LOG.CMD.CLR_ALL sets every counter to 0 in one cc. -/
  | clrAll
  /-- SNAPSHOT (R489). LOG.CMD.SNAPSHOT copies every counter and the time into the snapshot bank. -/
  | snapshot
  /-- PEAK_CLR (R487). LOG.CMD.PEAK_CLR sets every PEAK to 0. -/
  | peakClr
  /-- FREEZE (R488). A write of LOG.CTL.FREEZE freezes or resumes every counter and monitor. -/
  | freeze (v : Bool)
  /-- BW_WINDOW_END (R487). At each window end every monitor copies LAST, updates PEAK and restarts. -/
  | bwWindowEnd
  /-- PCIE_LINK_UP (R426). The PCIe link completes training and becomes active, setting HIF.STAT.LINK_UP, SPEED and WIDTH. -/
  | pcieLinkUp (speed width : Fin 8)
  /-- ALWAYS_ON_RAIL_LOSS (R512). VDD_AON falls while the other rails hold; a monitor on VDD_CORE holds device reset and the device behaves as unpowered. -/
  | alwaysOnRailLoss
  deriving DecidableEq, Repr

end Sys2Proof
end

