-- ==== Sys2Proof/Config.lean ====
section
/-!
DEFINITION. Sys2Proof/Config.lean: what one device fixes, and the free values: constants without a body, of which nothing
can be proved. A claim about them holds whatever they are.
-/

namespace Sys2Proof.Config

/-- The device-unique number, low and high word (Table 21.3: per device). -/
opaque uidLo : Word
opaque uidHi : Word

/-- The device-unique key, 32 bytes, which never leaves the die (Table 18.2). -/
opaque deviceKey : List Byte

/-- The fingerprints of the production root and of the test root that the die holds, 32 bytes each (R449, R457). -/
opaque prodRoot : List Byte
opaque testRoot : List Byte

/-- The firmware version that GET_INFO returns (Table 17.6): the layout of a firmware payload is not described. -/
opaque fwVersion : List Byte → Nat

/-- The generation of the first sector of the fault log that a device writes (R414): the spec gives no first number (log 107). -/
opaque logGeneration : Nat

/-- The n-th free value drawn: a value the spec leaves open (log 2). -/
opaque freeValue : Nat → Nat

/-- What a copy of FACTORY_CAL that does not verify has left in USER_CAL (R423), at the n-th free value drawn (log 29). -/
opaque unverifiedCopy : Nat → List Byte

/-- The HBM pseudo-channel of a 256-byte block of the store, modulo 64: a fixed hash that the spec does not give (R218). -/
opaque hbmChannel : Nat → Nat

/-- A sample that a Plotter layer takes from a feed beyond what the feed delivers (R258): the spec gives no value. -/
opaque unseenSample : Nat → Nat → BitVec 10

/-- Does a payload ID name square division, rather than two-sample interleave (R102)? The spec names the reader, not the place of the
division in the four bytes (DESIGN CHOICE, log 44). -/
opaque pidSquare : Word → Bool

end Sys2Proof.Config
end

