-- ==== Sys2Proof/Machine/Bits.lean ====
section
/-!
DEFINITION. Sys2Proof/Machine/Bits.lean: bit fields of words, two's complement, saturation, byte order, and the
cyclic redundancy checks the spec names (CRC-16 of R52, CRC-32 of IEEE 802.3, the line CRC of the slot format).
-/

namespace Sys2Proof.Machine

/-- The field of `n` bits at bit `lo`, as a number. -/
def bitsOf (r : Word) (lo n : Nat) : Nat := (r.toNat >>> lo) % 2 ^ n

/-- The word with the field of `n` bits at bit `lo` set to `v` modulo 2^n. -/
def putBits (r : Word) (lo n v : Nat) : Word :=
  BitVec.ofNat 32 (r.toNat - (r.toNat >>> lo) % 2 ^ n * 2 ^ lo + v % 2 ^ n * 2 ^ lo)

/-- A number of `n` bits read as two's complement. -/
def toSigned (n v : Nat) : Int :=
  let u := v % 2 ^ n
  if u < 2 ^ (n - 1) then (u : Int) else (u : Int) - (2 ^ n : Nat)

/-- The two's complement code of `n` bits of an integer. -/
def ofSigned (n : Nat) (v : Int) : Nat := (v % (2 ^ n : Nat)).toNat

/-- Saturation to the range of `n`-bit two's complement. -/
def satSigned (n : Nat) (v : Int) : Int :=
  let hi : Int := (2 ^ (n - 1) : Nat) - 1
  let lo : Int := - (2 ^ (n - 1) : Nat)
  if v > hi then hi else if v < lo then lo else v

/-- Clamp to 0 .. hi. -/
def clampNat (hi : Nat) (v : Int) : Nat := if v < 0 then 0 else min hi v.toNat

/-- The number a list of bytes spells, least significant byte first (little-endian). -/
def leNat : List Byte → Nat
  | [] => 0
  | b :: bs => b.toNat + 256 * leNat bs

/-- The number a list of bytes spells, most significant byte first (network order). -/
def beNat (bs : List Byte) : Nat := bs.foldl (fun n b => n * 256 + b.toNat) 0

/-- The `k` low bytes of a number, least significant byte first. -/
def leBytes : Nat → Nat → List Byte
  | 0, _ => []
  | k + 1, n => BitVec.ofNat 8 n :: leBytes k (n / 256)

/-- The `k` low bytes of a number, most significant byte first. -/
def beBytes (k n : Nat) : List Byte := (leBytes k n).reverse

/-- Bit `i` of a number. -/
def bit (n i : Nat) : Bool := n.testBit i

/-- A list with an element put behind those that are not after it. -/
def insertBy {α : Type} (before : α → α → Bool) (x : α) : List α → List α
  | [] => [x]
  | y :: l => if before x y then x :: y :: l else y :: insertBy before x l

/-- A list in an order; equals keep their order. -/
def sortBy {α : Type} (before : α → α → Bool) (l : List α) : List α := l.foldl (fun s x => insertBy before x s) []

/-- One or zero. -/
def b2n (b : Bool) : Nat := if b then 1 else 0

/-- The bits of a number from bit `k - 1` down to bit 0 (most significant first). -/
def msbBits : Nat → Nat → List Bool
  | 0, _ => []
  | k + 1, n => n.testBit k :: msbBits k n

/-- The bits of a number from bit 0 up to bit `k - 1` (least significant first). -/
def lsbBits (k n : Nat) : List Bool := (msbBits k n).reverse

/-- A CRC of `n` bits with polynomial `poly` (without its top term), shifted left, over bits in transmission
order. -/
def crcMsb (n poly : Nat) : Nat → List Bool → Nat
  | c, [] => c
  | c, b :: bs =>
    let top := c.testBit (n - 1) != b
    let c' := (c * 2) % 2 ^ n
    crcMsb n poly (if top then c' ^^^ poly else c') bs

/-- A CRC of `n` bits with reflected polynomial `poly`, shifted right, over bits in transmission order. -/
def crcLsb (poly : Nat) : Nat → List Bool → Nat
  | c, [] => c
  | c, b :: bs =>
    let top := c.testBit 0 != b
    let c' := c / 2
    crcLsb poly (if top then c' ^^^ poly else c') bs

/-- More bytes go into the register of the IEEE 802.3 CRC-32 (reflected). -/
def crc32More (c : Nat) (bs : List Byte) : Nat := crcLsb 0xEDB88320 c (bs.flatMap fun b => lsbBits 8 b.toNat)

/-- The IEEE 802.3 CRC-32 of a list of bytes (initial and final value all ones). -/
def crc32 (bs : List Byte) : Nat := crc32More 0xFFFFFFFF bs ^^^ 0xFFFFFFFF

end Sys2Proof.Machine
end

