-- ==== Sys2Proof/Machine/Formats.lean ====
section
/-!
DEFINITION. Sys2Proof/Machine/Formats.lean: the interface formats (R81, Table 3.2), the valid-word cadence (R85,
Table 3.3), the cadence rates (R330, Table 12.2), the switch lines (R140, Table 5.3) and the unit in which instants are
computed exactly.
-/

namespace Sys2Proof.Machine

/-- An interface format: streams S, interface words per line, lines, the interface frame rate `num / den` in frames per
second, and whether the format is interlaced (level B dual-link formats are switched as interlaced ones, Table 5.3). -/
structure Fmt where
  s : Nat
  wpl : Nat
  lines : Nat
  num : Nat
  den : Nat
  interlaced : Bool
  deriving DecidableEq, Repr

/-- Table 3.2; a code the table does not list, and 0x00, has no format (R82). -/
def fmtOf (code : Nat) : Option Fmt :=
  match code with
  | 0x01 => some ⟨2, 3960, 750, 50, 1, false⟩
  | 0x02 => some ⟨2, 3300, 750, 60000, 1001, false⟩
  | 0x03 => some ⟨2, 3300, 750, 60, 1, false⟩
  | 0x04 => some ⟨2, 5280, 1125, 25, 1, true⟩
  | 0x05 => some ⟨2, 4400, 1125, 30000, 1001, true⟩
  | 0x06 => some ⟨2, 4400, 1125, 30, 1, true⟩
  | 0x07 => some ⟨2, 5500, 1125, 24000, 1001, false⟩
  | 0x08 => some ⟨2, 5500, 1125, 24, 1, false⟩
  | 0x09 => some ⟨2, 5280, 1125, 25, 1, false⟩
  | 0x0A => some ⟨2, 4400, 1125, 30000, 1001, false⟩
  | 0x0B => some ⟨2, 4400, 1125, 30, 1, false⟩
  | 0x10 => some ⟨2, 5280, 1125, 50, 1, false⟩
  | 0x11 => some ⟨2, 4400, 1125, 60000, 1001, false⟩
  | 0x12 => some ⟨2, 4400, 1125, 60, 1, false⟩
  | 0x13 => some ⟨4, 10560, 1125, 25, 1, true⟩
  | 0x14 => some ⟨4, 8800, 1125, 30000, 1001, true⟩
  | 0x18 => some ⟨8, 21120, 1125, 25, 1, false⟩
  | 0x19 => some ⟨8, 17600, 1125, 30000, 1001, false⟩
  | 0x1A => some ⟨8, 17600, 1125, 30, 1, false⟩
  | 0x20 => some ⟨8, 21120, 1125, 50, 1, false⟩
  | 0x21 => some ⟨8, 17600, 1125, 60000, 1001, false⟩
  | 0x22 => some ⟨8, 17600, 1125, 60, 1, false⟩
  | _ => none

/-- The codes of Table 3.2 that name a format. -/
def fmtCodes : List Nat :=
  [0x01, 0x02, 0x03, 0x04, 0x05, 0x06, 0x07, 0x08, 0x09, 0x0A, 0x0B, 0x10, 0x11, 0x12, 0x13, 0x14,
   0x18, 0x19, 0x1A, 0x20, 0x21, 0x22]

/-- Does the code name a format of Table 3.2? A reserved code acts as 0x00 (R82). -/
def fmtValid (code : Nat) : Bool := (fmtOf code).isSome

/-- The accumulator constants N and D of a format (Table 3.3). -/
def accConst (code : Nat) : Nat × Nat :=
  match fmtOf code with
  | none => (0, 1)
  | some f =>
    let frac := f.den == 1001
    if code < 0x10 then (if frac then (495, 4004) else (99, 800))
    else if code < 0x18 then (if frac then (495, 2002) else (99, 400))
    else if code < 0x20 then (if frac then (495, 1001) else (99, 200))
    else (if frac then (990, 1001) else (99, 100))

/-- One slot word of a generator: the V bit and the accumulator after it (R85). -/
def accStep (n d acc : Nat) : Bool × Nat :=
  if acc + n ≥ d then (true, acc + n - d) else (false, acc + n)

/-- The slot words a generator spends on `k` further V = 1 words, and the accumulator after them: the steps of R85
taken together. -/
def accRun (n d acc k : Nat) : Nat × Nat :=
  let words := (k * d - acc + (n - 1)) / n
  ⟨words, acc + words * n - k * d⟩

/-- The V = 1 words of line `i` of a raster of `wpl` interface words per line, three words in each (R79). -/
def lineWords (wpl i : Nat) : Nat := (i + 1) * wpl / 3 - i * wpl / 3

/-- A cadence rate N/D (Table 12.2). -/
def rateOf (code : Nat) : Nat × Nat :=
  match code with
  | 0 => (50, 1)
  | 1 => (60000, 1001)
  | 2 => (60, 1)
  | 3 => (25, 1)
  | 4 => (30000, 1001)
  | 5 => (30, 1)
  | 6 => (24000, 1001)
  | _ => (24, 1)

/-- Are two rates equal? -/
def sameRate (a b : Nat × Nat) : Bool := a.1 * b.2 == b.1 * a.2

/-- The unit of exact instants: 1 ns is this many units, so that every cadence period, every line period and every value
of the time counter is a whole number of units. -/
def tuPerNs : Nat := 6750 * 2 ^ 40

/-- Nanoseconds as units. -/
def nsTu (n : Int) : Int := n * tuPerNs

/-- The frame period of a rate, in units. -/
def periodTu (r : Nat × Nat) : Nat := r.2 * 1000000000 * tuPerNs / r.1

/-- The line period of a format, in units. -/
def lineTu (f : Fmt) : Nat := periodTu (f.num, f.den) / f.lines

/-- The frame start F(k) of a cadence with a rate and a signed offset in ns (R330), in units of cadence time; the offset
is taken modulo the period. -/
def frameTu (r : Nat × Nat) (ofsNs : Int) (k : Int) : Int :=
  k * periodTu r + nsTu ofsNs % periodTu r

/-- The smallest k whose frame start plus `d` is at or after the instant `x`, all in units. -/
def firstFrame (r : Nat × Nat) (ofsNs : Int) (d x : Int) : Int :=
  let p : Int := periodTu r
  let y := x - d - nsTu ofsNs % p
  Neg.neg ((Neg.neg y) / p)

/-- The switch line of a format (Table 5.3): 7, or 569 for a FIELD2 take on an interlaced format (R137). -/
def switchLine (f : Fmt) (field2 : Bool) : Nat := if f.interlaced && field2 then 569 else 7

end Sys2Proof.Machine
end

