-- ==== Sys2Proof/Machine/Maps.lean ====
section
/-!
DEFINITION. Sys2Proof/Machine/Maps.lean: sparse data in one canonical form. A `Map` lists (key, value) pairs with keys
strictly rising and lists no value equal to what an unlisted key reads as; a `Memory` is the same over bytes. Equal maps
are equal lists.
-/

namespace Sys2Proof.Machine

/-- A key: a register's offset and the instance it belongs to, or any other pair of numbers. -/
abbrev Key := Nat × Nat

/-- The order of keys. -/
def keyLt (a b : Key) : Bool := a.1 < b.1 || (a.1 == b.1 && a.2 < b.2)

/-- A sparse map from keys to values. -/
abbrev Map (α : Type) := List (Key × α)

/-- The listed value of a key. -/
def mapFind {α : Type} (k : Key) : Map α → Option α
  | [] => none
  | e :: m => if e.1 = k then some e.2 else mapFind k m

/-- The value of a key: the listed one, or what an unlisted key reads as. -/
def mapGet {α : Type} (m : Map α) (k : Key) (dflt : α) : α := (mapFind k m).getD dflt

/-- The map without a key. -/
def mapDel {α : Type} (k : Key) : Map α → Map α
  | [] => []
  | e :: m => if e.1 = k then mapDel k m else e :: mapDel k m

/-- The map with a key's value listed, in key order. -/
def mapIns {α : Type} (k : Key) (v : α) : Map α → Map α
  | [] => [(k, v)]
  | e :: m => if e.1 = k then (k, v) :: m else if keyLt k e.1 then (k, v) :: e :: m else e :: mapIns k v m

/-- The map with a value written: listed, or removed where it is what an unlisted key reads as. -/
def mapPut {α : Type} [DecidableEq α] (m : Map α) (k : Key) (dflt v : α) : Map α :=
  if v = dflt then mapDel k m else mapIns k v m

/-- The canonical form: keys strictly rising, no listed value equal to its default. -/
def mapWf {α : Type} [DecidableEq α] (dflt : Key → α) : Map α → Bool
  | [] => true
  | [e] => decide (e.2 ≠ dflt e.1)
  | e :: f :: m => decide (e.2 ≠ dflt e.1) && keyLt e.1 f.1 && mapWf dflt (f :: m)

/-- A memory: bytes by address, in the canonical form (no listed byte equal to what an unlisted address reads as). -/
abbrev Memory := List Host.Cell

/-- The byte at an address; `u` is what an unlisted address reads as. -/
def memRead (u : Byte) (a : Nat) : Memory → Byte
  | [] => u
  | c :: m => if c.1 = a then c.2 else memRead u a m

/-- The memory with one address unlisted. -/
def memDrop (a : Nat) : Memory → Memory
  | [] => []
  | c :: m => if c.1 = a then memDrop a m else c :: memDrop a m

/-- The memory with one byte listed, in address order. -/
def memList (a : Nat) (b : Byte) : Memory → Memory
  | [] => [(a, b)]
  | c :: m => if c.1 = a then (a, b) :: m else if a < c.1 then (a, b) :: c :: m else c :: memList a b m

/-- The memory with one byte written. -/
def memWrite (u : Byte) (m : Memory) (a : Nat) (b : Byte) : Memory :=
  if b = u then memDrop a m else memList a b m

/-- The memory with bytes written at rising addresses. -/
def memWrites (u : Byte) (m : Memory) (a : Nat) : List Byte → Memory
  | [] => m
  | b :: bs => memWrites u (memWrite u m a b) (a + 1) bs

/-- `n` bytes from an address on. -/
def memReads (u : Byte) (m : Memory) (a : Nat) : Nat → List Byte
  | 0 => []
  | n + 1 => memRead u a m :: memReads u m (a + 1) n

/-- The canonical form of a memory. -/
def memWf (u : Byte) : Memory → Bool
  | [] => true
  | [c] => c.2 != u
  | c :: d :: m => c.2 != u && decide (c.1 < d.1) && memWf u (d :: m)

end Sys2Proof.Machine
end

