-- ==== Sys2Proof/Machine/Raster.lean ====
section
/-!
DEFINITION. Sys2Proof/Machine/Raster.lean: slot words (R78 to R80), the timing reference signals, line numbers and line CRCs of
the interface formats (R83), ancillary packets, embedded audio (R106), the payload ID, the black raster (R88), and how a
generator fills slot words with a line (R85, R86).

The word order of the multiplexers, the places of the active samples and the packet layouts are those of the SMPTE standards that
R83, R88 and R106 name, and stand in no file of the spec (PRESUMED, log 84).
-/

namespace Sys2Proof.Machine

/-- A 10-bit word of an interface word stream (R78). -/
abbrev Samp := BitVec 10

/-! ## Slot words -/

/-- A slot word with V = 1 (Table 3.1). -/
def slotWord (a b c : Samp) (m : Bool) : Word :=
  BitVec.ofNat 32 (a.toNat + b.toNat * 2 ^ 10 + c.toNat * 2 ^ 20 + 2 ^ 30 + b2n m * 2 ^ 31)

/-- V and M of a slot word. -/
def wordV (w : Word) : Bool := w.getLsbD 30
def wordM (w : Word) : Bool := w.getLsbD 31

/-- The interface words a slot word carries: S0, S1, S2 with V = 1; of a V = 0 word nothing is read (R79). -/
def wordSamps (w : Word) : List Samp :=
  if wordV w then [w.extractLsb' 0 10, w.extractLsb' 10 10, w.extractLsb' 20 10] else []

/-- The interface word stream of slot words (R79). -/
def ifWords (ws : List Word) : List Samp := ws.flatMap wordSamps

/-- The V = 1 slot words carry other interface words in place of their own, as far as there are any; V and M stay. -/
def refill : List Word → List Samp → List Word
  | w :: ws, a :: b :: c :: ss => if wordV w then slotWord a b c (wordM w) :: refill ws ss else w :: refill ws (a :: b :: c :: ss)
  | ws, _ => ws

/-- The slot words from the one that carries interface word `i` on, and how many interface words of that one precede it. -/
def dropTo : List Word → Nat → List Word × Nat
  | [], i => ([], i)
  | w :: ws, i => if wordV w then (if i < 3 then (w :: ws, i) else dropTo ws (i - 3)) else dropTo ws i

/-- The slot words before the one that carries interface word `i`. -/
def takeTo (ws : List Word) (i : Nat) : List Word := ws.take (ws.length - (dropTo ws i).1.length)

/-- Does a run of slot words conform to a rate N/D (R87): within 200 ppm and two words? -/
def conformRun (n d : Nat) (ws : List Word) : Bool :=
  let v : Int := (ws.countP wordV : Nat)
  let q : Int := (ws.length * n : Nat)
  decide ((v * d - q).natAbs * 1000000 ≤ 200 * ws.length * n + 2000000 * d)

/-- Does a slot stream conform: over every run of consecutive slot words (R87)? -/
def conforms (n d : Nat) (ws : List Word) : Bool :=
  (List.range ws.length).all fun i => (List.range (ws.length - i)).all fun k => conformRun n d ((ws.drop i).take (k + 1))

/-! ## Timing reference signals, line numbers, CRCs -/

/-- XYZ with its protection bits (ST 274, ST 296): 1 F V H P3 P2 P1 P0 0 0. -/
def xyz (f v h : Bool) : Samp :=
  BitVec.ofNat 10 (512 + 256 * b2n f + 128 * b2n v + 64 * b2n h + 32 * b2n (v != h) + 16 * b2n (f != h) + 8 * b2n (f != v) +
    4 * b2n ((f != v) != h))

/-- F, V and H of an XYZ that passes its protection check. -/
def xyzRead (w : Samp) : Option (Bool × Bool × Bool) :=
  let f := w.getLsbD 8
  let v := w.getLsbD 7
  let h := w.getLsbD 6
  if w = xyz f v h then some (f, v, h) else none

/-- The words at the head are a preamble of S streams and its XYZ words (R83). -/
def trsAt (s : Nat) (ws : List Samp) : Bool :=
  ((ws.take s).all (· == 0x3FF)) && (((ws.drop s).take (2 * s)).all (· == 0)) && decide (4 * s ≤ ws.length) &&
    (let x := ws.getD (3 * s) 0
     (((ws.drop (3 * s)).take s).all (· == x)) && (xyzRead x).isSome)

/-- An EAV at the head: its streams S, F and V. -/
def eavAt (ws : List Samp) : Option (Nat × Bool × Bool) :=
  match [8, 4, 2].find? (trsAt · ws) with
  | none => none
  | some s =>
    match xyzRead (ws.getD (3 * s) 0) with
    | some (f, v, true) => some (s, f, v)
    | _ => none

/-- The first EAV at or after the head whose first word the predicate on positions admits: its position, S, F and V. -/
def findEav (p : Nat → Bool) : Nat → List Samp → Option (Nat × Nat × Bool × Bool)
  | _, [] => none
  | i, w :: ws =>
    if w == 0x3FF && p i then
      match eavAt (w :: ws) with
      | some (s, f, v) => some (i, s, f, v)
      | none => findEav p (i + 1) ws
    else findEav p (i + 1) ws

/-- M of the slot word that carries interface word `i`. -/
def mAt (ws : List Word) (i : Nat) : Bool :=
  match ((dropTo ws i).1).head? with
  | some w => wordM w
  | none => false

/-- How many of the first `n` slot words have an M bit that disagrees with the EAVs that begin in them (R99); `k` interface words
precede the first of them in the stream `ss`. -/
def mErrs (ss : List Samp) : Nat → List Word → Nat
  | _, [] => 0
  | k, w :: ws =>
    if wordV w then
      let here := [0, 1, 2].any fun i => (eavAt (ss.drop (k + i))).isSome
      b2n (here != wordM w) + mErrs ss (k + 3) ws
    else mErrs ss k ws

/-- LN words of a line number (ST 292-1). -/
def lnWords (n : Nat) : List Samp :=
  [BitVec.ofNat 10 (n % 128 * 4 + (if n % 128 < 64 then 512 else 0)), BitVec.ofNat 10 (512 + n / 128 % 16 * 4)]

/-- The line number of two LN words. -/
def lnRead (a b : Samp) : Nat := a.toNat / 4 % 128 + b.toNat / 4 % 16 * 128

/-- One bit of the line CRC x^18 + x^5 + x^4 + 1, least significant bit first. -/
def crcBit (c : Nat) : Nat := if c % 2 = 1 then (c / 2) ^^^ 0x23000 else c / 2

/-- The line CRC over the words of one stream (ST 292-1). -/
def lineCrc (c : Nat) (ws : List Samp) : Nat :=
  ws.foldl (fun c w => (List.range 10).foldl (fun c _ => crcBit c) (c ^^^ w.toNat)) c

/-- A 9-bit value with bit 9 the complement of bit 8. -/
def comp9 (v : Nat) : Samp := BitVec.ofNat 10 (v % 512 + (if v % 512 < 256 then 512 else 0))

/-- The two CRC words. -/
def crcWords (c : Nat) : List Samp := [comp9 c, comp9 (c / 512)]

/-! ## Streams of a line -/

/-- Every S-th word, from word k on. -/
def everyNth (s : Nat) : Nat → List Samp → List Samp
  | _, [] => []
  | 0, w :: ws => w :: everyNth s (s - 1) ws
  | k + 1, _ :: ws => everyNth s k ws

/-- The S data streams of interleaved words. -/
def deinterleave (s : Nat) (ws : List Samp) : List (List Samp) := (List.range s).map fun k => everyNth s k ws

/-- The interleave of data streams of one length (R83). -/
def interleave (ls : List (List Samp)) : List Samp :=
  (List.range ((ls.headD []).length)).flatMap fun i => ls.map fun l => l.getD i 0

/-- Is stream k of S a Y stream? The colour-difference streams come first. -/
def isY (s k : Nat) : Bool := decide (s / 2 ≤ k)

/-- The link or sub-image, from 1, of stream k of S. -/
def linkOf (s k : Nat) : Nat := if s = 8 then [4, 2, 3, 1].getD (k % 4) 1 else if s = 4 then 2 - k % 2 else 1

/-- The blanking level of stream k of S (R88). -/
def blank (s k : Nat) : Samp := if isY s k then 0x040 else 0x200

/-- Active words of a line of one stream, by the words per line of the stream. -/
def activeOf (w : Nat) : Nat := if w = 1980 || w = 1650 then 1280 else 1920

/-- Words per line of one stream of a format. -/
def Fmt.perStream (f : Fmt) : Nat := f.wpl / f.s

/-- Is line n in the second field (ST 274)? -/
def Fmt.field2 (f : Fmt) (n : Nat) : Bool := f.interlaced && decide (564 ≤ n)

/-- Does line n lie in vertical blanking (ST 274, ST 296)? -/
def Fmt.vBlank (f : Fmt) (n : Nat) : Bool :=
  if f.interlaced then !((decide (21 ≤ n) && decide (n ≤ 560)) || (decide (584 ≤ n) && decide (n ≤ 1123)))
  else if f.lines = 750 then !(decide (26 ≤ n) && decide (n ≤ 745))
  else !(decide (42 ≤ n) && decide (n ≤ 1121))

/-- The number of an active line within its field, from 0. -/
def Fmt.activeIdx (f : Fmt) (n : Nat) : Nat :=
  if f.interlaced then (if n ≥ 584 then n - 584 else n - 21) else if f.lines = 750 then n - 26 else n - 42

/-! ## Ancillary packets (ST 291-1) -/

/-- Bits 7 to 0 with even parity in bit 8 and its complement in bit 9. -/
def parWord (v : Nat) : Samp :=
  let p := ((List.range 8).countP (v.testBit ·)) % 2
  BitVec.ofNat 10 (v % 256 + p * 256 + (1 - p) * 512)

/-- The checksum over the words from DID on. -/
def csWord (ws : List Samp) : Samp := comp9 (ws.foldl (fun n w => (n + w.toNat % 512) % 512) 0)

/-- The words of a packet (ST 291-1), the checksum computed. -/
def pktWords (did sdid : Nat) (udw : List Samp) : List Samp :=
  let b := parWord did :: parWord sdid :: parWord udw.length :: udw
  [0, 0x3FF, 0x3FF] ++ b ++ [csWord b]

/-- The packets of a stretch of a stream: position and words. `k` words are skipped first; `i` is the position of the head. -/
def scanPkts : Nat → Nat → List Samp → List (Nat × List Samp)
  | _, _, [] => []
  | k + 1, i, _ :: ws => scanPkts k (i + 1) ws
  | 0, i, w :: ws =>
    let n := 7 + (ws.getD 4 0).toNat % 256
    if w == 0 && ws.getD 0 0 == 0x3FF && ws.getD 1 0 == 0x3FF && decide (n ≤ ws.length + 1) then
      (i, (w :: ws).take n) :: scanPkts (n - 1) (i + 1) ws
    else scanPkts 0 (i + 1) ws

/-- DID, SDID and user words of a packet, and whether its checksum is right. -/
def pktDid (p : List Samp) : Nat := (p.getD 3 0).toNat % 256
def pktSdid (p : List Samp) : Nat := (p.getD 4 0).toNat % 256
def pktUdw (p : List Samp) : List Samp := (p.drop 6).take (p.length - 7)
def pktOk (p : List Samp) : Bool := p.getLastD 0 == csWord ((p.drop 3).take (p.length - 4))

/-- An ancillary packet of a line (Table 3.6): where it stands, what it holds, and whether its checksum was wrong. -/
structure AncPkt where
  line : Nat
  hanc : Bool
  chroma : Bool
  did : Nat
  sdid : Nat
  csErr : Bool
  udw : List Samp
  deriving DecidableEq, Repr

/-- A packet read from its words. -/
def ancOf (line : Nat) (hanc chroma : Bool) (p : List Samp) : AncPkt :=
  ⟨line, hanc, chroma, pktDid p, pktSdid p, !pktOk p, pktUdw p⟩

/-- The horizontal blanking of a stream of a line, after EAV, LN and CRC and before SAV. -/
def hancOf (st : List Samp) : List Samp := (st.drop 8).take (st.length - activeOf st.length - 12)

/-- The active part of a stream of a line. -/
def actOf (st : List Samp) : List Samp := st.drop (st.length - activeOf st.length)

/-- A line received: its number, F, V, and its streams from EAV on. -/
structure LineIn where
  num : Nat
  f : Bool
  v : Bool
  streams : List (List Samp)
  deriving DecidableEq, Repr

/-- A line of S streams read from its interface words, EAV first. -/
def lineIn (s : Nat) (ws : List Samp) : LineIn :=
  let sts := deinterleave s ws
  let y := sts.getLastD []
  let x := (xyzRead (y.getD 3 0)).getD (false, false, true)
  ⟨lnRead (y.getD 4 0) (y.getD 5 0), x.1, x.2.1, sts⟩

/-- Stream k of a line is one of data streams 1 and 2: the Y and colour-difference streams of link 1. -/
def mainStream (s k : Nat) : Bool := linkOf s k == 1

/-- The packets of a line: those of data streams 1 and 2, in both blanking intervals, colour-difference stream first. -/
def LineIn.pkts (l : LineIn) : List AncPkt :=
  let s := l.streams.length
  l.streams.zipIdx.flatMap fun x =>
    if mainStream s x.2 then
      ((scanPkts 0 0 (hancOf x.1)).map fun p => ancOf l.num true (!isY s x.2) p.2) ++
        (if l.v then (scanPkts 0 0 (actOf x.1)).map fun p => ancOf l.num false (!isY s x.2) p.2 else [])
    else []

/-- How many data streams fail their line CRC: `prev` is the line before, `ws` the words from the EAV on (R99). -/
def crcFails (s : Nat) (prev : LineIn) (ws : List Samp) : Nat :=
  ((deinterleave s (ws.take (8 * s))).zip prev.streams).countP fun x =>
    crcWords (lineCrc 0 (actOf x.2 ++ x.1.take 6)) != (x.1.drop 6).take 2

/-! ## Embedded audio (ST 299-1, ST 299-2) -/

/-- DID of the audio data packet and of the audio control packet of a group 1 to 8. -/
def audioDid (g : Nat) : Nat := if g ≤ 4 then 0xE8 - g else 0xAC - g
def controlDid (g : Nat) : Nat := if g ≤ 4 then 0xE4 - g else 0xA8 - g

/-- The audio group, 1 to 8, whose data packet a DID names, or 0; and whose control packet. -/
def dataGroup (did : Nat) : Nat :=
  if 0xE4 ≤ did && did ≤ 0xE7 then 0xE8 - did else if 0xA4 ≤ did && did ≤ 0xA7 then 0xAC - did else 0
def controlGroup (did : Nat) : Nat :=
  if 0xE0 ≤ did && did ≤ 0xE3 then 0xE4 - did else if 0xA0 ≤ did && did ≤ 0xA3 then 0xA8 - did else 0

/-- The group whose data or control packet a DID names, or 0. -/
def audioGroup (did : Nat) : Nat := if dataGroup did = 0 then controlGroup did else dataGroup did

/-- A subframe's four user words: its 24 bits of audio over bits 4 to 27, V, U and C above them, with even parity in bit 31, and the
start of a channel status block in bit 3. The subframe has the audio in [23:0], V, U and C in [26:24] and the block start in [27]. -/
def subWords (v : Nat) : List Samp :=
  let p := ((List.range 27).countP (v.testBit ·)) % 2
  [parWord (v % 16 * 16 + 8 * b2n (v.testBit 27)), parWord (v / 16 % 256), parWord (v / 4096 % 256),
    parWord (v / 2 ^ 20 % 128 + 128 * p)]

/-- A sample from its four user words. -/
def wordsSample (ws : List Samp) : Int :=
  toSigned 24 ((ws.getD 0 0).toNat / 16 % 16 + (ws.getD 1 0).toNat % 256 * 16 + (ws.getD 2 0).toNat % 256 * 4096 +
    (ws.getD 3 0).toNat % 16 * 2 ^ 20)

/-- The error correction words of an audio data packet: per bit the BCH code (x + 1)(x^5 + x^2 + 1) over the words before. -/
def eccWords (ws : List Samp) : List Samp :=
  let col (b : Nat) : Nat := ws.foldl (fun r w =>
    let t := (r / 32 % 2 == 1) != w.getLsbD b
    let r' := r * 2 % 64
    if t then r' ^^^ 0x2F else r') 0
  let cs := (List.range 8).map col
  (List.range 6).map fun i => parWord ((List.range 8).foldl (fun n b => n + 2 ^ b * ((cs.getD b 0) / 2 ^ (5 - i) % 2)) 0)

/-- The audio data packet of a group with four samples; its subframes; `ck` counts video clocks from the line start to the sample. -/
def audioPkt (g dbn ck : Nat) (xs : List Nat) : List Samp :=
  let clk := [parWord (ck % 256), parWord (ck / 256 % 16 + 32 * (ck / 4096 % 2))]
  let body := clk ++ (List.range 4).flatMap fun i => subWords (xs.getD i 0)
  let head := [0, 0x3FF, 0x3FF, parWord (audioDid g), parWord dbn, parWord 24]
  pktWords (audioDid g) dbn (body ++ eccWords (head ++ body))

/-- The audio control packet of a group: audio frame number, 48 kHz synchronous, four active channels, no delays. -/
def controlPkt (g af : Nat) : List Samp :=
  pktWords (controlDid g) 0 ([parWord af, parWord 0, parWord 15] ++ List.replicate 8 (parWord 0))

/-- A control packet says 48 kHz synchronous (R104). -/
def rateOk (p : AncPkt) : Bool := (p.udw.getD 1 0).toNat % 16 == 0

/-- The four samples of an audio data packet. -/
def pktSamples (p : AncPkt) : List Int := (List.range 4).map fun i => wordsSample ((p.udw.drop (2 + 4 * i)).take 4)

/-! ## The payload ID (ST 352) -/

/-- Bytes 1 and 2 of the payload ID of a format code. -/
def pidHead (code : Nat) : Nat × Nat :=
  let rate := [0, 0x9, 0xA, 0xB, 0x5, 0x6, 0x7, 0x2, 0x3, 0x5, 0x6, 0x7].getD code 0
  if code ≤ 3 then (0x84, 0xC0 + rate)
  else if code ≤ 6 then (0x85, rate)
  else if code ≤ 0x0B then (0x85, 0xC0 + rate)
  else if code ≤ 0x12 then (0x89, 0xC0 + [0x9, 0xA, 0xB].getD (code - 0x10) 0)
  else if code ≤ 0x14 then (0x8A, 0x40 + [0x9, 0xA].getD (code - 0x13) 0)
  else if code ≤ 0x1A then (0xC0, 0xC0 + [0x5, 0x6, 0x7].getD (code - 0x18) 0)
  else (0xCE, 0xC0 + [0x9, 0xA, 0xB].getD (code - 0x20) 0)

/-- The format code a payload ID names, byte 1 in [7:0]; 0 for none of Table 3.2. -/
def pidFormat (pid : Word) : Nat :=
  (fmtCodes.find? fun c => decide (pidHead c = (pid.toNat % 256, pid.toNat / 256 % 256))).getD 0

/-- The link a payload ID names, from 1. -/
def pidLinkOf (pid : Word) : Nat := pid.toNat / 2 ^ 29 + 1

/-- The payload-ID packet of a format, for link `k`. -/
def pidPkt (code k : Nat) : List Samp :=
  let h := pidHead code
  pktWords 0x41 0x01 [parWord h.1, parWord h.2, parWord 0, parWord ((k - 1) * 32)]

/-- The four bytes of a payload-ID packet with a good checksum (R102). -/
def pidRead (p : AncPkt) : Option Word :=
  if p.did = 0x41 && p.sdid = 0x01 && !p.csErr && decide (4 ≤ p.udw.length) then
    some (BitVec.ofNat 32 ((List.range 4).foldl (fun n i => n + (p.udw.getD i 0).toNat % 256 * 256 ^ i) 0))
  else none

/-- The lines that carry the payload ID, and those that carry the audio control packets. -/
def Fmt.pidLine (f : Fmt) (n : Nat) : Bool := n == 10 || (f.interlaced && n == 572)
def Fmt.controlLine (f : Fmt) (n : Nat) : Bool := n == 9 || (f.interlaced && n == 571)

/-! ## Generated lines -/

/-- A stretch of blanking of a length that holds packets one behind the other, as far as they fit, and the packets that did
not. -/
def fillPkts (level : Samp) (n : Nat) : List (List Samp) → List Samp × List (List Samp)
  | [] => (List.replicate n level, [])
  | p :: ps =>
    if p.length ≤ n then
      let r := fillPkts level (n - p.length) ps
      (p ++ r.1, r.2)
    else
      let r := fillPkts level n ps
      (r.1, p :: r.2)

/-- What a generator keeps from line to line (R85): the accumulator, the interface words not yet in a slot word, the line CRCs over
the active part of the line before, a correction due (R86: true is one word earlier), and the data block number of its audio
packets. -/
structure Gen where
  acc : Nat
  rest : List Samp
  crcs : List Nat
  fix : Option Bool
  dbn : Nat
  deriving DecidableEq, Repr

/-- A generator at its start (R85). -/
def Gen.start (code : Nat) : Gen := ⟨(accConst code).2 - 1, [], [], none, 1⟩

/-- One stream of a line: EAV, line number, CRC, horizontal blanking, SAV, active part. -/
def lineStream (f : Fmt) (n : Nat) (crc : Nat) (hanc act : List Samp) : List Samp :=
  let fb := f.field2 n
  let vb := f.vBlank n
  let head := [0x3FF, 0, 0, xyz fb vb true] ++ lnWords n
  head ++ crcWords (lineCrc crc head) ++ hanc ++ [0x3FF, 0, 0, xyz fb vb false] ++ act

/-- The slot words that carry interface words (R79, R80, R85): V by the accumulator, M on the first; the accumulator after, the
interface words left over, and a correction not yet made. A correction toward earlier carries words where the accumulator gives
V = 0; one toward later is a V = 0 word where it gives V = 1 (R86). -/
def packWords (n d : Nat) : Nat → Option Bool → Bool → List Samp → List Word × Nat × List Samp × Option Bool
  | acc, fix, m, a :: b :: c :: ws =>
    let z := (d - acc - 1) / n
    let w := slotWord a b c m
    if fix = some true && 0 < z then
      let r := packWords n d (acc + n) none false ws
      (w :: r.1, r.2)
    else
      let acc' := acc + (z + 1) * n - d
      if fix = some false then
        let z' := (d - acc' - 1) / n
        let r := packWords n d (acc' + (z' + 1) * n - d) none false ws
        (List.replicate (z + 1 + z') 0 ++ w :: r.1, r.2)
      else
        let r := packWords n d acc' fix false ws
        (List.replicate z 0 ++ w :: r.1, r.2)
  | acc, fix, _, ws => ([], acc, ws, fix)

/-- A generator's next line: what stands in the horizontal blanking and in the active part of each stream. -/
def Gen.line (g : Gen) (code : Nat) (f : Fmt) (n : Nat) (hancs acts : List (List Samp)) : List Word × Gen :=
  let sts := (hancs.zip acts).zipIdx.map fun x => lineStream f n (g.crcs.getD x.2 0) x.1.1 x.1.2
  let c := accConst code
  let r := packWords c.1 c.2 g.acc g.fix true (g.rest ++ interleave sts)
  (r.1, { g with acc := r.2.1, rest := r.2.2.1, fix := r.2.2.2, crcs := acts.map (lineCrc 0) })

/-- The audio to embed in a line: groups with the samples of their four channels, one entry for each 48 kHz tick of the line
before with its clock count. -/
structure AudioLine where
  groups : List Nat
  ticks : List (Nat × List (List Nat))
  deriving DecidableEq, Repr

/-- The audio data packets of a line (R106), one for each group and tick. -/
def AudioLine.data (a : AudioLine) (dbn : Nat) : List (List Samp) :=
  a.ticks.flatMap fun t => a.groups.zipIdx.map fun g => audioPkt g.1 dbn t.1 (t.2.getD g.2 [])

/-- The packets of its own that a generator puts into the horizontal blanking of stream k (R88, R95, R106): on the Y streams the payload
ID where it makes one, on the Y stream of link 1 the audio control packets, on its colour-difference stream the audio data. -/
def ownPkts (pid : Bool) (code : Nat) (f : Fmt) (n k af dbn : Nat) (a : AudioLine) : List (List Samp) :=
  let s := f.s
  if isY s k then
    (if pid && f.pidLine n then [pidPkt code (linkOf s k)] else []) ++
      (if mainStream s k && f.controlLine n then a.groups.map fun g => controlPkt g af else [])
  else if mainStream s k then a.data dbn
  else []

/-- A stretch of blanking: what stands in it, none where it is free. -/
abbrev Stretch := List (Option Samp)

/-- Is a stretch free for `n` words from a position on? -/
def freeAt (st : Stretch) (i n : Nat) : Bool := decide (i + n ≤ st.length) && ((st.drop i).take n).all (·.isNone)

/-- A packet put into a stretch: at a position, or at the first free one; none where it does not fit. -/
def putPkt (st : Stretch) (pos : Option Nat) (p : List Samp) : Option Stretch :=
  let put (i : Nat) : Stretch := st.take i ++ p.map some ++ st.drop (i + p.length)
  match pos with
  | some i => if freeAt st i p.length then some (put i) else none
  | none => ((List.range st.length).find? fun i => freeAt st i p.length).map put

/-- The horizontal blanking, with the generator's own packets, and the active part of each stream of a line, as far as it is
blanking. -/
def ownBlank (pid : Bool) (code : Nat) (f : Fmt) (n af dbn : Nat) (a : AudioLine) : List (Stretch × Stretch) :=
  let w := f.perStream
  (List.range f.s).map fun k =>
    ((ownPkts pid code f n k af dbn a).foldl (fun st p => (putPkt st none p).getD st) (List.replicate (w - activeOf w - 12) none),
      List.replicate (activeOf w) none)

/-- A generator's line from its blanking and its active parts; `act` gives the active part of a stream that carries a picture. -/
def Gen.made (g : Gen) (code : Nat) (f : Fmt) (n : Nat) (a : AudioLine) (bl : List (Stretch × Stretch))
    (act : Nat → Option (List Samp)) : List Word × Gen :=
  let full (k : Nat) (st : Stretch) : List Samp := st.map (·.getD (blank f.s k))
  let r := g.line code f n (bl.zipIdx.map fun x => full x.2 x.1.1) (bl.zipIdx.map fun x => (act x.2).getD (full x.2 x.1.2))
  (r.1, { r.2 with dbn := if a.ticks.isEmpty then g.dbn else g.dbn % 255 + 1 })

/-- A line of the black raster (R88). -/
def Gen.black (g : Gen) (code : Nat) (f : Fmt) (n af : Nat) (a : AudioLine) : List Word × Gen :=
  g.made code f n a (ownBlank true code f n af g.dbn a) fun _ => none

/-- A generator's line whose interface words are given (R97). -/
def Gen.carried (g : Gen) (code : Nat) (ws : List Samp) : List Word × Gen :=
  let c := accConst code
  let r := packWords c.1 c.2 g.acc g.fix true (g.rest ++ ws)
  (r.1, { g with acc := r.2.1, rest := r.2.2.1, fix := r.2.2.2 })

/-- The audio of a line of a format: the groups named, each with the place of its four channels, at the ticks of the line before. A tick's
place in slot words gives its video clocks. -/
def lineAudio (code : Nat) (gs : List (Nat × Nat)) (due : List (Nat × List Nat)) : AudioLine :=
  let c := accConst code
  let s := max 1 (((fmtOf code).map (·.s)).getD 2)
  ⟨gs.map (·.1), due.map fun t => (t.1 * c.1 * 3 / (c.2 * s), gs.map fun g => (t.2.drop (4 * g.2)).take 4)⟩

/-- Silent audio in groups 1 to 4 for as many ticks as a line has (R88). -/
def silentAudio (cks : List Nat) : AudioLine := ⟨[1, 2, 3, 4], cks.map fun c => (c, [])⟩

end Sys2Proof.Machine
end

