-- ==== Sys2Proof/Machine/Media.lean ====
section
/-!
DEFINITION. Sys2Proof/Machine/Media.lean: what RTP packets carry (R179, R189 to R191, R197 to R202): sample row data of ST 2110-20,
audio of ST 2110-30 and -31, ancillary packets of ST 2110-40, SDI words of ST 2022-6; and how the lines of a picture map to the data
streams of an interface format (R84, R95, R221).

The payload layouts are those of the SMPTE standards and RFC 8331 (PRESUMED, log 84).
-/

namespace Sys2Proof.Machine

/-! ## Fields of octets -/

/-- The words of `k` bits that octets spell, most significant bit first. -/
def wordsOf (k : Nat) (bs : List Byte) : List Nat :=
  let n := beNat bs
  (List.range (8 * bs.length / k)).map fun i => (n >>> (8 * bs.length - k * (i + 1))) % 2 ^ k

/-- Words of `k` bits as octets, most significant bit first, with zeros up to a whole octet. -/
def octetsOf (k : Nat) (ws : List Nat) : List Byte :=
  let n := ws.foldl (fun n w => n * 2 ^ k + w % 2 ^ k) 0
  let l := k * ws.length
  beBytes ((l + 7) / 8) (n * 2 ^ ((8 - l % 8) % 8))

/-- The big-endian number of `n` octets at an offset. -/
def beAt (bs : List Byte) (i n : Nat) : Nat := beNat ((bs.drop i).take n)

/-! ## Lines of a picture and data streams -/

/-- Groups of four samples, Cb Y Cr Y, dealt out to two lines in turn. -/
def dealTwo : List Samp → List Samp × List Samp
  | a :: b :: c :: d :: e :: f :: g :: h :: r => let q := dealTwo r; (a :: b :: c :: d :: q.1, e :: f :: g :: h :: q.2)
  | r => (r, [])

/-- The row of a picture area (R221) to which active line `a` of field `fld` belongs. -/
def fieldRow (a : Nat) (fld : Bool) : Nat := a + (if fld then 540 else 0)

/-- The rows of the picture area that an active line of a format takes up (R221). -/
def areaRows (f : Fmt) (sqd : Bool) (n : Nat) : List Nat :=
  let a := f.activeIdx n
  if f.s = 8 then (if sqd then [a, a + 1080] else [2 * a, 2 * a + 1]) else [fieldRow a (f.field2 n)]

/-- The samples of each link or sub-image in an active line of a format, from the rows of the picture area (R84, R95, R221). -/
def linkSamps (f : Fmt) (sqd : Bool) (row : Nat → List Samp) (n : Nat) : List (List Samp) :=
  let a := f.activeIdx n
  if f.s = 8 then
    if sqd then
      let u := row a
      let v := row (a + 1080)
      [u.take 3840, u.drop 3840, v.take 3840, v.drop 3840]
    else
      let u := dealTwo (row (2 * a))
      let v := dealTwo (row (2 * a + 1))
      [u.1, u.2, v.1, v.2]
  else
    let r := row (fieldRow a (f.field2 n))
    if f.s = 4 then [r.take 3840, r.drop 3840] else [r]

/-- The active parts of the data streams of a line (R83): of each link its colour-difference and its Y samples. -/
def linkActs (f : Fmt) (ls : List (List Samp)) : List (List Samp) :=
  (List.range f.s).map fun k => everyNth 2 (b2n (isY f.s k)) (ls.getD (linkOf f.s k - 1) [])

/-- The samples of link k in a line, in the order Cb, Y, Cr, Y. -/
def LineIn.link (l : LineIn) (k : Nat) : List Samp :=
  interleave ((l.streams.zipIdx.filter fun x => linkOf l.streams.length x.2 == k).map fun x => actOf x.1)

/-- Every four samples, Cb Y Cr Y, of two lines in turn. -/
def twoSample : List Samp → List Samp → List Samp
  | a :: b :: c :: d :: r, q => a :: b :: c :: d :: (q.take 4 ++ twoSample r (q.drop 4))
  | _, q => q

/-- The rows of a video flow's picture that active line `n` carries (R189, R197): two of a UHD picture in two-sample interleave, and two
of a dual-link 1080p picture, of which each field of the interface frame carries one. -/
def lineRows (f : Fmt) (n : Nat) : List Nat :=
  let a := f.activeIdx n
  if f.s = 2 then [a] else [2 * a, 2 * a + 1]

/-- The interface line that carries a row; `second`: in the second half of the interface frame. -/
def rowLine (f : Fmt) (row : Nat) (second : Bool) : Nat :=
  let a := if f.s = 2 then row else row / 2
  if f.interlaced then (if second then 584 + a else 21 + a) else if f.lines = 750 then 26 + a else 42 + a

/-- The samples of each link from the rows that a line carries (R189): 2SI for UHD (R95), a row on each link of a dual link. -/
def netLinks (f : Fmt) (rows : List (List Samp)) : List (List Samp) :=
  if f.s = 8 then
    let u := dealTwo (rows.getD 0 [])
    let v := dealTwo (rows.getD 1 [])
    [u.1, u.2, v.1, v.2]
  else rows

/-- The rows, with their numbers, that a line of an output raster completes (R197). -/
def netRows (f : Fmt) (sqd : Bool) (l : LineIn) : List (Nat × List Samp) :=
  let a := f.activeIdx l.num
  if f.vBlank l.num then []
  else if f.s = 8 then
    if sqd then [(a, l.link 1 ++ l.link 2), (a + 1080, l.link 3 ++ l.link 4)]
    else [(2 * a, twoSample (l.link 1) (l.link 2)), (2 * a + 1, twoSample (l.link 3) (l.link 4))]
  else if f.s = 4 then [(2 * a, l.link 1), (2 * a + 1, l.link 2)]
  else [(a, l.link 1)]

/-- The fill of a sample that has not arrived (Table 3.4), by its place in the order Cb, Y, Cr, Y. -/
def fillSamp (i : Nat) : Samp := if i % 2 = 1 then 0x040 else 0x200

/-! ## ST 2110-20 -/

/-- Bits of a sample at a depth code (Table 7.12), and octets of a pixel group of two pixels. -/
def depthBits (depth : Nat) : Nat := match depth with | 0 => 8 | 1 => 10 | _ => 12
def pgroup (depth : Nat) : Nat := depthBits depth / 2

/-- Sample row data: the row, field 2, the first pixel, the octets. -/
structure Srd where
  row : Nat
  field2 : Bool
  ofs : Nat
  data : List Byte
  deriving DecidableEq, Repr

/-- The sample row data headers at the head of a payload, at most three, and what follows them. -/
def srdHeads : Nat → List Byte → List (Nat × Srd) × List Byte
  | 0, b => ([], b)
  | n + 1, b =>
    let h : Nat × Srd := (beAt b 0 2, ⟨beAt b 2 2 % 32768, decide (32768 ≤ beAt b 2 2), beAt b 4 2 % 32768, []⟩)
    if decide (32768 ≤ beAt b 4 2) then
      let r := srdHeads n (b.drop 6)
      (h :: r.1, r.2)
    else ([h], b.drop 6)

/-- The sample row data of a payload behind the extended sequence number. -/
def srdsOf (b : List Byte) : List Srd :=
  let r := srdHeads 3 b
  (r.1.foldl (fun (x : List Srd × List Byte) h => (x.1 ++ [{ h.2 with data := x.2.take h.1 }], x.2.drop h.1)) ([], r.2)).1

/-- The payload of one sample row data behind the extended sequence number. -/
def srdBytes (x : Srd) : List Byte :=
  beBytes 2 x.data.length ++ beBytes 2 (x.row + 32768 * b2n x.field2) ++ beBytes 2 x.ofs ++ x.data

/-- A sample of a depth in ten bits, clipped to 4 to 1,019 (Table 3.4). -/
def tenBits (depth v : Nat) : Samp :=
  BitVec.ofNat 10 (max 4 (min 1019 (match depth with | 0 => 4 * v | 1 => v | _ => (v + 2) / 4)))

/-- A ten-bit sample at a depth: 8 bits by its upper bits, 12 bits by two zeros (DESIGN CHOICE, log 100). -/
def ofTen (depth : Nat) (v : Samp) : Nat :=
  match depth with | 0 => v.toNat / 4 | 1 => v.toNat | _ => v.toNat * 4

/-- Samples put into a row from an index on. -/
def putSamps (l : List (Option Samp)) (i : Nat) (xs : List Samp) : List (Option Samp) :=
  l.take i ++ (xs.map some).take (l.length - i) ++ l.drop (i + xs.length)

/-- The samples of a row that have arrived, in the order Cb, Y, Cr, Y. -/
def rowOf (depth width row : Nat) (field2 : Bool) (xs : List Srd) : List (Option Samp) :=
  (xs.filter fun x => x.row == row && x.field2 == field2).foldl
    (fun l x => putSamps l (2 * x.ofs) ((wordsOf (depthBits depth) x.data).map (tenBits depth))) (List.replicate (2 * width) none)

/-- A row with what has not arrived filled. -/
def filled (l : List (Option Samp)) : List Samp := l.zipIdx.map fun x => x.1.getD (fillSamp x.2)

/-- Width and rows of a format's picture, of a field where the second part says so (R189). -/
def geometry (fmt : Nat) : Nat × Nat × Bool :=
  if fmt ≤ 3 then (1280, 720, false)
  else if fmt ≤ 6 then (1920, 540, true)
  else if fmt < 0x18 then (1920, 1080, false)
  else (3840, 2160, false)

/-! ## Audio -/

/-- A subframe of a sample: the audio in [23:0], V, U and C in [26:24], the start of a block in [27]. -/
def pcmSub (x : Int) : Nat := ofSigned 24 x

/-- The audio of a subframe. -/
def subPcm (n : Nat) : Int := toSigned 24 n

/-- A subframe as an AM824 word (ST 2110-31): B, F, P, C, U and V above the audio; `first` marks the first subframe of its frame. -/
def am824 (n : Nat) (first : Bool) : Nat :=
  let p := ((List.range 27).countP (n.testBit ·)) % 2
  n % 2 ^ 27 + 2 ^ 27 * p + 2 ^ 28 * b2n first + 2 ^ 29 * b2n (n.testBit 27)

/-- The subframe of an AM824 word. -/
def am824Sub (w : Nat) : Nat := w % 2 ^ 27 + 2 ^ 27 * b2n (w.testBit 29)

/-- The sample frames of an audio payload: octets of a sample, channels, and how a sample's number reads as a subframe. -/
def audFrames (oct nch : Nat) (sub : Nat → Nat) (b : List Byte) : List (List Nat) :=
  let ws := (wordsOf (8 * oct) b).map sub
  (List.range (ws.length / nch)).map fun i => (ws.drop (i * nch)).take nch

/-- The channel status block of linear PCM at 48 kHz with 24-bit words (AES3): bit `i` of its 192. -/
def chanStatus (i : Nat) : Bool :=
  let bytes : List Nat := 0x81 :: 0 :: 0x2C :: List.replicate 20 0
  let crc := crcLsb 0xB8 0xFF (bytes.flatMap (lsbBits 8))
  (bytes ++ [crc]).getD (i / 8) 0 |>.testBit (i % 8)

/-! ## ST 2110-40 (RFC 8331) -/

/-- An ancillary packet on the network: C, Line_Number, Horiz_Offset, the number of its link plus 1 where S = 1 (0: S = 0), and its words
from DID to the checksum. -/
structure NetAnc where
  chroma : Bool
  line : Nat
  ofs : Nat
  link : Nat
  words : List Samp
  deriving DecidableEq, Repr

/-- The ancillary packets of a payload behind its eight octets of header: `n` of them. -/
def netAncs : Nat → List Byte → List NetAnc
  | 0, _ => []
  | n + 1, b =>
    let h := beAt b 0 4
    let ws := wordsOf 10 ((b.drop 4).take 4)
    let dc := ws.getD 2 0 % 256
    let oct := (10 * (dc + 4) + 31) / 32 * 4
    let x : NetAnc := ⟨h.testBit 31, h / 2 ^ 20 % 2048, h / 2 ^ 8 % 4096, if h.testBit 7 then h % 128 + 1 else 0,
      ((wordsOf 10 ((b.drop 4).take oct)).take (dc + 4)).map (BitVec.ofNat 10)⟩
    x :: netAncs n (b.drop (4 + oct))

/-- The ancillary packets of an RTP payload (RFC 8331). -/
def ancPayload (b : List Byte) : List NetAnc := netAncs (beAt b 4 1) (b.drop 8)

/-- One packet in an RTP payload. -/
def netAncBytes (x : NetAnc) : List Byte :=
  let body := octetsOf 10 (x.words.map (·.toNat))
  beBytes 4 (2 ^ 31 * b2n x.chroma + 2 ^ 20 * x.line + 2 ^ 8 * x.ofs + (if x.link = 0 then 0 else 127 + x.link)) ++ body ++ List.replicate ((4 - body.length % 4) % 4) 0

/-- The RTP payload behind the extended sequence number: length, count, field (0 progressive, 2 and 3 the fields), packets. -/
def ancPayloadBytes (field : Nat) (xs : List NetAnc) : List Byte :=
  let body := xs.flatMap netAncBytes
  beBytes 2 body.length ++ beBytes 1 xs.length ++ beBytes 3 (field * 2 ^ 22) ++ body

/-! ## ST 2022-6 -/

/-- MAP, FRAME and FRATE of the HBRMT header of a format. -/
def hbrmtCodes (code : Nat) : Nat × Nat × Nat :=
  let frate := [0, 0x12, 0x11, 0x10, 0x18, 0x17, 0x16, 0x1B, 0x1A, 0x18, 0x17, 0x16, 0, 0, 0, 0, 0x12, 0x11, 0x10, 0x12, 0x11].getD code 0
  (if 0x13 ≤ code then 1 else 0, if code ≤ 3 then 0x30 else if code ≤ 6 then 0x20 else 0x21, frate)

/-- The HBRMT header of a datagram of a frame. -/
def hbrmtBytes (code frame : Nat) : List Byte :=
  let c := hbrmtCodes code
  [0x08, BitVec.ofNat 8 frame, 0, 0] ++ beBytes 4 (c.1 * 2 ^ 28 + c.2.1 * 2 ^ 20 + c.2.2 * 2 ^ 12 + 2 ^ 8)

/-- The format an HBRMT header names, 0 for none of Table 3.2; the frame count; the media octets behind the header. -/
def hbrmtOf (b : List Byte) : Nat × Nat × List Byte :=
  let f := (beAt b 0 1).testBit 3
  let cf := beAt b 2 2 / 32 % 16
  let v := beAt b 4 4
  let code := (fmtCodes.find? fun c => decide (c ≤ 0x14) &&
    decide (hbrmtCodes c = (v / 2 ^ 28, v / 2 ^ 20 % 256, v / 2 ^ 12 % 256))).getD 0
  (if f then code else 0, beAt b 1 1, b.drop ((if f then 8 else 4) + (if cf = 0 then 0 else 4) + 4 * (beAt b 0 1 / 16)))

/-- The ancillary packets of a line for the network (R201): all but audio data and control packets. The offset counts from the start of
the active part; the horizontal blanking stands before it in the line, and counts on behind its end and the EAV, LN and CRC words. -/
def lineAncs (l : LineIn) : List NetAnc :=
  let s := l.streams.length
  l.streams.zipIdx.flatMap fun x =>
    let k := linkOf s x.2
    let part (base : Nat) (ws : List Samp) : List NetAnc :=
      ((scanPkts 0 0 ws).filter fun p => audioGroup (pktDid p.2) = 0).map fun p =>
        ⟨!isY s x.2, l.num, base + p.1, if k = 1 then 0 else k, p.2.drop 3⟩
    part (activeOf x.1.length + 8) (hancOf x.1) ++ (if l.v then part 0 (actOf x.1) else [])

/-- Octets of media payload in a datagram (R202), octets of a frame, and datagrams that carry them. -/
def mediaOct : Nat := 1376
def frameOct (f : Fmt) : Nat := f.wpl * f.lines * 5 / 4
def frameGrams (f : Fmt) : Nat := (frameOct f + mediaOct - 1) / mediaOct

/-- The words of a stretch of octets of which some have not arrived: `k` bits each. -/
def partWords (bs : List (Option Byte)) : List (Option Samp) :=
  let at5 (i : Nat) : List (Option Samp) :=
    let g := (bs.drop (5 * i)).take 5
    let ws := wordsOf 10 (g.map (·.getD 0))
    let have' (j : Nat) : Bool := ((g.drop j).take 2).all (·.isSome)
    (List.range 4).map fun j => if have' j then some (BitVec.ofNat 10 (ws.getD j 0)) else none
  (List.range (bs.length / 5)).flatMap at5

end Sys2Proof.Machine
end

