-- ==== Sys2Proof/Machine/Regs.lean ====
section
/-!
DEFINITION. Sys2Proof/Machine/Regs.lean: the register map as chapter 21 (Table 21.2, R493) lists it, and every
field of every register as the defining chapter's register table lays it out: its offset, its low bit and its
width. A field of an indexed register takes the index. The reset word of each register is the Reset column; the access
code and the class are those of Tables 0.4 and 0.5 (R7, R8).
-/

namespace Sys2Proof.Machine

/-- A register field: the register's offset in BAR0, the field's low bit, its width. -/
structure Fld where
  off : Nat
  lo : Nat
  w : Nat
  deriving DecidableEq, Repr

/-- Access codes (R7, Table 0.4); `rwp` is the code rw+. -/
inductive Access where
  | rw | ro | rs | rwp | wc | ws | wx
  deriving DecidableEq, Repr

/-- Field classes (R8, Table 0.5): S static, F frame-shadowed, L live; none for fields coded ro, rs or wc. -/
inductive Cls where
  | static | shadow | live | none
  deriving DecidableEq, Repr

/-- The register that selects the instance (Table 21.2, Table 0.6): nothing, the bus master itself (one copy per
master), or a select register. -/
inductive Sel where
  | none | master | grp | slot | out | mac | flow | queue | sync | eng | lay | amx | aud | evt | flt | key | ctr
  deriving DecidableEq, Repr

/-- The layout of one field of a register of the map. -/
structure FieldRow where
  lo : Nat
  w : Nat
  acc : Access
  cls : Cls
  deriving DecidableEq, Repr

/-- One row of the register map: registers at `off + stride * i` for `i < count`. -/
structure RegRow where
  off : Nat
  stride : Nat
  count : Nat
  sel : Sel
  reset : Nat
  fields : List FieldRow
  deriving DecidableEq, Repr

/-! GLB.ID (Table 21.3). -/
def GLB.ID_PART : Fld := ⟨0x00000000, 0, 16⟩
def GLB.ID_FAMILY : Fld := ⟨0x00000000, 16, 8⟩
/-! GLB.STEP (Table 21.3). -/
def GLB.STEP_STEP : Fld := ⟨0x00000004, 0, 8⟩
def GLB.STEP_ROM : Fld := ⟨0x00000004, 8, 8⟩
/-! GLB.SYSID (Table 21.3). -/
def GLB.SYSID_SYSID : Fld := ⟨0x00000008, 0, 16⟩
/-! GLB.UID_LO (Table 21.3). -/
def GLB.UID_LO_UID_L : Fld := ⟨0x0000000C, 0, 32⟩
/-! GLB.UID_HI (Table 21.3). -/
def GLB.UID_HI_UID_H : Fld := ⟨0x00000010, 0, 32⟩
/-! GLB.CLK_STAT (Table 19.6). -/
def GLB.CLK_STAT_SYS_LOCK : Fld := ⟨0x00000100, 0, 1⟩
def GLB.CLK_STAT_PCLK_ON : Fld := ⟨0x00000100, 1, 1⟩
def GLB.CLK_STAT_HCLK_LOCK : Fld := ⟨0x00000100, 2, 2⟩
def GLB.CLK_STAT_ACLK_OK : Fld := ⟨0x00000100, 4, 1⟩
/-! GLB.XING_ABSENT (Table 19.7). -/
def GLB.XING_ABSENT_ABSENT : Fld := ⟨0x00000110, 0, 26⟩
/-! GLB.XING_MERGED (Table 19.7). -/
def GLB.XING_MERGED_MERGED : Fld := ⟨0x00000114, 0, 26⟩
/-! GLB.XING_LOST (Table 19.8). -/
def GLB.XING_LOST_COUNT : Fld := ⟨0x00000118, 0, 32⟩
/-! GLB.XING_LAST (Table 19.8). -/
def GLB.XING_LAST_IDX : Fld := ⟨0x0000011C, 0, 5⟩
def GLB.XING_LAST_VALID : Fld := ⟨0x0000011C, 5, 1⟩
/-! GLB.XING_CMD (Table 19.8). -/
def GLB.XING_CMD_CNT_CLR : Fld := ⟨0x00000120, 0, 1⟩
/-! FLT.SRC_SEL (Table 15.8). -/
def FLT.SRC_SEL_SEL : Fld := ⟨0x00010000, 0, 8⟩
/-! FLT.BLK_EVT (Table 15.8). -/
def FLT.BLK_EVT_SEL_RANGE : Fld := ⟨0x00010004, 0, 1⟩
def FLT.BLK_EVT_CLASS_VIOL : Fld := ⟨0x00010004, 1, 1⟩
def FLT.BLK_EVT_LOG_FULL : Fld := ⟨0x00010004, 2, 1⟩
def FLT.BLK_EVT_CLR_REFUSED : Fld := ⟨0x00010004, 3, 1⟩
/-! FLT.CTL (Table 15.8). -/
def FLT.CTL_INJ_SAFE : Fld := ⟨0x00010008, 0, 1⟩
def FLT.CTL_DEG_YIELD : Fld := ⟨0x00010008, 1, 1⟩
def FLT.CTL_SHED_STEP : Fld := ⟨0x00010008, 8, 8⟩
/-! FLT.STAT (Table 15.8). -/
def FLT.STAT_SEV_MAX : Fld := ⟨0x0001000C, 0, 3⟩
def FLT.STAT_HEALTHY : Fld := ⟨0x0001000C, 3, 1⟩
def FLT.STAT_FAULT : Fld := ⟨0x0001000C, 4, 1⟩
def FLT.STAT_TRIP : Fld := ⟨0x0001000C, 5, 1⟩
def FLT.STAT_SAFE_IDLE : Fld := ⟨0x0001000C, 6, 1⟩
def FLT.STAT_RUNNING : Fld := ⟨0x0001000C, 7, 1⟩
def FLT.STAT_STEP : Fld := ⟨0x0001000C, 8, 3⟩
def FLT.STAT_CLS_ANY : Fld := ⟨0x0001000C, 16, 16⟩
/-! FLT.CMD (Table 15.8). -/
def FLT.CMD_LOG_CLR : Fld := ⟨0x00010010, 0, 1⟩
def FLT.CMD_ACK_ALL : Fld := ⟨0x00010010, 1, 1⟩
def FLT.CMD_CNT_CLR : Fld := ⟨0x00010010, 2, 1⟩
/-! FLT.SP_CTL (Table 15.8). -/
def FLT.SP_CTL_SAFE_IDLE : Fld := ⟨0x00010014, 0, 1⟩
def FLT.SP_CTL_DEV_RESET : Fld := ⟨0x00010014, 1, 1⟩
/-! FLT.TJ (Table 15.9). -/
def FLT.TJ_TJ : Fld := ⟨0x00010018, 0, 12⟩
def FLT.TJ_HOT : Fld := ⟨0x00010018, 16, 5⟩
def FLT.TJ_VALID_CNT : Fld := ⟨0x00010018, 24, 5⟩
/-! FLT.WDOG_CFG (Table 15.9). -/
def FLT.WDOG_CFG_EN : Fld := ⟨0x0001001C, 0, 1⟩
def FLT.WDOG_CFG_TMO : Fld := ⟨0x0001001C, 8, 8⟩
def FLT.WDOG_CFG_MAX_RST : Fld := ⟨0x0001001C, 16, 4⟩
/-! FLT.WDOG_KICK (Table 15.9). -/
def FLT.WDOG_KICK_KEY : Fld := ⟨0x00010020, 0, 32⟩
/-! FLT.WDOG_STAT (Table 15.9). -/
def FLT.WDOG_STAT_RST_CNT : Fld := ⟨0x00010024, 0, 4⟩
def FLT.WDOG_STAT_HELD : Fld := ⟨0x00010024, 4, 1⟩
def FLT.WDOG_STAT_BAD_KICK : Fld := ⟨0x00010024, 16, 16⟩
/-! FLT.LOG_IDX (Table 15.9). -/
def FLT.LOG_IDX_IDX : Fld := ⟨0x00010028, 0, 6⟩
def FLT.LOG_IDX_COUNT : Fld := ⟨0x00010028, 16, 7⟩
/-! FLT.ACLK_LO (Table 15.9). -/
def FLT.ACLK_LO_ACLK_L : Fld := ⟨0x0001002C, 0, 32⟩
/-! FLT.ACLK_HI (Table 15.9). -/
def FLT.ACLK_HI_ACLK_H : Fld := ⟨0x00010030, 0, 16⟩
/-! FLT.CLS (Table 15.10). -/
def FLT.CLS_LEVEL (c : Nat) : Fld := ⟨0x00010040 + 4 * c, 0, 3⟩
def FLT.CLS_UNACK (c : Nat) : Fld := ⟨0x00010040 + 4 * c, 3, 1⟩
def FLT.CLS_REC (c : Nat) : Fld := ⟨0x00010040 + 4 * c, 16, 16⟩
/-! FLT.SENS (Table 15.10). -/
def FLT.SENS_T (n : Nat) : Fld := ⟨0x00010080 + 4 * n, 0, 12⟩
def FLT.SENS_VALID (n : Nat) : Fld := ⟨0x00010080 + 4 * n, 12, 1⟩
/-! FLT.SRC_CFG (Table 15.11). -/
def FLT.SRC_CFG_SEV : Fld := ⟨0x00010100, 0, 3⟩
def FLT.SRC_CFG_INJ_BITS : Fld := ⟨0x00010100, 3, 2⟩
/-! FLT.SRC_STAT (Table 15.11). -/
def FLT.SRC_STAT_COND : Fld := ⟨0x00010104, 0, 1⟩
def FLT.SRC_STAT_REC : Fld := ⟨0x00010104, 1, 1⟩
def FLT.SRC_STAT_ACKED : Fld := ⟨0x00010104, 2, 1⟩
def FLT.SRC_STAT_EFF : Fld := ⟨0x00010104, 3, 3⟩
def FLT.SRC_STAT_HAS_CHK : Fld := ⟨0x00010104, 6, 1⟩
def FLT.SRC_STAT_FIXED : Fld := ⟨0x00010104, 7, 1⟩
def FLT.SRC_STAT_LVL : Fld := ⟨0x00010104, 8, 2⟩
def FLT.SRC_STAT_UNIT : Fld := ⟨0x00010104, 16, 16⟩
/-! FLT.SRC_CMD (Table 15.12). -/
def FLT.SRC_CMD_ACK : Fld := ⟨0x00010108, 0, 1⟩
def FLT.SRC_CMD_CLR : Fld := ⟨0x00010108, 1, 1⟩
def FLT.SRC_CMD_INJ : Fld := ⟨0x00010108, 2, 1⟩
def FLT.SRC_CMD_FORCE : Fld := ⟨0x00010108, 3, 1⟩
/-! FLT.SRC_CNT (Table 15.12). -/
def FLT.SRC_CNT_COUNT : Fld := ⟨0x0001010C, 0, 32⟩
/-! FLT.LOG_DATA (Table 15.10). -/
def FLT.LOG_DATA_DATA (w : Nat) : Fld := ⟨0x00010200 + 4 * w, 0, 32⟩
/-! TIM.CTL (Table 12.4). -/
def TIM.CTL_SLEW : Fld := ⟨0x00020000, 0, 1⟩
/-! TIM.EVT_STAT (Table 12.4). -/
def TIM.EVT_STAT_CLASS_VIOL : Fld := ⟨0x00020004, 0, 1⟩
def TIM.EVT_STAT_STEP : Fld := ⟨0x00020004, 1, 1⟩
def TIM.EVT_STAT_STEP_ERR : Fld := ⟨0x00020004, 2, 1⟩
def TIM.EVT_STAT_SNAP : Fld := ⟨0x00020004, 3, 1⟩
def TIM.EVT_STAT_SRV_LOCK : Fld := ⟨0x00020004, 4, 1⟩
def TIM.EVT_STAT_SRV_UNLOCK : Fld := ⟨0x00020004, 5, 1⟩
def TIM.EVT_STAT_SRV_CLAMP : Fld := ⟨0x00020004, 6, 1⟩
def TIM.EVT_STAT_SRV_IGN : Fld := ⟨0x00020004, 7, 1⟩
def TIM.EVT_STAT_TSQ_OVF : Fld := ⟨0x00020004, 8, 1⟩
def TIM.EVT_STAT_TRIG : Fld := ⟨0x00020004, 16, 8⟩
/-! TIM.TIME_FRAC (Table 12.5). -/
def TIM.TIME_FRAC_FRAC : Fld := ⟨0x00020010, 0, 16⟩
/-! TIM.TIME_NS (Table 12.5). -/
def TIM.TIME_NS_NS : Fld := ⟨0x00020014, 0, 32⟩
/-! TIM.TIME_SEC_LO (Table 12.5). -/
def TIM.TIME_SEC_LO_SEC_L : Fld := ⟨0x00020018, 0, 32⟩
/-! TIM.TIME_SEC_HI (Table 12.5). -/
def TIM.TIME_SEC_HI_SEC_H : Fld := ⟨0x0002001C, 0, 16⟩
/-! TIM.SET_NS (Table 12.5). -/
def TIM.SET_NS_NS : Fld := ⟨0x00020020, 0, 32⟩
/-! TIM.SET_SEC_LO (Table 12.5). -/
def TIM.SET_SEC_LO_SEC_L : Fld := ⟨0x00020024, 0, 32⟩
/-! TIM.SET_SEC_HI (Table 12.5). -/
def TIM.SET_SEC_HI_SEC_H : Fld := ⟨0x00020028, 0, 16⟩
/-! TIM.ADJ (Table 12.5). -/
def TIM.ADJ_NS : Fld := ⟨0x0002002C, 0, 32⟩
/-! TIM.INCR_LO (Table 12.6). -/
def TIM.INCR_LO_INCR_L : Fld := ⟨0x00020030, 0, 32⟩
/-! TIM.INCR_HI (Table 12.6). -/
def TIM.INCR_HI_INCR_H : Fld := ⟨0x00020034, 0, 16⟩
/-! TIM.INCR_NOM_LO (Table 12.6). -/
def TIM.INCR_NOM_LO_NOM_L : Fld := ⟨0x00020038, 0, 32⟩
/-! TIM.INCR_NOM_HI (Table 12.6). -/
def TIM.INCR_NOM_HI_NOM_H : Fld := ⟨0x0002003C, 0, 16⟩
/-! TIM.SRV_CFG (Table 12.7). -/
def TIM.SRV_CFG_EN : Fld := ⟨0x00020040, 0, 1⟩
def TIM.SRV_CFG_STEP_EN : Fld := ⟨0x00020040, 1, 1⟩
def TIM.SRV_CFG_LOCK_N : Fld := ⟨0x00020040, 4, 4⟩
/-! TIM.SRV_GAIN (Table 12.7). -/
def TIM.SRV_GAIN_KP : Fld := ⟨0x00020044, 0, 16⟩
def TIM.SRV_GAIN_KI : Fld := ⟨0x00020044, 16, 16⟩
/-! TIM.SRV_LIM (Table 12.7). -/
def TIM.SRV_LIM_LIM : Fld := ⟨0x00020048, 0, 32⟩
/-! TIM.SRV_STEP_THR (Table 12.7). -/
def TIM.SRV_STEP_THR_THR : Fld := ⟨0x0002004C, 0, 32⟩
/-! TIM.SRV_LOCK_THR (Table 12.7). -/
def TIM.SRV_LOCK_THR_THR : Fld := ⟨0x00020050, 0, 32⟩
/-! TIM.SRV_OFS_LO (Table 12.7). -/
def TIM.SRV_OFS_LO_E_L : Fld := ⟨0x00020054, 0, 32⟩
/-! TIM.SRV_OFS_HI (Table 12.7). -/
def TIM.SRV_OFS_HI_E_H : Fld := ⟨0x00020058, 0, 16⟩
/-! TIM.SRV_STAT (Table 12.7). -/
def TIM.SRV_STAT_LOCKED : Fld := ⟨0x0002005C, 0, 1⟩
def TIM.SRV_STAT_CLAMP : Fld := ⟨0x0002005C, 1, 1⟩
def TIM.SRV_STAT_INPUT : Fld := ⟨0x0002005C, 2, 3⟩
def TIM.SRV_STAT_TIME_VALID : Fld := ⟨0x0002005C, 8, 1⟩
/-! TIM.SRV_I (Table 12.7). -/
def TIM.SRV_I_I : Fld := ⟨0x00020060, 0, 32⟩
/-! TIM.SRV_Y (Table 12.7). -/
def TIM.SRV_Y_Y : Fld := ⟨0x00020064, 0, 32⟩
/-! TIM.CAD_RES_LO (Table 12.6). -/
def TIM.CAD_RES_LO_RES : Fld := ⟨0x00020068, 0, 32⟩
/-! TIM.CAD_RES_HI (Table 12.6). -/
def TIM.CAD_RES_HI_RES : Fld := ⟨0x0002006C, 0, 32⟩
/-! TIM.CMD (Table 12.4). -/
def TIM.CMD_SET : Fld := ⟨0x00020070, 0, 1⟩
def TIM.CMD_ADJ : Fld := ⟨0x00020070, 1, 1⟩
def TIM.CMD_SRV_PUSH : Fld := ⟨0x00020070, 2, 1⟩
def TIM.CMD_CAD_SNAP : Fld := ⟨0x00020070, 3, 1⟩
def TIM.CMD_SRV_RESET : Fld := ⟨0x00020070, 4, 1⟩
def TIM.CMD_CNT_CLR : Fld := ⟨0x00020070, 5, 1⟩
/-! TIM.CNT_STEP (Table 12.6). -/
def TIM.CNT_STEP_COUNT : Fld := ⟨0x00020074, 0, 32⟩
/-! TIM.CNT_SRV_IGN (Table 12.6). -/
def TIM.CNT_SRV_IGN_COUNT : Fld := ⟨0x00020078, 0, 32⟩
/-! TIM.CNT_TSQ_OVF (Table 12.6). -/
def TIM.CNT_TSQ_OVF_COUNT : Fld := ⟨0x0002007C, 0, 32⟩
/-! TIM.TS_RX_0 (Table 12.8). -/
def TIM.TS_RX_0_RX_TS : Fld := ⟨0x00020080, 0, 32⟩
/-! TIM.TS_RX_1 (Table 12.8). -/
def TIM.TS_RX_1_RX_TS : Fld := ⟨0x00020084, 0, 32⟩
/-! TIM.TSQ_POP_0 (Table 12.8). -/
def TIM.TSQ_POP_0_POP : Fld := ⟨0x00020088, 0, 32⟩
/-! TIM.TSQ_POP_1 (Table 12.8). -/
def TIM.TSQ_POP_1_POP : Fld := ⟨0x0002008C, 0, 32⟩
/-! TIM.CAD_CTL (Table 12.8). -/
def TIM.CAD_CTL_RATE (c : Nat) : Fld := ⟨0x00020100 + 4 * c, 0, 3⟩
def TIM.CAD_CTL_BOUND (c : Nat) : Fld := ⟨0x00020100 + 4 * c, 8, 1⟩
/-! TIM.CAD_OFS (Table 12.8). -/
def TIM.CAD_OFS_OFS (c : Nat) : Fld := ⟨0x00020140 + 4 * c, 0, 32⟩
/-! TIM.TRIG_NS (Table 12.8). -/
def TIM.TRIG_NS_NS (n : Nat) : Fld := ⟨0x00020200 + 16 * n, 0, 32⟩
/-! TIM.TRIG_SEC_LO (Table 12.8). -/
def TIM.TRIG_SEC_LO_SEC_L (n : Nat) : Fld := ⟨0x00020204 + 16 * n, 0, 32⟩
/-! TIM.TRIG_SEC_HI (Table 12.8). -/
def TIM.TRIG_SEC_HI_SEC_H (n : Nat) : Fld := ⟨0x00020208 + 16 * n, 0, 16⟩
def TIM.TRIG_SEC_HI_EN (n : Nat) : Fld := ⟨0x00020208 + 16 * n, 16, 1⟩
def TIM.TRIG_SEC_HI_LATE (n : Nat) : Fld := ⟨0x00020208 + 16 * n, 17, 1⟩
/-! TIM.TRIG_PER (Table 12.8). -/
def TIM.TRIG_PER_PERIOD (n : Nat) : Fld := ⟨0x0002020C + 16 * n, 0, 32⟩
/-! TIM.TSQ_0 (Table 12.8). -/
def TIM.TSQ_0_TS_ID (m : Nat) : Fld := ⟨0x00021000 + 16 * m, 0, 16⟩
def TIM.TSQ_0_VALID (m : Nat) : Fld := ⟨0x00021000 + 16 * m, 16, 1⟩
def TIM.TSQ_0_DISCARD (m : Nat) : Fld := ⟨0x00021000 + 16 * m, 17, 1⟩
def TIM.TSQ_0_BAD_FCS (m : Nat) : Fld := ⟨0x00021000 + 16 * m, 18, 1⟩
def TIM.TSQ_0_OVF (m : Nat) : Fld := ⟨0x00021000 + 16 * m, 19, 1⟩
def TIM.TSQ_0_FILL (m : Nat) : Fld := ⟨0x00021000 + 16 * m, 24, 7⟩
/-! TIM.TSQ_1 (Table 12.8). -/
def TIM.TSQ_1_NS (m : Nat) : Fld := ⟨0x00021004 + 16 * m, 0, 32⟩
/-! TIM.TSQ_2 (Table 12.8). -/
def TIM.TSQ_2_SEC_L (m : Nat) : Fld := ⟨0x00021008 + 16 * m, 0, 32⟩
/-! TIM.TSQ_3 (Table 12.8). -/
def TIM.TSQ_3_SEC_H (m : Nat) : Fld := ⟨0x0002100C + 16 * m, 0, 16⟩
def TIM.TSQ_3_FRAC (m : Nat) : Fld := ⟨0x0002100C + 16 * m, 16, 16⟩
/-! REF.CTL (Table 13.6). -/
def REF.CTL_EN : Fld := ⟨0x00030000, 0, 1⟩
def REF.CTL_REVERT : Fld := ⟨0x00030000, 1, 1⟩
def REF.CTL_FORCE_EN : Fld := ⟨0x00030000, 2, 1⟩
def REF.CTL_FORCE_SEL : Fld := ⟨0x00030000, 4, 3⟩
def REF.CTL_COMP_EN : Fld := ⟨0x00030000, 7, 1⟩
def REF.CTL_L1_BW : Fld := ⟨0x00030000, 8, 2⟩
/-! REF.QUAL_CFG (Table 13.6). -/
def REF.QUAL_CFG_WINDOW : Fld := ⟨0x00030004, 0, 16⟩
def REF.QUAL_CFG_DRIFT : Fld := ⟨0x00030004, 16, 8⟩
/-! REF.TIME_CFG (Table 13.6). -/
def REF.TIME_CFG_PERSIST : Fld := ⟨0x00030008, 0, 8⟩
def REF.TIME_CFG_QUAL_T : Fld := ⟨0x00030008, 8, 8⟩
def REF.TIME_CFG_WTR : Fld := ⟨0x00030008, 16, 8⟩
def REF.TIME_CFG_HIST : Fld := ⟨0x00030008, 24, 8⟩
/-! REF.L2_CFG (Table 13.6). -/
def REF.L2_CFG_SLOPE : Fld := ⟨0x0003000C, 0, 16⟩
def REF.L2_CFG_HOLD_MAX : Fld := ⟨0x0003000C, 16, 16⟩
/-! REF.PRI (Table 13.6). -/
def REF.PRI_PRI_0 : Fld := ⟨0x00030010, 0, 3⟩
def REF.PRI_PRI_1 : Fld := ⟨0x00030010, 4, 3⟩
def REF.PRI_PRI_2 : Fld := ⟨0x00030010, 8, 3⟩
def REF.PRI_PRI_3 : Fld := ⟨0x00030010, 12, 3⟩
def REF.PRI_PRI_4 : Fld := ⟨0x00030010, 16, 3⟩
def REF.PRI_PRI_5 : Fld := ⟨0x00030010, 20, 3⟩
/-! REF.REFIN_CFG (Table 13.7). -/
def REF.REFIN_CFG_KIND (n : Nat) : Fld := ⟨0x00030020 + 4 * n, 0, 2⟩
def REF.REFIN_CFG_EDGE (n : Nat) : Fld := ⟨0x00030020 + 4 * n, 2, 1⟩
def REF.REFIN_CFG_CAD (n : Nat) : Fld := ⟨0x00030020 + 4 * n, 4, 4⟩
def REF.REFIN_CFG_DELAY (n : Nat) : Fld := ⟨0x00030020 + 4 * n, 16, 16⟩
/-! REF.STAT (Table 13.8). -/
def REF.STAT_STATE : Fld := ⟨0x00030040, 0, 2⟩
def REF.STAT_PIN_STATE : Fld := ⟨0x00030040, 2, 2⟩
def REF.STAT_SEL : Fld := ⟨0x00030040, 4, 3⟩
def REF.STAT_L1_LOCK : Fld := ⟨0x00030040, 7, 1⟩
def REF.STAT_HIST_OK : Fld := ⟨0x00030040, 8, 1⟩
def REF.STAT_TH_OK : Fld := ⟨0x00030040, 9, 1⟩
def REF.STAT_CFG_ERR : Fld := ⟨0x00030040, 10, 1⟩
def REF.STAT_PRESENT : Fld := ⟨0x00030040, 16, 6⟩
def REF.STAT_QUAL : Fld := ⟨0x00030040, 24, 6⟩
/-! REF.EVT_STAT (Table 13.8). -/
def REF.EVT_STAT_STATE_CHG : Fld := ⟨0x00030044, 0, 1⟩
def REF.EVT_STAT_SEL_CHG : Fld := ⟨0x00030044, 1, 1⟩
def REF.EVT_STAT_SW_STEP : Fld := ⟨0x00030044, 2, 1⟩
def REF.EVT_STAT_QUAL : Fld := ⟨0x00030044, 3, 1⟩
def REF.EVT_STAT_DISQ : Fld := ⟨0x00030044, 4, 1⟩
def REF.EVT_STAT_HOLD_EXPIRE : Fld := ⟨0x00030044, 5, 1⟩
def REF.EVT_STAT_TH_FAULT : Fld := ⟨0x00030044, 6, 1⟩
def REF.EVT_STAT_CLASS_VIOL : Fld := ⟨0x00030044, 7, 1⟩
/-! REF.CMD (Table 13.8). -/
def REF.CMD_PTP_KEEP : Fld := ⟨0x00030048, 0, 1⟩
def REF.CMD_REQUAL : Fld := ⟨0x00030048, 1, 1⟩
def REF.CMD_LRN_CLR : Fld := ⟨0x00030048, 2, 1⟩
/-! REF.MEAS (Table 13.9). -/
def REF.MEAS_V (n : Nat) : Fld := ⟨0x00030050 + 8 * n, 0, 24⟩
def REF.MEAS_VALID (n : Nat) : Fld := ⟨0x00030050 + 8 * n, 24, 1⟩
def REF.MEAS_WIN_VIOL (n : Nat) : Fld := ⟨0x00030050 + 8 * n, 25, 1⟩
def REF.MEAS_DRIFT_VIOL (n : Nat) : Fld := ⟨0x00030050 + 8 * n, 26, 1⟩
/-! REF.DRIFT (Table 13.9). -/
def REF.DRIFT_D (n : Nat) : Fld := ⟨0x00030054 + 8 * n, 0, 16⟩
/-! REF.MDL_T0 (Table 13.10). -/
def REF.MDL_T0_T0 : Fld := ⟨0x00030080, 0, 16⟩
/-! REF.MDL_C0 (Table 13.10). -/
def REF.MDL_C0_C0 : Fld := ⟨0x00030084, 0, 32⟩
/-! REF.MDL_C1 (Table 13.10). -/
def REF.MDL_C1_C1 : Fld := ⟨0x00030088, 0, 32⟩
/-! REF.MDL_C2 (Table 13.10). -/
def REF.MDL_C2_C2 : Fld := ⟨0x0003008C, 0, 32⟩
/-! REF.MDL_C3 (Table 13.10). -/
def REF.MDL_C3_C3 : Fld := ⟨0x00030090, 0, 32⟩
/-! REF.MDL_AGE (Table 13.10). -/
def REF.MDL_AGE_AGE : Fld := ⟨0x00030094, 0, 32⟩
/-! REF.AGE_DAYS (Table 13.10). -/
def REF.AGE_DAYS_DAYS : Fld := ⟨0x00030098, 0, 16⟩
/-! REF.TH_STAT (Table 13.10). -/
def REF.TH_STAT_T : Fld := ⟨0x0003009C, 0, 16⟩
/-! REF.L1_F (Table 13.10). -/
def REF.L1_F_F : Fld := ⟨0x000300A0, 0, 32⟩
/-! REF.HOLD_F (Table 13.10). -/
def REF.HOLD_F_F_AVG : Fld := ⟨0x000300A4, 0, 32⟩
/-! REF.MDL_M (Table 13.10). -/
def REF.MDL_M_M : Fld := ⟨0x000300A8, 0, 32⟩
/-! REF.LRN_IDX (Table 13.10). -/
def REF.LRN_IDX_IDX : Fld := ⟨0x000300AC, 0, 7⟩
def REF.LRN_IDX_COUNT : Fld := ⟨0x000300AC, 16, 16⟩
/-! REF.LRN_DATA (Table 13.10). -/
def REF.LRN_DATA_MEAN : Fld := ⟨0x000300B0, 0, 32⟩
/-! NVM.BOOT_STAT (Table 16.10). -/
def NVM.BOOT_STAT_STEP : Fld := ⟨0x00040000, 0, 4⟩
def NVM.BOOT_STAT_RUNNING : Fld := ⟨0x00040000, 4, 1⟩
def NVM.BOOT_STAT_HDR : Fld := ⟨0x00040000, 5, 1⟩
def NVM.BOOT_STAT_CAL_USER : Fld := ⟨0x00040000, 6, 1⟩
def NVM.BOOT_STAT_CAL_NONE : Fld := ⟨0x00040000, 7, 1⟩
def NVM.BOOT_STAT_PHASE_B : Fld := ⟨0x00040000, 8, 1⟩
def NVM.BOOT_STAT_UNREF : Fld := ⟨0x00040000, 9, 1⟩
def NVM.BOOT_STAT_BOOT_SRC : Fld := ⟨0x00040000, 10, 1⟩
def NVM.BOOT_STAT_TWIN_ID : Fld := ⟨0x00040000, 11, 1⟩
def NVM.BOOT_STAT_NVM_OWN : Fld := ⟨0x00040000, 12, 1⟩
def NVM.BOOT_STAT_OWN_WAIT : Fld := ⟨0x00040000, 13, 1⟩
def NVM.BOOT_STAT_CHART_RES : Fld := ⟨0x00040000, 16, 4⟩
/-! NVM.EVT_STAT (Table 16.11). -/
def NVM.EVT_STAT_CHART_DONE : Fld := ⟨0x00040004, 0, 1⟩
def NVM.EVT_STAT_CHART_FAIL : Fld := ⟨0x00040004, 1, 1⟩
def NVM.EVT_STAT_CAL_FALLBACK : Fld := ⟨0x00040004, 2, 1⟩
def NVM.EVT_STAT_CAL_NONE : Fld := ⟨0x00040004, 3, 1⟩
def NVM.EVT_STAT_RESTORE_DONE : Fld := ⟨0x00040004, 4, 1⟩
def NVM.EVT_STAT_RESTORE_FAIL : Fld := ⟨0x00040004, 5, 1⟩
def NVM.EVT_STAT_RUNNING : Fld := ⟨0x00040004, 6, 1⟩
def NVM.EVT_STAT_OWN_CHG : Fld := ⟨0x00040004, 7, 1⟩
/-! NVM.CMD (Table 16.11). -/
def NVM.CMD_PHASE_B : Fld := ⟨0x00040008, 0, 1⟩
def NVM.CMD_RESTORE_FACTORY : Fld := ⟨0x00040008, 1, 1⟩
/-! NVM.CHART_POS (Table 16.10). -/
def NVM.CHART_POS_POS : Fld := ⟨0x0004000C, 0, 32⟩
/-! KEY.SLOT_SEL (Table 18.7). -/
def KEY.SLOT_SEL_SEL : Fld := ⟨0x00050000, 0, 5⟩
/-! KEY.EVT_STAT (Table 18.7). -/
def KEY.EVT_STAT_SEL_RANGE : Fld := ⟨0x00050004, 0, 1⟩
def KEY.EVT_STAT_SLOT_BAD : Fld := ⟨0x00050004, 1, 1⟩
def KEY.EVT_STAT_REPLACED : Fld := ⟨0x00050004, 2, 1⟩
def KEY.EVT_STAT_REPL_FAIL : Fld := ⟨0x00050004, 3, 1⟩
def KEY.EVT_STAT_VERIFY_OK : Fld := ⟨0x00050004, 4, 1⟩
def KEY.EVT_STAT_VERIFY_FAIL : Fld := ⟨0x00050004, 5, 1⟩
def KEY.EVT_STAT_ACT_SCHED : Fld := ⟨0x00050004, 6, 1⟩
def KEY.EVT_STAT_ACT_DONE : Fld := ⟨0x00050004, 7, 1⟩
def KEY.EVT_STAT_ACT_LOST : Fld := ⟨0x00050004, 8, 1⟩
/-! KEY.STAT (Table 18.7). -/
def KEY.STAT_DEBUG : Fld := ⟨0x00050008, 0, 1⟩
def KEY.STAT_COPY : Fld := ⟨0x00050008, 1, 1⟩
def KEY.STAT_COPY_NONE : Fld := ⟨0x00050008, 2, 1⟩
def KEY.STAT_STAGE : Fld := ⟨0x00050008, 4, 3⟩
def KEY.STAT_ACT_RESULT : Fld := ⟨0x00050008, 8, 2⟩
/-! KEY.DBG_CTL (Table 18.7). -/
def KEY.DBG_CTL_REQ : Fld := ⟨0x0005000C, 0, 1⟩
def KEY.DBG_CTL_CLR : Fld := ⟨0x0005000C, 1, 1⟩
/-! KEY.COPY_GEN (Table 18.7). -/
def KEY.COPY_GEN_GEN : Fld := ⟨0x00050010, 0, 32⟩
/-! KEY.STAGE_LEN (Table 18.8). -/
def KEY.STAGE_LEN_LEN : Fld := ⟨0x00050014, 0, 25⟩
/-! KEY.ACT_NS (Table 18.8). -/
def KEY.ACT_NS_NS : Fld := ⟨0x00050018, 0, 32⟩
/-! KEY.ACT_SEC_LO (Table 18.8). -/
def KEY.ACT_SEC_LO_SEC_L : Fld := ⟨0x0005001C, 0, 32⟩
/-! KEY.ACT_SEC_HI (Table 18.8). -/
def KEY.ACT_SEC_HI_SEC_H : Fld := ⟨0x00050020, 0, 16⟩
/-! KEY.SLOT_ATTR (Table 18.9). -/
def KEY.SLOT_ATTR_USAGE : Fld := ⟨0x00050100, 0, 2⟩
def KEY.SLOT_ATTR_OWNER : Fld := ⟨0x00050100, 2, 2⟩
def KEY.SLOT_ATTR_REPL : Fld := ⟨0x00050100, 4, 2⟩
def KEY.SLOT_ATTR_STATE : Fld := ⟨0x00050100, 6, 2⟩
/-! KEY.SLOT_GEN (Table 18.9). -/
def KEY.SLOT_GEN_GEN : Fld := ⟨0x00050104, 0, 32⟩
/-! KEY.SLOT_FP (Table 18.9). -/
def KEY.SLOT_FP_FP : Fld := ⟨0x00050108, 0, 32⟩
/-! MGT.STAT (Table 17.12). -/
def MGT.STAT_BOOTROM : Fld := ⟨0x00060000, 0, 1⟩
def MGT.STAT_FW_RUN : Fld := ⟨0x00060000, 1, 1⟩
/-! MGT.EVT_STAT (Table 17.12). -/
def MGT.EVT_STAT_MBX_DONE : Fld := ⟨0x00060004, 0, 1⟩
def MGT.EVT_STAT_MBX_BUSY : Fld := ⟨0x00060004, 1, 1⟩
def MGT.EVT_STAT_MBX_LOST : Fld := ⟨0x00060004, 2, 1⟩
def MGT.EVT_STAT_CTRL_UP : Fld := ⟨0x00060004, 3, 1⟩
def MGT.EVT_STAT_CLASS_VIOL : Fld := ⟨0x00060004, 4, 1⟩
/-! MGT.MBX_CFG (Table 17.12). -/
def MGT.MBX_CFG_RING_EN : Fld := ⟨0x00060008, 0, 1⟩
def MGT.MBX_CFG_REQ_Q : Fld := ⟨0x00060008, 1, 14⟩
def MGT.MBX_CFG_RSP_Q : Fld := ⟨0x00060008, 16, 14⟩
/-! MGT.MBX_DB (Table 17.12). -/
def MGT.MBX_DB_GO : Fld := ⟨0x0006000C, 0, 1⟩
/-! MGT.MBX_STAT (Table 17.12). -/
def MGT.MBX_STAT_BUSY : Fld := ⟨0x00060010, 0, 1⟩
/-! MGT.MBX_REQ (Table 17.12). -/
def MGT.MBX_REQ_DATA (k : Nat) : Fld := ⟨0x00060100 + 4 * k, 0, 32⟩
/-! MGT.MBX_RSP (Table 17.12). -/
def MGT.MBX_RSP_DATA (k : Nat) : Fld := ⟨0x00060140 + 4 * k, 0, 32⟩
/-! BUS.EVT_STAT (Table 17.13). -/
def BUS.EVT_STAT_DECODE_MISS : Fld := ⟨0x00070000, 0, 1⟩
def BUS.EVT_STAT_TMO : Fld := ⟨0x00070000, 1, 1⟩
def BUS.EVT_STAT_VIOL : Fld := ⟨0x00070000, 2, 1⟩
/-! BUS.MISS_INFO (Table 17.13). -/
def BUS.MISS_INFO_MASTER : Fld := ⟨0x00070004, 0, 3⟩
def BUS.MISS_INFO_WRITE : Fld := ⟨0x00070004, 3, 1⟩
def BUS.MISS_INFO_VALID : Fld := ⟨0x00070004, 4, 1⟩
def BUS.MISS_INFO_COUNT : Fld := ⟨0x00070004, 16, 16⟩
/-! BUS.MISS_ADDR (Table 17.13). -/
def BUS.MISS_ADDR_OFS : Fld := ⟨0x00070008, 0, 24⟩
/-! BUS.VIOL_INFO (Table 17.13). -/
def BUS.VIOL_INFO_MASTER : Fld := ⟨0x0007000C, 0, 3⟩
def BUS.VIOL_INFO_WRITE : Fld := ⟨0x0007000C, 3, 1⟩
def BUS.VIOL_INFO_VALID : Fld := ⟨0x0007000C, 4, 1⟩
def BUS.VIOL_INFO_COUNT : Fld := ⟨0x0007000C, 16, 16⟩
/-! BUS.VIOL_ADDR (Table 17.13). -/
def BUS.VIOL_ADDR_OFS : Fld := ⟨0x00070010, 0, 24⟩
/-! BUS.CMD (Table 17.13). -/
def BUS.CMD_CLR : Fld := ⟨0x00070014, 0, 1⟩
/-! EVT.SRC_SEL (Table 17.10). -/
def EVT.SRC_SEL_SEL : Fld := ⟨0x00080000, 0, 9⟩
/-! EVT.BLK_EVT (Table 17.10). -/
def EVT.BLK_EVT_SEL_RANGE : Fld := ⟨0x00080004, 0, 1⟩
def EVT.BLK_EVT_CLASS_VIOL : Fld := ⟨0x00080004, 1, 1⟩
def EVT.BLK_EVT_RING_DROP : Fld := ⟨0x00080004, 2, 1⟩
/-! EVT.SOFT (Table 17.10). -/
def EVT.SOFT_IDX : Fld := ⟨0x00080008, 0, 7⟩
def EVT.SOFT_SET : Fld := ⟨0x00080008, 8, 1⟩
def EVT.SOFT_CLR : Fld := ⟨0x00080008, 9, 1⟩
/-! EVT.RING (Table 17.10). -/
def EVT.RING_Q : Fld := ⟨0x0008000C, 0, 14⟩
def EVT.RING_EN : Fld := ⟨0x0008000C, 15, 1⟩
/-! EVT.PEND (Table 17.10). -/
def EVT.PEND_PEND (i : Nat) : Fld := ⟨0x00080010 + 4 * i, 0, 32⟩
/-! EVT.PIN_EN (Table 17.10). -/
def EVT.PIN_EN_EN : Fld := ⟨0x00080050, 0, 4⟩
/-! EVT.VEC_ACK_0 (Table 17.10). -/
def EVT.VEC_ACK_0_ACK : Fld := ⟨0x00080058, 0, 32⟩
/-! EVT.VEC_ACK_1 (Table 17.10). -/
def EVT.VEC_ACK_1_ACK : Fld := ⟨0x0008005C, 0, 32⟩
/-! EVT.VEC_ARM_0 (Table 17.10). -/
def EVT.VEC_ARM_0_ARMED : Fld := ⟨0x00080060, 0, 32⟩
/-! EVT.VEC_ARM_1 (Table 17.10). -/
def EVT.VEC_ARM_1_ARMED : Fld := ⟨0x00080064, 0, 32⟩
/-! EVT.SRC_CFG (Table 17.11). -/
def EVT.SRC_CFG_VEC : Fld := ⟨0x00080100, 0, 6⟩
def EVT.SRC_CFG_VEC_EN : Fld := ⟨0x00080100, 6, 1⟩
def EVT.SRC_CFG_PINS : Fld := ⟨0x00080100, 8, 4⟩
def EVT.SRC_CFG_RING : Fld := ⟨0x00080100, 12, 1⟩
/-! EVT.SRC_MASK (Table 17.11). -/
def EVT.SRC_MASK_MASK : Fld := ⟨0x00080104, 0, 32⟩
/-! EVT.SRC_MAP (Table 17.11). -/
def EVT.SRC_MAP_MAP : Fld := ⟨0x00080108, 0, 32⟩
/-! LOG.CTR_SEL (Table 20.4). -/
def LOG.CTR_SEL_SEL : Fld := ⟨0x00090000, 0, 11⟩
/-! LOG.BLK_EVT (Table 20.4). -/
def LOG.BLK_EVT_SEL_RANGE : Fld := ⟨0x00090004, 0, 1⟩
def LOG.BLK_EVT_CLASS_VIOL : Fld := ⟨0x00090004, 1, 1⟩
def LOG.BLK_EVT_WIN_END : Fld := ⟨0x00090004, 2, 1⟩
def LOG.BLK_EVT_PEAK_NEW : Fld := ⟨0x00090004, 3, 1⟩
def LOG.BLK_EVT_SNAP_DONE : Fld := ⟨0x00090004, 4, 1⟩
def LOG.BLK_EVT_FROZEN_ON : Fld := ⟨0x00090004, 5, 1⟩
/-! LOG.CTL (Table 20.4). -/
def LOG.CTL_FREEZE : Fld := ⟨0x00090008, 0, 1⟩
def LOG.CTL_BW_EN : Fld := ⟨0x00090008, 1, 1⟩
def LOG.CTL_FRZ_TRIG_EN : Fld := ⟨0x00090008, 2, 1⟩
def LOG.CTL_FRZ_TRIG : Fld := ⟨0x00090008, 4, 3⟩
def LOG.CTL_SNAP_TRIG_EN : Fld := ⟨0x00090008, 7, 1⟩
def LOG.CTL_SNAP_TRIG : Fld := ⟨0x00090008, 8, 3⟩
/-! LOG.BW_WIN (Table 20.4). -/
def LOG.BW_WIN_WIN_NS : Fld := ⟨0x0009000C, 0, 32⟩
/-! LOG.CMD (Table 20.4). -/
def LOG.CMD_SNAPSHOT : Fld := ⟨0x00090010, 0, 1⟩
def LOG.CMD_CLR_ALL : Fld := ⟨0x00090010, 1, 1⟩
def LOG.CMD_PEAK_CLR : Fld := ⟨0x00090010, 2, 1⟩
/-! LOG.STAT (Table 20.4). -/
def LOG.STAT_FROZEN : Fld := ⟨0x00090014, 0, 1⟩
def LOG.STAT_BW_RUN : Fld := ⟨0x00090014, 1, 1⟩
def LOG.STAT_WSEQ : Fld := ⟨0x00090014, 8, 24⟩
/-! LOG.SNAP_SEQ (Table 20.4). -/
def LOG.SNAP_SEQ_SEQ : Fld := ⟨0x00090018, 0, 32⟩
/-! LOG.SNAP_NS (Table 20.4). -/
def LOG.SNAP_NS_NS : Fld := ⟨0x0009001C, 0, 32⟩
/-! LOG.SNAP_SEC_LO (Table 20.4). -/
def LOG.SNAP_SEC_LO_SEC_L : Fld := ⟨0x00090020, 0, 32⟩
/-! LOG.SNAP_SEC_HI (Table 20.4). -/
def LOG.SNAP_SEC_HI_SEC_H : Fld := ⟨0x00090024, 0, 16⟩
/-! LOG.CTR_LO (Table 20.5). -/
def LOG.CTR_LO_COUNT_L : Fld := ⟨0x00090100, 0, 32⟩
/-! LOG.CTR_HI (Table 20.5). -/
def LOG.CTR_HI_COUNT_H : Fld := ⟨0x00090104, 0, 16⟩
/-! LOG.SNAP_LO (Table 20.5). -/
def LOG.SNAP_LO_SNAP_L : Fld := ⟨0x00090108, 0, 32⟩
/-! LOG.SNAP_HI (Table 20.5). -/
def LOG.SNAP_HI_SNAP_H : Fld := ⟨0x0009010C, 0, 16⟩
/-! LOG.BW_LAST_LO (Table 20.6). -/
def LOG.BW_LAST_LO_LAST_L (i : Nat) : Fld := ⟨0x00091000 + 16 * i, 0, 32⟩
/-! LOG.BW_LAST_HI (Table 20.6). -/
def LOG.BW_LAST_HI_LAST_H (i : Nat) : Fld := ⟨0x00091004 + 16 * i, 0, 16⟩
/-! LOG.BW_PEAK_LO (Table 20.6). -/
def LOG.BW_PEAK_LO_PEAK_L (i : Nat) : Fld := ⟨0x00091008 + 16 * i, 0, 32⟩
/-! LOG.BW_PEAK_HI (Table 20.6). -/
def LOG.BW_PEAK_HI_PEAK_H (i : Nat) : Fld := ⟨0x0009100C + 16 * i, 0, 16⟩
/-! LNG.GRP_SEL (Table 2.9). -/
def LNG.GRP_SEL_SEL : Fld := ⟨0x00100000, 0, 6⟩
/-! LNG.BLK_EVT (Table 2.10). -/
def LNG.BLK_EVT_SEL_RANGE : Fld := ⟨0x00100004, 0, 1⟩
def LNG.BLK_EVT_CLASS_VIOL : Fld := ⟨0x00100004, 1, 1⟩
/-! LNG.RX_UP_0 (Table 2.11). -/
def LNG.RX_UP_0_UP : Fld := ⟨0x00100008, 0, 32⟩
/-! LNG.RX_UP_1 (Table 2.11). -/
def LNG.RX_UP_1_UP : Fld := ⟨0x0010000C, 0, 5⟩
/-! LNG.GRP_CTL (Table 2.12). -/
def LNG.GRP_CTL_RX_REQ : Fld := ⟨0x00100100, 0, 2⟩
def LNG.GRP_CTL_TX_REQ : Fld := ⟨0x00100100, 2, 2⟩
def LNG.GRP_CTL_MODE : Fld := ⟨0x00100100, 4, 1⟩
def LNG.GRP_CTL_RETRAIN_AUTO : Fld := ⟨0x00100100, 5, 1⟩
def LNG.GRP_CTL_TRQ_EN : Fld := ⟨0x00100100, 6, 1⟩
/-! LNG.GRP_STAT (Table 2.13). -/
def LNG.GRP_STAT_RX_STATE : Fld := ⟨0x00100104, 0, 4⟩
def LNG.GRP_STAT_TX_STATE : Fld := ⟨0x00100104, 4, 4⟩
def LNG.GRP_STAT_CLK_LOS : Fld := ⟨0x00100104, 8, 1⟩
def LNG.GRP_STAT_CLK_LOL : Fld := ⟨0x00100104, 9, 1⟩
def LNG.GRP_STAT_SHED : Fld := ⟨0x00100104, 10, 1⟩
def LNG.GRP_STAT_LANE_LOCK : Fld := ⟨0x00100104, 16, 8⟩
/-! LNG.ERR_CFG (Table 2.14). -/
def LNG.ERR_CFG_HDR_THR : Fld := ⟨0x00100108, 0, 8⟩
def LNG.ERR_CFG_MRK_THR : Fld := ⟨0x00100108, 8, 4⟩
/-! LNG.TX_EQ (Table 2.15). -/
def LNG.TX_EQ_PRE : Fld := ⟨0x0010010C, 0, 5⟩
def LNG.TX_EQ_POST : Fld := ⟨0x0010010C, 8, 5⟩
def LNG.TX_EQ_SWING : Fld := ⟨0x0010010C, 16, 4⟩
/-! LNG.RX_CFG (Table 2.16). -/
def LNG.RX_CFG_LOS_THR : Fld := ⟨0x00100110, 0, 4⟩
def LNG.RX_CFG_ADAPT_LIVE : Fld := ⟨0x00100110, 4, 1⟩
/-! LNG.ROLE_RX (Table 2.17). -/
def LNG.ROLE_RX_ROLE : Fld := ⟨0x00100114, 0, 2⟩
def LNG.ROLE_RX_HEALTHY : Fld := ⟨0x00100114, 2, 1⟩
def LNG.ROLE_RX_TWIN_ID : Fld := ⟨0x00100114, 3, 1⟩
def LNG.ROLE_RX_RXUP : Fld := ⟨0x00100114, 4, 1⟩
def LNG.ROLE_RX_TRQ : Fld := ⟨0x00100114, 5, 1⟩
def LNG.ROLE_RX_SHED : Fld := ⟨0x00100114, 6, 1⟩
def LNG.ROLE_RX_VALID : Fld := ⟨0x00100114, 7, 1⟩
def LNG.ROLE_RX_ROLE_SEQ : Fld := ⟨0x00100114, 8, 8⟩
def LNG.ROLE_RX_SYSID : Fld := ⟨0x00100114, 16, 16⟩
/-! LNG.SKEW_STAT (Table 2.18). -/
def LNG.SKEW_STAT_SKEW : Fld := ⟨0x00100118, 0, 12⟩
def LNG.SKEW_STAT_LATE_LANE : Fld := ⟨0x00100118, 12, 3⟩
def LNG.SKEW_STAT_SKEW_VALID : Fld := ⟨0x00100118, 31, 1⟩
/-! LNG.EVT_STAT (Table 2.19). -/
def LNG.EVT_STAT_UP : Fld := ⟨0x0010011C, 0, 1⟩
def LNG.EVT_STAT_DOWN : Fld := ⟨0x0010011C, 1, 1⟩
def LNG.EVT_STAT_LOS : Fld := ⟨0x0010011C, 2, 1⟩
def LNG.EVT_STAT_LOL : Fld := ⟨0x0010011C, 3, 1⟩
def LNG.EVT_STAT_SKEW_FAIL : Fld := ⟨0x0010011C, 4, 1⟩
def LNG.EVT_STAT_RETRAIN : Fld := ⟨0x0010011C, 5, 1⟩
def LNG.EVT_STAT_ROLE_CHG : Fld := ⟨0x0010011C, 6, 1⟩
def LNG.EVT_STAT_REST_RX : Fld := ⟨0x0010011C, 7, 1⟩
def LNG.EVT_STAT_TRQ_RX : Fld := ⟨0x0010011C, 8, 1⟩
/-! LNG.CNT_HDR (Table 2.20). -/
def LNG.CNT_HDR_COUNT : Fld := ⟨0x00100120, 0, 32⟩
/-! LNG.CNT_MRK (Table 2.20). -/
def LNG.CNT_MRK_COUNT : Fld := ⟨0x00100124, 0, 32⟩
/-! LNG.CNT_CTL (Table 2.20). -/
def LNG.CNT_CTL_COUNT : Fld := ⟨0x00100128, 0, 32⟩
/-! LNG.CNT_SLIP (Table 2.20). -/
def LNG.CNT_SLIP_COUNT : Fld := ⟨0x0010012C, 0, 32⟩
/-! LNG.CNT_DOWN (Table 2.20). -/
def LNG.CNT_DOWN_COUNT : Fld := ⟨0x00100130, 0, 32⟩
/-! LNG.CMD (Table 2.21). -/
def LNG.CMD_CNT_CLR : Fld := ⟨0x00100140, 0, 1⟩
def LNG.CMD_FORCE_RETRAIN : Fld := ⟨0x00100140, 1, 1⟩
def LNG.CMD_FORCE_TRAIN : Fld := ⟨0x00100140, 2, 1⟩
/-! XP.OUT_SEL (Table 4.5). -/
def XP.OUT_SEL_SEL : Fld := ⟨0x00200000, 0, 11⟩
/-! XP.BLK_EVT (Table 4.6). -/
def XP.BLK_EVT_SEL_RANGE : Fld := ⟨0x00200004, 0, 1⟩
def XP.BLK_EVT_CLASS_VIOL : Fld := ⟨0x00200004, 1, 1⟩
def XP.BLK_EVT_INV_SRC : Fld := ⟨0x00200004, 2, 1⟩
/-! XP.BLK_STAT (Table 4.7). -/
def XP.BLK_STAT_SHED_H : Fld := ⟨0x00200008, 0, 3⟩
def XP.BLK_STAT_SUB_NUM : Fld := ⟨0x00200008, 16, 11⟩
/-! XP.ROUTE (Table 4.8). -/
def XP.ROUTE_SRC : Fld := ⟨0x00200100, 0, 11⟩
/-! XP.OUT_POL (Table 4.9). -/
def XP.OUT_POL_POLICY : Fld := ⟨0x00200104, 0, 2⟩
def XP.OUT_POL_RET_FRAMES : Fld := ⟨0x00200104, 4, 4⟩
def XP.OUT_POL_SHED_PRI : Fld := ⟨0x00200104, 8, 3⟩
/-! XP.SRC_STAT (Table 4.10). -/
def XP.SRC_STAT_SRC_ACT : Fld := ⟨0x00200108, 0, 11⟩
def XP.SRC_STAT_INVALID : Fld := ⟨0x00200108, 11, 1⟩
def XP.SRC_STAT_PRESENT : Fld := ⟨0x00200108, 12, 1⟩
def XP.SRC_STAT_SYNCED : Fld := ⟨0x00200108, 13, 1⟩
def XP.SRC_STAT_TRIG : Fld := ⟨0x00200108, 14, 1⟩
def XP.SRC_STAT_GEN : Fld := ⟨0x00200108, 15, 1⟩
def XP.SRC_STAT_CAUSE : Fld := ⟨0x00200108, 16, 3⟩
def XP.SRC_STAT_SHED : Fld := ⟨0x00200108, 19, 1⟩
def XP.SRC_STAT_FRZ_NA : Fld := ⟨0x00200108, 20, 1⟩
def XP.SRC_STAT_FMT_MM : Fld := ⟨0x00200108, 21, 1⟩
def XP.SRC_STAT_PROC : Fld := ⟨0x00200108, 22, 1⟩
def XP.SRC_STAT_LAT : Fld := ⟨0x00200108, 24, 5⟩
/-! XP.EVT_STAT (Table 4.11). -/
def XP.EVT_STAT_SUB_START : Fld := ⟨0x0020010C, 0, 1⟩
def XP.EVT_STAT_SUB_END : Fld := ⟨0x0020010C, 1, 1⟩
def XP.EVT_STAT_SRC_INV : Fld := ⟨0x0020010C, 2, 1⟩
def XP.EVT_STAT_SHED_ON : Fld := ⟨0x0020010C, 3, 1⟩
def XP.EVT_STAT_SHED_OFF : Fld := ⟨0x0020010C, 4, 1⟩
def XP.EVT_STAT_FRZ_NA : Fld := ⟨0x0020010C, 5, 1⟩
def XP.EVT_STAT_SRC_CHG : Fld := ⟨0x0020010C, 6, 1⟩
/-! XP.CNT_SUB (Table 4.12). -/
def XP.CNT_SUB_COUNT : Fld := ⟨0x00200110, 0, 32⟩
/-! XP.CMD (Table 4.13). -/
def XP.CMD_CNT_CLR : Fld := ⟨0x00200114, 0, 1⟩
/-! SLP.SLOT_SEL (Table 3.7). -/
def SLP.SLOT_SEL_SEL : Fld := ⟨0x00300000, 0, 11⟩
/-! SLP.BLK_EVT (Table 3.8). -/
def SLP.BLK_EVT_SEL_RANGE : Fld := ⟨0x00300004, 0, 1⟩
def SLP.BLK_EVT_CLASS_VIOL : Fld := ⟨0x00300004, 1, 1⟩
/-! SLP.IN_CFG (Table 3.9). -/
def SLP.IN_CFG_IN_EN : Fld := ⟨0x00300100, 0, 1⟩
def SLP.IN_CFG_LOSS_LINES : Fld := ⟨0x00300100, 1, 3⟩
def SLP.IN_CFG_CRC_CHK : Fld := ⟨0x00300100, 4, 1⟩
def SLP.IN_CFG_AUTO_FMT : Fld := ⟨0x00300100, 5, 1⟩
def SLP.IN_CFG_EXP_FMT : Fld := ⟨0x00300100, 8, 6⟩
def SLP.IN_CFG_CAD : Fld := ⟨0x00300100, 16, 4⟩
def SLP.IN_CFG_QUAD : Fld := ⟨0x00300100, 20, 1⟩
/-! SLP.IN_AUD (Table 3.10). -/
def SLP.IN_AUD_GRP_0 : Fld := ⟨0x00300104, 0, 4⟩
def SLP.IN_AUD_GRP_1 : Fld := ⟨0x00300104, 4, 4⟩
def SLP.IN_AUD_GRP_2 : Fld := ⟨0x00300104, 8, 4⟩
def SLP.IN_AUD_GRP_3 : Fld := ⟨0x00300104, 12, 4⟩
/-! SLP.TA_CFG (Table 3.11). -/
def SLP.TA_CFG_TOL : Fld := ⟨0x00300108, 0, 16⟩
/-! SLP.OUT_CFG (Table 3.12). -/
def SLP.OUT_CFG_OUT_EN : Fld := ⟨0x00300110, 0, 1⟩
def SLP.OUT_CFG_AUD_EMB : Fld := ⟨0x00300110, 1, 1⟩
def SLP.OUT_CFG_ANC_RBLD : Fld := ⟨0x00300110, 2, 1⟩
def SLP.OUT_CFG_OUT_FMT : Fld := ⟨0x00300110, 8, 6⟩
def SLP.OUT_CFG_OUT_CAD : Fld := ⟨0x00300110, 16, 4⟩
/-! SLP.OUT_AUD (Table 3.10). -/
def SLP.OUT_AUD_GRP_0 : Fld := ⟨0x00300114, 0, 4⟩
def SLP.OUT_AUD_GRP_1 : Fld := ⟨0x00300114, 4, 4⟩
def SLP.OUT_AUD_GRP_2 : Fld := ⟨0x00300114, 8, 4⟩
def SLP.OUT_AUD_GRP_3 : Fld := ⟨0x00300114, 12, 4⟩
/-! SLP.ANC_Q (Table 3.13). -/
def SLP.ANC_Q_CAP_Q : Fld := ⟨0x00300118, 0, 14⟩
def SLP.ANC_Q_CAP_EN : Fld := ⟨0x00300118, 15, 1⟩
def SLP.ANC_Q_INS_Q : Fld := ⟨0x00300118, 16, 14⟩
def SLP.ANC_Q_INS_EN : Fld := ⟨0x00300118, 31, 1⟩
/-! SLP.ANC_FLT (Table 3.14). -/
def SLP.ANC_FLT_DID (n : Nat) : Fld := ⟨0x00300120 + 4 * n, 0, 8⟩
def SLP.ANC_FLT_SDID (n : Nat) : Fld := ⟨0x00300120 + 4 * n, 8, 8⟩
def SLP.ANC_FLT_SDID_ANY (n : Nat) : Fld := ⟨0x00300120 + 4 * n, 16, 1⟩
def SLP.ANC_FLT_CAP (n : Nat) : Fld := ⟨0x00300120 + 4 * n, 17, 1⟩
def SLP.ANC_FLT_DEL (n : Nat) : Fld := ⟨0x00300120 + 4 * n, 18, 1⟩
def SLP.ANC_FLT_EN (n : Nat) : Fld := ⟨0x00300120 + 4 * n, 19, 1⟩
/-! SLP.IN_STAT (Table 3.15). -/
def SLP.IN_STAT_PARSE : Fld := ⟨0x00300180, 0, 2⟩
def SLP.IN_STAT_PRESENT : Fld := ⟨0x00300180, 2, 1⟩
def SLP.IN_STAT_TIMED : Fld := ⟨0x00300180, 3, 1⟩
def SLP.IN_STAT_RATE_MM : Fld := ⟨0x00300180, 4, 1⟩
def SLP.IN_STAT_PID_VALID : Fld := ⟨0x00300180, 5, 1⟩
def SLP.IN_STAT_FMT_MM : Fld := ⟨0x00300180, 6, 1⟩
def SLP.IN_STAT_LINK_OK : Fld := ⟨0x00300180, 7, 1⟩
def SLP.IN_STAT_DET_FMT : Fld := ⟨0x00300180, 8, 6⟩
def SLP.IN_STAT_DIV : Fld := ⟨0x00300180, 14, 1⟩
def SLP.IN_STAT_AUD_RATE : Fld := ⟨0x00300180, 15, 1⟩
def SLP.IN_STAT_SRC_ABSENT : Fld := ⟨0x00300180, 16, 1⟩
/-! SLP.TA_OFS (Table 3.16). -/
def SLP.TA_OFS_OFS_LINES : Fld := ⟨0x00300184, 0, 12⟩
def SLP.TA_OFS_VALID : Fld := ⟨0x00300184, 15, 1⟩
def SLP.TA_OFS_OFS_WORDS : Fld := ⟨0x00300184, 16, 16⟩
/-! SLP.TA_OFS_NS (Table 3.16). -/
def SLP.TA_OFS_NS_OFS_NS : Fld := ⟨0x00300188, 0, 32⟩
/-! SLP.PID (Table 3.17). -/
def SLP.PID_PID : Fld := ⟨0x0030018C, 0, 32⟩
/-! SLP.OUT_STAT (Table 3.18). -/
def SLP.OUT_STAT_GEN : Fld := ⟨0x00300190, 0, 1⟩
def SLP.OUT_STAT_SRC_PRESENT : Fld := ⟨0x00300190, 1, 1⟩
def SLP.OUT_STAT_OUT_FMT_MM : Fld := ⟨0x00300190, 2, 1⟩
/-! SLP.EVT_STAT (Table 3.19). -/
def SLP.EVT_STAT_LOCK : Fld := ⟨0x00300194, 0, 1⟩
def SLP.EVT_STAT_UNLOCK : Fld := ⟨0x00300194, 1, 1⟩
def SLP.EVT_STAT_FMT_CHG : Fld := ⟨0x00300194, 2, 1⟩
def SLP.EVT_STAT_PID_CHG : Fld := ⟨0x00300194, 3, 1⟩
def SLP.EVT_STAT_TIMED_CHG : Fld := ⟨0x00300194, 4, 1⟩
def SLP.EVT_STAT_LINK_FAIL : Fld := ⟨0x00300194, 5, 1⟩
def SLP.EVT_STAT_AUD_SLIP : Fld := ⟨0x00300194, 6, 1⟩
def SLP.EVT_STAT_ANC_DROP : Fld := ⟨0x00300194, 7, 1⟩
def SLP.EVT_STAT_GEN_START : Fld := ⟨0x00300194, 8, 1⟩
def SLP.EVT_STAT_GEN_END : Fld := ⟨0x00300194, 9, 1⟩
def SLP.EVT_STAT_PHASE_JUMP : Fld := ⟨0x00300194, 10, 1⟩
def SLP.EVT_STAT_INS_DISCARD : Fld := ⟨0x00300194, 11, 1⟩
/-! SLP.CNT_CRC (Table 3.20). -/
def SLP.CNT_CRC_COUNT : Fld := ⟨0x003001A0, 0, 32⟩
/-! SLP.CNT_TRS (Table 3.20). -/
def SLP.CNT_TRS_COUNT : Fld := ⟨0x003001A4, 0, 32⟩
/-! SLP.CNT_AUD_SLIP (Table 3.20). -/
def SLP.CNT_AUD_SLIP_COUNT : Fld := ⟨0x003001A8, 0, 32⟩
/-! SLP.CNT_ANC_DROP (Table 3.20). -/
def SLP.CNT_ANC_DROP_COUNT : Fld := ⟨0x003001AC, 0, 32⟩
/-! SLP.CNT_FILL (Table 3.20). -/
def SLP.CNT_FILL_COUNT : Fld := ⟨0x003001B0, 0, 32⟩
/-! SLP.CMD (Table 3.21). -/
def SLP.CMD_CNT_CLR : Fld := ⟨0x003001C0, 0, 1⟩
/-! MAC.PORT_SEL (Table 6.4). -/
def MAC.PORT_SEL_SEL : Fld := ⟨0x00400000, 0, 6⟩
/-! MAC.BLK_EVT (Table 6.5). -/
def MAC.BLK_EVT_SEL_RANGE : Fld := ⟨0x00400004, 0, 1⟩
def MAC.BLK_EVT_CLASS_VIOL : Fld := ⟨0x00400004, 1, 1⟩
/-! MAC.PORT_CFG (Table 6.6). -/
def MAC.PORT_CFG_SPLIT : Fld := ⟨0x00400100, 0, 2⟩
def MAC.PORT_CFG_PHY : Fld := ⟨0x00400100, 2, 2⟩
def MAC.PORT_CFG_AN_EN : Fld := ⟨0x00400100, 4, 1⟩
/-! MAC.CFG (Table 6.7). -/
def MAC.CFG_EN : Fld := ⟨0x00400104, 0, 1⟩
def MAC.CFG_PROMISC : Fld := ⟨0x00400104, 1, 1⟩
def MAC.CFG_ALL_MC : Fld := ⟨0x00400104, 2, 1⟩
def MAC.CFG_BCAST : Fld := ⟨0x00400104, 3, 1⟩
def MAC.CFG_MAX_LEN : Fld := ⟨0x00400104, 16, 14⟩
/-! MAC.ADDR_LO (Table 6.8). -/
def MAC.ADDR_LO_ADDR_L : Fld := ⟨0x00400108, 0, 32⟩
/-! MAC.ADDR_HI (Table 6.8). -/
def MAC.ADDR_HI_ADDR_H : Fld := ⟨0x0040010C, 0, 16⟩
/-! MAC.VLAN_CFG (Table 6.9). -/
def MAC.VLAN_CFG_PVID : Fld := ⟨0x00400110, 0, 12⟩
def MAC.VLAN_CFG_VLAN_FILT : Fld := ⟨0x00400110, 12, 1⟩
def MAC.VLAN_CFG_UNTAG_OK : Fld := ⟨0x00400110, 13, 1⟩
/-! MAC.PCP_MAP (Table 6.10). -/
def MAC.PCP_MAP_TC_0 : Fld := ⟨0x00400114, 0, 3⟩
def MAC.PCP_MAP_TC_1 : Fld := ⟨0x00400114, 3, 3⟩
def MAC.PCP_MAP_TC_2 : Fld := ⟨0x00400114, 6, 3⟩
def MAC.PCP_MAP_TC_3 : Fld := ⟨0x00400114, 9, 3⟩
def MAC.PCP_MAP_TC_4 : Fld := ⟨0x00400114, 12, 3⟩
def MAC.PCP_MAP_TC_5 : Fld := ⟨0x00400114, 15, 3⟩
def MAC.PCP_MAP_TC_6 : Fld := ⟨0x00400114, 18, 3⟩
def MAC.PCP_MAP_TC_7 : Fld := ⟨0x00400114, 21, 3⟩
/-! MAC.TX_CT (Table 6.11). -/
def MAC.TX_CT_THR : Fld := ⟨0x00400118, 0, 6⟩
/-! MAC.VLAN (Table 6.12). -/
def MAC.VLAN_VID (n : Nat) : Fld := ⟨0x00400120 + 4 * n, 0, 12⟩
def MAC.VLAN_EN (n : Nat) : Fld := ⟨0x00400120 + 4 * n, 15, 1⟩
/-! MAC.GATE_CTL (Table 6.13). -/
def MAC.GATE_CTL_GATE_EN : Fld := ⟨0x00400160, 0, 1⟩
def MAC.GATE_CTL_CFG_CHANGE : Fld := ⟨0x00400160, 1, 1⟩
def MAC.GATE_CTL_INIT_STATES : Fld := ⟨0x00400160, 8, 8⟩
def MAC.GATE_CTL_ADMIN_LEN : Fld := ⟨0x00400160, 16, 7⟩
/-! MAC.GATE_BASE_NS (Table 6.14). -/
def MAC.GATE_BASE_NS_NS : Fld := ⟨0x00400164, 0, 32⟩
/-! MAC.GATE_BASE_SEC_LO (Table 6.14). -/
def MAC.GATE_BASE_SEC_LO_SEC_L : Fld := ⟨0x00400168, 0, 32⟩
/-! MAC.GATE_BASE_SEC_HI (Table 6.14). -/
def MAC.GATE_BASE_SEC_HI_SEC_H : Fld := ⟨0x0040016C, 0, 16⟩
/-! MAC.GATE_CYCLE (Table 6.14). -/
def MAC.GATE_CYCLE_CYCLE : Fld := ⟨0x00400170, 0, 32⟩
/-! MAC.GCL_IDX (Table 6.15). -/
def MAC.GCL_IDX_IDX : Fld := ⟨0x00400174, 0, 6⟩
/-! MAC.GCL_DATA (Table 6.15). -/
def MAC.GCL_DATA_STATES : Fld := ⟨0x00400178, 0, 8⟩
def MAC.GCL_DATA_INTERVAL : Fld := ⟨0x00400178, 8, 24⟩
/-! MAC.GATE_STAT (Table 6.16). -/
def MAC.GATE_STAT_OPER : Fld := ⟨0x0040017C, 0, 1⟩
def MAC.GATE_STAT_PENDING : Fld := ⟨0x0040017C, 1, 1⟩
def MAC.GATE_STAT_CFG_ERR : Fld := ⟨0x0040017C, 2, 1⟩
def MAC.GATE_STAT_CUR_STATES : Fld := ⟨0x0040017C, 8, 8⟩
def MAC.GATE_STAT_CUR_IDX : Fld := ⟨0x0040017C, 16, 6⟩
def MAC.GATE_STAT_OPER_LEN : Fld := ⟨0x0040017C, 24, 7⟩
/-! MAC.STAT (Table 6.17). -/
def MAC.STAT_ACTIVE : Fld := ⟨0x00400180, 0, 1⟩
def MAC.STAT_RUN : Fld := ⟨0x00400180, 1, 1⟩
def MAC.STAT_LINK : Fld := ⟨0x00400180, 2, 1⟩
def MAC.STAT_AN_DONE : Fld := ⟨0x00400180, 3, 1⟩
def MAC.STAT_TRAIN_DONE : Fld := ⟨0x00400180, 4, 1⟩
/-! MAC.EVT_STAT (Table 6.18). -/
def MAC.EVT_STAT_LINK_UP : Fld := ⟨0x00400184, 0, 1⟩
def MAC.EVT_STAT_LINK_DOWN : Fld := ⟨0x00400184, 1, 1⟩
def MAC.EVT_STAT_RX_OVF : Fld := ⟨0x00400184, 2, 1⟩
def MAC.EVT_STAT_TX_UNDERRUN : Fld := ⟨0x00400184, 3, 1⟩
def MAC.EVT_STAT_CT_MAX : Fld := ⟨0x00400184, 4, 1⟩
def MAC.EVT_STAT_RX_OVERSIZE : Fld := ⟨0x00400184, 5, 1⟩
def MAC.EVT_STAT_TX_OVERSIZE : Fld := ⟨0x00400184, 6, 1⟩
def MAC.EVT_STAT_GATE_CHG : Fld := ⟨0x00400184, 7, 1⟩
def MAC.EVT_STAT_GATE_ERR : Fld := ⟨0x00400184, 8, 1⟩
def MAC.EVT_STAT_TX_GATE_DROP : Fld := ⟨0x00400184, 9, 1⟩
def MAC.EVT_STAT_INACTIVE : Fld := ⟨0x00400184, 10, 1⟩
/-! MAC.CMD (Table 6.19). -/
def MAC.CMD_CNT_CLR : Fld := ⟨0x00400190, 0, 1⟩
def MAC.CMD_LINK_RESTART : Fld := ⟨0x00400190, 1, 1⟩
/-! MAC.CNT_LO (Table 6.20). -/
def MAC.CNT_LO_COUNT_L (k : Nat) : Fld := ⟨0x00400200 + 8 * k, 0, 32⟩
/-! MAC.CNT_HI (Table 6.20). -/
def MAC.CNT_HI_COUNT_H (k : Nat) : Fld := ⟨0x00400204 + 8 * k, 0, 32⟩
/-! FLW.FLOW_SEL (Table 7.7). -/
def FLW.FLOW_SEL_SEL : Fld := ⟨0x00500000, 0, 14⟩
/-! FLW.BLK_EVT (Table 7.7). -/
def FLW.BLK_EVT_SEL_RANGE : Fld := ⟨0x00500004, 0, 1⟩
def FLW.BLK_EVT_CLASS_VIOL : Fld := ⟨0x00500004, 1, 1⟩
def FLW.BLK_EVT_NOMATCH : Fld := ⟨0x00500004, 2, 1⟩
def FLW.BLK_EVT_HDR_ERR : Fld := ⟨0x00500004, 3, 1⟩
def FLW.BLK_EVT_TX_BAD : Fld := ⟨0x00500004, 4, 1⟩
/-! FLW.CNT_NOMATCH (Table 7.8). -/
def FLW.CNT_NOMATCH_COUNT : Fld := ⟨0x00500010, 0, 32⟩
/-! FLW.CNT_HDR_ERR (Table 7.8). -/
def FLW.CNT_HDR_ERR_COUNT : Fld := ⟨0x00500014, 0, 32⟩
/-! FLW.CNT_TX_BAD (Table 7.8). -/
def FLW.CNT_TX_BAD_COUNT : Fld := ⟨0x00500018, 0, 32⟩
/-! FLW.BLK_CMD (Table 7.8). -/
def FLW.BLK_CMD_CNT_CLR : Fld := ⟨0x0050001C, 0, 1⟩
/-! FLW.CTX_CTL (Table 7.11). -/
def FLW.CTX_CTL_EN : Fld := ⟨0x00500100, 0, 1⟩
def FLW.CTX_CTL_IPV6 : Fld := ⟨0x00500100, 1, 1⟩
def FLW.CTX_CTL_LEGS : Fld := ⟨0x00500100, 2, 2⟩
def FLW.CTX_CTL_ROLE : Fld := ⟨0x00500100, 4, 4⟩
def FLW.CTX_CTL_AIDX : Fld := ⟨0x00500100, 8, 3⟩
def FLW.CTX_CTL_SSRC_CHK : Fld := ⟨0x00500100, 11, 1⟩
def FLW.CTX_CTL_BUNDLE : Fld := ⟨0x00500100, 16, 9⟩
/-! FLW.CTX_MEDIA (Table 7.12). -/
def FLW.CTX_MEDIA_DEPTH : Fld := ⟨0x00500104, 0, 2⟩
def FLW.CTX_MEDIA_BPM : Fld := ⟨0x00500104, 2, 1⟩
def FLW.CTX_MEDIA_NCH : Fld := ⟨0x00500104, 4, 5⟩
def FLW.CTX_MEDIA_L16 : Fld := ⟨0x00500104, 9, 1⟩
def FLW.CTX_MEDIA_PT125 : Fld := ⟨0x00500104, 10, 1⟩
def FLW.CTX_MEDIA_CH_FIRST : Fld := ⟨0x00500104, 12, 4⟩
def FLW.CTX_MEDIA_PT : Fld := ⟨0x00500104, 16, 7⟩
def FLW.CTX_MEDIA_PT_CHK : Fld := ⟨0x00500104, 23, 1⟩
/-! FLW.CTX_SSRC (Table 7.12). -/
def FLW.CTX_SSRC_SSRC : Fld := ⟨0x00500108, 0, 32⟩
/-! FLW.CTX_PACE (Table 7.12). -/
def FLW.CTX_PACE_STYPE : Fld := ⟨0x0050010C, 0, 2⟩
def FLW.CTX_PACE_MAXPL : Fld := ⟨0x0050010C, 2, 14⟩
def FLW.CTX_PACE_TRO : Fld := ⟨0x0050010C, 16, 16⟩
/-! FLW.LEG_MAC (Table 7.13). -/
def FLW.LEG_MAC_MAC (g : Nat) : Fld := ⟨0x00500120 + 64 * g, 0, 6⟩
def FLW.LEG_MAC_VID (g : Nat) : Fld := ⟨0x00500120 + 64 * g, 16, 12⟩
def FLW.LEG_MAC_SRC_CHK (g : Nat) : Fld := ⟨0x00500120 + 64 * g, 30, 1⟩
def FLW.LEG_MAC_VID_CHK (g : Nat) : Fld := ⟨0x00500120 + 64 * g, 31, 1⟩
/-! FLW.LEG_DST_0 (Table 7.13). -/
def FLW.LEG_DST_0_ADDR (g : Nat) : Fld := ⟨0x00500124 + 64 * g, 0, 32⟩
/-! FLW.LEG_DST_1 (Table 7.13). -/
def FLW.LEG_DST_1_ADDR (g : Nat) : Fld := ⟨0x00500128 + 64 * g, 0, 32⟩
/-! FLW.LEG_DST_2 (Table 7.13). -/
def FLW.LEG_DST_2_ADDR (g : Nat) : Fld := ⟨0x0050012C + 64 * g, 0, 32⟩
/-! FLW.LEG_DST_3 (Table 7.13). -/
def FLW.LEG_DST_3_ADDR (g : Nat) : Fld := ⟨0x00500130 + 64 * g, 0, 32⟩
/-! FLW.LEG_SRC_0 (Table 7.13). -/
def FLW.LEG_SRC_0_ADDR (g : Nat) : Fld := ⟨0x00500134 + 64 * g, 0, 32⟩
/-! FLW.LEG_SRC_1 (Table 7.13). -/
def FLW.LEG_SRC_1_ADDR (g : Nat) : Fld := ⟨0x00500138 + 64 * g, 0, 32⟩
/-! FLW.LEG_SRC_2 (Table 7.13). -/
def FLW.LEG_SRC_2_ADDR (g : Nat) : Fld := ⟨0x0050013C + 64 * g, 0, 32⟩
/-! FLW.LEG_SRC_3 (Table 7.13). -/
def FLW.LEG_SRC_3_ADDR (g : Nat) : Fld := ⟨0x00500140 + 64 * g, 0, 32⟩
/-! FLW.LEG_PORT (Table 7.13). -/
def FLW.LEG_PORT_DST_PORT (g : Nat) : Fld := ⟨0x00500144 + 64 * g, 0, 16⟩
def FLW.LEG_PORT_SRC_PORT (g : Nat) : Fld := ⟨0x00500144 + 64 * g, 16, 16⟩
/-! FLW.LEG_QOS (Table 7.13). -/
def FLW.LEG_QOS_DSCP (g : Nat) : Fld := ⟨0x00500148 + 64 * g, 0, 6⟩
def FLW.LEG_QOS_TTL (g : Nat) : Fld := ⟨0x00500148 + 64 * g, 8, 8⟩
def FLW.LEG_QOS_TC (g : Nat) : Fld := ⟨0x00500148 + 64 * g, 16, 3⟩
def FLW.LEG_QOS_PCP (g : Nat) : Fld := ⟨0x00500148 + 64 * g, 19, 3⟩
def FLW.LEG_QOS_TAG_EN (g : Nat) : Fld := ⟨0x00500148 + 64 * g, 22, 1⟩
def FLW.LEG_QOS_USE_DMAC (g : Nat) : Fld := ⟨0x00500148 + 64 * g, 23, 1⟩
/-! FLW.LEG_DMAC_LO (Table 7.13). -/
def FLW.LEG_DMAC_LO_DMAC_L (g : Nat) : Fld := ⟨0x0050014C + 64 * g, 0, 32⟩
/-! FLW.LEG_DMAC_HI (Table 7.13). -/
def FLW.LEG_DMAC_HI_DMAC_H (g : Nat) : Fld := ⟨0x00500150 + 64 * g, 0, 16⟩
/-! FLW.CTX_STAT (Table 7.14). -/
def FLW.CTX_STAT_RUN : Fld := ⟨0x005001A0, 0, 1⟩
def FLW.CTX_STAT_CFG_ERR : Fld := ⟨0x005001A0, 1, 1⟩
def FLW.CTX_STAT_QUOTA_ERR : Fld := ⟨0x005001A0, 2, 1⟩
def FLW.CTX_STAT_WAIT : Fld := ⟨0x005001A0, 3, 1⟩
def FLW.CTX_STAT_LEG_ACT : Fld := ⟨0x005001A0, 4, 2⟩
/-! FLW.CTX_EVT (Table 7.14). -/
def FLW.CTX_EVT_CFG_ERR : Fld := ⟨0x005001A4, 0, 1⟩
def FLW.CTX_EVT_QUOTA_ERR : Fld := ⟨0x005001A4, 1, 1⟩
def FLW.CTX_EVT_LEG_LOSS_0 : Fld := ⟨0x005001A4, 2, 1⟩
def FLW.CTX_EVT_LEG_LOSS_1 : Fld := ⟨0x005001A4, 3, 1⟩
def FLW.CTX_EVT_LEG_BACK_0 : Fld := ⟨0x005001A4, 4, 1⟩
def FLW.CTX_EVT_LEG_BACK_1 : Fld := ⟨0x005001A4, 5, 1⟩
def FLW.CTX_EVT_LATE : Fld := ⟨0x005001A4, 6, 1⟩
def FLW.CTX_EVT_LOST : Fld := ⟨0x005001A4, 7, 1⟩
def FLW.CTX_EVT_RESYNC : Fld := ⟨0x005001A4, 8, 1⟩
/-! FLW.CNT_PKT_0 (Table 7.15). -/
def FLW.CNT_PKT_0_COUNT : Fld := ⟨0x005001B0, 0, 32⟩
/-! FLW.CNT_PKT_1 (Table 7.15). -/
def FLW.CNT_PKT_1_COUNT : Fld := ⟨0x005001B4, 0, 32⟩
/-! FLW.CNT_DUP (Table 7.15). -/
def FLW.CNT_DUP_COUNT : Fld := ⟨0x005001B8, 0, 32⟩
/-! FLW.CNT_LOST (Table 7.15). -/
def FLW.CNT_LOST_COUNT : Fld := ⟨0x005001BC, 0, 32⟩
/-! FLW.CNT_LATE (Table 7.15). -/
def FLW.CNT_LATE_COUNT : Fld := ⟨0x005001C0, 0, 32⟩
/-! FLW.CMD (Table 7.15). -/
def FLW.CMD_CNT_CLR : Fld := ⟨0x005001D0, 0, 1⟩
/-! FLW.BDL_CTL (Table 7.9). -/
def FLW.BDL_CTL_EN (b : Nat) : Fld := ⟨0x00508000 + 16 * b, 0, 1⟩
def FLW.BDL_CTL_FMT (b : Nat) : Fld := ⟨0x00508000 + 16 * b, 8, 6⟩
def FLW.BDL_CTL_CAD (b : Nat) : Fld := ⟨0x00508000 + 16 * b, 16, 4⟩
def FLW.BDL_CTL_TMO_LINES (b : Nat) : Fld := ⟨0x00508000 + 16 * b, 24, 8⟩
/-! FLW.BDL_PLAY (Table 7.9). -/
def FLW.BDL_PLAY_PLAY_DELAY (b : Nat) : Fld := ⟨0x00508004 + 16 * b, 0, 16⟩
def FLW.BDL_PLAY_AUD_DELAY (b : Nat) : Fld := ⟨0x00508004 + 16 * b, 16, 10⟩
/-! FLW.BDL_STAT (Table 7.9). -/
def FLW.BDL_STAT_RUN (b : Nat) : Fld := ⟨0x00508008 + 16 * b, 0, 1⟩
def FLW.BDL_STAT_PRESENT (b : Nat) : Fld := ⟨0x00508008 + 16 * b, 1, 1⟩
def FLW.BDL_STAT_VIDEO (b : Nat) : Fld := ⟨0x00508008 + 16 * b, 2, 1⟩
def FLW.BDL_STAT_CFG_ERR (b : Nat) : Fld := ⟨0x00508008 + 16 * b, 3, 1⟩
/-! FLW.BDL_EVT (Table 7.9). -/
def FLW.BDL_EVT_ABSENT (b : Nat) : Fld := ⟨0x0050800C + 16 * b, 0, 1⟩
def FLW.BDL_EVT_PRESENT (b : Nat) : Fld := ⟨0x0050800C + 16 * b, 1, 1⟩
def FLW.BDL_EVT_STEP (b : Nat) : Fld := ⟨0x0050800C + 16 * b, 2, 1⟩
/-! FLW.HQ (Table 7.10). -/
def FLW.HQ_RXQ (m : Nat) : Fld := ⟨0x0050A000 + 4 * m, 0, 14⟩
def FLW.HQ_RX_EN (m : Nat) : Fld := ⟨0x0050A000 + 4 * m, 15, 1⟩
def FLW.HQ_TXQ (m : Nat) : Fld := ⟨0x0050A000 + 4 * m, 16, 14⟩
def FLW.HQ_TX_EN (m : Nat) : Fld := ⟨0x0050A000 + 4 * m, 31, 1⟩
/-! QM.Q_SEL (Table 7.16). -/
def QM.Q_SEL_SEL : Fld := ⟨0x00600000, 0, 15⟩
/-! QM.BLK_EVT (Table 7.16). -/
def QM.BLK_EVT_SEL_RANGE : Fld := ⟨0x00600004, 0, 1⟩
def QM.BLK_EVT_CLASS_VIOL : Fld := ⟨0x00600004, 1, 1⟩
def QM.BLK_EVT_IDX_ERR : Fld := ⟨0x00600004, 2, 1⟩
def QM.BLK_EVT_QREF : Fld := ⟨0x00600004, 3, 1⟩
def QM.BLK_EVT_CFG_ERR : Fld := ⟨0x00600004, 4, 1⟩
/-! QM.CELL_STAT (Table 7.16). -/
def QM.CELL_STAT_FREE : Fld := ⟨0x00600008, 0, 19⟩
/-! QM.Q_CFG (Table 7.17). -/
def QM.Q_CFG_EN : Fld := ⟨0x00600100, 0, 1⟩
def QM.Q_CFG_DIR : Fld := ⟨0x00600100, 1, 1⟩
def QM.Q_CFG_SPACE : Fld := ⟨0x00600100, 2, 1⟩
def QM.Q_CFG_ESZ : Fld := ⟨0x00600100, 3, 4⟩
def QM.Q_CFG_LOG_N : Fld := ⟨0x00600100, 7, 5⟩
def QM.Q_CFG_VEC : Fld := ⟨0x00600100, 12, 6⟩
def QM.Q_CFG_NOTIFY : Fld := ⟨0x00600100, 18, 1⟩
/-! QM.Q_BASE_LO (Table 7.18). -/
def QM.Q_BASE_LO_BASE_L : Fld := ⟨0x00600104, 0, 32⟩
/-! QM.Q_BASE_HI (Table 7.18). -/
def QM.Q_BASE_HI_BASE_H : Fld := ⟨0x00600108, 0, 32⟩
/-! QM.Q_PROD (Table 7.18). -/
def QM.Q_PROD_IDX : Fld := ⟨0x0060010C, 0, 17⟩
/-! QM.Q_CONS (Table 7.18). -/
def QM.Q_CONS_IDX : Fld := ⟨0x00600110, 0, 17⟩
/-! QM.Q_MOD (Table 7.18). -/
def QM.Q_MOD_CNT_THR : Fld := ⟨0x00600114, 0, 16⟩
def QM.Q_MOD_TIMER : Fld := ⟨0x00600114, 16, 16⟩
/-! QM.Q_WB_LO (Table 7.18). -/
def QM.Q_WB_LO_WB_EN : Fld := ⟨0x00600118, 0, 1⟩
def QM.Q_WB_LO_ADDR_L : Fld := ⟨0x00600118, 3, 29⟩
/-! QM.Q_WB_HI (Table 7.18). -/
def QM.Q_WB_HI_ADDR_H : Fld := ⟨0x0060011C, 0, 32⟩
/-! QM.Q_STAT (Table 7.19). -/
def QM.Q_STAT_FILL : Fld := ⟨0x00600120, 0, 19⟩
def QM.Q_STAT_FULL : Fld := ⟨0x00600120, 19, 1⟩
def QM.Q_STAT_RUN : Fld := ⟨0x00600120, 20, 1⟩
def QM.Q_STAT_FLOW : Fld := ⟨0x00600120, 21, 1⟩
def QM.Q_STAT_CFG_ERR : Fld := ⟨0x00600120, 22, 1⟩
/-! QM.Q_HWM (Table 7.19). -/
def QM.Q_HWM_HWM : Fld := ⟨0x00600124, 0, 19⟩
/-! QM.Q_QUOTA (Table 7.19). -/
def QM.Q_QUOTA_CELLS : Fld := ⟨0x00600128, 0, 19⟩
/-! QM.Q_CNT_OVF (Table 7.19). -/
def QM.Q_CNT_OVF_COUNT : Fld := ⟨0x0060012C, 0, 32⟩
/-! QM.Q_CMD (Table 7.20). -/
def QM.Q_CMD_CNT_CLR : Fld := ⟨0x00600130, 0, 1⟩
def QM.Q_CMD_HWM_CLR : Fld := ⟨0x00600130, 1, 1⟩
def QM.Q_CMD_IDX_CLR : Fld := ⟨0x00600130, 2, 1⟩
/-! FS.SYNC_SEL (Table 8.5). -/
def FS.SYNC_SEL_SEL : Fld := ⟨0x00700000, 0, 9⟩
/-! FS.BLK_EVT (Table 8.6). -/
def FS.BLK_EVT_SEL_RANGE : Fld := ⟨0x00700004, 0, 1⟩
def FS.BLK_EVT_CLASS_VIOL : Fld := ⟨0x00700004, 1, 1⟩
def FS.BLK_EVT_ECC_CE : Fld := ⟨0x00700004, 2, 1⟩
def FS.BLK_EVT_ECC_UE : Fld := ⟨0x00700004, 3, 1⟩
def FS.BLK_EVT_WIN_RANGE : Fld := ⟨0x00700004, 4, 1⟩
def FS.BLK_EVT_WIN_WP : Fld := ⟨0x00700004, 5, 1⟩
/-! FS.BLK_STAT (Table 8.7). -/
def FS.BLK_STAT_READY : Fld := ⟨0x00700008, 0, 1⟩
def FS.BLK_STAT_UNITS_USED : Fld := ⟨0x00700008, 4, 12⟩
def FS.BLK_STAT_SYNC_RUN : Fld := ⟨0x00700008, 16, 10⟩
/-! FS.RGN_CFG (Table 8.8). -/
def FS.RGN_CFG_SURF_MIB : Fld := ⟨0x0070000C, 0, 14⟩
/-! FS.SCRUB_CFG (Table 8.8). -/
def FS.SCRUB_CFG_EN : Fld := ⟨0x00700010, 0, 1⟩
def FS.SCRUB_CFG_PERIOD_H : Fld := ⟨0x00700010, 8, 8⟩
/-! FS.ECC_CNT_CE (Table 8.9). -/
def FS.ECC_CNT_CE_COUNT : Fld := ⟨0x00700014, 0, 32⟩
/-! FS.ECC_CNT_UE (Table 8.9). -/
def FS.ECC_CNT_UE_COUNT : Fld := ⟨0x00700018, 0, 32⟩
/-! FS.ECC_ADDR_LO (Table 8.9). -/
def FS.ECC_ADDR_LO_VALID : Fld := ⟨0x0070001C, 0, 1⟩
def FS.ECC_ADDR_LO_ADDR_L : Fld := ⟨0x0070001C, 5, 27⟩
/-! FS.ECC_ADDR_HI (Table 8.9). -/
def FS.ECC_ADDR_HI_ADDR_H : Fld := ⟨0x00700020, 0, 4⟩
/-! FS.BLK_CMD (Table 8.9). -/
def FS.BLK_CMD_CNT_CLR : Fld := ⟨0x00700024, 0, 1⟩
def FS.BLK_CMD_ADDR_CLR : Fld := ⟨0x00700024, 1, 1⟩
/-! FS.ADP_STAT (Table 8.7). -/
def FS.ADP_STAT_BLK_FREE : Fld := ⟨0x00700028, 0, 17⟩
/-! FS.WIN_PAGE (Table 8.10). -/
def FS.WIN_PAGE_PAGE (k : Nat) : Fld := ⟨0x00700030 + 4 * k, 0, 24⟩
/-! FS.SYNC_CTL (Table 8.11). -/
def FS.SYNC_CTL_EN : Fld := ⟨0x00700100, 0, 1⟩
def FS.SYNC_CTL_MIN2 : Fld := ⟨0x00700100, 1, 1⟩
def FS.SYNC_CTL_AUD_EMB : Fld := ⟨0x00700100, 2, 1⟩
def FS.SYNC_CTL_GANG : Fld := ⟨0x00700100, 3, 1⟩
def FS.SYNC_CTL_FRZ : Fld := ⟨0x00700100, 4, 1⟩
def FS.SYNC_CTL_FMT : Fld := ⟨0x00700100, 8, 6⟩
def FS.SYNC_CTL_CAD : Fld := ⟨0x00700100, 16, 4⟩
def FS.SYNC_CTL_SLOT : Fld := ⟨0x00700100, 21, 11⟩
/-! FS.SYNC_HOLD (Table 8.12). -/
def FS.SYNC_HOLD_HOLD_TMO : Fld := ⟨0x00700104, 0, 16⟩
/-! FS.SYNC_STAT (Table 8.13). -/
def FS.SYNC_STAT_RUN : Fld := ⟨0x00700108, 0, 1⟩
def FS.SYNC_STAT_ERR : Fld := ⟨0x00700108, 1, 3⟩
def FS.SYNC_STAT_EMPTY : Fld := ⟨0x00700108, 4, 1⟩
def FS.SYNC_STAT_HOLDING : Fld := ⟨0x00700108, 5, 1⟩
def FS.SYNC_STAT_FMT_MM : Fld := ⟨0x00700108, 6, 1⟩
def FS.SYNC_STAT_FROZEN : Fld := ⟨0x00700108, 7, 1⟩
def FS.SYNC_STAT_BUF : Fld := ⟨0x00700108, 8, 2⟩
/-! FS.SYNC_DLY (Table 8.13). -/
def FS.SYNC_DLY_D_NS : Fld := ⟨0x0070010C, 0, 27⟩
/-! FS.SYNC_EVT (Table 8.14). -/
def FS.SYNC_EVT_START : Fld := ⟨0x00700110, 0, 1⟩
def FS.SYNC_EVT_REPEAT : Fld := ⟨0x00700110, 1, 1⟩
def FS.SYNC_EVT_DROP : Fld := ⟨0x00700110, 2, 1⟩
def FS.SYNC_EVT_HOLD_START : Fld := ⟨0x00700110, 3, 1⟩
def FS.SYNC_EVT_HOLD_END : Fld := ⟨0x00700110, 4, 1⟩
def FS.SYNC_EVT_EMPTY : Fld := ⟨0x00700110, 5, 1⟩
def FS.SYNC_EVT_INCOMPLETE : Fld := ⟨0x00700110, 6, 1⟩
def FS.SYNC_EVT_ANC_DROP : Fld := ⟨0x00700110, 7, 1⟩
def FS.SYNC_EVT_CFG_ERR : Fld := ⟨0x00700110, 8, 1⟩
def FS.SYNC_EVT_ECC_UE : Fld := ⟨0x00700110, 9, 1⟩
/-! FS.CNT_REPEAT (Table 8.15). -/
def FS.CNT_REPEAT_COUNT : Fld := ⟨0x00700120, 0, 32⟩
/-! FS.CNT_DROP (Table 8.15). -/
def FS.CNT_DROP_COUNT : Fld := ⟨0x00700124, 0, 32⟩
/-! FS.CNT_INCOMPLETE (Table 8.15). -/
def FS.CNT_INCOMPLETE_COUNT : Fld := ⟨0x00700128, 0, 32⟩
/-! FS.CNT_ANC_DROP (Table 8.15). -/
def FS.CNT_ANC_DROP_COUNT : Fld := ⟨0x0070012C, 0, 32⟩
/-! FS.SYNC_CMD (Table 8.16). -/
def FS.SYNC_CMD_CNT_CLR : Fld := ⟨0x00700130, 0, 1⟩
/-! PLT.ENG_SEL (Table 9.9). -/
def PLT.ENG_SEL_SEL : Fld := ⟨0x00800000, 0, 5⟩
/-! PLT.LAY_SEL (Table 9.9). -/
def PLT.LAY_SEL_SEL : Fld := ⟨0x00800004, 0, 4⟩
/-! PLT.BLK_EVT (Table 9.9). -/
def PLT.BLK_EVT_SEL_RANGE : Fld := ⟨0x00800008, 0, 1⟩
def PLT.BLK_EVT_CLASS_VIOL : Fld := ⟨0x00800008, 1, 1⟩
/-! PLT.ENG_CTL (Table 9.10). -/
def PLT.ENG_CTL_EN : Fld := ⟨0x00800100, 0, 1⟩
/-! PLT.ENG_CFG (Table 9.10). -/
def PLT.ENG_CFG_MODE : Fld := ⟨0x00800104, 0, 1⟩
def PLT.ENG_CFG_NOUT : Fld := ⟨0x00800104, 4, 3⟩
def PLT.ENG_CFG_LB_SKIP : Fld := ⟨0x00800104, 7, 1⟩
def PLT.ENG_CFG_FMT : Fld := ⟨0x00800104, 8, 6⟩
def PLT.ENG_CFG_CAD : Fld := ⟨0x00800104, 16, 4⟩
def PLT.ENG_CFG_GROUP : Fld := ⟨0x00800104, 20, 4⟩
def PLT.ENG_CFG_DLY : Fld := ⟨0x00800104, 24, 5⟩
/-! PLT.ENG_BG (Table 9.10). -/
def PLT.ENG_BG_Y : Fld := ⟨0x00800108, 0, 10⟩
def PLT.ENG_BG_CB : Fld := ⟨0x00800108, 10, 10⟩
def PLT.ENG_BG_CR : Fld := ⟨0x00800108, 20, 10⟩
/-! PLT.ENG_CMD (Table 9.11). -/
def PLT.ENG_CMD_COMMIT : Fld := ⟨0x0080010C, 0, 1⟩
def PLT.ENG_CMD_CNT_CLR : Fld := ⟨0x0080010C, 1, 1⟩
/-! PLT.ENG_STAT (Table 9.11). -/
def PLT.ENG_STAT_RUN : Fld := ⟨0x00800110, 0, 1⟩
def PLT.ENG_STAT_ARMED : Fld := ⟨0x00800110, 1, 1⟩
def PLT.ENG_STAT_SHED : Fld := ⟨0x00800110, 2, 1⟩
def PLT.ENG_STAT_ERR : Fld := ⟨0x00800110, 4, 3⟩
def PLT.ENG_STAT_RESULT : Fld := ⟨0x00800110, 8, 4⟩
def PLT.ENG_STAT_FAIL_LAY : Fld := ⟨0x00800110, 12, 4⟩
/-! PLT.ENG_EVT (Table 9.11). -/
def PLT.ENG_EVT_COMMIT_OK : Fld := ⟨0x00800114, 0, 1⟩
def PLT.ENG_EVT_COMMIT_REJ : Fld := ⟨0x00800114, 1, 1⟩
def PLT.ENG_EVT_START_ERR : Fld := ⟨0x00800114, 2, 1⟩
def PLT.ENG_EVT_LATE : Fld := ⟨0x00800114, 3, 1⟩
def PLT.ENG_EVT_SHED_ON : Fld := ⟨0x00800114, 4, 1⟩
def PLT.ENG_EVT_SHED_OFF : Fld := ⟨0x00800114, 5, 1⟩
def PLT.ENG_EVT_OTC_ERR : Fld := ⟨0x00800114, 6, 1⟩
def PLT.ENG_EVT_FEED_TIMING : Fld := ⟨0x00800114, 7, 1⟩
/-! PLT.ENG_LB (Table 9.11). -/
def PLT.ENG_LB_USED : Fld := ⟨0x00800118, 0, 18⟩
/-! PLT.ENG_CNT_LATE (Table 9.12). -/
def PLT.ENG_CNT_LATE_COUNT : Fld := ⟨0x00800120, 0, 32⟩
/-! PLT.ENG_CNT_REJ (Table 9.12). -/
def PLT.ENG_CNT_REJ_COUNT : Fld := ⟨0x00800124, 0, 32⟩
/-! PLT.ENG_CNT_OTC (Table 9.12). -/
def PLT.ENG_CNT_OTC_COUNT : Fld := ⟨0x00800128, 0, 32⟩
/-! PLT.ENG_FRAME (Table 9.12). -/
def PLT.ENG_FRAME_FRAME : Fld := ⟨0x0080012C, 0, 32⟩
/-! PLT.COEF_IDX (Table 9.12). -/
def PLT.COEF_IDX_IDX : Fld := ⟨0x00800130, 0, 10⟩
/-! PLT.COEF_DATA (Table 9.12). -/
def PLT.COEF_DATA_COEF : Fld := ⟨0x00800134, 0, 10⟩
/-! PLT.LAY_SRC (Table 9.13). -/
def PLT.LAY_SRC_KIND : Fld := ⟨0x00800200, 0, 3⟩
def PLT.LAY_SRC_ABS_SHOW : Fld := ⟨0x00800200, 3, 1⟩
def PLT.LAY_SRC_FEED : Fld := ⟨0x00800200, 4, 2⟩
def PLT.LAY_SRC_OUT : Fld := ⟨0x00800200, 6, 2⟩
def PLT.LAY_SRC_SYNC : Fld := ⟨0x00800200, 8, 9⟩
def PLT.LAY_SRC_PATTERN : Fld := ⟨0x00800200, 17, 3⟩
def PLT.LAY_SRC_PREMUL : Fld := ⟨0x00800200, 20, 1⟩
/-! PLT.LAY_SRC_XY (Table 9.13). -/
def PLT.LAY_SRC_XY_SRC_X : Fld := ⟨0x00800204, 0, 13⟩
def PLT.LAY_SRC_XY_SRC_Y : Fld := ⟨0x00800204, 16, 13⟩
/-! PLT.LAY_SRC_WH (Table 9.13). -/
def PLT.LAY_SRC_WH_SRC_W : Fld := ⟨0x00800208, 0, 13⟩
def PLT.LAY_SRC_WH_SRC_H : Fld := ⟨0x00800208, 16, 13⟩
/-! PLT.LAY_DST_XY (Table 9.13). -/
def PLT.LAY_DST_XY_DST_X : Fld := ⟨0x0080020C, 0, 13⟩
def PLT.LAY_DST_XY_DST_Y : Fld := ⟨0x0080020C, 16, 13⟩
/-! PLT.LAY_DST_WH (Table 9.13). -/
def PLT.LAY_DST_WH_DST_W : Fld := ⟨0x00800210, 0, 13⟩
def PLT.LAY_DST_WH_DST_H : Fld := ⟨0x00800210, 16, 13⟩
/-! PLT.LAY_KEY (Table 9.13). -/
def PLT.LAY_KEY_OPACITY : Fld := ⟨0x00800214, 0, 10⟩
def PLT.LAY_KEY_KEY_MODE : Fld := ⟨0x00800214, 10, 2⟩
def PLT.LAY_KEY_KEY_FEED : Fld := ⟨0x00800214, 12, 2⟩
def PLT.LAY_KEY_KEY_INV : Fld := ⟨0x00800214, 14, 1⟩
def PLT.LAY_KEY_KEY_CLIP : Fld := ⟨0x00800214, 16, 10⟩
/-! PLT.LAY_KEYG (Table 9.13). -/
def PLT.LAY_KEYG_KEY_GAIN : Fld := ⟨0x00800218, 0, 16⟩
/-! PLT.LAY_COLOUR (Table 9.13). -/
def PLT.LAY_COLOUR_Y : Fld := ⟨0x0080021C, 0, 10⟩
def PLT.LAY_COLOUR_CB : Fld := ⟨0x0080021C, 10, 10⟩
def PLT.LAY_COLOUR_CR : Fld := ⟨0x0080021C, 20, 10⟩
/-! PLT.LAY_SURF (Table 9.14). -/
def PLT.LAY_SURF_ADDR : Fld := ⟨0x00800220, 0, 24⟩
def PLT.LAY_SURF_OTC : Fld := ⟨0x00800220, 24, 1⟩
/-! PLT.LAY_SURF_DIM (Table 9.14). -/
def PLT.LAY_SURF_DIM_WIDTH : Fld := ⟨0x00800224, 0, 13⟩
def PLT.LAY_SURF_DIM_HEIGHT : Fld := ⟨0x00800224, 16, 13⟩
/-! PLT.LAY_SURF_PITCH (Table 9.14). -/
def PLT.LAY_SURF_PITCH_PITCH : Fld := ⟨0x00800228, 0, 16⟩
/-! PLT.LAY_MTR (Table 9.14). -/
def PLT.LAY_MTR_NBAR : Fld := ⟨0x0080022C, 0, 5⟩
def PLT.LAY_MTR_GAP : Fld := ⟨0x0080022C, 5, 3⟩
def PLT.LAY_MTR_FLOOR : Fld := ⟨0x0080022C, 8, 8⟩
def PLT.LAY_MTR_AMBER : Fld := ⟨0x0080022C, 16, 8⟩
def PLT.LAY_MTR_RED : Fld := ⟨0x0080022C, 24, 8⟩
/-! PLT.LAY_MTR_CH (Table 9.14). -/
def PLT.LAY_MTR_CH_CH_2n (n : Nat) : Fld := ⟨0x00800230 + 4 * n, 0, 15⟩
def PLT.LAY_MTR_CH_CH_2np1 (n : Nat) : Fld := ⟨0x00800230 + 4 * n, 16, 15⟩
def PLT.LAY_MTR_CH_SIDE_2n (n : Nat) : Fld := ⟨0x00800230 + 4 * n, 15, 1⟩
def PLT.LAY_MTR_CH_SIDE_2np1 (n : Nat) : Fld := ⟨0x00800230 + 4 * n, 31, 1⟩
/-! PLT.LAY_STAT (Table 9.14). -/
def PLT.LAY_STAT_LB_NEED : Fld := ⟨0x00800250, 0, 18⟩
def PLT.LAY_STAT_SKIP : Fld := ⟨0x00800250, 18, 3⟩
def PLT.LAY_STAT_ABSENT : Fld := ⟨0x00800250, 21, 1⟩
def PLT.LAY_STAT_T_V : Fld := ⟨0x00800250, 22, 5⟩
def PLT.LAY_STAT_LATE : Fld := ⟨0x00800250, 27, 1⟩
/-! AMX.CH_SEL (Table 10.5). -/
def AMX.CH_SEL_SEL : Fld := ⟨0x00900000, 0, 15⟩
/-! AMX.BLK_EVT (Table 10.6). -/
def AMX.BLK_EVT_SEL_RANGE : Fld := ⟨0x00900004, 0, 1⟩
def AMX.BLK_EVT_CLASS_VIOL : Fld := ⟨0x00900004, 1, 1⟩
def AMX.BLK_EVT_COMMIT_OK : Fld := ⟨0x00900004, 2, 1⟩
def AMX.BLK_EVT_COMMIT_REJ : Fld := ⟨0x00900004, 3, 1⟩
def AMX.BLK_EVT_CLIP : Fld := ⟨0x00900004, 4, 1⟩
def AMX.BLK_EVT_XF_RESTART : Fld := ⟨0x00900004, 5, 1⟩
/-! AMX.BLK_CTL (Table 10.6). -/
def AMX.BLK_CTL_EN : Fld := ⟨0x00900008, 0, 1⟩
def AMX.BLK_CTL_LVL_CAD : Fld := ⟨0x00900008, 4, 4⟩
/-! AMX.BLK_CMD (Table 10.6). -/
def AMX.BLK_CMD_COMMIT : Fld := ⟨0x0090000C, 0, 1⟩
def AMX.BLK_CMD_CNT_CLR : Fld := ⟨0x0090000C, 1, 1⟩
/-! AMX.BLK_STAT (Table 10.7). -/
def AMX.BLK_STAT_RUN : Fld := ⟨0x00900010, 0, 1⟩
def AMX.BLK_STAT_ARMED : Fld := ⟨0x00900010, 1, 1⟩
def AMX.BLK_STAT_RESULT : Fld := ⟨0x00900010, 4, 4⟩
def AMX.BLK_STAT_FAIL_CH : Fld := ⟨0x00900010, 16, 15⟩
/-! AMX.USE_STAT (Table 10.7). -/
def AMX.USE_STAT_SUM_USED : Fld := ⟨0x00900014, 0, 13⟩
def AMX.USE_STAT_ADP_USED : Fld := ⟨0x00900014, 15, 17⟩
/-! AMX.TICK_LO (Table 10.8). -/
def AMX.TICK_LO_TICK_L : Fld := ⟨0x00900018, 0, 32⟩
/-! AMX.TICK_HI (Table 10.8). -/
def AMX.TICK_HI_TICK_H : Fld := ⟨0x0090001C, 0, 32⟩
/-! AMX.CNT_CLIP (Table 10.8). -/
def AMX.CNT_CLIP_COUNT : Fld := ⟨0x00900020, 0, 32⟩
/-! AMX.CNT_REJ (Table 10.8). -/
def AMX.CNT_REJ_COUNT : Fld := ⟨0x00900024, 0, 32⟩
/-! AMX.SRC (Table 10.9). -/
def AMX.SRC_SRC (k : Nat) : Fld := ⟨0x00900100 + 4 * k, 0, 15⟩
def AMX.SRC_EN (k : Nat) : Fld := ⟨0x00900100 + 4 * k, 15, 1⟩
def AMX.SRC_GAIN (k : Nat) : Fld := ⟨0x00900100 + 4 * k, 16, 12⟩
def AMX.SRC_MUTE (k : Nat) : Fld := ⟨0x00900100 + 4 * k, 28, 1⟩
/-! AMX.OUT_CFG (Table 10.9). -/
def AMX.OUT_CFG_XF_LEN : Fld := ⟨0x00900110, 0, 13⟩
def AMX.OUT_CFG_XF_LAW : Fld := ⟨0x00900110, 13, 1⟩
def AMX.OUT_CFG_DELAY : Fld := ⟨0x00900110, 16, 16⟩
/-! AMX.OUT_STAT (Table 10.10). -/
def AMX.OUT_STAT_FADING : Fld := ⟨0x00900114, 0, 4⟩
def AMX.OUT_STAT_SUMMING : Fld := ⟨0x00900114, 4, 1⟩
def AMX.OUT_STAT_CLIPPED : Fld := ⟨0x00900114, 5, 1⟩
def AMX.OUT_STAT_DLY_FADE : Fld := ⟨0x00900114, 6, 1⟩
def AMX.OUT_STAT_ADP_BLK : Fld := ⟨0x00900114, 8, 5⟩
/-! AMX.LVL_IN (Table 10.10). -/
def AMX.LVL_IN_IN_PEAK : Fld := ⟨0x00900118, 0, 24⟩
/-! AMX.LVL_OUT (Table 10.10). -/
def AMX.LVL_OUT_OUT_PEAK : Fld := ⟨0x0090011C, 0, 24⟩
/-! AMX.SRC_ACT (Table 10.9). -/
def AMX.SRC_ACT_ACTIVE (k : Nat) : Fld := ⟨0x00900120 + 4 * k, 0, 29⟩
/-! AUD.PORT_SEL (Table 11.5). -/
def AUD.PORT_SEL_SEL : Fld := ⟨0x00A00000, 0, 4⟩
/-! AUD.BLK_EVT (Table 11.5). -/
def AUD.BLK_EVT_SEL_RANGE : Fld := ⟨0x00A00004, 0, 1⟩
def AUD.BLK_EVT_CLASS_VIOL : Fld := ⟨0x00A00004, 1, 1⟩
/-! AUD.PORT_CTL (Table 11.6). -/
def AUD.PORT_CTL_TX_EN : Fld := ⟨0x00A00100, 0, 1⟩
def AUD.PORT_CTL_RX_EN : Fld := ⟨0x00A00100, 1, 1⟩
def AUD.PORT_CTL_GANG : Fld := ⟨0x00A00100, 2, 2⟩
def AUD.PORT_CTL_TX_RING : Fld := ⟨0x00A00100, 4, 1⟩
def AUD.PORT_CTL_CAP_EN : Fld := ⟨0x00A00100, 5, 1⟩
def AUD.PORT_CTL_PACK4 : Fld := ⟨0x00A00100, 6, 1⟩
/-! AUD.TX_FMT (Table 11.7). -/
def AUD.TX_FMT_FMT : Fld := ⟨0x00A00104, 0, 2⟩
def AUD.TX_FMT_SLAVE : Fld := ⟨0x00A00104, 2, 1⟩
def AUD.TX_FMT_SLOT32 : Fld := ⟨0x00A00104, 3, 1⟩
def AUD.TX_FMT_NSLOT : Fld := ⟨0x00A00104, 4, 7⟩
def AUD.TX_FMT_NCH : Fld := ⟨0x00A00104, 11, 7⟩
def AUD.TX_FMT_DLY : Fld := ⟨0x00A00104, 18, 1⟩
def AUD.TX_FMT_BCK_INV : Fld := ⟨0x00A00104, 19, 1⟩
def AUD.TX_FMT_FS_INV : Fld := ⟨0x00A00104, 20, 1⟩
def AUD.TX_FMT_TRI : Fld := ⟨0x00A00104, 21, 1⟩
def AUD.TX_FMT_SRC_EN : Fld := ⟨0x00A00104, 22, 1⟩
/-! AUD.RX_FMT (Table 11.7). -/
def AUD.RX_FMT_FMT : Fld := ⟨0x00A00108, 0, 2⟩
def AUD.RX_FMT_SLAVE : Fld := ⟨0x00A00108, 2, 1⟩
def AUD.RX_FMT_SLOT32 : Fld := ⟨0x00A00108, 3, 1⟩
def AUD.RX_FMT_NSLOT : Fld := ⟨0x00A00108, 4, 7⟩
def AUD.RX_FMT_NCH : Fld := ⟨0x00A00108, 11, 7⟩
def AUD.RX_FMT_DLY : Fld := ⟨0x00A00108, 18, 1⟩
def AUD.RX_FMT_BCK_INV : Fld := ⟨0x00A00108, 19, 1⟩
def AUD.RX_FMT_FS_INV : Fld := ⟨0x00A00108, 20, 1⟩
def AUD.RX_FMT_TRI : Fld := ⟨0x00A00108, 21, 1⟩
def AUD.RX_FMT_SRC_EN : Fld := ⟨0x00A00108, 22, 1⟩
/-! AUD.RING (Table 11.8). -/
def AUD.RING_PLAY_Q : Fld := ⟨0x00A0010C, 0, 14⟩
def AUD.RING_CAP_Q : Fld := ⟨0x00A0010C, 16, 14⟩
/-! AUD.RING_FR (Table 11.8). -/
def AUD.RING_FR_FRAMES : Fld := ⟨0x00A00110, 0, 8⟩
/-! AUD.SRC_STAT (Table 11.9). -/
def AUD.SRC_STAT_STATE : Fld := ⟨0x00A00114, 0, 2⟩
def AUD.SRC_STAT_RATE : Fld := ⟨0x00A00114, 8, 17⟩
/-! AUD.STAT (Table 11.9). -/
def AUD.STAT_TX_RUN : Fld := ⟨0x00A00118, 0, 1⟩
def AUD.STAT_RX_RUN : Fld := ⟨0x00A00118, 1, 1⟩
def AUD.STAT_MEMBER : Fld := ⟨0x00A00118, 2, 1⟩
def AUD.STAT_ERR : Fld := ⟨0x00A00118, 4, 2⟩
def AUD.STAT_TX_FILL : Fld := ⟨0x00A00118, 8, 5⟩
def AUD.STAT_RX_FILL : Fld := ⟨0x00A00118, 16, 5⟩
/-! AUD.EVT_STAT (Table 11.10). -/
def AUD.EVT_STAT_TX_SLIP : Fld := ⟨0x00A0011C, 0, 1⟩
def AUD.EVT_STAT_RX_SLIP : Fld := ⟨0x00A0011C, 1, 1⟩
def AUD.EVT_STAT_FRAME_ERR : Fld := ⟨0x00A0011C, 2, 1⟩
def AUD.EVT_STAT_SRC_LOCK : Fld := ⟨0x00A0011C, 3, 1⟩
def AUD.EVT_STAT_SRC_UNLOCK : Fld := ⟨0x00A0011C, 4, 1⟩
def AUD.EVT_STAT_PLAY_UNDER : Fld := ⟨0x00A0011C, 5, 1⟩
def AUD.EVT_STAT_CAP_DROP : Fld := ⟨0x00A0011C, 6, 1⟩
def AUD.EVT_STAT_START_ERR : Fld := ⟨0x00A0011C, 7, 1⟩
/-! AUD.CNT_TX_SLIP (Table 11.11). -/
def AUD.CNT_TX_SLIP_COUNT : Fld := ⟨0x00A00120, 0, 32⟩
/-! AUD.CNT_RX_SLIP (Table 11.11). -/
def AUD.CNT_RX_SLIP_COUNT : Fld := ⟨0x00A00124, 0, 32⟩
/-! AUD.CNT_FRAME_ERR (Table 11.11). -/
def AUD.CNT_FRAME_ERR_COUNT : Fld := ⟨0x00A00128, 0, 32⟩
/-! AUD.CNT_PLAY_UNDER (Table 11.11). -/
def AUD.CNT_PLAY_UNDER_COUNT : Fld := ⟨0x00A0012C, 0, 32⟩
/-! AUD.CNT_CAP_DROP (Table 11.11). -/
def AUD.CNT_CAP_DROP_COUNT : Fld := ⟨0x00A00130, 0, 32⟩
/-! AUD.CMD (Table 11.11). -/
def AUD.CMD_CNT_CLR : Fld := ⟨0x00A00140, 0, 1⟩
/-! CON.CTL (Table 14.11). -/
def CON.CTL_EN : Fld := ⟨0x00B00000, 0, 1⟩
def CON.CTL_SOLO : Fld := ⟨0x00B00000, 1, 1⟩
def CON.CTL_AUTO_TAKE : Fld := ⟨0x00B00000, 2, 1⟩
def CON.CTL_AUTO_UNREADY : Fld := ⟨0x00B00000, 3, 1⟩
def CON.CTL_DIG_EN : Fld := ⟨0x00B00000, 4, 1⟩
def CON.CTL_MM_THR : Fld := ⟨0x00B00000, 8, 4⟩
def CON.CTL_PAIR_TMO : Fld := ⟨0x00B00000, 16, 8⟩
def CON.CTL_CTRL_TMO : Fld := ⟨0x00B00000, 24, 8⟩
/-! CON.CFG (Table 14.12). -/
def CON.CFG_TIME_SMP : Fld := ⟨0x00B00004, 0, 8⟩
def CON.CFG_RST_TMO : Fld := ⟨0x00B00004, 8, 8⟩
/-! CON.STAT (Table 14.13). -/
def CON.STAT_STATE : Fld := ⟨0x00B00008, 0, 3⟩
def CON.STAT_ROLE : Fld := ⟨0x00B00008, 4, 2⟩
def CON.STAT_READY : Fld := ⟨0x00B00008, 6, 1⟩
def CON.STAT_PAIRED : Fld := ⟨0x00B00008, 7, 1⟩
def CON.STAT_CTRL : Fld := ⟨0x00B00008, 8, 1⟩
def CON.STAT_DEFER : Fld := ⟨0x00B00008, 9, 1⟩
def CON.STAT_PTR_CTRL : Fld := ⟨0x00B00008, 10, 2⟩
def CON.STAT_PTR_ROLE : Fld := ⟨0x00B00008, 12, 2⟩
def CON.STAT_PTR_READY : Fld := ⟨0x00B00008, 14, 1⟩
def CON.STAT_HB_OK : Fld := ⟨0x00B00008, 15, 1⟩
def CON.STAT_TWIN_ROLE_IN : Fld := ⟨0x00B00008, 16, 1⟩
def CON.STAT_TWIN_HEALTHY_IN : Fld := ⟨0x00B00008, 17, 1⟩
def CON.STAT_REG_DONE : Fld := ⟨0x00B00008, 20, 9⟩
/-! CON.EVT_STAT (Table 14.14). -/
def CON.EVT_STAT_CLASS_VIOL : Fld := ⟨0x00B0000C, 0, 1⟩
def CON.EVT_STAT_PAIR_ERR : Fld := ⟨0x00B0000C, 1, 1⟩
def CON.EVT_STAT_LINK_FAULT : Fld := ⟨0x00B0000C, 2, 1⟩
def CON.EVT_STAT_PTR_LOST : Fld := ⟨0x00B0000C, 3, 1⟩
def CON.EVT_STAT_TAKEOVER : Fld := ⟨0x00B0000C, 4, 1⟩
def CON.EVT_STAT_DEMOTED : Fld := ⟨0x00B0000C, 5, 1⟩
def CON.EVT_STAT_DUAL_ACT : Fld := ⟨0x00B0000C, 6, 1⟩
def CON.EVT_STAT_READY_UP : Fld := ⟨0x00B0000C, 7, 1⟩
def CON.EVT_STAT_READY_DOWN : Fld := ⟨0x00B0000C, 8, 1⟩
def CON.EVT_STAT_DIG_MM : Fld := ⟨0x00B0000C, 9, 1⟩
def CON.EVT_STAT_JRNL_GAP : Fld := ⟨0x00B0000C, 10, 1⟩
def CON.EVT_STAT_COPY_DONE : Fld := ⟨0x00B0000C, 11, 1⟩
def CON.EVT_STAT_COPY_ABORT : Fld := ⟨0x00B0000C, 12, 1⟩
/-! CON.CMD (Table 14.14). -/
def CON.CMD_FORCE_ACTIVE : Fld := ⟨0x00B00010, 0, 1⟩
def CON.CMD_JOIN : Fld := ⟨0x00B00010, 1, 1⟩
def CON.CMD_YIELD : Fld := ⟨0x00B00010, 2, 1⟩
def CON.CMD_CNT_CLR : Fld := ⟨0x00B00010, 3, 1⟩
/-! CON.COPY (Table 14.15). -/
def CON.COPY_REGIONS : Fld := ⟨0x00B00014, 0, 9⟩
def CON.COPY_CUR : Fld := ⟨0x00B00014, 16, 4⟩
/-! CON.PTR_ID (Table 14.15). -/
def CON.PTR_ID_SYSID : Fld := ⟨0x00B00018, 0, 16⟩
def CON.PTR_ID_TWIN_ID : Fld := ⟨0x00B00018, 16, 1⟩
def CON.PTR_ID_STATE : Fld := ⟨0x00B00018, 17, 3⟩
/-! CON.CHART_ID (Table 14.15). -/
def CON.CHART_ID_ID : Fld := ⟨0x00B0001C, 0, 32⟩
/-! CON.PTR_CHART_ID (Table 14.15). -/
def CON.PTR_CHART_ID_ID : Fld := ⟨0x00B00020, 0, 32⟩
/-! CON.JSEQ_TX (Table 14.15). -/
def CON.JSEQ_TX_JSEQ : Fld := ⟨0x00B00024, 0, 32⟩
/-! CON.JSEQ_RX (Table 14.15). -/
def CON.JSEQ_RX_JSEQ : Fld := ⟨0x00B00028, 0, 32⟩
/-! CON.MM_STAT (Table 14.15). -/
def CON.MM_STAT_UNIT : Fld := ⟨0x00B0002C, 0, 6⟩
def CON.MM_STAT_CAD : Fld := ⟨0x00B0002C, 8, 4⟩
def CON.MM_STAT_VALID : Fld := ⟨0x00B0002C, 15, 1⟩
def CON.MM_STAT_K_LO : Fld := ⟨0x00B0002C, 16, 16⟩
/-! CON.CNT_HB_MISS (Table 14.16). -/
def CON.CNT_HB_MISS_COUNT : Fld := ⟨0x00B00030, 0, 32⟩
/-! CON.CNT_DIG_MM (Table 14.16). -/
def CON.CNT_DIG_MM_COUNT : Fld := ⟨0x00B00034, 0, 32⟩
/-! CON.CNT_JRNL_GAP (Table 14.16). -/
def CON.CNT_JRNL_GAP_COUNT : Fld := ⟨0x00B00038, 0, 32⟩
/-! CON.CNT_TAKEOVER (Table 14.16). -/
def CON.CNT_TAKEOVER_COUNT : Fld := ⟨0x00B0003C, 0, 32⟩
/-! CON.CNT_COPY_ABORT (Table 14.16). -/
def CON.CNT_COPY_ABORT_COUNT : Fld := ⟨0x00B00040, 0, 32⟩
/-! CON.CNT_UNIT_ERR (Table 14.16). -/
def CON.CNT_UNIT_ERR_COUNT : Fld := ⟨0x00B00044, 0, 32⟩
/-! CON.DIG_EXCL (Table 14.16). -/
def CON.DIG_EXCL_EXCL (u : Nat) : Fld := ⟨0x00B00100 + 4 * u, 0, 32⟩
/-! HIF.STAT (Table 17.9). -/
def HIF.STAT_LINK_UP : Fld := ⟨0x00C00000, 0, 1⟩
def HIF.STAT_SPEED : Fld := ⟨0x00C00000, 1, 3⟩
def HIF.STAT_WIDTH : Fld := ⟨0x00C00000, 4, 3⟩
def HIF.STAT_CTRL_UP : Fld := ⟨0x00C00000, 7, 1⟩
/-! HIF.EVT_STAT (Table 17.9). -/
def HIF.EVT_STAT_LINK_RST : Fld := ⟨0x00C00004, 0, 1⟩
def HIF.EVT_STAT_DMA_ERR : Fld := ⟨0x00C00004, 1, 1⟩
def HIF.EVT_STAT_CLASS_VIOL : Fld := ⟨0x00C00004, 2, 1⟩
/-! HIF.TK_CTL (Table 5.9). -/
def HIF.TK_CTL_EN : Fld := ⟨0x00C01000, 0, 1⟩
def HIF.TK_CTL_RING_EN : Fld := ⟨0x00C01000, 1, 1⟩
def HIF.TK_CTL_MSG_EN : Fld := ⟨0x00C01000, 2, 1⟩
def HIF.TK_CTL_SALVO_TMO : Fld := ⟨0x00C01000, 8, 8⟩
/-! HIF.TK_VLAN (Table 5.10). -/
def HIF.TK_VLAN_VID : Fld := ⟨0x00C01004, 0, 12⟩
/-! HIF.TK_QUEUES (Table 5.11). -/
def HIF.TK_QUEUES_ENT_Q : Fld := ⟨0x00C01008, 0, 14⟩
def HIF.TK_QUEUES_RES_Q : Fld := ⟨0x00C01008, 16, 14⟩
def HIF.TK_QUEUES_RES_EN : Fld := ⟨0x00C01008, 31, 1⟩
/-! HIF.TK_ENT (Table 5.12). -/
def HIF.TK_ENT_DATA (k : Nat) : Fld := ⟨0x00C01010 + 4 * k, 0, 32⟩
/-! HIF.TK_DB (Table 5.13). -/
def HIF.TK_DB_GO : Fld := ⟨0x00C01020, 0, 1⟩
def HIF.TK_DB_FLUSH : Fld := ⟨0x00C01020, 1, 1⟩
/-! HIF.TK_RES (Table 5.14). -/
def HIF.TK_RES_CODE : Fld := ⟨0x00C01024, 0, 8⟩
def HIF.TK_RES_BUSY : Fld := ⟨0x00C01024, 8, 1⟩
def HIF.TK_RES_LATE : Fld := ⟨0x00C01024, 9, 1⟩
/-! HIF.TK_QSTAT (Table 5.15). -/
def HIF.TK_QSTAT_DEPTH : Fld := ⟨0x00C01028, 0, 3⟩
def HIF.TK_QSTAT_UNARMED : Fld := ⟨0x00C01028, 3, 3⟩
def HIF.TK_QSTAT_NEXT_SRC : Fld := ⟨0x00C01028, 8, 11⟩
def HIF.TK_QSTAT_LAST_CODE : Fld := ⟨0x00C01028, 24, 8⟩
/-! HIF.TK_EVT (Table 5.16). -/
def HIF.TK_EVT_EXEC : Fld := ⟨0x00C01030, 0, 1⟩
def HIF.TK_EVT_REJECT : Fld := ⟨0x00C01030, 1, 1⟩
def HIF.TK_EVT_MISTIMED : Fld := ⟨0x00C01030, 2, 1⟩
def HIF.TK_EVT_LATE : Fld := ⟨0x00C01030, 3, 1⟩
def HIF.TK_EVT_SALVO_FAIL : Fld := ⟨0x00C01030, 4, 1⟩
def HIF.TK_EVT_AUTH_FAIL : Fld := ⟨0x00C01030, 5, 1⟩
def HIF.TK_EVT_REPLAY : Fld := ⟨0x00C01030, 6, 1⟩
def HIF.TK_EVT_MSG_OVF : Fld := ⟨0x00C01030, 7, 1⟩
def HIF.TK_EVT_RES_OVF : Fld := ⟨0x00C01030, 8, 1⟩
def HIF.TK_EVT_DEFERRED : Fld := ⟨0x00C01030, 9, 1⟩
def HIF.TK_EVT_LOST : Fld := ⟨0x00C01030, 10, 1⟩
def HIF.TK_EVT_CLASS_VIOL : Fld := ⟨0x00C01030, 11, 1⟩
/-! HIF.TK_CNT_EXE (Table 5.17). -/
def HIF.TK_CNT_EXE_COUNT : Fld := ⟨0x00C01040, 0, 32⟩
/-! HIF.TK_CNT_REJ (Table 5.17). -/
def HIF.TK_CNT_REJ_COUNT : Fld := ⟨0x00C01044, 0, 32⟩
/-! HIF.TK_CNT_AUTH (Table 5.17). -/
def HIF.TK_CNT_AUTH_COUNT : Fld := ⟨0x00C01048, 0, 32⟩
/-! HIF.TK_CNT_DROP (Table 5.17). -/
def HIF.TK_CNT_DROP_COUNT : Fld := ⟨0x00C0104C, 0, 32⟩
/-! HIF.TK_CNT_RES_OVF (Table 5.17). -/
def HIF.TK_CNT_RES_OVF_COUNT : Fld := ⟨0x00C01050, 0, 32⟩
/-! HIF.TK_CNT_LOST (Table 5.17). -/
def HIF.TK_CNT_LOST_COUNT : Fld := ⟨0x00C01054, 0, 32⟩
/-! HIF.TK_CMD (Table 5.17). -/
def HIF.TK_CMD_CNT_CLR : Fld := ⟨0x00C01060, 0, 1⟩
/-! HIF.DMA_CTL (Table 17.9). -/
def HIF.DMA_CTL_EN : Fld := ⟨0x00C02000, 0, 1⟩
def HIF.DMA_CTL_DESC_Q : Fld := ⟨0x00C02000, 1, 14⟩
def HIF.DMA_CTL_CPL_Q : Fld := ⟨0x00C02000, 16, 14⟩
/-! HIF.DMA_STAT (Table 17.9). -/
def HIF.DMA_STAT_INFLIGHT : Fld := ⟨0x00C02004, 0, 3⟩
def HIF.DMA_STAT_CNT_ERR : Fld := ⟨0x00C02004, 16, 16⟩

/-- The rows of Table 21.2 in the GLB window. -/
def regsGlb : List RegRow := [
  ⟨0x00000000, 0, 1, .none, 0x004F1664,
    [⟨0, 16, .ro, .none⟩, ⟨16, 8, .ro, .none⟩]⟩,
  ⟨0x00000004, 0, 1, .none, 0x00000120,
    [⟨0, 8, .ro, .none⟩, ⟨8, 8, .ro, .none⟩]⟩,
  ⟨0x00000008, 0, 1, .none, 0x00000000,
    [⟨0, 16, .ro, .none⟩]⟩,
  ⟨0x0000000C, 0, 1, .none, 0x00000000,
    [⟨0, 32, .ro, .none⟩]⟩,
  ⟨0x00000010, 0, 1, .none, 0x00000000,
    [⟨0, 32, .ro, .none⟩]⟩,
  ⟨0x00000100, 0, 1, .none, 0x00000000,
    [⟨0, 1, .rs, .none⟩, ⟨1, 1, .rs, .none⟩, ⟨2, 2, .rs, .none⟩, ⟨4, 1, .rs, .none⟩]⟩,
  ⟨0x00000110, 0, 1, .none, 0x00000000,
    [⟨0, 26, .rs, .none⟩]⟩,
  ⟨0x00000114, 0, 1, .none, 0x00000000,
    [⟨0, 26, .wc, .none⟩]⟩,
  ⟨0x00000118, 0, 1, .none, 0x00000000,
    [⟨0, 32, .rs, .none⟩]⟩,
  ⟨0x0000011C, 0, 1, .none, 0x00000000,
    [⟨0, 5, .rs, .none⟩, ⟨5, 1, .rs, .none⟩]⟩,
  ⟨0x00000120, 0, 1, .none, 0x00000000,
    [⟨0, 1, .wx, .live⟩]⟩]

/-- The rows of Table 21.2 in the FLT window. -/
def regsFlt : List RegRow := [
  ⟨0x00010000, 0, 1, .master, 0x00000000,
    [⟨0, 8, .rw, .live⟩]⟩,
  ⟨0x00010004, 0, 1, .none, 0x00000000,
    [⟨0, 1, .wc, .none⟩, ⟨1, 1, .wc, .none⟩, ⟨2, 1, .wc, .none⟩, ⟨3, 1, .wc, .none⟩]⟩,
  ⟨0x00010008, 0, 1, .none, 0x00000A01,
    [⟨0, 1, .rw, .live⟩, ⟨1, 1, .rw, .live⟩, ⟨8, 8, .rw, .live⟩]⟩,
  ⟨0x0001000C, 0, 1, .none, 0x00000000,
    [⟨0, 3, .rs, .none⟩, ⟨3, 1, .rs, .none⟩, ⟨4, 1, .rs, .none⟩, ⟨5, 1, .rs, .none⟩, ⟨6, 1, .rs, .none⟩, ⟨7, 1, .rs, .none⟩, ⟨8, 3, .rs, .none⟩, ⟨16, 16, .rs, .none⟩]⟩,
  ⟨0x00010010, 0, 1, .none, 0x00000000,
    [⟨0, 1, .wx, .live⟩, ⟨1, 1, .wx, .live⟩, ⟨2, 1, .wx, .live⟩]⟩,
  ⟨0x00010014, 0, 1, .none, 0x00000000,
    [⟨0, 1, .rw, .live⟩, ⟨1, 1, .wx, .live⟩]⟩,
  ⟨0x00010018, 0, 1, .none, 0x00000000,
    [⟨0, 12, .rs, .none⟩, ⟨16, 5, .rs, .none⟩, ⟨24, 5, .rs, .none⟩]⟩,
  ⟨0x0001001C, 0, 1, .none, 0x00036400,
    [⟨0, 1, .ws, .live⟩, ⟨8, 8, .rw, .static⟩, ⟨16, 4, .rw, .static⟩]⟩,
  ⟨0x00010020, 0, 1, .none, 0x00000000,
    [⟨0, 32, .wx, .live⟩]⟩,
  ⟨0x00010024, 0, 1, .none, 0x00000000,
    [⟨0, 4, .rs, .none⟩, ⟨4, 1, .rs, .none⟩, ⟨16, 16, .rs, .none⟩]⟩,
  ⟨0x00010028, 0, 1, .none, 0x00000000,
    [⟨0, 6, .rwp, .live⟩, ⟨16, 7, .rs, .none⟩]⟩,
  ⟨0x0001002C, 0, 1, .none, 0x00000000,
    [⟨0, 32, .rs, .none⟩]⟩,
  ⟨0x00010030, 0, 1, .none, 0x00000000,
    [⟨0, 16, .rs, .none⟩]⟩,
  ⟨0x00010040, 4, 16, .none, 0x00000000,
    [⟨0, 3, .rs, .none⟩, ⟨3, 1, .rs, .none⟩, ⟨16, 16, .rs, .none⟩]⟩,
  ⟨0x00010080, 4, 24, .none, 0x00000000,
    [⟨0, 12, .rs, .none⟩, ⟨12, 1, .rs, .none⟩]⟩,
  ⟨0x00010100, 0, 1, .flt, 0x00000008,
    [⟨0, 3, .rw, .live⟩, ⟨3, 2, .rw, .live⟩]⟩,
  ⟨0x00010104, 0, 1, .flt, 0x00000000,
    [⟨0, 1, .rs, .none⟩, ⟨1, 1, .rs, .none⟩, ⟨2, 1, .rs, .none⟩, ⟨3, 3, .rs, .none⟩, ⟨6, 1, .ro, .none⟩, ⟨7, 1, .ro, .none⟩, ⟨8, 2, .rs, .none⟩, ⟨16, 16, .rs, .none⟩]⟩,
  ⟨0x00010108, 0, 1, .flt, 0x00000000,
    [⟨0, 1, .wx, .live⟩, ⟨1, 1, .wx, .live⟩, ⟨2, 1, .wx, .live⟩, ⟨3, 1, .rw, .live⟩]⟩,
  ⟨0x0001010C, 0, 1, .flt, 0x00000000,
    [⟨0, 32, .rs, .none⟩]⟩,
  ⟨0x00010200, 4, 8, .none, 0x00000000,
    [⟨0, 32, .rs, .none⟩]⟩]

/-- The rows of Table 21.2 in the TIM window. -/
def regsTim : List RegRow := [
  ⟨0x00020000, 0, 1, .none, 0x00000001,
    [⟨0, 1, .rw, .live⟩]⟩,
  ⟨0x00020004, 0, 1, .none, 0x00000000,
    [⟨0, 1, .wc, .none⟩, ⟨1, 1, .wc, .none⟩, ⟨2, 1, .wc, .none⟩, ⟨3, 1, .wc, .none⟩, ⟨4, 1, .wc, .none⟩, ⟨5, 1, .wc, .none⟩, ⟨6, 1, .wc, .none⟩, ⟨7, 1, .wc, .none⟩, ⟨8, 1, .wc, .none⟩, ⟨16, 8, .wc, .none⟩]⟩,
  ⟨0x00020010, 0, 1, .none, 0x00000000,
    [⟨0, 16, .rs, .none⟩]⟩,
  ⟨0x00020014, 0, 1, .none, 0x00000000,
    [⟨0, 32, .rs, .none⟩]⟩,
  ⟨0x00020018, 0, 1, .none, 0x00000000,
    [⟨0, 32, .rs, .none⟩]⟩,
  ⟨0x0002001C, 0, 1, .none, 0x00000000,
    [⟨0, 16, .rs, .none⟩]⟩,
  ⟨0x00020020, 0, 1, .none, 0x00000000,
    [⟨0, 32, .rw, .live⟩]⟩,
  ⟨0x00020024, 0, 1, .none, 0x00000000,
    [⟨0, 32, .rw, .live⟩]⟩,
  ⟨0x00020028, 0, 1, .none, 0x00000000,
    [⟨0, 16, .rw, .live⟩]⟩,
  ⟨0x0002002C, 0, 1, .none, 0x00000000,
    [⟨0, 32, .rw, .live⟩]⟩,
  ⟨0x00020030, 0, 1, .none, 0x00000000,
    [⟨0, 32, .rwp, .live⟩]⟩,
  ⟨0x00020034, 0, 1, .none, 0x00000140,
    [⟨0, 16, .rwp, .live⟩]⟩,
  ⟨0x00020038, 0, 1, .none, 0x00000000,
    [⟨0, 32, .rw, .static⟩]⟩,
  ⟨0x0002003C, 0, 1, .none, 0x00000140,
    [⟨0, 16, .rw, .static⟩]⟩,
  ⟨0x00020040, 0, 1, .none, 0x00000082,
    [⟨0, 1, .rw, .live⟩, ⟨1, 1, .rw, .live⟩, ⟨4, 4, .rw, .live⟩]⟩,
  ⟨0x00020044, 0, 1, .none, 0x4CCD00B3,
    [⟨0, 16, .rw, .live⟩, ⟨16, 16, .rw, .live⟩]⟩,
  ⟨0x00020048, 0, 1, .none, 0x000186A0,
    [⟨0, 32, .rw, .live⟩]⟩,
  ⟨0x0002004C, 0, 1, .none, 0x000F4240,
    [⟨0, 32, .rw, .live⟩]⟩,
  ⟨0x00020050, 0, 1, .none, 0x00000064,
    [⟨0, 32, .rw, .live⟩]⟩,
  ⟨0x00020054, 0, 1, .none, 0x00000000,
    [⟨0, 32, .rw, .live⟩]⟩,
  ⟨0x00020058, 0, 1, .none, 0x00000000,
    [⟨0, 16, .rw, .live⟩]⟩,
  ⟨0x0002005C, 0, 1, .none, 0x00000000,
    [⟨0, 1, .rs, .none⟩, ⟨1, 1, .rs, .none⟩, ⟨2, 3, .rs, .none⟩, ⟨8, 1, .rs, .none⟩]⟩,
  ⟨0x00020060, 0, 1, .none, 0x00000000,
    [⟨0, 32, .rs, .none⟩]⟩,
  ⟨0x00020064, 0, 1, .none, 0x00000000,
    [⟨0, 32, .rs, .none⟩]⟩,
  ⟨0x00020068, 0, 1, .none, 0x00000000,
    [⟨0, 32, .rs, .none⟩]⟩,
  ⟨0x0002006C, 0, 1, .none, 0x00000000,
    [⟨0, 32, .rs, .none⟩]⟩,
  ⟨0x00020070, 0, 1, .none, 0x00000000,
    [⟨0, 1, .wx, .live⟩, ⟨1, 1, .wx, .live⟩, ⟨2, 1, .wx, .live⟩, ⟨3, 1, .wx, .live⟩, ⟨4, 1, .wx, .live⟩, ⟨5, 1, .wx, .live⟩]⟩,
  ⟨0x00020074, 0, 1, .none, 0x00000000,
    [⟨0, 32, .rs, .none⟩]⟩,
  ⟨0x00020078, 0, 1, .none, 0x00000000,
    [⟨0, 32, .rs, .none⟩]⟩,
  ⟨0x0002007C, 0, 1, .none, 0x00000000,
    [⟨0, 32, .rs, .none⟩]⟩,
  ⟨0x00020080, 0, 1, .none, 0xFFFFFFFF,
    [⟨0, 32, .rw, .live⟩]⟩,
  ⟨0x00020084, 0, 1, .none, 0xFFFFFFFF,
    [⟨0, 32, .rw, .live⟩]⟩,
  ⟨0x00020088, 0, 1, .none, 0x00000000,
    [⟨0, 32, .wx, .live⟩]⟩,
  ⟨0x0002008C, 0, 1, .none, 0x00000000,
    [⟨0, 32, .wx, .live⟩]⟩,
  ⟨0x00020100, 4, 16, .none, 0x00000000,
    [⟨0, 3, .rw, .static⟩, ⟨8, 1, .rs, .none⟩]⟩,
  ⟨0x00020140, 4, 16, .none, 0x00000000,
    [⟨0, 32, .rw, .static⟩]⟩,
  ⟨0x00020200, 16, 8, .none, 0x00000000,
    [⟨0, 32, .rw, .static⟩]⟩,
  ⟨0x00020204, 16, 8, .none, 0x00000000,
    [⟨0, 32, .rw, .static⟩]⟩,
  ⟨0x00020208, 16, 8, .none, 0x00000000,
    [⟨0, 16, .rw, .static⟩, ⟨16, 1, .rwp, .live⟩, ⟨17, 1, .rs, .none⟩]⟩,
  ⟨0x0002020C, 16, 8, .none, 0x00000000,
    [⟨0, 32, .rw, .static⟩]⟩,
  ⟨0x00021000, 16, 64, .none, 0x00000000,
    [⟨0, 16, .rs, .none⟩, ⟨16, 1, .rs, .none⟩, ⟨17, 1, .rs, .none⟩, ⟨18, 1, .rs, .none⟩, ⟨19, 1, .rs, .none⟩, ⟨24, 7, .rs, .none⟩]⟩,
  ⟨0x00021004, 16, 64, .none, 0x00000000,
    [⟨0, 32, .rs, .none⟩]⟩,
  ⟨0x00021008, 16, 64, .none, 0x00000000,
    [⟨0, 32, .rs, .none⟩]⟩,
  ⟨0x0002100C, 16, 64, .none, 0x00000000,
    [⟨0, 16, .rs, .none⟩, ⟨16, 16, .rs, .none⟩]⟩]

/-- The rows of Table 21.2 in the REF window. -/
def regsRef : List RegRow := [
  ⟨0x00030000, 0, 1, .none, 0x00000180,
    [⟨0, 1, .rw, .live⟩, ⟨1, 1, .rw, .live⟩, ⟨2, 1, .rw, .live⟩, ⟨4, 3, .rw, .live⟩, ⟨7, 1, .rw, .live⟩, ⟨8, 2, .rw, .static⟩]⟩,
  ⟨0x00030004, 0, 1, .none, 0x000501F4,
    [⟨0, 16, .rw, .live⟩, ⟨16, 8, .rw, .live⟩]⟩,
  ⟨0x00030008, 0, 1, .none, 0x3C0A0A14,
    [⟨0, 8, .rw, .live⟩, ⟨8, 8, .rw, .live⟩, ⟨16, 8, .rw, .live⟩, ⟨24, 8, .rw, .live⟩]⟩,
  ⟨0x0003000C, 0, 1, .none, 0x00180005,
    [⟨0, 16, .rw, .live⟩, ⟨16, 16, .rw, .live⟩]⟩,
  ⟨0x00030010, 0, 1, .none, 0x00000000,
    [⟨0, 3, .rw, .live⟩, ⟨4, 3, .rw, .live⟩, ⟨8, 3, .rw, .live⟩, ⟨12, 3, .rw, .live⟩, ⟨16, 3, .rw, .live⟩, ⟨20, 3, .rw, .live⟩]⟩,
  ⟨0x00030020, 4, 4, .none, 0x00000000,
    [⟨0, 2, .rw, .static⟩, ⟨2, 1, .rw, .static⟩, ⟨4, 4, .rw, .static⟩, ⟨16, 16, .rw, .static⟩]⟩,
  ⟨0x00030040, 0, 1, .none, 0x00000070,
    [⟨0, 2, .rs, .none⟩, ⟨2, 2, .rs, .none⟩, ⟨4, 3, .rs, .none⟩, ⟨7, 1, .rs, .none⟩, ⟨8, 1, .rs, .none⟩, ⟨9, 1, .rs, .none⟩, ⟨10, 1, .rs, .none⟩, ⟨16, 6, .rs, .none⟩, ⟨24, 6, .rs, .none⟩]⟩,
  ⟨0x00030044, 0, 1, .none, 0x00000000,
    [⟨0, 1, .wc, .none⟩, ⟨1, 1, .wc, .none⟩, ⟨2, 1, .wc, .none⟩, ⟨3, 1, .wc, .none⟩, ⟨4, 1, .wc, .none⟩, ⟨5, 1, .wc, .none⟩, ⟨6, 1, .wc, .none⟩, ⟨7, 1, .wc, .none⟩]⟩,
  ⟨0x00030048, 0, 1, .none, 0x00000000,
    [⟨0, 1, .wx, .live⟩, ⟨1, 1, .wx, .live⟩, ⟨2, 1, .wx, .live⟩]⟩,
  ⟨0x00030050, 8, 6, .none, 0x00000000,
    [⟨0, 24, .rs, .none⟩, ⟨24, 1, .rs, .none⟩, ⟨25, 1, .rs, .none⟩, ⟨26, 1, .rs, .none⟩]⟩,
  ⟨0x00030054, 8, 6, .none, 0x00000000,
    [⟨0, 16, .rs, .none⟩]⟩,
  ⟨0x00030080, 0, 1, .none, 0x00001900,
    [⟨0, 16, .rw, .live⟩]⟩,
  ⟨0x00030084, 0, 1, .none, 0x00000000,
    [⟨0, 32, .rw, .live⟩]⟩,
  ⟨0x00030088, 0, 1, .none, 0x00000000,
    [⟨0, 32, .rw, .live⟩]⟩,
  ⟨0x0003008C, 0, 1, .none, 0x00000000,
    [⟨0, 32, .rw, .live⟩]⟩,
  ⟨0x00030090, 0, 1, .none, 0x00000000,
    [⟨0, 32, .rw, .live⟩]⟩,
  ⟨0x00030094, 0, 1, .none, 0x00000000,
    [⟨0, 32, .rw, .live⟩]⟩,
  ⟨0x00030098, 0, 1, .none, 0x00000000,
    [⟨0, 16, .rwp, .live⟩]⟩,
  ⟨0x0003009C, 0, 1, .none, 0x00000000,
    [⟨0, 16, .rs, .none⟩]⟩,
  ⟨0x000300A0, 0, 1, .none, 0x00000000,
    [⟨0, 32, .rs, .none⟩]⟩,
  ⟨0x000300A4, 0, 1, .none, 0x00000000,
    [⟨0, 32, .rs, .none⟩]⟩,
  ⟨0x000300A8, 0, 1, .none, 0x00000000,
    [⟨0, 32, .rs, .none⟩]⟩,
  ⟨0x000300AC, 0, 1, .none, 0x00000000,
    [⟨0, 7, .rwp, .live⟩, ⟨16, 16, .rs, .none⟩]⟩,
  ⟨0x000300B0, 0, 1, .none, 0x00000000,
    [⟨0, 32, .rs, .none⟩]⟩]

/-- The rows of Table 21.2 in the NVM window. -/
def regsNvm : List RegRow := [
  ⟨0x00040000, 0, 1, .none, 0x00000000,
    [⟨0, 4, .rs, .none⟩, ⟨4, 1, .rs, .none⟩, ⟨5, 1, .rs, .none⟩, ⟨6, 1, .rs, .none⟩, ⟨7, 1, .rs, .none⟩, ⟨8, 1, .rs, .none⟩, ⟨9, 1, .rs, .none⟩, ⟨10, 1, .rs, .none⟩, ⟨11, 1, .rs, .none⟩, ⟨12, 1, .rs, .none⟩, ⟨13, 1, .rs, .none⟩, ⟨16, 4, .rs, .none⟩]⟩,
  ⟨0x00040004, 0, 1, .none, 0x00000000,
    [⟨0, 1, .wc, .none⟩, ⟨1, 1, .wc, .none⟩, ⟨2, 1, .wc, .none⟩, ⟨3, 1, .wc, .none⟩, ⟨4, 1, .wc, .none⟩, ⟨5, 1, .wc, .none⟩, ⟨6, 1, .wc, .none⟩, ⟨7, 1, .wc, .none⟩]⟩,
  ⟨0x00040008, 0, 1, .none, 0x00000000,
    [⟨0, 1, .wx, .live⟩, ⟨1, 1, .wx, .live⟩]⟩,
  ⟨0x0004000C, 0, 1, .none, 0x00000000,
    [⟨0, 32, .rs, .none⟩]⟩]

/-- The rows of Table 21.2 in the KEY window. -/
def regsKey : List RegRow := [
  ⟨0x00050000, 0, 1, .master, 0x00000000,
    [⟨0, 5, .rw, .live⟩]⟩,
  ⟨0x00050004, 0, 1, .none, 0x00000000,
    [⟨0, 1, .wc, .none⟩, ⟨1, 1, .wc, .none⟩, ⟨2, 1, .wc, .none⟩, ⟨3, 1, .wc, .none⟩, ⟨4, 1, .wc, .none⟩, ⟨5, 1, .wc, .none⟩, ⟨6, 1, .wc, .none⟩, ⟨7, 1, .wc, .none⟩, ⟨8, 1, .wc, .none⟩]⟩,
  ⟨0x00050008, 0, 1, .none, 0x00000010,
    [⟨0, 1, .rs, .none⟩, ⟨1, 1, .rs, .none⟩, ⟨2, 1, .rs, .none⟩, ⟨4, 3, .rs, .none⟩, ⟨8, 2, .rs, .none⟩]⟩,
  ⟨0x0005000C, 0, 1, .none, 0x00000000,
    [⟨0, 1, .ws, .live⟩, ⟨1, 1, .wx, .live⟩]⟩,
  ⟨0x00050010, 0, 1, .none, 0x00000000,
    [⟨0, 32, .rs, .none⟩]⟩,
  ⟨0x00050014, 0, 1, .none, 0x00000000,
    [⟨0, 25, .rs, .none⟩]⟩,
  ⟨0x00050018, 0, 1, .none, 0x00000000,
    [⟨0, 32, .rs, .none⟩]⟩,
  ⟨0x0005001C, 0, 1, .none, 0x00000000,
    [⟨0, 32, .rs, .none⟩]⟩,
  ⟨0x00050020, 0, 1, .none, 0x00000000,
    [⟨0, 16, .rs, .none⟩]⟩,
  ⟨0x00050100, 0, 1, .key, 0x00000000,
    [⟨0, 2, .rs, .none⟩, ⟨2, 2, .rs, .none⟩, ⟨4, 2, .rs, .none⟩, ⟨6, 2, .rs, .none⟩]⟩,
  ⟨0x00050104, 0, 1, .key, 0x00000000,
    [⟨0, 32, .rs, .none⟩]⟩,
  ⟨0x00050108, 0, 1, .key, 0x00000000,
    [⟨0, 32, .rs, .none⟩]⟩]

/-- The rows of Table 21.2 in the MGT window. -/
def regsMgt : List RegRow := [
  ⟨0x00060000, 0, 1, .none, 0x00000000,
    [⟨0, 1, .rs, .none⟩, ⟨1, 1, .rs, .none⟩]⟩,
  ⟨0x00060004, 0, 1, .none, 0x00000000,
    [⟨0, 1, .wc, .none⟩, ⟨1, 1, .wc, .none⟩, ⟨2, 1, .wc, .none⟩, ⟨3, 1, .wc, .none⟩, ⟨4, 1, .wc, .none⟩]⟩,
  ⟨0x00060008, 0, 1, .none, 0x00000000,
    [⟨0, 1, .rw, .live⟩, ⟨1, 14, .rw, .static⟩, ⟨16, 14, .rw, .static⟩]⟩,
  ⟨0x0006000C, 0, 1, .none, 0x00000000,
    [⟨0, 1, .wx, .live⟩]⟩,
  ⟨0x00060010, 0, 1, .none, 0x00000000,
    [⟨0, 1, .rs, .none⟩]⟩,
  ⟨0x00060100, 4, 16, .none, 0x00000000,
    [⟨0, 32, .rw, .live⟩]⟩,
  ⟨0x00060140, 4, 16, .none, 0x00000000,
    [⟨0, 32, .rs, .none⟩]⟩]

/-- The rows of Table 21.2 in the BUS window. -/
def regsBus : List RegRow := [
  ⟨0x00070000, 0, 1, .none, 0x00000000,
    [⟨0, 1, .wc, .none⟩, ⟨1, 1, .wc, .none⟩, ⟨2, 1, .wc, .none⟩]⟩,
  ⟨0x00070004, 0, 1, .none, 0x00000000,
    [⟨0, 3, .rs, .none⟩, ⟨3, 1, .rs, .none⟩, ⟨4, 1, .rs, .none⟩, ⟨16, 16, .rs, .none⟩]⟩,
  ⟨0x00070008, 0, 1, .none, 0x00000000,
    [⟨0, 24, .rs, .none⟩]⟩,
  ⟨0x0007000C, 0, 1, .none, 0x00000000,
    [⟨0, 3, .rs, .none⟩, ⟨3, 1, .rs, .none⟩, ⟨4, 1, .rs, .none⟩, ⟨16, 16, .rs, .none⟩]⟩,
  ⟨0x00070010, 0, 1, .none, 0x00000000,
    [⟨0, 24, .rs, .none⟩]⟩,
  ⟨0x00070014, 0, 1, .none, 0x00000000,
    [⟨0, 1, .wx, .live⟩]⟩]

/-- The rows of Table 21.2 in the EVT window. -/
def regsEvt : List RegRow := [
  ⟨0x00080000, 0, 1, .master, 0x00000000,
    [⟨0, 9, .rw, .live⟩]⟩,
  ⟨0x00080004, 0, 1, .none, 0x00000000,
    [⟨0, 1, .wc, .none⟩, ⟨1, 1, .wc, .none⟩, ⟨2, 1, .wc, .none⟩]⟩,
  ⟨0x00080008, 0, 1, .none, 0x00000000,
    [⟨0, 7, .rw, .live⟩, ⟨8, 1, .wx, .live⟩, ⟨9, 1, .wx, .live⟩]⟩,
  ⟨0x0008000C, 0, 1, .none, 0x00000000,
    [⟨0, 14, .rw, .live⟩, ⟨15, 1, .rw, .live⟩]⟩,
  ⟨0x00080010, 4, 16, .none, 0x00000000,
    [⟨0, 32, .rs, .none⟩]⟩,
  ⟨0x00080050, 0, 1, .none, 0x00000000,
    [⟨0, 4, .rw, .live⟩]⟩,
  ⟨0x00080058, 0, 1, .none, 0x00000000,
    [⟨0, 32, .wx, .live⟩]⟩,
  ⟨0x0008005C, 0, 1, .none, 0x00000000,
    [⟨0, 32, .wx, .live⟩]⟩,
  ⟨0x00080060, 0, 1, .none, 0xFFFFFFFF,
    [⟨0, 32, .rs, .none⟩]⟩,
  ⟨0x00080064, 0, 1, .none, 0xFFFFFFFF,
    [⟨0, 32, .rs, .none⟩]⟩,
  ⟨0x00080100, 0, 1, .evt, 0x00000000,
    [⟨0, 6, .rw, .live⟩, ⟨6, 1, .rw, .live⟩, ⟨8, 4, .rw, .live⟩, ⟨12, 1, .rw, .live⟩]⟩,
  ⟨0x00080104, 0, 1, .evt, 0xFFFFFFFF,
    [⟨0, 32, .rw, .live⟩]⟩,
  ⟨0x00080108, 0, 1, .evt, 0x00000000,
    [⟨0, 32, .rs, .none⟩]⟩]

/-- The rows of Table 21.2 in the LOG window. -/
def regsLog : List RegRow := [
  ⟨0x00090000, 0, 1, .master, 0x00000000,
    [⟨0, 11, .rw, .live⟩]⟩,
  ⟨0x00090004, 0, 1, .none, 0x00000000,
    [⟨0, 1, .wc, .none⟩, ⟨1, 1, .wc, .none⟩, ⟨2, 1, .wc, .none⟩, ⟨3, 1, .wc, .none⟩, ⟨4, 1, .wc, .none⟩, ⟨5, 1, .wc, .none⟩]⟩,
  ⟨0x00090008, 0, 1, .none, 0x00000000,
    [⟨0, 1, .rwp, .live⟩, ⟨1, 1, .rw, .live⟩, ⟨2, 1, .rw, .live⟩, ⟨4, 3, .rw, .live⟩, ⟨7, 1, .rw, .live⟩, ⟨8, 3, .rw, .live⟩]⟩,
  ⟨0x0009000C, 0, 1, .none, 0x000F4240,
    [⟨0, 32, .rw, .shadow⟩]⟩,
  ⟨0x00090010, 0, 1, .none, 0x00000000,
    [⟨0, 1, .wx, .live⟩, ⟨1, 1, .wx, .live⟩, ⟨2, 1, .wx, .live⟩]⟩,
  ⟨0x00090014, 0, 1, .none, 0x00000000,
    [⟨0, 1, .rs, .none⟩, ⟨1, 1, .rs, .none⟩, ⟨8, 24, .rs, .none⟩]⟩,
  ⟨0x00090018, 0, 1, .none, 0x00000000,
    [⟨0, 32, .rs, .none⟩]⟩,
  ⟨0x0009001C, 0, 1, .none, 0x00000000,
    [⟨0, 32, .rs, .none⟩]⟩,
  ⟨0x00090020, 0, 1, .none, 0x00000000,
    [⟨0, 32, .rs, .none⟩]⟩,
  ⟨0x00090024, 0, 1, .none, 0x00000000,
    [⟨0, 16, .rs, .none⟩]⟩,
  ⟨0x00090100, 0, 1, .ctr, 0x00000000,
    [⟨0, 32, .rs, .none⟩]⟩,
  ⟨0x00090104, 0, 1, .ctr, 0x00000000,
    [⟨0, 16, .rs, .none⟩]⟩,
  ⟨0x00090108, 0, 1, .ctr, 0x00000000,
    [⟨0, 32, .rs, .none⟩]⟩,
  ⟨0x0009010C, 0, 1, .ctr, 0x00000000,
    [⟨0, 16, .rs, .none⟩]⟩,
  ⟨0x00091000, 16, 270, .none, 0x00000000,
    [⟨0, 32, .rs, .none⟩]⟩,
  ⟨0x00091004, 16, 270, .none, 0x00000000,
    [⟨0, 16, .rs, .none⟩]⟩,
  ⟨0x00091008, 16, 270, .none, 0x00000000,
    [⟨0, 32, .rs, .none⟩]⟩,
  ⟨0x0009100C, 16, 270, .none, 0x00000000,
    [⟨0, 16, .rs, .none⟩]⟩]

/-- The rows of Table 21.2 in the LNG window. -/
def regsLng : List RegRow := [
  ⟨0x00100000, 0, 1, .master, 0x00000000,
    [⟨0, 6, .rw, .live⟩]⟩,
  ⟨0x00100004, 0, 1, .none, 0x00000000,
    [⟨0, 1, .wc, .none⟩, ⟨1, 1, .wc, .none⟩]⟩,
  ⟨0x00100008, 0, 1, .none, 0x00000000,
    [⟨0, 32, .rs, .none⟩]⟩,
  ⟨0x0010000C, 0, 1, .none, 0x00000000,
    [⟨0, 5, .rs, .none⟩]⟩,
  ⟨0x00100100, 0, 1, .grp, 0x00000060,
    [⟨0, 2, .rw, .live⟩, ⟨2, 2, .rw, .live⟩, ⟨4, 1, .rw, .static⟩, ⟨5, 1, .rw, .live⟩, ⟨6, 1, .rw, .live⟩]⟩,
  ⟨0x00100104, 0, 1, .grp, 0x00000000,
    [⟨0, 4, .rs, .none⟩, ⟨4, 4, .rs, .none⟩, ⟨8, 1, .rs, .none⟩, ⟨9, 1, .rs, .none⟩, ⟨10, 1, .rs, .none⟩, ⟨16, 8, .rs, .none⟩]⟩,
  ⟨0x00100108, 0, 1, .grp, 0x00000210,
    [⟨0, 8, .rw, .live⟩, ⟨8, 4, .rw, .live⟩]⟩,
  ⟨0x0010010C, 0, 1, .grp, 0x000A0604,
    [⟨0, 5, .rw, .live⟩, ⟨8, 5, .rw, .live⟩, ⟨16, 4, .rw, .live⟩]⟩,
  ⟨0x00100110, 0, 1, .grp, 0x00000016,
    [⟨0, 4, .rw, .static⟩, ⟨4, 1, .rw, .live⟩]⟩,
  ⟨0x00100114, 0, 1, .grp, 0x00000000,
    [⟨0, 2, .rs, .none⟩, ⟨2, 1, .rs, .none⟩, ⟨3, 1, .rs, .none⟩, ⟨4, 1, .rs, .none⟩, ⟨5, 1, .rs, .none⟩, ⟨6, 1, .rs, .none⟩, ⟨7, 1, .rs, .none⟩, ⟨8, 8, .rs, .none⟩, ⟨16, 16, .rs, .none⟩]⟩,
  ⟨0x00100118, 0, 1, .grp, 0x00000000,
    [⟨0, 12, .rs, .none⟩, ⟨12, 3, .rs, .none⟩, ⟨31, 1, .rs, .none⟩]⟩,
  ⟨0x0010011C, 0, 1, .grp, 0x00000000,
    [⟨0, 1, .wc, .none⟩, ⟨1, 1, .wc, .none⟩, ⟨2, 1, .wc, .none⟩, ⟨3, 1, .wc, .none⟩, ⟨4, 1, .wc, .none⟩, ⟨5, 1, .wc, .none⟩, ⟨6, 1, .wc, .none⟩, ⟨7, 1, .wc, .none⟩, ⟨8, 1, .wc, .none⟩]⟩,
  ⟨0x00100120, 0, 1, .grp, 0x00000000,
    [⟨0, 32, .rs, .none⟩]⟩,
  ⟨0x00100124, 0, 1, .grp, 0x00000000,
    [⟨0, 32, .rs, .none⟩]⟩,
  ⟨0x00100128, 0, 1, .grp, 0x00000000,
    [⟨0, 32, .rs, .none⟩]⟩,
  ⟨0x0010012C, 0, 1, .grp, 0x00000000,
    [⟨0, 32, .rs, .none⟩]⟩,
  ⟨0x00100130, 0, 1, .grp, 0x00000000,
    [⟨0, 32, .rs, .none⟩]⟩,
  ⟨0x00100140, 0, 1, .grp, 0x00000000,
    [⟨0, 1, .wx, .live⟩, ⟨1, 1, .wx, .live⟩, ⟨2, 1, .wx, .live⟩]⟩]

/-- The rows of Table 21.2 in the XP window. -/
def regsXp : List RegRow := [
  ⟨0x00200000, 0, 1, .master, 0x00000000,
    [⟨0, 11, .rw, .live⟩]⟩,
  ⟨0x00200004, 0, 1, .none, 0x00000000,
    [⟨0, 1, .wc, .none⟩, ⟨1, 1, .wc, .none⟩, ⟨2, 1, .wc, .none⟩]⟩,
  ⟨0x00200008, 0, 1, .none, 0x00000000,
    [⟨0, 3, .rs, .none⟩, ⟨16, 11, .rs, .none⟩]⟩,
  ⟨0x00200100, 0, 1, .out, 0x000007FF,
    [⟨0, 11, .rw, .static⟩]⟩,
  ⟨0x00200104, 0, 1, .out, 0x00000400,
    [⟨0, 2, .rw, .shadow⟩, ⟨4, 4, .rw, .shadow⟩, ⟨8, 3, .rw, .shadow⟩]⟩,
  ⟨0x00200108, 0, 1, .out, 0x000017FF,
    [⟨0, 11, .rs, .none⟩, ⟨11, 1, .rs, .none⟩, ⟨12, 1, .rs, .none⟩, ⟨13, 1, .rs, .none⟩, ⟨14, 1, .rs, .none⟩, ⟨15, 1, .rs, .none⟩, ⟨16, 3, .rs, .none⟩, ⟨19, 1, .rs, .none⟩, ⟨20, 1, .rs, .none⟩, ⟨21, 1, .rs, .none⟩, ⟨22, 1, .rs, .none⟩, ⟨24, 5, .rs, .none⟩]⟩,
  ⟨0x0020010C, 0, 1, .out, 0x00000000,
    [⟨0, 1, .wc, .none⟩, ⟨1, 1, .wc, .none⟩, ⟨2, 1, .wc, .none⟩, ⟨3, 1, .wc, .none⟩, ⟨4, 1, .wc, .none⟩, ⟨5, 1, .wc, .none⟩, ⟨6, 1, .wc, .none⟩]⟩,
  ⟨0x00200110, 0, 1, .out, 0x00000000,
    [⟨0, 32, .rs, .none⟩]⟩,
  ⟨0x00200114, 0, 1, .out, 0x00000000,
    [⟨0, 1, .wx, .live⟩]⟩]

/-- The rows of Table 21.2 in the SLP window. -/
def regsSlp : List RegRow := [
  ⟨0x00300000, 0, 1, .master, 0x00000000,
    [⟨0, 11, .rw, .live⟩]⟩,
  ⟨0x00300004, 0, 1, .none, 0x00000000,
    [⟨0, 1, .wc, .none⟩, ⟨1, 1, .wc, .none⟩]⟩,
  ⟨0x00300100, 0, 1, .slot, 0x00000036,
    [⟨0, 1, .rw, .live⟩, ⟨1, 3, .rw, .static⟩, ⟨4, 1, .rw, .live⟩, ⟨5, 1, .rw, .static⟩, ⟨8, 6, .rw, .static⟩, ⟨16, 4, .rw, .live⟩, ⟨20, 1, .rw, .static⟩]⟩,
  ⟨0x00300104, 0, 1, .slot, 0x00004321,
    [⟨0, 4, .rw, .shadow⟩, ⟨4, 4, .rw, .shadow⟩, ⟨8, 4, .rw, .shadow⟩, ⟨12, 4, .rw, .shadow⟩]⟩,
  ⟨0x00300108, 0, 1, .slot, 0x00000064,
    [⟨0, 16, .rw, .live⟩]⟩,
  ⟨0x00300110, 0, 1, .slot, 0x00000000,
    [⟨0, 1, .rw, .live⟩, ⟨1, 1, .rw, .static⟩, ⟨2, 1, .rw, .static⟩, ⟨8, 6, .rw, .static⟩, ⟨16, 4, .rw, .static⟩]⟩,
  ⟨0x00300114, 0, 1, .slot, 0x00004321,
    [⟨0, 4, .rw, .shadow⟩, ⟨4, 4, .rw, .shadow⟩, ⟨8, 4, .rw, .shadow⟩, ⟨12, 4, .rw, .shadow⟩]⟩,
  ⟨0x00300118, 0, 1, .slot, 0x00000000,
    [⟨0, 14, .rw, .static⟩, ⟨15, 1, .rw, .static⟩, ⟨16, 14, .rw, .static⟩, ⟨31, 1, .rw, .static⟩]⟩,
  ⟨0x00300120, 4, 8, .slot, 0x00000000,
    [⟨0, 8, .rw, .live⟩, ⟨8, 8, .rw, .live⟩, ⟨16, 1, .rw, .live⟩, ⟨17, 1, .rw, .live⟩, ⟨18, 1, .rw, .live⟩, ⟨19, 1, .rw, .live⟩]⟩,
  ⟨0x00300180, 0, 1, .slot, 0x00000000,
    [⟨0, 2, .rs, .none⟩, ⟨2, 1, .rs, .none⟩, ⟨3, 1, .rs, .none⟩, ⟨4, 1, .rs, .none⟩, ⟨5, 1, .rs, .none⟩, ⟨6, 1, .rs, .none⟩, ⟨7, 1, .rs, .none⟩, ⟨8, 6, .rs, .none⟩, ⟨14, 1, .rs, .none⟩, ⟨15, 1, .rs, .none⟩, ⟨16, 1, .rs, .none⟩]⟩,
  ⟨0x00300184, 0, 1, .slot, 0x00000000,
    [⟨0, 12, .rs, .none⟩, ⟨15, 1, .rs, .none⟩, ⟨16, 16, .rs, .none⟩]⟩,
  ⟨0x00300188, 0, 1, .slot, 0x00000000,
    [⟨0, 32, .rs, .none⟩]⟩,
  ⟨0x0030018C, 0, 1, .slot, 0x00000000,
    [⟨0, 32, .rs, .none⟩]⟩,
  ⟨0x00300190, 0, 1, .slot, 0x00000000,
    [⟨0, 1, .rs, .none⟩, ⟨1, 1, .rs, .none⟩, ⟨2, 1, .rs, .none⟩]⟩,
  ⟨0x00300194, 0, 1, .slot, 0x00000000,
    [⟨0, 1, .wc, .none⟩, ⟨1, 1, .wc, .none⟩, ⟨2, 1, .wc, .none⟩, ⟨3, 1, .wc, .none⟩, ⟨4, 1, .wc, .none⟩, ⟨5, 1, .wc, .none⟩, ⟨6, 1, .wc, .none⟩, ⟨7, 1, .wc, .none⟩, ⟨8, 1, .wc, .none⟩, ⟨9, 1, .wc, .none⟩, ⟨10, 1, .wc, .none⟩, ⟨11, 1, .wc, .none⟩]⟩,
  ⟨0x003001A0, 0, 1, .slot, 0x00000000,
    [⟨0, 32, .rs, .none⟩]⟩,
  ⟨0x003001A4, 0, 1, .slot, 0x00000000,
    [⟨0, 32, .rs, .none⟩]⟩,
  ⟨0x003001A8, 0, 1, .slot, 0x00000000,
    [⟨0, 32, .rs, .none⟩]⟩,
  ⟨0x003001AC, 0, 1, .slot, 0x00000000,
    [⟨0, 32, .rs, .none⟩]⟩,
  ⟨0x003001B0, 0, 1, .slot, 0x00000000,
    [⟨0, 32, .rs, .none⟩]⟩,
  ⟨0x003001C0, 0, 1, .slot, 0x00000000,
    [⟨0, 1, .wx, .live⟩]⟩]

/-- The rows of Table 21.2 in the MAC window. -/
def regsMac : List RegRow := [
  ⟨0x00400000, 0, 1, .master, 0x00000000,
    [⟨0, 6, .rw, .live⟩]⟩,
  ⟨0x00400004, 0, 1, .none, 0x00000000,
    [⟨0, 1, .wc, .none⟩, ⟨1, 1, .wc, .none⟩]⟩,
  ⟨0x00400100, 0, 1, .mac, 0x00000010,
    [⟨0, 2, .rw, .static⟩, ⟨2, 2, .rw, .static⟩, ⟨4, 1, .rw, .static⟩]⟩,
  ⟨0x00400104, 0, 1, .mac, 0x05F2000C,
    [⟨0, 1, .rw, .live⟩, ⟨1, 1, .rw, .static⟩, ⟨2, 1, .rw, .static⟩, ⟨3, 1, .rw, .static⟩, ⟨16, 14, .rw, .static⟩]⟩,
  ⟨0x00400108, 0, 1, .mac, 0x00000000,
    [⟨0, 32, .rw, .static⟩]⟩,
  ⟨0x0040010C, 0, 1, .mac, 0x00000000,
    [⟨0, 16, .rw, .static⟩]⟩,
  ⟨0x00400110, 0, 1, .mac, 0x00002001,
    [⟨0, 12, .rw, .static⟩, ⟨12, 1, .rw, .static⟩, ⟨13, 1, .rw, .static⟩]⟩,
  ⟨0x00400114, 0, 1, .mac, 0x00FAC688,
    [⟨0, 3, .rw, .static⟩, ⟨3, 3, .rw, .static⟩, ⟨6, 3, .rw, .static⟩, ⟨9, 3, .rw, .static⟩, ⟨12, 3, .rw, .static⟩, ⟨15, 3, .rw, .static⟩, ⟨18, 3, .rw, .static⟩, ⟨21, 3, .rw, .static⟩]⟩,
  ⟨0x00400118, 0, 1, .mac, 0x00000004,
    [⟨0, 6, .rwp, .live⟩]⟩,
  ⟨0x00400120, 4, 16, .mac, 0x00000000,
    [⟨0, 12, .rw, .live⟩, ⟨15, 1, .rw, .live⟩]⟩,
  ⟨0x00400160, 0, 1, .mac, 0x0001FF00,
    [⟨0, 1, .rw, .static⟩, ⟨1, 1, .wx, .live⟩, ⟨8, 8, .rw, .static⟩, ⟨16, 7, .rw, .live⟩]⟩,
  ⟨0x00400164, 0, 1, .mac, 0x00000000,
    [⟨0, 32, .rw, .live⟩]⟩,
  ⟨0x00400168, 0, 1, .mac, 0x00000000,
    [⟨0, 32, .rw, .live⟩]⟩,
  ⟨0x0040016C, 0, 1, .mac, 0x00000000,
    [⟨0, 16, .rw, .live⟩]⟩,
  ⟨0x00400170, 0, 1, .mac, 0x00000000,
    [⟨0, 32, .rw, .live⟩]⟩,
  ⟨0x00400174, 0, 1, .mac, 0x00000000,
    [⟨0, 6, .rw, .live⟩]⟩,
  ⟨0x00400178, 0, 1, .mac, 0x000008FF,
    [⟨0, 8, .rw, .live⟩, ⟨8, 24, .rw, .live⟩]⟩,
  ⟨0x0040017C, 0, 1, .mac, 0x0000FF00,
    [⟨0, 1, .rs, .none⟩, ⟨1, 1, .rs, .none⟩, ⟨2, 1, .rs, .none⟩, ⟨8, 8, .rs, .none⟩, ⟨16, 6, .rs, .none⟩, ⟨24, 7, .rs, .none⟩]⟩,
  ⟨0x00400180, 0, 1, .mac, 0x00000000,
    [⟨0, 1, .rs, .none⟩, ⟨1, 1, .rs, .none⟩, ⟨2, 1, .rs, .none⟩, ⟨3, 1, .rs, .none⟩, ⟨4, 1, .rs, .none⟩]⟩,
  ⟨0x00400184, 0, 1, .mac, 0x00000000,
    [⟨0, 1, .wc, .none⟩, ⟨1, 1, .wc, .none⟩, ⟨2, 1, .wc, .none⟩, ⟨3, 1, .wc, .none⟩, ⟨4, 1, .wc, .none⟩, ⟨5, 1, .wc, .none⟩, ⟨6, 1, .wc, .none⟩, ⟨7, 1, .wc, .none⟩, ⟨8, 1, .wc, .none⟩, ⟨9, 1, .wc, .none⟩, ⟨10, 1, .wc, .none⟩]⟩,
  ⟨0x00400190, 0, 1, .mac, 0x00000000,
    [⟨0, 1, .wx, .live⟩, ⟨1, 1, .wx, .live⟩]⟩,
  ⟨0x00400200, 8, 15, .mac, 0x00000000,
    [⟨0, 32, .rs, .none⟩]⟩,
  ⟨0x00400204, 8, 15, .mac, 0x00000000,
    [⟨0, 32, .rs, .none⟩]⟩]

/-- The rows of Table 21.2 in the FLW window. -/
def regsFlw : List RegRow := [
  ⟨0x00500000, 0, 1, .master, 0x00000000,
    [⟨0, 14, .rw, .live⟩]⟩,
  ⟨0x00500004, 0, 1, .none, 0x00000000,
    [⟨0, 1, .wc, .none⟩, ⟨1, 1, .wc, .none⟩, ⟨2, 1, .wc, .none⟩, ⟨3, 1, .wc, .none⟩, ⟨4, 1, .wc, .none⟩]⟩,
  ⟨0x00500010, 0, 1, .none, 0x00000000,
    [⟨0, 32, .rs, .none⟩]⟩,
  ⟨0x00500014, 0, 1, .none, 0x00000000,
    [⟨0, 32, .rs, .none⟩]⟩,
  ⟨0x00500018, 0, 1, .none, 0x00000000,
    [⟨0, 32, .rs, .none⟩]⟩,
  ⟨0x0050001C, 0, 1, .none, 0x00000000,
    [⟨0, 1, .wx, .live⟩]⟩,
  ⟨0x00500100, 0, 1, .flow, 0x00000004,
    [⟨0, 1, .rw, .live⟩, ⟨1, 1, .rw, .static⟩, ⟨2, 2, .rw, .static⟩, ⟨4, 4, .rw, .static⟩, ⟨8, 3, .rw, .static⟩, ⟨11, 1, .rw, .static⟩, ⟨16, 9, .rw, .static⟩]⟩,
  ⟨0x00500104, 0, 1, .flow, 0x00600081,
    [⟨0, 2, .rw, .static⟩, ⟨2, 1, .rw, .static⟩, ⟨4, 5, .rw, .static⟩, ⟨9, 1, .rw, .static⟩, ⟨10, 1, .rw, .static⟩, ⟨12, 4, .rw, .static⟩, ⟨16, 7, .rw, .static⟩, ⟨23, 1, .rw, .static⟩]⟩,
  ⟨0x00500108, 0, 1, .flow, 0x00000000,
    [⟨0, 32, .rw, .static⟩]⟩,
  ⟨0x0050010C, 0, 1, .flow, 0x00000000,
    [⟨0, 2, .rw, .static⟩, ⟨2, 14, .rw, .static⟩, ⟨16, 16, .rw, .static⟩]⟩,
  ⟨0x00500120, 64, 2, .flow, 0x00000000,
    [⟨0, 6, .rw, .static⟩, ⟨16, 12, .rw, .static⟩, ⟨30, 1, .rw, .static⟩, ⟨31, 1, .rw, .static⟩]⟩,
  ⟨0x00500124, 64, 2, .flow, 0x00000000,
    [⟨0, 32, .rw, .static⟩]⟩,
  ⟨0x00500128, 64, 2, .flow, 0x00000000,
    [⟨0, 32, .rw, .static⟩]⟩,
  ⟨0x0050012C, 64, 2, .flow, 0x00000000,
    [⟨0, 32, .rw, .static⟩]⟩,
  ⟨0x00500130, 64, 2, .flow, 0x00000000,
    [⟨0, 32, .rw, .static⟩]⟩,
  ⟨0x00500134, 64, 2, .flow, 0x00000000,
    [⟨0, 32, .rw, .static⟩]⟩,
  ⟨0x00500138, 64, 2, .flow, 0x00000000,
    [⟨0, 32, .rw, .static⟩]⟩,
  ⟨0x0050013C, 64, 2, .flow, 0x00000000,
    [⟨0, 32, .rw, .static⟩]⟩,
  ⟨0x00500140, 64, 2, .flow, 0x00000000,
    [⟨0, 32, .rw, .static⟩]⟩,
  ⟨0x00500144, 64, 2, .flow, 0x00000000,
    [⟨0, 16, .rw, .static⟩, ⟨16, 16, .rw, .static⟩]⟩,
  ⟨0x00500148, 64, 2, .flow, 0x00034000,
    [⟨0, 6, .rw, .static⟩, ⟨8, 8, .rw, .static⟩, ⟨16, 3, .rw, .static⟩, ⟨19, 3, .rw, .static⟩, ⟨22, 1, .rw, .static⟩, ⟨23, 1, .rw, .static⟩]⟩,
  ⟨0x0050014C, 64, 2, .flow, 0x00000000,
    [⟨0, 32, .rw, .static⟩]⟩,
  ⟨0x00500150, 64, 2, .flow, 0x00000000,
    [⟨0, 16, .rw, .static⟩]⟩,
  ⟨0x005001A0, 0, 1, .flow, 0x00000000,
    [⟨0, 1, .rs, .none⟩, ⟨1, 1, .rs, .none⟩, ⟨2, 1, .rs, .none⟩, ⟨3, 1, .rs, .none⟩, ⟨4, 2, .rs, .none⟩]⟩,
  ⟨0x005001A4, 0, 1, .flow, 0x00000000,
    [⟨0, 1, .wc, .none⟩, ⟨1, 1, .wc, .none⟩, ⟨2, 1, .wc, .none⟩, ⟨3, 1, .wc, .none⟩, ⟨4, 1, .wc, .none⟩, ⟨5, 1, .wc, .none⟩, ⟨6, 1, .wc, .none⟩, ⟨7, 1, .wc, .none⟩, ⟨8, 1, .wc, .none⟩]⟩,
  ⟨0x005001B0, 0, 1, .flow, 0x00000000,
    [⟨0, 32, .rs, .none⟩]⟩,
  ⟨0x005001B4, 0, 1, .flow, 0x00000000,
    [⟨0, 32, .rs, .none⟩]⟩,
  ⟨0x005001B8, 0, 1, .flow, 0x00000000,
    [⟨0, 32, .rs, .none⟩]⟩,
  ⟨0x005001BC, 0, 1, .flow, 0x00000000,
    [⟨0, 32, .rs, .none⟩]⟩,
  ⟨0x005001C0, 0, 1, .flow, 0x00000000,
    [⟨0, 32, .rs, .none⟩]⟩,
  ⟨0x005001D0, 0, 1, .flow, 0x00000000,
    [⟨0, 1, .wx, .live⟩]⟩,
  ⟨0x00508000, 16, 384, .none, 0x10000000,
    [⟨0, 1, .rw, .live⟩, ⟨8, 6, .rw, .static⟩, ⟨16, 4, .rw, .static⟩, ⟨24, 8, .rw, .live⟩]⟩,
  ⟨0x00508004, 16, 384, .none, 0x00000000,
    [⟨0, 16, .rw, .shadow⟩, ⟨16, 10, .rw, .shadow⟩]⟩,
  ⟨0x00508008, 16, 384, .none, 0x00000000,
    [⟨0, 1, .rs, .none⟩, ⟨1, 1, .rs, .none⟩, ⟨2, 1, .rs, .none⟩, ⟨3, 1, .rs, .none⟩]⟩,
  ⟨0x0050800C, 16, 384, .none, 0x00000000,
    [⟨0, 1, .wc, .none⟩, ⟨1, 1, .wc, .none⟩, ⟨2, 1, .wc, .none⟩]⟩,
  ⟨0x0050A000, 4, 64, .none, 0x00000000,
    [⟨0, 14, .rw, .live⟩, ⟨15, 1, .rw, .live⟩, ⟨16, 14, .rw, .live⟩, ⟨31, 1, .rw, .live⟩]⟩]

/-- The rows of Table 21.2 in the QM window. -/
def regsQm : List RegRow := [
  ⟨0x00600000, 0, 1, .master, 0x00000000,
    [⟨0, 15, .rw, .live⟩]⟩,
  ⟨0x00600004, 0, 1, .none, 0x00000000,
    [⟨0, 1, .wc, .none⟩, ⟨1, 1, .wc, .none⟩, ⟨2, 1, .wc, .none⟩, ⟨3, 1, .wc, .none⟩, ⟨4, 1, .wc, .none⟩]⟩,
  ⟨0x00600008, 0, 1, .none, 0x00040000,
    [⟨0, 19, .rs, .none⟩]⟩,
  ⟨0x00600100, 0, 1, .queue, 0x00000420,
    [⟨0, 1, .rw, .live⟩, ⟨1, 1, .rw, .static⟩, ⟨2, 1, .rw, .static⟩, ⟨3, 4, .rw, .static⟩, ⟨7, 5, .rw, .static⟩, ⟨12, 6, .rw, .static⟩, ⟨18, 1, .rw, .live⟩]⟩,
  ⟨0x00600104, 0, 1, .queue, 0x00000000,
    [⟨0, 32, .rw, .static⟩]⟩,
  ⟨0x00600108, 0, 1, .queue, 0x00000000,
    [⟨0, 32, .rw, .static⟩]⟩,
  ⟨0x0060010C, 0, 1, .queue, 0x00000000,
    [⟨0, 17, .rwp, .live⟩]⟩,
  ⟨0x00600110, 0, 1, .queue, 0x00000000,
    [⟨0, 17, .rwp, .live⟩]⟩,
  ⟨0x00600114, 0, 1, .queue, 0x00000001,
    [⟨0, 16, .rw, .live⟩, ⟨16, 16, .rw, .live⟩]⟩,
  ⟨0x00600118, 0, 1, .queue, 0x00000000,
    [⟨0, 1, .rw, .static⟩, ⟨3, 29, .rw, .static⟩]⟩,
  ⟨0x0060011C, 0, 1, .queue, 0x00000000,
    [⟨0, 32, .rw, .static⟩]⟩,
  ⟨0x00600120, 0, 1, .queue, 0x00000000,
    [⟨0, 19, .rs, .none⟩, ⟨19, 1, .rs, .none⟩, ⟨20, 1, .rs, .none⟩, ⟨21, 1, .rs, .none⟩, ⟨22, 1, .rs, .none⟩]⟩,
  ⟨0x00600124, 0, 1, .queue, 0x00000000,
    [⟨0, 19, .rs, .none⟩]⟩,
  ⟨0x00600128, 0, 1, .queue, 0x00000000,
    [⟨0, 19, .rw, .static⟩]⟩,
  ⟨0x0060012C, 0, 1, .queue, 0x00000000,
    [⟨0, 32, .rs, .none⟩]⟩,
  ⟨0x00600130, 0, 1, .queue, 0x00000000,
    [⟨0, 1, .wx, .live⟩, ⟨1, 1, .wx, .live⟩, ⟨2, 1, .wx, .live⟩]⟩]

/-- The rows of Table 21.2 in the FS window. -/
def regsFs : List RegRow := [
  ⟨0x00700000, 0, 1, .master, 0x00000000,
    [⟨0, 9, .rw, .live⟩]⟩,
  ⟨0x00700004, 0, 1, .none, 0x00000000,
    [⟨0, 1, .wc, .none⟩, ⟨1, 1, .wc, .none⟩, ⟨2, 1, .wc, .none⟩, ⟨3, 1, .wc, .none⟩, ⟨4, 1, .wc, .none⟩, ⟨5, 1, .wc, .none⟩]⟩,
  ⟨0x00700008, 0, 1, .none, 0x00000000,
    [⟨0, 1, .rs, .none⟩, ⟨4, 12, .rs, .none⟩, ⟨16, 10, .rs, .none⟩]⟩,
  ⟨0x0070000C, 0, 1, .none, 0x00002000,
    [⟨0, 14, .rw, .static⟩]⟩,
  ⟨0x00700010, 0, 1, .none, 0x00001801,
    [⟨0, 1, .rw, .live⟩, ⟨8, 8, .rw, .live⟩]⟩,
  ⟨0x00700014, 0, 1, .none, 0x00000000,
    [⟨0, 32, .rs, .none⟩]⟩,
  ⟨0x00700018, 0, 1, .none, 0x00000000,
    [⟨0, 32, .rs, .none⟩]⟩,
  ⟨0x0070001C, 0, 1, .none, 0x00000000,
    [⟨0, 1, .rs, .none⟩, ⟨5, 27, .rs, .none⟩]⟩,
  ⟨0x00700020, 0, 1, .none, 0x00000000,
    [⟨0, 4, .rs, .none⟩]⟩,
  ⟨0x00700024, 0, 1, .none, 0x00000000,
    [⟨0, 1, .wx, .live⟩, ⟨1, 1, .wx, .live⟩]⟩,
  ⟨0x00700028, 0, 1, .none, 0x00010000,
    [⟨0, 17, .rs, .none⟩]⟩,
  ⟨0x00700030, 4, 4, .none, 0x00000000,
    [⟨0, 24, .rw, .live⟩]⟩,
  ⟨0x00700100, 0, 1, .sync, 0x00000004,
    [⟨0, 1, .rw, .live⟩, ⟨1, 1, .rw, .static⟩, ⟨2, 1, .rw, .static⟩, ⟨3, 1, .rw, .static⟩, ⟨4, 1, .rw, .live⟩, ⟨8, 6, .rw, .static⟩, ⟨16, 4, .rw, .static⟩, ⟨21, 11, .rw, .static⟩]⟩,
  ⟨0x00700104, 0, 1, .sync, 0x00000000,
    [⟨0, 16, .rw, .shadow⟩]⟩,
  ⟨0x00700108, 0, 1, .sync, 0x00000010,
    [⟨0, 1, .rs, .none⟩, ⟨1, 3, .rs, .none⟩, ⟨4, 1, .rs, .none⟩, ⟨5, 1, .rs, .none⟩, ⟨6, 1, .rs, .none⟩, ⟨7, 1, .rs, .none⟩, ⟨8, 2, .rs, .none⟩]⟩,
  ⟨0x0070010C, 0, 1, .sync, 0x00000000,
    [⟨0, 27, .rs, .none⟩]⟩,
  ⟨0x00700110, 0, 1, .sync, 0x00000000,
    [⟨0, 1, .wc, .none⟩, ⟨1, 1, .wc, .none⟩, ⟨2, 1, .wc, .none⟩, ⟨3, 1, .wc, .none⟩, ⟨4, 1, .wc, .none⟩, ⟨5, 1, .wc, .none⟩, ⟨6, 1, .wc, .none⟩, ⟨7, 1, .wc, .none⟩, ⟨8, 1, .wc, .none⟩, ⟨9, 1, .wc, .none⟩]⟩,
  ⟨0x00700120, 0, 1, .sync, 0x00000000,
    [⟨0, 32, .rs, .none⟩]⟩,
  ⟨0x00700124, 0, 1, .sync, 0x00000000,
    [⟨0, 32, .rs, .none⟩]⟩,
  ⟨0x00700128, 0, 1, .sync, 0x00000000,
    [⟨0, 32, .rs, .none⟩]⟩,
  ⟨0x0070012C, 0, 1, .sync, 0x00000000,
    [⟨0, 32, .rs, .none⟩]⟩,
  ⟨0x00700130, 0, 1, .sync, 0x00000000,
    [⟨0, 1, .wx, .live⟩]⟩]

/-- The rows of Table 21.2 in the PLT window. -/
def regsPlt : List RegRow := [
  ⟨0x00800000, 0, 1, .master, 0x00000000,
    [⟨0, 5, .rw, .live⟩]⟩,
  ⟨0x00800004, 0, 1, .master, 0x00000000,
    [⟨0, 4, .rw, .live⟩]⟩,
  ⟨0x00800008, 0, 1, .none, 0x00000000,
    [⟨0, 1, .wc, .none⟩, ⟨1, 1, .wc, .none⟩]⟩,
  ⟨0x00800100, 0, 1, .eng, 0x00000000,
    [⟨0, 1, .rw, .live⟩]⟩,
  ⟨0x00800104, 0, 1, .eng, 0x06000010,
    [⟨0, 1, .rw, .static⟩, ⟨4, 3, .rw, .static⟩, ⟨7, 1, .rw, .shadow⟩, ⟨8, 6, .rw, .static⟩, ⟨16, 4, .rw, .static⟩, ⟨20, 4, .rw, .static⟩, ⟨24, 5, .rw, .static⟩]⟩,
  ⟨0x00800108, 0, 1, .eng, 0x20080040,
    [⟨0, 10, .rw, .shadow⟩, ⟨10, 10, .rw, .shadow⟩, ⟨20, 10, .rw, .shadow⟩]⟩,
  ⟨0x0080010C, 0, 1, .eng, 0x00000000,
    [⟨0, 1, .wx, .live⟩, ⟨1, 1, .wx, .live⟩]⟩,
  ⟨0x00800110, 0, 1, .eng, 0x00000000,
    [⟨0, 1, .rs, .none⟩, ⟨1, 1, .rs, .none⟩, ⟨2, 1, .rs, .none⟩, ⟨4, 3, .rs, .none⟩, ⟨8, 4, .rs, .none⟩, ⟨12, 4, .rs, .none⟩]⟩,
  ⟨0x00800114, 0, 1, .eng, 0x00000000,
    [⟨0, 1, .wc, .none⟩, ⟨1, 1, .wc, .none⟩, ⟨2, 1, .wc, .none⟩, ⟨3, 1, .wc, .none⟩, ⟨4, 1, .wc, .none⟩, ⟨5, 1, .wc, .none⟩, ⟨6, 1, .wc, .none⟩, ⟨7, 1, .wc, .none⟩]⟩,
  ⟨0x00800118, 0, 1, .eng, 0x00000000,
    [⟨0, 18, .rs, .none⟩]⟩,
  ⟨0x00800120, 0, 1, .eng, 0x00000000,
    [⟨0, 32, .rs, .none⟩]⟩,
  ⟨0x00800124, 0, 1, .eng, 0x00000000,
    [⟨0, 32, .rs, .none⟩]⟩,
  ⟨0x00800128, 0, 1, .eng, 0x00000000,
    [⟨0, 32, .rs, .none⟩]⟩,
  ⟨0x0080012C, 0, 1, .eng, 0x00000000,
    [⟨0, 32, .rs, .none⟩]⟩,
  ⟨0x00800130, 0, 1, .eng, 0x00000000,
    [⟨0, 10, .rwp, .live⟩]⟩,
  ⟨0x00800134, 0, 1, .eng, 0x00000000,
    [⟨0, 10, .rw, .shadow⟩]⟩,
  ⟨0x00800200, 0, 1, .lay, 0x00000000,
    [⟨0, 3, .rw, .shadow⟩, ⟨3, 1, .rw, .shadow⟩, ⟨4, 2, .rw, .shadow⟩, ⟨6, 2, .rw, .shadow⟩, ⟨8, 9, .rw, .shadow⟩, ⟨17, 3, .rw, .shadow⟩, ⟨20, 1, .rw, .shadow⟩]⟩,
  ⟨0x00800204, 0, 1, .lay, 0x00000000,
    [⟨0, 13, .rw, .shadow⟩, ⟨16, 13, .rw, .shadow⟩]⟩,
  ⟨0x00800208, 0, 1, .lay, 0x00000000,
    [⟨0, 13, .rw, .shadow⟩, ⟨16, 13, .rw, .shadow⟩]⟩,
  ⟨0x0080020C, 0, 1, .lay, 0x00000000,
    [⟨0, 13, .rw, .shadow⟩, ⟨16, 13, .rw, .shadow⟩]⟩,
  ⟨0x00800210, 0, 1, .lay, 0x00000000,
    [⟨0, 13, .rw, .shadow⟩, ⟨16, 13, .rw, .shadow⟩]⟩,
  ⟨0x00800214, 0, 1, .lay, 0x000003FF,
    [⟨0, 10, .rw, .shadow⟩, ⟨10, 2, .rw, .shadow⟩, ⟨12, 2, .rw, .shadow⟩, ⟨14, 1, .rw, .shadow⟩, ⟨16, 10, .rw, .shadow⟩]⟩,
  ⟨0x00800218, 0, 1, .lay, 0x00000100,
    [⟨0, 16, .rw, .shadow⟩]⟩,
  ⟨0x0080021C, 0, 1, .lay, 0x20080040,
    [⟨0, 10, .rw, .shadow⟩, ⟨10, 10, .rw, .shadow⟩, ⟨20, 10, .rw, .shadow⟩]⟩,
  ⟨0x00800220, 0, 1, .lay, 0x00000000,
    [⟨0, 24, .rw, .shadow⟩, ⟨24, 1, .rw, .shadow⟩]⟩,
  ⟨0x00800224, 0, 1, .lay, 0x00000000,
    [⟨0, 13, .rw, .shadow⟩, ⟨16, 13, .rw, .shadow⟩]⟩,
  ⟨0x00800228, 0, 1, .lay, 0x00000000,
    [⟨0, 16, .rw, .shadow⟩]⟩,
  ⟨0x0080022C, 0, 1, .lay, 0x09123C42,
    [⟨0, 5, .rw, .shadow⟩, ⟨5, 3, .rw, .shadow⟩, ⟨8, 8, .rw, .shadow⟩, ⟨16, 8, .rw, .shadow⟩, ⟨24, 8, .rw, .shadow⟩]⟩,
  ⟨0x00800230, 4, 8, .lay, 0x00000000,
    [⟨0, 15, .rw, .shadow⟩, ⟨16, 15, .rw, .shadow⟩, ⟨15, 1, .rw, .shadow⟩, ⟨31, 1, .rw, .shadow⟩]⟩,
  ⟨0x00800250, 0, 1, .lay, 0x00000000,
    [⟨0, 18, .rs, .none⟩, ⟨18, 3, .rs, .none⟩, ⟨21, 1, .rs, .none⟩, ⟨22, 5, .rs, .none⟩, ⟨27, 1, .rs, .none⟩]⟩]

/-- The rows of Table 21.2 in the AMX window. -/
def regsAmx : List RegRow := [
  ⟨0x00900000, 0, 1, .master, 0x00000000,
    [⟨0, 15, .rw, .live⟩]⟩,
  ⟨0x00900004, 0, 1, .none, 0x00000000,
    [⟨0, 1, .wc, .none⟩, ⟨1, 1, .wc, .none⟩, ⟨2, 1, .wc, .none⟩, ⟨3, 1, .wc, .none⟩, ⟨4, 1, .wc, .none⟩, ⟨5, 1, .wc, .none⟩]⟩,
  ⟨0x00900008, 0, 1, .none, 0x00000000,
    [⟨0, 1, .rw, .live⟩, ⟨4, 4, .rw, .static⟩]⟩,
  ⟨0x0090000C, 0, 1, .none, 0x00000000,
    [⟨0, 1, .wx, .live⟩, ⟨1, 1, .wx, .live⟩]⟩,
  ⟨0x00900010, 0, 1, .none, 0x00000000,
    [⟨0, 1, .rs, .none⟩, ⟨1, 1, .rs, .none⟩, ⟨4, 4, .rs, .none⟩, ⟨16, 15, .rs, .none⟩]⟩,
  ⟨0x00900014, 0, 1, .none, 0x00000000,
    [⟨0, 13, .rs, .none⟩, ⟨15, 17, .rs, .none⟩]⟩,
  ⟨0x00900018, 0, 1, .none, 0x00000000,
    [⟨0, 32, .rs, .none⟩]⟩,
  ⟨0x0090001C, 0, 1, .none, 0x00000000,
    [⟨0, 32, .rs, .none⟩]⟩,
  ⟨0x00900020, 0, 1, .none, 0x00000000,
    [⟨0, 32, .rs, .none⟩]⟩,
  ⟨0x00900024, 0, 1, .none, 0x00000000,
    [⟨0, 32, .rs, .none⟩]⟩,
  ⟨0x00900100, 4, 4, .amx, 0x00000000,
    [⟨0, 15, .rw, .shadow⟩, ⟨15, 1, .rw, .shadow⟩, ⟨16, 12, .rw, .shadow⟩, ⟨28, 1, .rw, .shadow⟩]⟩,
  ⟨0x00900110, 0, 1, .amx, 0x000020F0,
    [⟨0, 13, .rw, .shadow⟩, ⟨13, 1, .rw, .shadow⟩, ⟨16, 16, .rw, .shadow⟩]⟩,
  ⟨0x00900114, 0, 1, .amx, 0x00000000,
    [⟨0, 4, .rs, .none⟩, ⟨4, 1, .rs, .none⟩, ⟨5, 1, .rs, .none⟩, ⟨6, 1, .rs, .none⟩, ⟨8, 5, .rs, .none⟩]⟩,
  ⟨0x00900118, 0, 1, .amx, 0x00000000,
    [⟨0, 24, .rs, .none⟩]⟩,
  ⟨0x0090011C, 0, 1, .amx, 0x00000000,
    [⟨0, 24, .rs, .none⟩]⟩,
  ⟨0x00900120, 4, 4, .amx, 0x00000000,
    [⟨0, 29, .rs, .none⟩]⟩]

/-- The rows of Table 21.2 in the AUD window. -/
def regsAud : List RegRow := [
  ⟨0x00A00000, 0, 1, .master, 0x00000000,
    [⟨0, 4, .rw, .live⟩]⟩,
  ⟨0x00A00004, 0, 1, .none, 0x00000000,
    [⟨0, 1, .wc, .none⟩, ⟨1, 1, .wc, .none⟩]⟩,
  ⟨0x00A00100, 0, 1, .aud, 0x00000000,
    [⟨0, 1, .rw, .live⟩, ⟨1, 1, .rw, .live⟩, ⟨2, 2, .rw, .static⟩, ⟨4, 1, .rw, .static⟩, ⟨5, 1, .rw, .static⟩, ⟨6, 1, .rw, .static⟩]⟩,
  ⟨0x00A00104, 0, 1, .aud, 0x00001028,
    [⟨0, 2, .rw, .static⟩, ⟨2, 1, .rw, .static⟩, ⟨3, 1, .rw, .static⟩, ⟨4, 7, .rw, .static⟩, ⟨11, 7, .rw, .static⟩, ⟨18, 1, .rw, .static⟩, ⟨19, 1, .rw, .static⟩, ⟨20, 1, .rw, .static⟩, ⟨21, 1, .rw, .static⟩, ⟨22, 1, .rw, .static⟩]⟩,
  ⟨0x00A00108, 0, 1, .aud, 0x00001028,
    [⟨0, 2, .rw, .static⟩, ⟨2, 1, .rw, .static⟩, ⟨3, 1, .rw, .static⟩, ⟨4, 7, .rw, .static⟩, ⟨11, 7, .rw, .static⟩, ⟨18, 1, .rw, .static⟩, ⟨19, 1, .rw, .static⟩, ⟨20, 1, .rw, .static⟩, ⟨21, 1, .rw, .static⟩, ⟨22, 1, .rw, .static⟩]⟩,
  ⟨0x00A0010C, 0, 1, .aud, 0x00000000,
    [⟨0, 14, .rw, .static⟩, ⟨16, 14, .rw, .static⟩]⟩,
  ⟨0x00A00110, 0, 1, .aud, 0x00000030,
    [⟨0, 8, .rw, .static⟩]⟩,
  ⟨0x00A00114, 0, 1, .aud, 0x00000000,
    [⟨0, 2, .rs, .none⟩, ⟨8, 17, .rs, .none⟩]⟩,
  ⟨0x00A00118, 0, 1, .aud, 0x00000000,
    [⟨0, 1, .rs, .none⟩, ⟨1, 1, .rs, .none⟩, ⟨2, 1, .rs, .none⟩, ⟨4, 2, .rs, .none⟩, ⟨8, 5, .rs, .none⟩, ⟨16, 5, .rs, .none⟩]⟩,
  ⟨0x00A0011C, 0, 1, .aud, 0x00000000,
    [⟨0, 1, .wc, .none⟩, ⟨1, 1, .wc, .none⟩, ⟨2, 1, .wc, .none⟩, ⟨3, 1, .wc, .none⟩, ⟨4, 1, .wc, .none⟩, ⟨5, 1, .wc, .none⟩, ⟨6, 1, .wc, .none⟩, ⟨7, 1, .wc, .none⟩]⟩,
  ⟨0x00A00120, 0, 1, .aud, 0x00000000,
    [⟨0, 32, .rs, .none⟩]⟩,
  ⟨0x00A00124, 0, 1, .aud, 0x00000000,
    [⟨0, 32, .rs, .none⟩]⟩,
  ⟨0x00A00128, 0, 1, .aud, 0x00000000,
    [⟨0, 32, .rs, .none⟩]⟩,
  ⟨0x00A0012C, 0, 1, .aud, 0x00000000,
    [⟨0, 32, .rs, .none⟩]⟩,
  ⟨0x00A00130, 0, 1, .aud, 0x00000000,
    [⟨0, 32, .rs, .none⟩]⟩,
  ⟨0x00A00140, 0, 1, .aud, 0x00000000,
    [⟨0, 1, .wx, .live⟩]⟩]

/-- The rows of Table 21.2 in the CON window. -/
def regsCon : List RegRow := [
  ⟨0x00B00000, 0, 1, .none, 0x0AC80314,
    [⟨0, 1, .rw, .live⟩, ⟨1, 1, .rw, .static⟩, ⟨2, 1, .rw, .live⟩, ⟨3, 1, .rw, .live⟩, ⟨4, 1, .rw, .live⟩, ⟨8, 4, .rw, .live⟩, ⟨16, 8, .rw, .static⟩, ⟨24, 8, .rw, .live⟩]⟩,
  ⟨0x00B00004, 0, 1, .none, 0x0000647D,
    [⟨0, 8, .rw, .live⟩, ⟨8, 8, .rw, .live⟩]⟩,
  ⟨0x00B00008, 0, 1, .none, 0x00000000,
    [⟨0, 3, .rs, .none⟩, ⟨4, 2, .rs, .none⟩, ⟨6, 1, .rs, .none⟩, ⟨7, 1, .rs, .none⟩, ⟨8, 1, .rs, .none⟩, ⟨9, 1, .rs, .none⟩, ⟨10, 2, .rs, .none⟩, ⟨12, 2, .rs, .none⟩, ⟨14, 1, .rs, .none⟩, ⟨15, 1, .rs, .none⟩, ⟨16, 1, .rs, .none⟩, ⟨17, 1, .rs, .none⟩, ⟨20, 9, .rs, .none⟩]⟩,
  ⟨0x00B0000C, 0, 1, .none, 0x00000000,
    [⟨0, 1, .wc, .none⟩, ⟨1, 1, .wc, .none⟩, ⟨2, 1, .wc, .none⟩, ⟨3, 1, .wc, .none⟩, ⟨4, 1, .wc, .none⟩, ⟨5, 1, .wc, .none⟩, ⟨6, 1, .wc, .none⟩, ⟨7, 1, .wc, .none⟩, ⟨8, 1, .wc, .none⟩, ⟨9, 1, .wc, .none⟩, ⟨10, 1, .wc, .none⟩, ⟨11, 1, .wc, .none⟩, ⟨12, 1, .wc, .none⟩]⟩,
  ⟨0x00B00010, 0, 1, .none, 0x00000000,
    [⟨0, 1, .wx, .live⟩, ⟨1, 1, .wx, .live⟩, ⟨2, 1, .wx, .live⟩, ⟨3, 1, .wx, .live⟩]⟩,
  ⟨0x00B00014, 0, 1, .none, 0x000F01FF,
    [⟨0, 9, .rw, .live⟩, ⟨16, 4, .rs, .none⟩]⟩,
  ⟨0x00B00018, 0, 1, .none, 0x00000000,
    [⟨0, 16, .rs, .none⟩, ⟨16, 1, .rs, .none⟩, ⟨17, 3, .rs, .none⟩]⟩,
  ⟨0x00B0001C, 0, 1, .none, 0x00000000,
    [⟨0, 32, .ro, .none⟩]⟩,
  ⟨0x00B00020, 0, 1, .none, 0x00000000,
    [⟨0, 32, .rs, .none⟩]⟩,
  ⟨0x00B00024, 0, 1, .none, 0x00000000,
    [⟨0, 32, .rs, .none⟩]⟩,
  ⟨0x00B00028, 0, 1, .none, 0x00000000,
    [⟨0, 32, .rs, .none⟩]⟩,
  ⟨0x00B0002C, 0, 1, .none, 0x00000000,
    [⟨0, 6, .rs, .none⟩, ⟨8, 4, .rs, .none⟩, ⟨15, 1, .rs, .none⟩, ⟨16, 16, .rs, .none⟩]⟩,
  ⟨0x00B00030, 0, 1, .none, 0x00000000,
    [⟨0, 32, .rs, .none⟩]⟩,
  ⟨0x00B00034, 0, 1, .none, 0x00000000,
    [⟨0, 32, .rs, .none⟩]⟩,
  ⟨0x00B00038, 0, 1, .none, 0x00000000,
    [⟨0, 32, .rs, .none⟩]⟩,
  ⟨0x00B0003C, 0, 1, .none, 0x00000000,
    [⟨0, 32, .rs, .none⟩]⟩,
  ⟨0x00B00040, 0, 1, .none, 0x00000000,
    [⟨0, 32, .rs, .none⟩]⟩,
  ⟨0x00B00044, 0, 1, .none, 0x00000000,
    [⟨0, 32, .rs, .none⟩]⟩,
  ⟨0x00B00100, 4, 52, .none, 0x00000000,
    [⟨0, 32, .rw, .live⟩]⟩]

/-- The rows of Table 21.2 in the HIF window. -/
def regsHif : List RegRow := [
  ⟨0x00C00000, 0, 1, .none, 0x00000000,
    [⟨0, 1, .rs, .none⟩, ⟨1, 3, .rs, .none⟩, ⟨4, 3, .rs, .none⟩, ⟨7, 1, .rs, .none⟩]⟩,
  ⟨0x00C00004, 0, 1, .none, 0x00000000,
    [⟨0, 1, .wc, .none⟩, ⟨1, 1, .wc, .none⟩, ⟨2, 1, .wc, .none⟩]⟩,
  ⟨0x00C01000, 0, 1, .none, 0x00006400,
    [⟨0, 1, .rw, .live⟩, ⟨1, 1, .rw, .static⟩, ⟨2, 1, .rw, .static⟩, ⟨8, 8, .rw, .static⟩]⟩,
  ⟨0x00C01004, 0, 1, .none, 0x00000000,
    [⟨0, 12, .rw, .static⟩]⟩,
  ⟨0x00C01008, 0, 1, .none, 0x00000000,
    [⟨0, 14, .rw, .static⟩, ⟨16, 14, .rw, .static⟩, ⟨31, 1, .rw, .static⟩]⟩,
  ⟨0x00C01010, 4, 4, .master, 0x00000000,
    [⟨0, 32, .rw, .live⟩]⟩,
  ⟨0x00C01020, 0, 1, .out, 0x00000000,
    [⟨0, 1, .wx, .live⟩, ⟨1, 1, .wx, .live⟩]⟩,
  ⟨0x00C01024, 0, 1, .master, 0x00000000,
    [⟨0, 8, .rs, .none⟩, ⟨8, 1, .rs, .none⟩, ⟨9, 1, .rs, .none⟩]⟩,
  ⟨0x00C01028, 0, 1, .out, 0x0007FF00,
    [⟨0, 3, .rs, .none⟩, ⟨3, 3, .rs, .none⟩, ⟨8, 11, .rs, .none⟩, ⟨24, 8, .rs, .none⟩]⟩,
  ⟨0x00C01030, 0, 1, .none, 0x00000000,
    [⟨0, 1, .wc, .none⟩, ⟨1, 1, .wc, .none⟩, ⟨2, 1, .wc, .none⟩, ⟨3, 1, .wc, .none⟩, ⟨4, 1, .wc, .none⟩, ⟨5, 1, .wc, .none⟩, ⟨6, 1, .wc, .none⟩, ⟨7, 1, .wc, .none⟩, ⟨8, 1, .wc, .none⟩, ⟨9, 1, .wc, .none⟩, ⟨10, 1, .wc, .none⟩, ⟨11, 1, .wc, .none⟩]⟩,
  ⟨0x00C01040, 0, 1, .none, 0x00000000,
    [⟨0, 32, .rs, .none⟩]⟩,
  ⟨0x00C01044, 0, 1, .none, 0x00000000,
    [⟨0, 32, .rs, .none⟩]⟩,
  ⟨0x00C01048, 0, 1, .none, 0x00000000,
    [⟨0, 32, .rs, .none⟩]⟩,
  ⟨0x00C0104C, 0, 1, .none, 0x00000000,
    [⟨0, 32, .rs, .none⟩]⟩,
  ⟨0x00C01050, 0, 1, .none, 0x00000000,
    [⟨0, 32, .rs, .none⟩]⟩,
  ⟨0x00C01054, 0, 1, .none, 0x00000000,
    [⟨0, 32, .rs, .none⟩]⟩,
  ⟨0x00C01060, 0, 1, .none, 0x00000000,
    [⟨0, 1, .wx, .live⟩]⟩,
  ⟨0x00C02000, 0, 1, .none, 0x00000000,
    [⟨0, 1, .rw, .live⟩, ⟨1, 14, .rw, .static⟩, ⟨16, 14, .rw, .static⟩]⟩,
  ⟨0x00C02004, 0, 1, .none, 0x00000000,
    [⟨0, 3, .rs, .none⟩, ⟨16, 16, .rs, .none⟩]⟩]

/-- The rows of the window an offset lies in (Table 21.1). -/
def regsAt (off : Nat) : List RegRow :=
  match off / 0x100000 with
  | 0 =>
    match off / 0x10000 with
    | 0 => regsGlb
    | 1 => regsFlt
    | 2 => regsTim
    | 3 => regsRef
    | 4 => regsNvm
    | 5 => regsKey
    | 6 => regsMgt
    | 7 => regsBus
    | 8 => regsEvt
    | 9 => regsLog
    | _ => []
  | 1 => regsLng
  | 2 => regsXp
  | 3 => regsSlp
  | 4 => regsMac
  | 5 => regsFlw
  | 6 => regsQm
  | 7 => regsFs
  | 8 => regsPlt
  | 9 => regsAmx
  | 10 => regsAud
  | 11 => regsCon
  | 12 => regsHif
  | _ => []

/-- Does the row hold the register at this offset? -/
def RegRow.covers (r : RegRow) (off : Nat) : Bool :=
  r.off ≤ off &&
    (if r.stride = 0 then off == r.off else (off - r.off) % r.stride == 0 && (off - r.off) / r.stride < r.count)

/-- The register at an offset, where the map has one (R493). -/
def findReg (off : Nat) : Option RegRow := (regsAt off).find? (·.covers off)

end Sys2Proof.Machine
end

