-- ==== Sys2Proof/Machine/State.lean ====
section
/-!
DEFINITION. Sys2Proof/Machine/State.lean: the state of the block as plain data. Every register of Table 21.2 is held in
`Dev.regs`, under its offset and its instance, with the reset word as what an unlisted register reads as; the other fields
hold what the spec gives the machine beside its registers.
-/

namespace Sys2Proof.Machine

/-- What one data lane of a receiver holds: the last 58 scrambled bits (R43), the header errors of the current marker
period (Table 2.6), its consecutive marker failures (R55), its marker's lateness at the last alignment, and whether
it has resumed from REST with a block that is not EXIT (R59). -/
structure RxLane where
  prev : BitVec 58
  hdrErr : Nat
  mrkFail : Nat
  skew : Nat
  other : Bool
  deriving DecidableEq, Repr

/-- What a group's receiver holds beside its registers: its lanes, the MSEQ last seen (R55), whether the alignment held in
UP is retained (R71), whether 1 µs has passed since entry into DOWN (Table 2.5), and whether the shedding ladder holds the
direction (R72). -/
structure RxGrp where
  lanes : List RxLane
  mseq : Nat
  retained : Bool
  aged : Bool
  held : Bool
  deriving DecidableEq, Repr

/-- A receiver that holds nothing. The descrambler's bits have no reset value in the spec (DESIGN CHOICE, log 5). -/
def RxGrp.init : RxGrp := ⟨List.replicate 8 ⟨0, 0, 0, 0, false⟩, 0, false, false, false⟩

/-- A training sequence (Table 2.7) or the compatibility EXIT burst (R71). -/
inductive TxSeq where
  | full | wake | exit
  deriving DecidableEq, Repr

/-- What a group's transmitter holds beside its registers: the sequence under way and its step (Table 2.7), MSEQ (R51), the
index of the last block, 0 to 16,383 (R50), the fill of the transmit buffer in 1/2125 of a block (the fabric offers 2112/2125 of a
block in one block time, R43), whether the role word waits to be sent (R52), whether an entry into SLEEP waits for its REST (R69),
the TRQ bit it sends (R66), the cc at which it last answered a request (R66), and the ladder's hold (R72). -/
structure TxGrp where
  seqStep : Option (TxSeq × Nat)
  mseq : Nat
  idx : Nat
  fill : Nat
  changed : Bool
  restWait : Bool
  trq : Bool
  answered : Option Nat
  held : Bool
  deriving DecidableEq, Repr

def TxGrp.init : TxGrp := ⟨none, 0, 0, 0, false, false, false, none, false⟩

/-- What an input stage holds beside its registers: the slot words it has yet to parse, the TRS parser's tracking (Table 3.5), the
timing of its frames (R101), the packets it has found, and the payload-ID reader's frame counts (R102). The parser's reference is
the interface word of the last valid EAV, or of the last expected position passed. -/
structure InStage where
  /-- the slot words received, from the one that carries the reference on -/
  buf : List Word
  /-- how many interface words of the first precede the reference -/
  pos : Nat
  /-- data streams S of the signal tracked -/
  s : Nat
  /-- words per line of the format being tracked, 0 while none is -/
  wpl : Nat
  /-- VERIFY: a frame start has been seen since entry -/
  inFrame : Bool
  /-- VERIFY: lines counted in the frame being checked -/
  lines : Nat
  /-- expected positions missed in a row -/
  missed : Nat
  /-- interface words from the last position of the tracked grid to the reference -/
  away : Nat
  /-- FLYWHEEL: position within the line of the last valid EAV off the grid -/
  cand : Option Nat
  /-- interface words from the last valid EAV to the reference -/
  since : Nat
  /-- F = 1 has been seen in the present frame -/
  fSeen : Bool
  /-- slot words from the last frame start to the reference -/
  words : Nat
  /-- the instant of the last frame start in cadence time, and whether it has still to be measured (R101) -/
  frameT : Int
  fresh : Bool
  /-- line starts found at their expected position, the slot-word instant of the last, and its line number -/
  seq : Nat
  eavT : Nat
  line : Nat
  /-- packets found and not yet taken by the capture filters (R107) and by the payload-ID reader (R102) -/
  pkts : List AncPkt
  pids : List Word
  /-- audio groups seen in the present frame, missing in the whole of the last one, and of another rate (R104, R105), one bit each -/
  grpSeen : Nat
  grpMiss : Nat
  grpBad : Nat
  /-- a valid payload ID was seen in the current frame -/
  pidSeen : Bool
  /-- consecutive frames without a valid payload ID -/
  pidMiss : Nat
  /-- the format code the payload ID names -/
  pidFmt : Nat
  /-- the link number the payload ID names -/
  pidLink : Nat
  /-- a synchroniser has stopped, and the crosspoint input carries V = 0 words until the next line start (R224) -/
  mute : Bool
  deriving DecidableEq, Repr

def InStage.init : InStage :=
  ⟨[], 0, 0, 0, false, 0, 0, 0, none, 0, false, 0, 0, false, 0, 0, 0, [], [], 0, 0, 0, false, 0, 0, 0, false⟩

/-- What an output holds beside its registers: its raster counter (R89), its generator with the accumulator of R85, its phase
against OUT_CAD (R93), its substitute (R120, R121), and the words that wait for the Processed Path. -/
structure OutStage where
  /-- the output runs -/
  on : Bool
  /-- the raster counter runs -/
  run : Bool
  /-- the counter waits for a frame start of OUT_CAD after this one (R90) -/
  wait : Option Int
  /-- current line of the interface frame, from 1 -/
  line : Nat
  /-- the slot-word instant of the counter's line start; the slot words of the line; and whether the line start has been placed, by the
  counter's start or a re-phase, before the line is counted -/
  lineT : Nat
  span : Nat
  placed : Bool
  /-- interface words of the counter's lines that do not fill a slot word -/
  part : Nat
  /-- the generator, with the accumulator that the counter has at the end of the line -/
  gen : Gen
  /-- the instant of the counter's last frame start, in cadence time -/
  frameT : Int
  /-- offset from OUT_CAD that the counter had when the generator began (R93), in units -/
  genOfs : Int
  /-- the generator, or the V = 0 substitute of an output without one, runs under T (R120) -/
  sub : Bool
  /-- complete clean source frames counted while waiting for the return point, once one has begun (R121) -/
  clean : Option Nat
  /-- ancillary packets of the last line after rebuild (R108) -/
  anc : List AncPkt
  /-- line starts of the source taken note of -/
  seen : Nat
  /-- slot words of the source that are on the Processed Path, and how many interface words of the first precede its line -/
  proc : List Word
  procPos : Nat
  /-- the 48 kHz ticks of the present line, and those of the line before, which the present line embeds: their offset from the line
  start in slot words and the channels' subframes (R106) -/
  ticks : List (Nat × List Nat)
  due : List (Nat × List Nat)
  deriving DecidableEq, Repr

def OutStage.init : OutStage :=
  ⟨false, false, none, 0, 0, 0, false, 0, ⟨0, [], [], none, 0⟩, 0, 0, false, none, [], 0, [], 0, [], []⟩

/-- The slot CRC of an output slot (R366). -/
structure SlotCrc where
  /-- the slot words since the last one with M = 1 -/
  cur : List Word
  /-- the index of the cadence frame under way and the CRC over its words so far, once a frame has begun -/
  frame : Option (Int × Nat)
  /-- the slot CRCs of the last frames, latest first -/
  done : List (Int × Nat)
  deriving DecidableEq, Repr

def SlotCrc.init : SlotCrc := ⟨[], none, []⟩

/-- A raster that the device makes itself for an input of the crosspoint: a synchroniser's (R30), a bundle's (R95) or a Plotter
output's. -/
structure SrcGen where
  /-- it runs, in a format, with a line under way (0: none yet) -/
  run : Bool
  code : Nat
  line : Nat
  /-- the lines begun since reset, and the instant of the last line start in slot words -/
  seq : Nat
  lineT : Nat
  gen : Gen
  /-- the slot words of the line under way -/
  cur : List Word
  /-- the last frame start, and the target instant of the next one (R86), in cadence time -/
  frameT : Int
  target : Int
  /-- its start, or a re-phase: from the next line start on it emits V = 0 words until a line start of the timing that has a frame start
  at this instant (R188, R244) -/
  resume : Option Int
  /-- a Plotter output's rows: of the frame under way, and of the one composed for the next (R243) -/
  pic : List (List Samp)
  next : List (List Samp)
  /-- the 48 kHz ticks of the present line, and those of the line before, which the present line embeds, with the channels' subframes
  (R106) -/
  ticks : List (Nat × List Nat)
  due : List (Nat × List Nat)
  deriving DecidableEq, Repr

def SrcGen.init : SrcGen := ⟨false, 0, 0, 0, 0, ⟨0, [], [], none, 0⟩, [], 0, 0, none, [], [], [], []⟩

/-- A pending take in an output's queue (R129). -/
structure Take where
  src : Nat
  afollow : Bool
  field2 : Bool
  now : Bool
  salvo : Nat
  /-- the instant, in units -/
  inst : Int
  /-- acceptance time, in units -/
  accAt : Int
  /-- the due frame; none while an unarmed salvo member (R142) -/
  due : Option Int
  late : Bool
  deferred : Bool
  origin : Origin
  deriving DecidableEq, Repr

/-- An open salvo (R142, R143). -/
structure Salvo where
  id : Nat
  /-- the acceptance time A_o of its first member, in units -/
  openedAt : Int
  deriving DecidableEq, Repr

/-- An entry that has reached the take engine and is not yet processed. -/
structure Submitted where
  origin : Origin
  entry : TakeEntry
  deriving DecidableEq, Repr

/-- A gate control list with its base time in ns and its cycle in ns (R174); an entry is the gate states and the interval in
units of 8 ns. -/
structure GateList where
  base : Nat
  cycle : Nat
  entries : List (Nat × Nat)
  deriving DecidableEq, Repr

/-- An entry of a transmit timestamp queue (R328); the time is in 2^-40 ns. -/
structure TsEnt where
  id : Nat
  discard : Bool
  badFcs : Bool
  ovf : Bool
  time : Nat
  deriving DecidableEq, Repr

/-- A frame being sent: the time of its timestamp point (R328), the cc in which it started, and whether it was cut to MAX_LEN (R172). -/
structure TxFlight where
  frame : TxFrame
  time : Nat
  start : Nat
  trunc : Bool
  deriving DecidableEq, Repr

/-- What a MAC holds beside its registers. -/
structure MacUnit where
  /-- the frames offered and not yet started, in the order of their offers (R170) -/
  offers : List TxFrame
  /-- the cc in which the head frame of each class came to the head (R175) -/
  heads : List Nat
  /-- the frame being sent -/
  flight : Option TxFlight
  /-- the cc in which a fall of EN last cut a frame off (R177) -/
  cutCc : Option Nat
  /-- timestamp entries due and not yet stored (R328) -/
  dues : List TsEnt
  /-- the transmit timestamp queue (R329), and whether an entry was dropped since the last one stored -/
  tsq : List TsEnt
  tsqLost : Bool
  /-- the pending list with its change time in ns, and the list in force (R174, R176) -/
  pend : Option (GateList × Nat)
  oper : Option GateList
  deriving DecidableEq, Repr

def MacUnit.init : MacUnit := ⟨[], List.replicate 8 0, none, none, [], [], false, none, none⟩


/-- A packet held in cells (R194): its key, its cells, its RTP timestamp and marker, the leg it came on and when (in cc), and the
payload behind its RTP header. -/
structure HeldPkt where
  key : Nat
  cells : Nat
  stamp : Nat
  marker : Bool
  leg : Nat
  cc : Nat
  data : List Byte
  deriving DecidableEq, Repr

/-- What a flow context holds beside its registers: whether it runs; the highest key seen and the keys that have arrived within 2^15
of it, and the highest key whose samples have left (R193); the packets held, in the order of their keys (R194); and the cc of the
last packet on each leg (R192). -/
structure FlowCtx where
  run : Bool
  hi : Option Nat
  seen : List Nat
  left : Option Nat
  pkts : List HeldPkt
  legAt : Nat × Nat
  deriving DecidableEq, Repr

def FlowCtx.init : FlowCtx := ⟨false, none, [], none, [], (0, 0)⟩

/-- What an ingress bundle holds beside its registers: the timestamp of the frame that plays, once one has played, and the first key of
an ST 2022-6 frame; both for the next frame, once it has been chosen (R185); the raster lines in a row that held no complete video line, and whether the last active line was complete
(R192); and the ancillary packets of the frame that have been placed or discarded (R96), by the key of their RTP packet and their place
in it. -/
structure BdlUnit where
  stamp : Option Nat
  first : Option Nat
  next : Option (Nat × Option Nat)
  idle : Nat
  good : Bool
  anc : List (Nat × Nat)
  deriving DecidableEq, Repr

def BdlUnit.init : BdlUnit := ⟨none, none, none, 0, false, []⟩

/-- A row of the raster of a packet output slot that waits to be sent (R197): its number in the frame or field, field 2, the frame start
of its counter, the instant at which its samples were complete (both in units of Chronometer time), and its samples. -/
structure EgRow where
  row : Nat
  field2 : Bool
  start : Int
  done : Int
  samps : List Samp
  deriving DecidableEq, Repr

/-- The ancillary packets of a line that wait to be sent (R201). -/
structure EgAnc where
  field2 : Bool
  start : Int
  pkts : List NetAnc
  deriving DecidableEq, Repr

/-- What the egress flow engine of a bundle holds (R196 to R202): the rows that wait, the number of the next row to be sent, where in it
the next packet begins and the number of the next packet in its frame or field; the ancillary packets that wait; the octets of an
ST 2022-6 frame that wait, with its frame start and completion, and its frame count; the frame start and field of the raster, and its
division (R197). A Plotter feed holds its rows in one too (R245); a row without samples is one for which the feed is absent (Table
9.4). -/
structure EgrUnit where
  rows : List EgRow
  row : Nat
  pos : Nat
  num : Nat
  anc : List EgAnc
  sdi : List (Int × Int × List Byte)
  count : Nat
  start : Int
  field2 : Bool
  sqd : Bool
  deriving DecidableEq, Repr

def EgrUnit.init : EgrUnit := ⟨[], 0, 0, 0, [], [], 0, 0, false, false⟩


/-- An ancillary packet that a synchroniser stores (R230): its line, its stream, its blanking interval (true: horizontal), its position
there, and its words. -/
structure StoredPkt where
  line : Nat
  stream : Nat
  hanc : Bool
  pos : Nat
  words : List Samp
  deriving DecidableEq, Repr

/-- A frame that a synchroniser holds (R225, R522): its buffer, its input frame start in cadence time (units), the frame of
the cadence at which it is due, whether it is complete, whether a choice has passed it over (R226), how many of its lines have been
written, and its ancillary packets. -/
structure SyncFrame where
  buf : Nat
  start : Int
  due : Int
  complete : Bool
  passed : Bool
  lines : Nat
  anc : List StoredPkt
  deriving DecidableEq, Repr

/-- What a frame synchroniser holds beside its registers. -/
structure SyncUnit where
  /-- the frames accepted and not yet given up, oldest first -/
  frames : List SyncFrame
  /-- the buffer being written, and whether its input has failed since the frame began (R227) -/
  writing : Option Nat
  lost : Bool
  /-- the choice made for the next frame start: a buffer, or the repeat of the frame that played last (R226) -/
  choice : Option (Option Nat)
  /-- the frame playing, and the frame that played before it -/
  playing : Option SyncFrame
  prev : Option SyncFrame
  /-- consecutive repeats while HOLDING (R228) -/
  repeats : Nat
  /-- store units and audio delay blocks held while it runs (R222, R236) -/
  units : Nat
  blocks : Nat
  /-- the de-embedded sample frames of the last ticks, newest first (R231) -/
  hist : List (List Int)
  deriving DecidableEq, Repr

def SyncUnit.init : SyncUnit := ⟨[], none, false, none, none, none, 0, 0, 0, []⟩



/-- The audio buffer of a slot (R105): the sample frames held, oldest first; the last one taken; and whether it has reached
its operating fill since the slot became present. -/
structure AudBuf where
  frames : List (List Int)
  last : List Int
  primed : Bool
  deriving DecidableEq, Repr

def AudBuf.init : AudBuf := ⟨[], [], false⟩

/-- A fade of a matrix input (R287): its old and new source (none: silence), its counter t, its length N and its law. -/
structure AmxFade where
  old : Option Nat
  new : Option Nat
  t : Nat
  n : Nat
  power : Bool
  deriving DecidableEq, Repr

/-- What a summing input holds beside its registers: the multiplier's ramp from `ma` to `mb` and its t (R283), and the fade
that runs (R287). -/
structure AmxIn where
  ma : Nat
  mb : Nat
  rt : Nat
  fade : Option AmxFade
  deriving DecidableEq, Repr

/-- What an output channel holds beside its registers: its inputs; the sums of the last ticks, newest first (R281, R290); the
delay in force; the t and the new delay of a delay change (R291); the value that left at the last tick; the peak and the
clip flag of the running level frame (R292). -/
structure AmxOut where
  ins : List AmxIn
  hist : List Int
  dly : Nat
  dlyFade : Option (Nat × Nat)
  out : Int
  peak : Nat
  clip : Bool
  deriving DecidableEq, Repr

/-- An output channel at reset; a multiplier of 2^24 is 0 dB (R282). -/
def AmxOut.init : AmxOut := ⟨List.replicate 4 ⟨2 ^ 24, 2 ^ 24, 64, none⟩, [0], 0, none, 0, 0, false⟩

/-- What a direction of a serial port holds beside its registers: its FIFO, oldest first, and the last sample frame moved;
whether it has refilled since a start or a frame error (R305); and whether a frame is in progress (R301). -/
structure AudDir where
  fifo : List (List Int)
  last : List Int
  primed : Bool
  sync : Bool
  due : Bool
  deriving DecidableEq, Repr

def AudDir.init : AudDir := ⟨[], [], false, false, false⟩

/-- What a serial audio port holds beside its registers: its directions; the two frames on their way out of a master
transmitter (R302); the frames left of the playout element (R311); the capture element being formed, the tick of its first
frame and whether it holds converted samples (R309), and the gap flag (R312); and the converter's consecutive good frames,
consecutive frame errors, the ticks since LOCKED, and the rate that has held within ±50 ppm (R304). -/
structure AudPort where
  tx : AudDir
  rx : AudDir
  line : List (List Int)
  play : List (List Int)
  cap : List (List Int)
  capTick : Nat
  capGap : Bool
  good : Nat
  errs : Nat
  ramp : Nat
  base : Nat
  deriving DecidableEq, Repr

def AudPort.init : AudPort := ⟨AudDir.init, AudDir.init, [], [], [], 0, false, 0, 0, 0, 0⟩



/-- What Lodestar holds for a candidate beside its registers: the instant of the last edge and the edges in a row that came
on time (Table 13.1); the measurements in a row without a violation, the measurements in a row with one, and the measurements
since it qualified (R343, R344); and its v of the last seconds, newest first, in 2^-8 ppb (R340). -/
structure CandUnit where
  last : Option Nat
  run : Nat
  good : Nat
  bad : Nat
  since : Nat
  hist : List Int
  deriving DecidableEq, Repr

def CandUnit.init : CandUnit := ⟨none, 0, 0, 0, 0, []⟩



/-- A unit digest (Table 14.5). -/
structure Digest where
  unit : Nat
  cad : Nat
  k : Nat
  mask : Nat
  crc : Nat
  deriving DecidableEq, Repr

/-- How a (UNIT, CAD) pair has compared (R367, R368): frames in a row that mismatched and that matched, whether it has matched
in MM_THR frames in a row since the last commit, and whether it has since mismatched in as many. -/
structure DigRun where
  mm : Nat
  ok : Nat
  good : Bool
  bad : Bool
  deriving DecidableEq, Repr

def DigRun.init : DigRun := ⟨0, 0, false, false⟩

/-- The shadow of the region being copied (R370): the data received, by offset, their SNAP, and once the SNAP unit has been
checked the size and JSEQ of the snapshot. -/
structure CopyShadow where
  snap : Option Nat
  data : List (Nat × List Byte)
  whole : Option (Nat × Nat)
  deriving DecidableEq, Repr

def CopyShadow.init : CopyShadow := ⟨none, [], none⟩

/-- What Consort holds beside its registers and the units that wait (chapter 14). -/
structure ConUnit where
  /-- HSEQ of the last heartbeat formed, and of the last one received -/
  hseqTx : Nat
  hseqRx : Option Nat
  /-- TX of the last valid heartbeat received and the time of its arrival, in 2^-16 ns (R358) -/
  echo : Nat × Nat
  /-- the sum and number of the offsets e of the present interval (R359) -/
  offsets : Int × Nat
  /-- the partner's Lodestar state -/
  lstate : Nat
  /-- the latest entry into TAKEOVER or ACTIVE, in units (R375) -/
  entered : Int
  /-- the instant Y of the device's own YIELD, and of one received, in units (R373) -/
  yieldTx : Option Int
  yieldRx : Option Int
  /-- READY is kept from a device's own yield (R373) -/
  keep : Bool
  /-- a JRNL_GAP has occurred since region SWITCH was committed (R368) -/
  gap : Bool
  /-- digests of this device and of its partner without a counterpart so far (R367) -/
  own : List Digest
  peer : List Digest
  /-- the region being copied, and the journal records held since the REQ of region SWITCH (R370) -/
  shadow : CopyShadow
  heldRecs : List (List Byte)
  /-- the SNAP number last used, and the region being served (R370, R371) -/
  snapSeq : Nat
  serving : Option Nat
  deriving DecidableEq, Repr

def ConUnit.init : ConUnit :=
  ⟨0, none, (0, 0), (0, 0), 0, 0, none, none, false, false, [], [], CopyShadow.init, [], 0, none⟩



/-- The highest effective severities of a record's real and of its injected or forced faults since it was cleared (R387,
R390). -/
structure FltRec where
  real : Nat
  inj : Nat
  deriving DecidableEq, Repr

/-- An entry of the first-fault log (Table 15.5). -/
structure LogEnt where
  seq : Nat
  src : Nat
  sev : Nat
  eff : Nat
  esc : Bool
  inj : Bool
  lvl : Nat
  unit : Nat
  aux : Nat
  aclk : Nat
  sec : Nat
  ns : Nat
  tvalid : Bool
  tj : Nat
  deriving DecidableEq, Repr


/-- Where the Chart loader stands (R415 to R418): the Chart's header and sections; the bytes of the sections reached that are not
yet applied, each with its offset in the Chart (the records run on over the sections); the offset of the next section header and
how many sections are left; whether a PHASE has been met, END has been met, phase B is being applied; and whether the POLL at
the front has been read once. -/
structure Loader where
  image : List Byte
  buf : List (Nat × Byte)
  next : Nat
  secs : Nat
  phased : Bool
  ended : Bool
  phaseB : Bool
  polled : Bool
  deriving DecidableEq, Repr

/-- What the block has sent to the outside, as the model records it (the model's own field, log 3). -/
inductive Emission where
  /-- the data lanes of a group send `n` data blocks, with these words in the slots named and V = 0 words beside and behind them -/
  | data (g n : Nat) (words : List (Nat × List Word))
  /-- the eight data lanes of a group each send this payload (before scrambling) -/
  | lanes (g : Nat) (payloads : List (List Byte))
  /-- PRBS13 on the eight data lanes, with these seeds (Table 2.7) -/
  | prbs (g : Nat) (seeds : List Nat)
  /-- TRAIN or EXIT blocks with COUNT from `count - 1` down to 0 on every lane -/
  | countdown (g : Nat) (type count : Nat)
  /-- a PCIe write to host memory -/
  | hostWrite (addr : Nat) (bytes : List Byte)
  /-- a write to the management core's memory -/
  | coreWrite (addr : Nat) (bytes : List Byte)
  /-- an MSI-X message -/
  | msix (vec addr data : Nat)
  /-- an Ethernet frame on a MAC, without preamble and FCS; `badFcs` marks a complemented FCS, `trunc` and `underrun` its completion
  status (R171, R172) -/
  | frame (mac : Nat) (bytes : List Byte) (badFcs trunc underrun : Bool)
  /-- a Consort payload unit on group 36 -/
  | unit (bytes : List Byte)
  /-- a sample frame of a serial port, bit clock by bit clock from the frame start: the frame sync where the port drives it, and the data
  pin where it is not in high impedance; and whether both change on the rising edge (R299, R300) -/
  | audio (port : Nat) (rising : Bool) (bits : List (Option Bool × Option Bool))
  deriving DecidableEq, Repr

/-- A mailbox message (Table 17.5) and whether it travels by the rings (R442). -/
structure MbxMsg where
  ring : Bool
  bytes : List Byte
  deriving DecidableEq, Repr

/-- A DMA descriptor in flight (Table 17.7): its TAG, whether it asks for a completion record, its STATUS and the bytes it moved
(R446). -/
structure DmaJob where
  tag : Nat
  cpl : Bool
  status : Nat
  moved : Nat
  deriving DecidableEq, Repr

/-- The timed conditions whose beginning the device keeps, with the cc at which each began (the model's own form of its timers). -/
inductive Timer where
  /-- a lane group's receiver: entry into DOWN (R58), entry into ACQ, LOCK and ALIGN (R66), the last clock LOS or LOL (R58) -/
  | rxDown
  | rxAcquire
  | rxClock
  /-- the training step under way (R65) -/
  | txStep
  /-- the converter's rate has held (R304), and the last frame sync of a slave direction (R301) -/
  | srcRate
  | frameSync
  /-- a candidate's last edge, or PTP_KEEP (R337) -/
  | cand
  /-- the last change of selection (R346), entry into LOCK (R349) and into HOLD (R348), and the last AGE_DAYS count (R350) -/
  | select
  | lock
  | hold
  | age
  /-- entry into PAIR (R360), the last valid heartbeat (R362), heartbeats with an unchanged CTRL (R363), the last time sample (R359) -/
  | pair
  | beat
  | ctrl
  | twinTime
  /-- the last count of missed heartbeat periods (R362) -/
  | missed
  /-- the bandwidth window under way (R487), and the rise of FROZEN, which stops its timer (R488) -/
  | window
  | frozen
  /-- the injection of a fault source (R389), the last watchdog kick (R392), the last step of H (R395) -/
  | inject
  | kick
  | shed
  /-- the Chart's POLL or WAIT record under way (R416, R417), and REF_WAIT (R405) -/
  | chart
  | refWait
  /-- the stop of the last Plotter engine (R475) -/
  | pclk
  /-- the last rewrite of USER_CAL (R422) -/
  | userCal
  deriving DecidableEq, Repr

/-- The number of a timed condition. -/
def Timer.code : Timer → Nat
  | .rxDown => 0 | .rxAcquire => 1 | .rxClock => 2 | .txStep => 3 | .srcRate => 4 | .frameSync => 5 | .cand => 6 | .select => 7
  | .lock => 8 | .hold => 9 | .age => 10 | .pair => 11 | .beat => 12 | .ctrl => 13 | .twinTime => 14 | .inject => 15 | .kick => 16
  | .shed => 17 | .chart => 18 | .refWait => 19 | .pclk => 20 | .userCal => 21 | .missed => 22
  | .window => 23 | .frozen => 24

/-- The block's state but for the frame store, the NVM and the queue of commands. Registers are in `regs`; everything else
is what the spec gives the machine beside its registers. -/
structure Dev where
  /-- every register at a value other than its reset word, by offset and instance (Table 21.2) -/
  regs : Map Word
  /-- the active copies of the registers with F fields, by offset and instance (R8, R10) -/
  act : Map Word
  /-- the holding registers of R6 and R317: a latched word, by master and offset -/
  hold : Map (Option Word)
  /-- the last bus response of each master: data, and whether it was an error (R3) -/
  answer : Map (Word × Bool)
  /-- cc since reset, as the idle steps count them (the model's own field) -/
  cc : Nat
  /-- the cc at which timed conditions began, by condition and instance (the model's own field) -/
  marks : Map Nat
  /-- how many free values have been drawn (the model's own field) -/
  drawn : Nat
  /-- the receivers of the lane groups (R58) -/
  rx : Map RxGrp
  /-- the transmitters of the lane groups (R68) -/
  tx : Map TxGrp
  /-- ROLE_SEQ, one counter for the device (R52) -/
  roleSeq : Nat
  /-- the ROLE and HEALTHY that ROLE_SEQ last counted (R52) -/
  roleSent : Nat × Bool
  /-- the phase register of each input slot: the words the last data block delivered to it (R44, R45, R112) -/
  inWords : Map (List Word)
  /-- the input stages (R98 to R105) -/
  ins : Map InStage
  /-- the V = 0 words that each slot's elastic buffer has still to delete (R57) -/
  slips : Map Nat
  /-- the words that have left each output slot and wait for the lane transmitter, the flow engines or the Plotter feed -/
  outQ : Map (List Word)
  /-- the slot CRCs of the output slots (R366) -/
  crcs : Map SlotCrc
  /-- the rasters that the device makes for inputs of the crosspoint: a bundle's and a Plotter output's by slot (R95, R243), a
  synchroniser's by its slot plus 2,048 (R30) -/
  gens : Map SrcGen
  /-- the output stages and their raster counters (R89 to R94, R120, R121) -/
  outs : Map OutStage
  /-- the frame synchroniser assigned to each input slot, plus 1; 0 for none (R30) -/
  syncOf : Map Nat
  /-- the source an AFOLLOW take gave an output's audio, and whether it differs from the old source, until the next tick applies it
  (R149) -/
  follow : Map (Option (Nat × Bool))
  /-- the take queues of the outputs (R129), in order of acceptance -/
  takes : Map (List Take)
  /-- the open salvos (R142) -/
  salvos : List Salvo
  /-- entries the take engine has received and not yet processed (R152, R153, R156) -/
  submitted : List Submitted
  /-- take messages waiting for checking (R157) -/
  takeMsgs : List (List Byte)
  /-- last SEQ accepted per key slot (R156) -/
  lastSeq : Map (Option Nat)
  /-- takes discarded when the control side went down, not yet counted (R135) -/
  takesLost : Nat
  /-- the MACs (chapter 6) -/
  macs : Map MacUnit
  /-- the flow contexts (chapter 7) -/
  flows : Map FlowCtx
  /-- the next sequence number of each egress flow (R203) -/
  flowSeq : Map Nat
  /-- the ingress bundles (R185 to R192) -/
  bdls : Map BdlUnit
  /-- the egress engines of the packet slots (R196 to R202) and the rows of the Plotter feeds, by output slot -/
  egrs : Map EgrUnit
  /-- the ticks that wait in each egress audio flow, with the subframes of its channels (R200) -/
  egAud : Map (List (Nat × List Nat))
  /-- the frame synchronisers (chapter 8) -/
  syncs : Map SyncUnit
  /-- the pool blocks granted to each delay line (R236): a matrix channel's at (0, channel), a synchroniser channel's at (1, 16 × n + c) -/
  pool : Map (List Nat)
  /-- the 32-byte granules of the frame store that hold an uncorrectable error (R239) -/
  ueGran : List Nat
  /-- the completion of the last BAR2 access: data, and whether it was an error (R238) -/
  bar2 : Option (List Byte × Bool)
  /-- the engines armed together with an engine's commit (R267, R268) -/
  engArmed : Map (List Nat)
  /-- the earliest commit point of an armed engine at (0, engine) (R267), and of the matrix, or its start, at (1, 0) (R293, R295), in
  cadence time -/
  commitAt : Map (Option Int)
  /-- the quasi-peak detector of each meter bar, by engine × 16 + layer and bar (R264) -/
  meters : Map Nat
  /-- the audio buffers of the slots (R105) -/
  audBufs : Map AudBuf
  /-- the output channels of the Sounding matrix (chapter 10) -/
  amx : Map AmxOut
  /-- the peaks of the input channels in the running level frame (R292) -/
  lvlIn : Map Nat
  /-- the serial audio ports (chapter 11) -/
  aud : Map AudPort
  /-- the time counter in 2^-40 ns: seconds, nanoseconds and the 40-bit fraction (R315) -/
  time : Nat
  /-- the time counter at the end of the previous cc (R334) -/
  prevTime : Nat
  /-- the time counter has stepped in the present cc (R334) -/
  stepped : Bool
  /-- the slew residual RES in 2^-16 ns (R319) -/
  res : Int
  /-- the part of a 2^-16 ns by which RES has still to fall, in 1/800,000,000 (R320) -/
  resAcc : Nat
  /-- the servo sample not yet processed: its source (Table 12.1) and e (R321, R335) -/
  sample : Option (Nat × Int)
  /-- consecutive samples within LOCK_THR (R324) -/
  lockRun : Nat
  /-- the next servo sample makes a switch step (R347) -/
  swPend : Bool
  /-- the last frame start delivered of each cadence, −1 before any (R331) -/
  cadLast : Map Int
  /-- the candidates of Lodestar (chapter 13) -/
  cands : Map CandUnit
  /-- the Level 1 word of the last seconds, newest first (R345) -/
  fHist : List Int
  /-- M at entry to HOLD (Table 13.2) -/
  mEntry : Int
  /-- the last good temperature, in 1/256 °C (R350) -/
  goodT : Int
  /-- the oscillator offsets of the present minute: their sum and number (R351) -/
  xSum : Int × Nat
  /-- the learn table: count and sum of each bin (R351) -/
  learn : Map (Nat × Int)
  /-- Consort units waiting to be sent: type and payload, in the order formed (R356) -/
  units : List (Nat × List Byte)
  /-- the handover completion instant H, in units: takes due before it are deferred (R372, R373) -/
  handover : Option Int
  /-- what Consort holds beside its registers (chapter 14) -/
  con : ConUnit
  /-- how each (UNIT, CAD) pair has compared (R367, R368) -/
  digRuns : Map DigRun
  /-- the role words of groups 0 to 35 still carry ACTIVE after a yield (R373) -/
  roleHold : Bool
  /-- the control side restarts for a scheduled image activation (Table 14.3, CTRL = 2) -/
  actRestart : Bool
  /-- the fault conditions present now, one for each unit (R384) -/
  conds : List FaultAt
  /-- rises of conditions not yet recorded (R384) -/
  rising : List FaultAt
  /-- the severities held by each source's record (R387, R390) -/
  fltRecs : Map FltRec
  /-- an injection armed on a source and not yet consumed (R389) -/
  injArmed : Map Bool
  /-- the first-fault log, oldest first (R391) -/
  fltLog : List LogEnt
  /-- SEQ of the next log entry (R391) -/
  fltSeq : Nat
  /-- SEQ of the first log entry that firmware has not copied to the NVM (R391, R414) -/
  logCopied : Nat
  /-- the ACLK counter, 48 bits (Table 15.9) -/
  aclk : Nat
  /-- a watchdog kick sequence is pending (R392) -/
  kickSeq : Bool
  /-- an expiry's restart waits for an NVM sector write (R392) -/
  wdogWait : Bool
  /-- the step of the shedding ladder that holds, 0 to 3 (R394) -/
  ladder : Nat
  /-- a HALT holds the control side in reset (Table 15.2) -/
  haltHold : Bool
  /-- the bytes that the last side-port read returned (R397) -/
  spData : List Byte
  /-- the last side-port transaction was not acknowledged (R397) -/
  spNack : Bool
  /-- FAULT_N is pulled low (R381) -/
  faultN : Bool
  /-- the device is in device reset (R400) -/
  inReset : Bool
  /-- the power-good inputs PG_CORE, PG_SERDES, PG_HBM and PG_IO, in that order (R400) -/
  pg : BitVec 4
  /-- VDD_AON fell while other rails held, and the always-on domain has not returned (Table 22.6) -/
  railLost : Bool
  /-- the firmware image a host boot has loaded (R401) -/
  bootFw : List Byte
  /-- the Chart a host boot has loaded (R401) -/
  bootChart : List Byte
  /-- the firmware image that runs, or was last verified (R407) -/
  fwImage : List Byte
  /-- the Chart loader while it works (R417) -/
  loader : Option Loader
  /-- phase A has been applied (R417) -/
  chartDone : Bool
  /-- a PHASE_B written before phase A ended is held (Table 16.9) -/
  chartHeld : Bool
  /-- REF_WAIT of the Chart, in seconds (R405) -/
  refWait : Nat
  /-- the tuning data last passed to each serdes target (Table 16.8) -/
  tunes : Map (List Byte)
  /-- the set point of VDD_CORE in millivolts (R511) -/
  vcore : Nat
  /-- a RESTORE_FACTORY is in progress (R423) -/
  restoring : Bool
  /-- the boot ROM has halted (Table 16.3) -/
  bootHalt : Bool
  /-- GEN, FW_LEN and CHART_LEN of the boot header in use (R411) -/
  bootHdr : Nat × Nat × Nat
  /-- a host boot has been started (R401, Table 17.6) -/
  bootGo : Bool
  /-- what the block has sent, newest first (the model's own field) -/
  sent : List Emission
  /-- vectors whose messages wait for CTRL_UP, one bit each (R434) -/
  msixDefer : Nat
  /-- the Function Mask of the MSI-X capability (R436) -/
  funcMask : Bool
  /-- whether each event source was pending when last judged (R438) -/
  evtWas : Map Bool
  /-- the 128 soft source bits (R439) -/
  soft : Nat
  /-- elements produced or consumed since the last notification of each queue, and the cc of the first of them (R211) -/
  qSince : Map (Nat × Nat)
  /-- the control side is down (R36) -/
  restarting : Bool
  /-- mailbox requests received and not yet answered, oldest first (R441, R442) -/
  mbxReqs : List MbxMsg
  /-- responses that firmware has formed and not yet written -/
  mbxRsps : List MbxMsg
  /-- a request was outstanding when the control side went down (R444) -/
  mbxLost : Bool
  /-- DMA descriptors in flight, oldest first (R445) -/
  dmaFly : List DmaJob
  /-- the EVT_N_k that are pulled low, one bit each (R437) -/
  evtPins : Nat
  /-- the key of each slot of the on-die store (R449) -/
  keys : Map (List Byte)
  /-- the last staging block accepted: its offset and data (R462) -/
  stageLast : Option (Nat × List Byte)
  /-- TYPE of the verified staged image (R463) -/
  stageType : Nat
  /-- bytes of the image that an activation copies (R465, R466) -/
  actLen : Nat
  /-- the instances of crossings that are absent, by crossing and instance (R480) -/
  absent : Map Bool
  /-- when the last acknowledge phase of each toggle crossing's instance began and ends, in cc (R477) -/
  toggles : Map (Nat × Nat)
  /-- the PCLK PLL has been started and is not yet locked (R475) -/
  pclkReq : Bool
  /-- the bytes that each bandwidth monitor has counted in the present window (R487) -/
  bwAcc : Map Nat
  deriving DecidableEq, Repr

/-- The block right after the always-on power-up and device reset. -/
def Dev.reset : Dev where
  regs := []
  act := []
  hold := []
  answer := []
  cc := 0
  marks := []
  drawn := 0
  rx := []
  tx := []
  roleSeq := 0
  roleSent := (0, false)
  inWords := []
  ins := []
  slips := []
  outQ := []
  crcs := []
  gens := []
  outs := []
  syncOf := []
  follow := []
  takes := []
  salvos := []
  submitted := []
  takeMsgs := []
  lastSeq := []
  takesLost := 0
  macs := []
  flows := []
  flowSeq := []
  bdls := []
  egrs := []
  egAud := []
  syncs := []
  pool := []
  ueGran := []
  bar2 := none
  engArmed := []
  commitAt := []
  meters := []
  audBufs := []
  amx := []
  lvlIn := []
  aud := []
  time := 0
  prevTime := 0
  stepped := false
  res := 0
  resAcc := 0
  sample := none
  lockRun := 0
  swPend := false
  cadLast := []
  cands := []
  fHist := []
  mEntry := 0
  goodT := 0
  xSum := (0, 0)
  learn := []
  units := []
  handover := none
  con := ConUnit.init
  digRuns := []
  roleHold := false
  actRestart := false
  conds := []
  rising := []
  fltRecs := []
  injArmed := []
  fltLog := []
  fltSeq := 0
  logCopied := 0
  aclk := 0
  kickSeq := false
  wdogWait := false
  ladder := 0
  haltHold := false
  spData := []
  spNack := false
  faultN := false
  inReset := true
  pg := 0xF
  railLost := false
  bootFw := []
  bootChart := []
  fwImage := []
  loader := none
  chartDone := false
  chartHeld := false
  refWait := 0
  tunes := []
  vcore := 800
  restoring := false
  bootHalt := false
  bootHdr := (0, 0, 0)
  bootGo := false
  sent := []
  msixDefer := 0
  funcMask := false
  evtWas := []
  soft := 0
  qSince := []
  restarting := false
  mbxReqs := []
  mbxRsps := []
  mbxLost := false
  dmaFly := []
  evtPins := 0
  keys := []
  stageLast := none
  stageType := 0
  actLen := 0
  absent := []
  toggles := []
  pclkReq := false
  bwAcc := []

/-- Why a step can stop with a fault. -/
inductive Fault where
  /-- an operand names a unit that the device does not have; raised by no meaning while its operands are well formed (safe:
  the model stops where the hardware has nothing to act on) -/
  | noSuchUnit
  deriving DecidableEq, Repr

/-- Why a step can be refused. -/
inductive Refusal where
  /-- a command without a meaning yet; raised by exec's arms only (safe: the model stops) -/
  | notModelled (mnemonic : String)
  deriving DecidableEq, Repr

/-- The state: the block, the frame store (chapter 8), the NVM (chapter 16), and the commands that wait, first in, first
out. -/
structure State where
  dev : Dev
  /-- the HBM frame store, by byte address; an unlisted byte reads 0x00 (DESIGN CHOICE, log 4) -/
  store : Memory
  /-- the NVM, by byte address; an unlisted byte reads 0xFF, erased (PRESUMED, log 4) -/
  nvm : Memory
  /-- the commands that wait, first in, first out -/
  pending : List Instr
  deriving DecidableEq, Repr

/-- What an unlisted byte of the frame store reads as (DESIGN CHOICE, log 4). -/
def storeFill : Byte := 0x00

/-- What an unlisted byte of the NVM reads as (PRESUMED, log 4). -/
def nvmFill : Byte := 0xFF

/-- The machine right after reset. -/
def State.reset : State := ⟨Dev.reset, [], [], []⟩

end Sys2Proof.Machine
end

