-- ==== Sys2Proof/Machine/Ops.lean ====
section
/-!
DEFINITION. Sys2Proof/Machine/Ops.lean: the named operations every family uses: registers and their fields, active
copies, events, counters and fault conditions, the MSI-X message, the queue element, the select registers, and the time.
-/

namespace Sys2Proof.Machine

/-! ## Registers and fields -/

/-- The common kinds that have a checker (Table 15.3) and the class-specific sources that have one (R521). -/
def hasChecker (src : Nat) : Bool :=
  if src % 16 < 12 then [0, 1, 2, 4, 5, 10].contains (src % 16)
  else [13, 14, 108, 110, 126, 140, 141, 220].contains src

/-- The sources whose severity is fixed at HALT (R385). -/
def fixedHalt (src : Nat) : Bool :=
  [1, 2, 3, 4, 5, 6, 8, 9, 10, 12, 13, 14, 15, 31, 44].contains src

/-- The default severity of a source (Tables 15.3 and 15.4, R385): 1 NOTE, 2 WARN, 3 DEGRADE, 4 ISOLATE, 5 HALT. -/
def defaultSev (src : Nat) : Nat :=
  if fixedHalt src then 5
  else if src % 16 < 12 then [1, 3, 3, 4, 4, 3, 4, 2, 3, 2, 3, 1].getD (src % 16) 1
  else
    ([[5, 5, 5, 5], [2, 2, 2, 5], [5, 2, 4, 4], [3, 3, 2, 1], [1, 2, 2, 2], [1, 1, 2, 1], [3, 4, 3, 1],
      [1, 2, 3, 1], [1, 3, 4, 2], [1, 1, 1, 3], [1, 1, 1, 3], [2, 3, 2, 1], [2, 2, 3, 2], [2, 2, 2, 1],
      [2, 2, 4, 2], [2, 3, 2, 1]].getD (src / 16) []).getD (src % 16 - 12) 1

/-- The reset coefficient at an index of an engine's memory (R253): bilinear, horizontal phases first; a phase's 512 is the
code 0x200. -/
def coefReset (i : Nat) : Nat :=
  if i < 512 then (if i % 8 = 3 then 512 - i / 8 * 8 else if i % 8 = 4 then i / 8 * 8 else 0)
  else if i < 768 then
    (if i % 4 = 1 then 512 - (i - 512) / 4 * 8 else if i % 4 = 2 then (i - 512) / 4 * 8 else 0)
  else 0

/-- The reset word of a register whose instances differ (the "per source", "per MAC", "per queue" and slot rows of Table
21.2, and the MSI-X table of R440), where it is one of those. -/
def resetSpecial (off ch : Nat) : Option Nat :=
  if off = 0x00010100 then some (defaultSev ch + 8)
  else if off = 0x00010104 then some ((if hasChecker ch then 64 else 0) + (if fixedHalt ch then 128 else 0))
  else if off = 0x00400180 then some (if ch % 4 = 0 then 1 else 0)
  else if off = 0x00600120 then some (if ch < 12288 then 0x00200000 else 0)
  else if off = 0x00600100 then some (if ch < 12288 then 0 else 0x420)
  else if off = 0x00800134 then some (coefReset (ch % 1024))
  else if off = 0x0000000C then some (Config.uidLo.toNat)
  else if off = 0x00000010 then some (Config.uidHi.toNat)
  else if off = 0x00050100 then some (if ch = 0 then 0x41 else 0)
  else if 0x00C08000 ≤ off && off < 0x00C08400 then some (if off % 16 = 12 then 1 else 0)
  else none

/-- The reset word of a register's instance (Table 21.2). -/
def resetWord (off ch : Nat) : Word :=
  match resetSpecial off ch with
  | some v => BitVec.ofNat 32 v
  | none =>
    match findReg off with
    | some r => BitVec.ofNat 32 r.reset
    | none => 0

namespace Dev

/-- The word of a register's instance. -/
def reg (d : Dev) (off ch : Nat) : Word := mapGet d.regs (off, ch) (resetWord off ch)

/-- The register's instance set to a word. -/
def setReg (d : Dev) (off ch : Nat) (v : Word) : Dev :=
  { d with regs := mapPut d.regs (off, ch) (resetWord off ch) v }

/-- The active copy of a register's instance (R8). -/
def actReg (d : Dev) (off ch : Nat) : Word := mapGet d.act (off, ch) (resetWord off ch)

/-- The active copy set to a word. -/
def setAct (d : Dev) (off ch : Nat) (v : Word) : Dev :=
  { d with act := mapPut d.act (off, ch) (resetWord off ch) v }

/-- The commit point of a register: the active copy takes the shadow (R8, R10). -/
def commit (d : Dev) (off ch : Nat) : Dev := d.setAct off ch (d.reg off ch)

/-- A field, as a number. -/
def get (d : Dev) (f : Fld) (ch : Nat := 0) : Nat := bitsOf (d.reg f.off ch) f.lo f.w

/-- A field set to a number, modulo its width. -/
def set (d : Dev) (f : Fld) (v : Nat) (ch : Nat := 0) : Dev := d.setReg f.off ch (putBits (d.reg f.off ch) f.lo f.w v)

/-- The active copy of a field. -/
def getAct (d : Dev) (f : Fld) (ch : Nat := 0) : Nat := bitsOf (d.actReg f.off ch) f.lo f.w

/-- A field, as a flag. -/
def flag (d : Dev) (f : Fld) (ch : Nat := 0) : Bool := d.get f ch != 0

/-- A flag field set or cleared. -/
def put (d : Dev) (f : Fld) (b : Bool) (ch : Nat := 0) : Dev := d.set f (b2n b) ch

/-- A sticky event bit set (R7, code wc; R435). -/
def raise (d : Dev) (f : Fld) (ch : Nat := 0) : Dev := d.set f 1 ch

/-- An event bit set where a condition holds. -/
def raiseIf (d : Dev) (b : Bool) (f : Fld) (ch : Nat := 0) : Dev := if b then d.raise f ch else d

/-- A counter increased by `n`, saturating at its width's maximum. -/
def count (d : Dev) (f : Fld) (n : Nat := 1) (ch : Nat := 0) : Dev := d.set f (min (2 ^ f.w - 1) (d.get f ch + n)) ch

/-- Fields set to 0. -/
def clear (d : Dev) (fs : List Fld) (ch : Nat := 0) : Dev := fs.foldl (fun d f => d.set f 0 ch) d

/-- Bit `i` of a field set or cleared. -/
def putBit (d : Dev) (f : Fld) (i : Nat) (b : Bool) (ch : Nat := 0) : Dev :=
  let v := d.get f ch
  d.set f (if v.testBit i == b then v else if b then v + 2 ^ i else v - 2 ^ i) ch

/-- Apply a function where a condition holds. -/
def when (d : Dev) (b : Bool) (f : Dev → Dev) : Dev := if b then f d else d

/-- A value split over a low and a high register. -/
def get2 (d : Dev) (lo hi : Fld) (ch : Nat := 0) : Nat := d.get lo ch + d.get hi ch * 2 ^ 32

/-- A value written to a low and a high register. -/
def set2 (d : Dev) (lo hi : Fld) (v : Nat) (ch : Nat := 0) : Dev := (d.set lo v ch).set hi (v / 2 ^ 32) ch

/-- The next free value (log 2): nothing constrains it. -/
def draw (d : Dev) : Nat × Dev := (Config.freeValue d.drawn, { d with drawn := d.drawn + 1 })

/-- Something sent to the outside. -/
def emit (d : Dev) (e : Emission) : Dev := { d with sent := e :: d.sent }

/-! ## Faults -/

/-- The source's condition bit follows the conditions present and FORCE (R384, R389). -/
def refreshCond (d : Dev) (src : Nat) : Dev :=
  d.put FLT.SRC_STAT_COND (d.conds.any (·.src == src) || d.flag FLT.SRC_CMD_FORCE src) src

/-- A unit's condition rises: a fault to be recorded, unless it is already present (R384). -/
def raiseFault (d : Dev) (f : FaultAt) : Dev :=
  if d.conds.contains f then d
  else { d with conds := f :: d.conds, rising := d.rising ++ [f] }.refreshCond f.src

/-- A unit's condition falls. -/
def dropFault (d : Dev) (f : FaultAt) : Dev :=
  { d with conds := d.conds.filter (· != f) }.refreshCond f.src

/-- A condition that rises and is over at once: a fault to be recorded. -/
def pulseFault (d : Dev) (f : FaultAt) : Dev := { d with rising := d.rising ++ [f] }

/-- A fault of the whole device (level 3). -/
def devFault (src : Nat) : FaultAt := ⟨src, 3, 0, 0⟩

/-! ## Input stages and rasters that the device makes -/

def insOf (d : Dev) (slot : Nat) : InStage := mapGet d.ins (slot, 0) InStage.init
def setIns (d : Dev) (slot : Nat) (x : InStage) : Dev := { d with ins := mapPut d.ins (slot, 0) InStage.init x }

def genOf (d : Dev) (src : Nat) : SrcGen := mapGet d.gens (src, 0) SrcGen.init
def setGenOf (d : Dev) (src : Nat) (g : SrcGen) : Dev := { d with gens := mapPut d.gens (src, 0) SrcGen.init g }

/-! ## Time -/

/-- Chronometer time, in 2^-40 ns (R315). -/
def timeNow (d : Dev) : Nat := d.time

/-- Seconds of the Chronometer time. -/
def timeSec (d : Dev) : Nat := d.time / (1000000000 * 2 ^ 40)

/-- Nanoseconds of the Chronometer time. -/
def timeNs (d : Dev) : Nat := d.time / 2 ^ 40 % 1000000000

/-- Chronometer time in units. -/
def timeTu (d : Dev) : Int := d.time * 6750

/-- A timed condition of an instance begins. -/
def mark (d : Dev) (t : Timer) (i : Nat) : Dev := { d with marks := mapPut d.marks (t.code, i) 0 d.cc }

/-- The cc at which a timed condition of an instance began. -/
def marked (d : Dev) (t : Timer) (i : Nat) : Nat := mapGet d.marks (t.code, i) 0

/-- Has a timed condition lasted for a number of ns? A cc is 1.25 ns (R473); a condition that
has never begun counts from cc 0 (DESIGN CHOICE, log 105). -/
def lasted (d : Dev) (t : Timer) (i ns : Nat) : Bool := decide (ns * 4 ≤ (d.cc - d.marked t i) * 5)

/-- The watchdog runs; it counts from where it starts (R392). -/
def wdogStart (d : Dev) : Dev := (d.mark .kick 0).put FLT.WDOG_CFG_EN true

/-- The residual RES, in units (R319). -/
def resTu (d : Dev) : Int := d.res * (6750 * 2 ^ 24 : Nat)

/-- A cadence's rate (R330). -/
def cadRate (d : Dev) (c : Nat) : Nat × Nat := rateOf (d.get (TIM.CAD_CTL_RATE c))

/-- A cadence's offset in ns (R330). -/
def cadOfs (d : Dev) (c : Nat) : Int := toSigned 32 (d.get (TIM.CAD_OFS_OFS c))

/-! ## The Logbook (chapter 20) -/

/-- Counter i of the Logbook adds `n`, unless the Logbook is frozen; it wraps at 48 bits (R485, R488). -/
def logAdd (d : Dev) (i n : Nat) : Dev :=
  if d.flag LOG.STAT_FROZEN || n == 0 then d
  else d.set2 LOG.CTR_LO_COUNT_L LOG.CTR_HI_COUNT_H (d.get2 LOG.CTR_LO_COUNT_L LOG.CTR_HI_COUNT_H i + n) i

/-- Monitor i counts `n` bytes while the windows run (R487). -/
def bwAdd (d : Dev) (i n : Nat) : Dev :=
  if d.flag LOG.STAT_BW_RUN && !d.flag LOG.STAT_FROZEN then { d with bwAcc := mapPut d.bwAcc (i, 0) 0 (mapGet d.bwAcc (i, 0) 0 + n) }
  else d

/-- The 32-byte granules of an access to the frame store are counted on their pseudo-channels (Tables 20.1 and 20.2). The spec spreads the
store over them by a fixed hash that it does not give: the channel of a 256-byte block is a constant of Config (log 7). -/
def hbmAccess (d : Dev) (wr : Bool) (a len : Nat) : Dev :=
  if d.flag LOG.STAT_FROZEN || len == 0 then d
  else (List.range ((a + len + 31) / 32 - a / 32)).foldl (fun d i =>
    let c := Config.hbmChannel ((a / 32 + i) / 8) % 64
    (d.logAdd ((if wr then 266 else 202) + c) 1).bwAdd (202 + c) 32) d

/-- Accesses to the frame store, each with its address and length (log 114). -/
def hbmMoves (d : Dev) (wr : Bool) (xs : List (Nat × Nat)) : Dev :=
  if d.flag LOG.STAT_FROZEN then d else xs.foldl (fun d x => d.hbmAccess wr x.1 x.2) d

/-- The snapshot bank takes every counter and the time (R489). -/
def logSnap (d : Dev) : Dev :=
  let d := (List.range 1760).foldl (fun d i =>
    (d.set LOG.SNAP_LO_SNAP_L (d.get LOG.CTR_LO_COUNT_L i) i).set LOG.SNAP_HI_SNAP_H (d.get LOG.CTR_HI_COUNT_H i) i) d
  let d := (d.set LOG.SNAP_SEQ_SEQ (d.get LOG.SNAP_SEQ_SEQ + 1)).set LOG.SNAP_NS_NS d.timeNs
  (d.set2 LOG.SNAP_SEC_LO_SEC_L LOG.SNAP_SEC_HI_SEC_H d.timeSec).raise LOG.BLK_EVT_SNAP_DONE

/-- FROZEN rises or falls: the timer of the bandwidth window stops meanwhile (R488). -/
def windowHold (d : Dev) (on : Bool) : Dev :=
  if on then d.mark .frozen 0
  else
    let w := d.marked .window 0
    { d with marks := mapPut d.marks (Timer.window.code, 0) 0 (w + (d.cc - max w (d.marked .frozen 0))) }

/-- FREEZE set or cleared, and FROZEN with it (R488). -/
def logFreeze (d : Dev) (on : Bool) : Dev :=
  let was := d.flag LOG.STAT_FROZEN
  let d := d.when (on != was) (·.windowHold on)
  ((d.put LOG.CTL_FREEZE on).put LOG.STAT_FROZEN on).raiseIf (on && !was) LOG.BLK_EVT_FROZEN_ON

/-- What a general trigger does in the Logbook (R488, R489). -/
def logTrigger (d : Dev) (n : Nat) : Dev :=
  let d := d.when (d.flag LOG.CTL_SNAP_TRIG_EN && d.get LOG.CTL_SNAP_TRIG == n) logSnap
  d.when (d.flag LOG.CTL_FRZ_TRIG_EN && d.get LOG.CTL_FRZ_TRIG == n) fun d => d.logFreeze true

/-- Every counter set to 0 (R486). -/
def logClear (d : Dev) : Dev :=
  (List.range 1760).foldl (fun d i => d.clear [LOG.CTR_LO_COUNT_L, LOG.CTR_HI_COUNT_H] i) d

/-- Every PEAK set to 0 (R487). -/
def peakClear (d : Dev) : Dev :=
  (List.range 270).foldl (fun d i => d.clear [LOG.BW_PEAK_LO_PEAK_L i, LOG.BW_PEAK_HI_PEAK_H i]) d

/-- The length of a bandwidth window in ns (Table 20.4), and whether the one under way has lasted ceil(WIN_NS × 4 / 5) cc (R487). -/
def windowNs (d : Dev) : Nat := max 1000 (d.getAct LOG.BW_WIN_WIN_NS)
def windowOver (d : Dev) : Bool :=
  d.flag LOG.STAT_BW_RUN && !d.flag LOG.STAT_FROZEN && d.lasted .window 0 d.windowNs

/-- The end of a bandwidth window; the next one follows at once (R487). -/
def windowEnd (d : Dev) : Dev :=
  if d.windowOver then
    let d := { d with marks := mapPut d.marks (Timer.window.code, 0) 0 (d.marked .window 0 + (d.windowNs * 4 + 4) / 5) }
    let d := (List.range 270).foldl (fun d i =>
      let n := mapGet d.bwAcc (i, 0) 0
      let d := d.set2 (LOG.BW_LAST_LO_LAST_L i) (LOG.BW_LAST_HI_LAST_H i) n
      if d.get2 (LOG.BW_PEAK_LO_PEAK_L i) (LOG.BW_PEAK_HI_PEAK_H i) < n then
        (d.set2 (LOG.BW_PEAK_LO_PEAK_L i) (LOG.BW_PEAK_HI_PEAK_H i) n).raise LOG.BLK_EVT_PEAK_NEW
      else d) d
    ({ d with bwAcc := [] }.commit 0x0009000C 0 |>.set LOG.STAT_WSEQ (d.get LOG.STAT_WSEQ + 1)).raise LOG.BLK_EVT_WIN_END
  else d

/-- A change of BW_EN: the first window begins, or the one in progress is discarded (R487). -/
def bwEnable (d : Dev) (en : Bool) : Dev :=
  if en == d.flag LOG.STAT_BW_RUN then d
  else ({ d with bwAcc := [] }.put LOG.STAT_BW_RUN en).mark .window 0

/-- A PCIe write to host memory. -/
def hostWrite (d : Dev) (addr : Nat) (bs : List Byte) : Dev := (d.bwAdd 267 bs.length).emit (.hostWrite addr bs)

/-! ## MSI-X and general queues -/

/-- A message leaves on a vector, unless the vector or the function is masked: then its PBA bit is set (R436). -/
def sendMsix (d : Dev) (v : Nat) : Dev :=
  let base := 0x00C08000 + 16 * v
  let masked := d.funcMask || (d.reg (base + 12) 0).toNat % 2 == 1
  if masked then d.putBit ⟨0x00C08800 + 4 * (v / 32), 0, 32⟩ (v % 32) true
  else ((d.logAdd 1748 1).bwAdd 267 4).emit (.msix v ((d.reg base 0).toNat + (d.reg (base + 4) 0).toNat * 2 ^ 32) (d.reg (base + 8) 0).toNat)

/-- A triggered message waits for CTRL_UP while the control side restarts (R434). -/
def triggerVec (d : Dev) (v : Nat) : Dev :=
  if d.restarting then { d with msixDefer := d.msixDefer ||| 2 ^ v } else d.sendMsix v

/-- 2^LOG_N of a general queue. -/
def qSize (d : Dev) (q : Nat) : Nat := 2 ^ d.get QM.Q_CFG_LOG_N q

/-- The fill of a general queue (R207). -/
def qFill (d : Dev) (q : Nat) : Nat :=
  (d.get QM.Q_PROD_IDX q + 2 * d.qSize q - d.get QM.Q_CONS_IDX q) % (2 * d.qSize q)

/-- FILL, FULL and HWM of a general queue follow its indices (Table 7.19). -/
def qStatus (d : Dev) (q : Nat) : Dev :=
  let n := d.qFill q
  let d := (d.set QM.Q_STAT_FILL n q).put QM.Q_STAT_FULL (n == d.qSize q) q
  d.set QM.Q_HWM_HWM (max n (d.get QM.Q_HWM_HWM q)) q

/-- The base address of a general queue (R207: the low 12 bits are ignored). -/
def qBase (d : Dev) (q : Nat) : Nat := d.get2 QM.Q_BASE_LO_BASE_L QM.Q_BASE_HI_BASE_H q / 4096 * 4096

/-- Can a function use the queue: a running general queue of the direction (false: DIR = 0), its element large
enough (R210)? -/
def qUsable (d : Dev) (q : Nat) (dir : Bool) (size : Nat) : Bool :=
  decide (12288 ≤ q) && decide (q < 16384) && d.flag QM.Q_STAT_RUN q && (d.flag QM.Q_CFG_DIR q == dir) &&
    decide (size ≤ 2 ^ d.get QM.Q_CFG_ESZ q)

/-- A function found its configured queue unusable (R210). -/
def qRef (d : Dev) : Dev := (d.raise QM.BLK_EVT_QREF).pulseFault (devFault 92)

/-- A write to the memory a queue's SPACE names (R207). -/
def qWrite (d : Dev) (q addr : Nat) (bs : List Byte) : Dev :=
  if d.flag QM.Q_CFG_SPACE q then d.emit (.coreWrite addr bs) else d.hostWrite addr bs

/-- The index the device owns is written back where WB_EN = 1 (R209). -/
def qWriteBack (d : Dev) (q idx : Nat) : Dev :=
  d.when (d.flag QM.Q_WB_LO_WB_EN q) fun d =>
    d.qWrite q (d.get QM.Q_WB_LO_ADDR_L q * 8 + d.get QM.Q_WB_HI_ADDR_H q * 2 ^ 32) (leBytes 8 idx)

/-- The instances of a register in which a status flag, reset to 0, is set. -/
def flagSet (d : Dev) (f : Fld) : List Nat :=
  (d.regs.filter fun e => e.1.1 == f.off && bitsOf e.2 f.lo f.w != 0).map (·.1.2)

/-- The queue's vector is triggered where NOTIFY = 1 and CNT_THR elements have been produced or consumed since the last notification
(R211). -/
def qDue (d : Dev) (q : Nat) : Dev :=
  if d.flag QM.Q_CFG_NOTIFY q && decide (max 1 (d.get QM.Q_MOD_CNT_THR q) ≤ (mapGet d.qSince (q, 0) (0, 0)).1) then
    { d with qSince := mapPut d.qSince (q, 0) (0, 0) (0, 0) }.triggerVec (d.get QM.Q_CFG_VEC q)
  else d

/-- One element more since the last notification; the cc of the first is kept for the timer (R211). -/
def qNotify (d : Dev) (q : Nat) : Dev :=
  let x := mapGet d.qSince (q, 0) (0, 0)
  { d with qSince := mapPut d.qSince (q, 0) (0, 0) (x.1 + 1, if x.1 = 0 then d.cc else x.2) }.qDue q

/-- A record produced on a general queue of DIR = 0: written, then the index and its write-back, then the notification
(R209); dropped and counted where the queue is full (R210). The flag says whether it was written. -/
def qProduce (d : Dev) (q : Nat) (bs : List Byte) : Bool × Dev :=
  if d.qUsable q false bs.length then
    if d.qFill q ≥ d.qSize q then (false, d.count QM.Q_CNT_OVF_COUNT 1 q)
    else
      let p := d.get QM.Q_PROD_IDX q
      let p' := (p + 1) % (2 * d.qSize q)
      let d := d.qWrite q (d.qBase q + p % d.qSize q * 2 ^ d.get QM.Q_CFG_ESZ q) bs
      (true, (((d.set QM.Q_PROD_IDX p' q).qStatus q).qWriteBack q p').qNotify q)
  else (false, d.qRef)

/-- The device takes one element of a general queue of DIR = 1 (R209), which it reads whole, over PCIe where the queue lies in host memory
(R207, Table 20.2). The flag says whether there was one. -/
def qConsume (d : Dev) (q size : Nat) : Bool × Dev :=
  if d.qUsable q true size then
    if d.qFill q = 0 then (false, d)
    else
      let d := d.when (!d.flag QM.Q_CFG_SPACE q) (·.bwAdd 266 (2 ^ d.get QM.Q_CFG_ESZ q))
      let c' := (d.get QM.Q_CONS_IDX q + 1) % (2 * d.qSize q)
      (true, (((d.set QM.Q_CONS_IDX c' q).qStatus q).qWriteBack q c').qNotify q)
  else (false, d.qRef)

/-! ## The bus captures and the select registers -/

/-- A decode miss: an error response, the capture of the first after a clear, and the event (R3, R432). -/
def busMiss (d : Dev) (m off : Nat) (wr : Bool) : Dev :=
  let d := d.when (!d.flag BUS.MISS_INFO_VALID) fun d =>
    (((d.set BUS.MISS_INFO_MASTER m).put BUS.MISS_INFO_WRITE wr).raise BUS.MISS_INFO_VALID).set BUS.MISS_ADDR_OFS off
  (d.count BUS.MISS_INFO_COUNT).raise BUS.EVT_STAT_DECODE_MISS

/-- An ignored S write: the capture of the first after a clear, and the event (R8, R432). -/
def busViol (d : Dev) (m off : Nat) : Dev :=
  let d := d.when (!d.flag BUS.VIOL_INFO_VALID) fun d =>
    (((d.set BUS.VIOL_INFO_MASTER m).raise BUS.VIOL_INFO_WRITE).raise BUS.VIOL_INFO_VALID).set BUS.VIOL_ADDR_OFS off
  (d.count BUS.VIOL_INFO_COUNT).raise BUS.EVT_STAT_VIOL

/-- A master's select value, where it is within its range (R17, Table 0.6). -/
def selOf (d : Dev) (m : Master) (f : Fld) (n : Nat) : Option Nat :=
  let v := d.get f m.code
  if v < n then some v else none

/-! ## Toggle crossings (R477, R478) -/

/-- A pulse reaches the source of a toggle crossing: within the acknowledge phase of an earlier one it is merged. The phase's
length is open within `most` cc (R477, log 2). -/
def toggle (d : Dev) (x unit most : Nat) : Dev :=
  let p := mapGet d.toggles (x, unit) (0, 0)
  let merged := decide (p.1 < d.cc) && decide (d.cc < p.2)
  let r := d.draw
  let q := if merged then (p.1, p.2 + 1 + r.1 % most) else (d.cc, d.cc + 1 + r.1 % most)
  ({ r.2 with toggles := mapPut d.toggles (x, unit) (0, 0) q }).when merged (·.putBit GLB.XING_MERGED_MERGED x true)

/-! ## Checked memories (R389) -/

/-- A checker's next check consumes an armed injection: the source rises for that check alone (R389). -/
def injCheck (d : Dev) (src : Nat) (f : FaultAt) : Dev :=
  if mapGet d.injArmed (src, 0) false then d.pulseFault f else d

/-- A key slot is used (R450): only a VALID slot of the usage serves; a slot whose tag fails becomes BAD. -/
def keyUse (d : Dev) (slot usage : Nat) (tagOk : Bool) : Bool × Dev :=
  if d.get KEY.SLOT_ATTR_STATE slot = 1 then
    if tagOk then (d.get KEY.SLOT_ATTR_USAGE slot == usage, d.injCheck 220 ⟨220, 3, 0, slot⟩)
    else (false, ((d.set KEY.SLOT_ATTR_STATE 2 slot).raise KEY.EVT_STAT_SLOT_BAD).pulseFault ⟨220, 3, 0, slot⟩)
  else (false, d)

/-- The bytes of a slot's key. -/
def keyBytes (d : Dev) (slot : Nat) : List Byte := mapGet d.keys (slot, 0) []

/-! ## Supervision levels other blocks read -/

/-- The shedding ladder's 110 °C step holds (Table 15.6). -/
def shedding (d : Dev) : Bool := decide (2 ≤ d.ladder)

/-- The transmit direction of a group is held in OFF: by safe-idle (R382), or, for groups 0 to 35, until RUNNING rises
(R406). -/
def txHeldOff (d : Dev) (g : Nat) : Bool :=
  d.flag FLT.STAT_SAFE_IDLE || d.flag FLT.STAT_TRIP || (decide (g < 36) && !d.flag FLT.STAT_RUNNING)

end Dev

namespace State

/-- A command's effect on the block alone: the frame store, the NVM and the queue stay as they are. -/
def go (s : State) (f : Dev → Dev) : Host.Outcome State Fault Refusal := .next { s with dev := f s.dev }

end State

end Sys2Proof.Machine
end

