-- ==== Sys2Proof/Machine/Sync.lean ====
section
/-!
DEFINITION. Sys2Proof/Machine/Sync.lean: when an input slot is present (R24, Table 1.2, R192), and the frame synchroniser
that can sit on it: the frames it holds, accepts, chooses and plays (R222 to R232, R522).
-/

namespace Sys2Proof.Machine

/-- The line pitch of the picture area in bytes (R221). -/
def linePitch (fmt : Nat) : Nat := if fmt ≤ 3 then 3456 else if fmt ≤ 0x12 then 5120 else 10240

/-- Store units of a format (Table 8.2). -/
def storeUnits (fmt : Nat) : Nat := if 0x20 ≤ fmt then 4 else 1

/-- Three 10-bit samples to a 32-bit word, the earliest in [9:0] (R221), little-endian. -/
def packSamples : List (BitVec 10) → List Byte
  | [] => []
  | [a] => leBytes 4 a.toNat
  | [a, b] => leBytes 4 (a.toNat + b.toNat * 1024)
  | a :: b :: c :: r => leBytes 4 (a.toNat + b.toNat * 1024 + c.toNat * 1048576) ++ packSamples r

/-- The bytes that samples take in a picture area. -/
def packedLen (n : Nat) : Nat := 4 * ((n + 2) / 3)

/-- The bytes that stored packets take in the ancillary area: two for each word (DESIGN CHOICE, log 97). -/
def ancBytes (ps : List StoredPkt) : Nat := (ps.map fun p => 2 * p.words.length).sum

/-- The frame of a list whose start lies nearest to an instant (R232). -/
def nearestFrame (x : Int) : List SyncFrame → Option SyncFrame
  | [] => none
  | f :: r =>
    match nearestFrame x r with
    | none => some f
    | some g => if (f.start - x).natAbs ≤ (g.start - x).natAbs then some f else some g

namespace Dev

def syncUnit (d : Dev) (n : Nat) : SyncUnit := mapGet d.syncs (n, 0) SyncUnit.init
def setSync (d : Dev) (n : Nat) (u : SyncUnit) : Dev := { d with syncs := mapPut d.syncs (n, 0) SyncUnit.init u }

/-- The synchroniser assigned to a slot (R30). -/
def syncAt (d : Dev) (slot : Nat) : Option Nat :=
  match mapGet d.syncOf (slot, 0) 0 with
  | 0 => none
  | n + 1 => some n

/-- None of the conditions of a lane or packet slot's row of Table 1.2 holds. -/
def inputOk (d : Dev) (slot : Nat) : Bool :=
  if slot < 1152 then
    let g := slot / 32
    d.get LNG.GRP_STAT_RX_STATE g == 5 && !(d.flag LNG.GRP_CTL_MODE g && decide (2 ≤ slot % 4)) &&
      d.flag SLP.IN_CFG_IN_EN slot && decide (2 ≤ d.get SLP.IN_STAT_PARSE slot)
  else d.flag (FLW.BDL_STAT_PRESENT (slot - 1152))

/-- HOLDING of a synchroniser follows its conditions (R228), with its events; a fall restarts the count of repeats. -/
def refreshHolding (d : Dev) (n : Nat) : Dev :=
  let slot := d.get FS.SYNC_CTL_SLOT n
  let u := d.syncUnit n
  let h := d.flag FS.SYNC_STAT_RUN n && d.flag SLP.IN_STAT_SRC_ABSENT slot && u.playing.isSome
  let was := d.flag FS.SYNC_STAT_HOLDING n
  let d := (d.raiseIf (h && !was) FS.SYNC_EVT_HOLD_START n).raiseIf (was && !h) FS.SYNC_EVT_HOLD_END n
  let d := d.put FS.SYNC_STAT_HOLDING h n
  if h then d else d.setSync n { d.syncUnit n with repeats := 0 }

/-- PRESENT or SRC_ABSENT of a slot follows the conditions of its input stage (R24, R225): PRESENT falls at once and rises
at a line start. A frame that is being written as its input fails is marked (R227). -/
def refreshPresence (d : Dev) (slot : Nat) (lineStart : Bool) : Dev :=
  let ok := d.inputOk slot
  match d.syncAt slot with
  | none =>
    (d.put SLP.IN_STAT_SRC_ABSENT false slot).put SLP.IN_STAT_PRESENT
      (ok && (lineStart || d.flag SLP.IN_STAT_PRESENT slot)) slot
  | some n =>
    let mm := d.get SLP.IN_STAT_DET_FMT slot != d.get FS.SYNC_CTL_FMT n
    let u := d.syncUnit n
    let d := if (!ok || mm) && u.writing.isSome then d.setSync n { u with lost := true } else d
    ((d.put FS.SYNC_STAT_FMT_MM mm n).put SLP.IN_STAT_SRC_ABSENT (!ok || mm) slot).refreshHolding n

/-- Bytes from the start of one buffer of a synchroniser to the next (R220). -/
def bufPitch (d : Dev) (n : Nat) : Nat := if d.flag FS.SYNC_CTL_MIN2 n then 16773120 else 22364160

/-- The store address of a buffer of a synchroniser (R220). -/
def bufAddr (d : Dev) (n b : Nat) : Nat := n * 0x4000000 + 16384 + b * d.bufPitch n

/-- The store address of the ancillary area of a buffer (R220). -/
def ancAddr (d : Dev) (n b : Nat) : Nat := d.bufAddr n b + d.bufPitch n - 245760

/-! ## The audio delay pool (R236) -/

/-- `n` blocks that are not granted, those of lowest number (DESIGN CHOICE, log 101). -/
def freeBlocks (d : Dev) (n : Nat) : List Nat :=
  let used := d.pool.flatMap (·.2)
  ((List.range (used.length + n)).filter fun k => !used.contains k).take n

/-- A delay line holds `n` blocks: more are granted, or some return to the pool. -/
def poolSet (d : Dev) (key : Key) (n : Nat) : Dev :=
  let held := mapGet d.pool key []
  let bs := if n ≤ held.length then held.take n else held ++ d.freeBlocks (n - held.length)
  { d with pool := mapPut d.pool key [] bs }

/-- The store address of the sample of tick `t` in a delay line: its blocks are one ring (DESIGN CHOICE, log 101). -/
def poolAddr (d : Dev) (key : Key) (t : Nat) : Option Nat :=
  let bs := mapGet d.pool key []
  let i := t % (4096 * bs.length)
  (bs[i / 4096]?).map fun k => 0x800000000 + k * 16384 + i % 4096 * 4

/-- The synchroniser's cadence rate. -/
def syncRate (d : Dev) (n : Nat) : Nat × Nat := d.cadRate (d.get FS.SYNC_CTL_CAD n)

/-- The buffers that R522 holds. -/
def heldBufs (u : SyncUnit) : List Nat :=
  u.frames.map (·.buf) ++ (u.playing.map (·.buf)).toList ++
    (match u.playing, u.prev with
     | some p, some q => if p.complete then [] else [q.buf]
     | _, _ => [])

/-- The free buffer of lowest number (R522). -/
def freeBuf (d : Dev) (n : Nat) : Option Nat :=
  (List.range (if d.flag FS.SYNC_CTL_MIN2 n then 4 else 3)).find? fun b => !(heldBufs (d.syncUnit n)).contains b

/-- The frame being written becomes complete (R225). -/
def frameComplete (d : Dev) (n : Nat) : Dev :=
  let u := d.syncUnit n
  match u.writing with
  | none => d
  | some b =>
    let fin (f : SyncFrame) : SyncFrame := if f.buf = b then { f with complete := true } else f
    d.setSync n { u with writing := none, frames := u.frames.map fin, playing := u.playing.map fin }

/-- A frame of a synchroniser is incomplete (R227): counted; one that has not begun to play is never played. -/
def frameFail (d : Dev) (n b : Nat) : Dev :=
  let u := d.syncUnit n
  let w := if u.writing = some b then none else u.writing
  let c := if u.choice = some (some b) then none else u.choice
  let d := (d.count FS.CNT_INCOMPLETE_COUNT 1 n).raise FS.SYNC_EVT_INCOMPLETE n
  d.setSync n { u with writing := w, choice := c, frames := u.frames.filter (·.buf != b) }

/-- The synchronisers of a running gang's lead (R232), or the synchroniser alone. -/
def gangOf (d : Dev) (n : Nat) : List Nat :=
  let l := n / 4 * 4
  if d.flag FS.SYNC_CTL_GANG l && d.flag FS.SYNC_STAT_RUN l then [l, l + 1, l + 2, l + 3] else [n]

/-- The input of a synchroniser fails while a frame is being written (R227); on a gang the frame is incomplete for all
four (R232). -/
def inputFails (d : Dev) (n : Nat) : Dev :=
  let u := d.syncUnit n
  match u.writing with
  | none => d
  | some b =>
    let start := (((u.frames ++ u.playing.toList).find? (·.buf == b)).map (·.start)).getD 0
    (d.gangOf n).foldl (fun d m =>
      if m = n then d.frameFail n b
      else
        let v := d.syncUnit m
        match nearestFrame start (v.frames ++ v.playing.toList) with
        | some f => d.frameFail m f.buf
        | none => d) d

/-- An input frame that starts at an instant of cadence time is accepted into a free buffer, or dropped where there is none
(R225, R226). -/
def frameAccept (d : Dev) (n : Nat) (start : Int) : Dev :=
  match d.freeBuf n with
  | none => (d.count FS.CNT_DROP_COUNT 1 n).raise FS.SYNC_EVT_DROP n
  | some b =>
    let u := d.syncUnit n
    let c := d.get FS.SYNC_CTL_CAD n
    let min : Int := if d.flag FS.SYNC_CTL_MIN2 n then 2 else 1
    let due := firstFrame (d.cadRate c) (d.cadOfs c) 0 (start + min * periodTu (d.cadRate c))
    d.setSync n { u with frames := u.frames ++ [⟨b, start, due, false, false, 0, []⟩], writing := some b, lost := false }

/-- An input frame start, at an instant of cadence time, of a slot with a running synchroniser (R225): the frame that was being written is complete, or
incomplete where the input has failed; the new frame is accepted while the input is present, its format matches and
FRZ = 0. -/
def syncInputFrame (d : Dev) (n : Nat) (start : Int) : Dev :=
  let slot := d.get FS.SYNC_CTL_SLOT n
  let ok := d.inputOk slot && d.get SLP.IN_STAT_DET_FMT slot == d.get FS.SYNC_CTL_FMT n
  let d := if ok && !(d.syncUnit n).lost then d.frameComplete n else d.inputFails n
  if ok && !d.flag FS.SYNC_CTL_FRZ n then d.frameAccept n start else d

/-- A choice among the frames due at a cadence frame start: the latest plays, and each earlier one is a drop, counted once (R226). They
stay until the frame start, where a new choice can fall on them (R227, R522). -/
def chooseFrame (d : Dev) (n : Nat) (fs : List SyncFrame) (f : SyncFrame) : Dev :=
  let u := d.syncUnit n
  let lost := (fs.filter fun g => g != f && !g.passed).length
  let d := d.setSync n { u with
    choice := some (some f.buf)
    frames := u.frames.map fun g => if g != f && fs.contains g then { g with passed := true } else g }
  if lost = 0 then d else (d.count FS.CNT_DROP_COUNT lost n).raise FS.SYNC_EVT_DROP n

/-- No frame is due: the frame that played last plays again (R226), which counts toward HOLD_TMO while HOLDING (R228,
R229). -/
def chooseRepeat (d : Dev) (n : Nat) : Dev :=
  let u := d.syncUnit n
  if u.playing.isSome then
    let r := if d.flag FS.SYNC_STAT_HOLDING n then u.repeats + 1 else 0
    ((d.setSync n { u with choice := some none, repeats := r }).count FS.CNT_REPEAT_COUNT 1 n).raise
      FS.SYNC_EVT_REPEAT n
  else d

/-- The choice of one synchroniser among the frames that meet a test and are due at frame k (R226). -/
def syncChoose (d : Dev) (n : Nat) (k : Int) (p : SyncFrame → Bool) : Dev :=
  let fs := (d.syncUnit n).frames.filter fun f => decide (f.due ≤ k) && p f
  match fs.getLast? with
  | some f => d.chooseFrame n fs f
  | none => d.chooseRepeat n

/-- A gang member follows its lead's choice (R232). -/
def syncFollow (d : Dev) (lead n : Nat) (k : Int) : Dev :=
  let l := d.syncUnit lead
  let chosen : Option SyncFrame := match l.choice with
    | some (some b) => l.frames.find? (·.buf == b)
    | _ => l.playing
  let u := d.syncUnit n
  match chosen.bind fun c => nearestFrame c.start (u.frames ++ u.playing.toList) with
  | some f =>
    if u.frames.contains f then
      d.chooseFrame n (u.frames.filter fun g => decide (g.due ≤ k) && decide (g.start ≤ f.start)) f
    else d.chooseRepeat n
  | none => d.chooseRepeat n

/-- The choice of a synchroniser or of its gang for frame k (R226, R232). A gang's members take theirs with the lead. -/
def syncChoice (d : Dev) (n : Nat) (k : Int) (p : SyncFrame → Bool) : Dev :=
  match d.gangOf n with
  | [_, a, b, c] =>
    if n % 4 = 0 then
      let d := d.syncChoose n k p
      [a, b, c].foldl (fun d m => d.syncFollow n m k) d
    else d
  | _ => d.syncChoose n k p

/-- A choice that has become void is made again at frame k, among the complete frames (R227), for the whole gang where its lead has one
to play (R232). -/
def rechoose (d : Dev) (n : Nat) (k : Int) : Dev :=
  match d.gangOf n with
  | l :: _ :: _ =>
    let u := d.syncUnit l
    if n = l || (u.choice.isNone && u.frames.any fun f => f.complete && decide (f.due ≤ k)) then d.syncChoice l k (·.complete)
    else d.syncFollow l n k
  | _ => d.syncChoose n k (·.complete)

/-- The chosen frame begins to play at frame k (R226, R228, R522): START from EMPTY; BUF and D_NS; the frames passed over give up their
buffers; the slot becomes present. -/
def playFrame (d : Dev) (n : Nat) (k : Int) (f : SyncFrame) : Dev :=
  let u := d.syncUnit n
  let c := d.get FS.SYNC_CTL_CAD n
  let dNs := (frameTu (d.cadRate c) (d.cadOfs c) k - f.start) / tuPerNs
  let d := d.raiseIf (d.flag FS.SYNC_STAT_EMPTY n) FS.SYNC_EVT_START n
  let d := ((d.put FS.SYNC_STAT_EMPTY false n).set FS.SYNC_STAT_BUF f.buf n).set FS.SYNC_DLY_D_NS dNs.toNat n
  let d := d.setSync n { u with frames := u.frames.filter fun g => g != f && !g.passed, playing := some f, prev := u.playing, choice := none,
                                repeats := 0 }
  (d.put SLP.IN_STAT_PRESENT true (d.get FS.SYNC_CTL_SLOT n)).refreshHolding n

/-- The synchronised raster's next frame start has F(k) as its target (R230); before its first frame it starts there (R224). -/
def syncTarget (d : Dev) (n : Nat) (k : Int) : Dev :=
  let key := d.get FS.SYNC_CTL_SLOT n + 2048
  let c := d.get FS.SYNC_CTL_CAD n
  let g := d.genOf key
  let t := frameTu (d.cadRate c) (d.cadOfs c) k
  d.setGenOf key { g with code := d.get FS.SYNC_CTL_FMT n, target := t, resume := if g.run then g.resume else some t }

/-- A raster that the device makes stops; its count of line starts stays. -/
def genStop (d : Dev) (key : Nat) : Dev := d.setGenOf key { SrcGen.init with seq := (d.genOf key).seq }

/-- A cadence frame start of a running synchroniser (R226, R227): its F fields take effect; the chosen frame plays; a choice
that has become void is made again among the complete frames. With nothing to play the slot is absent. -/
def syncPlay (d : Dev) (n : Nat) (k : Int) : Dev :=
  let d := d.commit 0x00700104 n
  let d := if (d.syncUnit n).choice.isNone then d.rechoose n k else d
  let u := d.syncUnit n
  match u.choice with
  | some (some b) =>
    match u.frames.find? (·.buf == b) with
    | some f => ((d.playFrame n k f).syncTarget n k).logAdd (330 + n) 1
    | none => d.setSync n { u with choice := none }
  | _ =>
    let d := d.setSync n { u with choice := none }
    if u.playing.isSome then (d.syncTarget n k).logAdd (330 + n) 1
    else (d.put SLP.IN_STAT_PRESENT false (d.get FS.SYNC_CTL_SLOT n)).genStop (d.get FS.SYNC_CTL_SLOT n + 2048)

end Dev

end Sys2Proof.Machine
end

