-- ==== Sys2Proof/Machine/Xp.lean ====
section
/-!
DEFINITION. Sys2Proof/Machine/Xp.lean: the crosspoint and the output stages (chapter 4, and R89 to R94 of chapter 3): the words
that an output carries, the substitute trigger, the generator, the return point, the commit points, the active source and its
status, and the Processed Path (R106, R108, R124).
-/

namespace Sys2Proof.Machine

/-- The null source (R22). -/
def nullSrc : Nat := 0x7FF

/-- A source code from 1,664 to 2,046 (R22). -/
def invalidSrc (s : Nat) : Bool := decide (1664 ≤ s) && decide (s < 0x7FF)

namespace Dev

/-- The slot-word clock: a slot word takes 4 fc, which is 2 cc (R19). -/
def slotNow (d : Dev) : Nat := d.cc / 2

def outOf (d : Dev) (o : Nat) : OutStage := mapGet d.outs (o, 0) OutStage.init
def setOut (d : Dev) (o : Nat) (x : OutStage) : Dev := { d with outs := mapPut d.outs (o, 0) OutStage.init x }

/-- The active source S(o) (R110). -/
def srcAct (d : Dev) (o : Nat) : Nat := d.get XP.SRC_STAT_SRC_ACT o

/-- The Plotter engine of a slot from 1,536 on (R20). -/
def engOf (o : Nat) : Nat := (o - 1536) / 4

/-- Does the output run (R125)? -/
def outRuns (d : Dev) (o : Nat) : Bool :=
  if o < 1536 then d.flag SLP.OUT_CFG_OUT_EN o else d.flag PLT.ENG_STAT_RUN (engOf o)

/-- The output's format code (R89). -/
def outFmt (d : Dev) (o : Nat) : Nat :=
  if o < 1536 then d.get SLP.OUT_CFG_OUT_FMT o else d.get PLT.ENG_CFG_FMT (engOf o)

/-- The output's cadence (R89). -/
def outCad (d : Dev) (o : Nat) : Nat :=
  if o < 1536 then d.get SLP.OUT_CFG_OUT_CAD o else d.get PLT.ENG_CFG_CAD (engOf o)

/-- Does an engine drive this output of its own (R25)? -/
def engDrives (d : Dev) (s : Nat) : Bool :=
  let e := engOf s
  let k := (s - 1536) % 4
  d.flag PLT.ENG_STAT_RUN e &&
    (if d.flag PLT.ENG_CFG_MODE e then decide (k < max 1 (min 4 (d.get PLT.ENG_CFG_NOUT e))) else k == 0)

/-- Is a source present (R24)? A Plotter output is from its first frame start on (R244); the null source never is absent. -/
def srcPresent (d : Dev) (s : Nat) : Bool :=
  if s < 1536 then d.flag SLP.IN_STAT_PRESENT s else if s < 1664 then d.engDrives s && (d.genOf s).run else true

/-- Is a frame synchroniser assigned to a source (R30)? -/
def synced (d : Dev) (s : Nat) : Bool := decide (s < 1536) && mapGet d.syncOf (s, 0) 0 != 0

/-- The source's format (chapter 4, "Loss policies"). -/
def srcFmt (d : Dev) (s : Nat) : Nat :=
  if s < 1536 then d.get SLP.IN_STAT_DET_FMT s else d.get PLT.ENG_CFG_FMT (engOf s)

/-- The core latency of a route in fc (R112, R113): 0 for the null source or an invalid code (R117). -/
def routeLat (d : Dev) (o s : Nat) : Nat :=
  if s < 1664 then
    9 + (o % 4 + 4 - s % 4) % 4 +
      (if decide (o < 1536) && (d.flag SLP.OUT_CFG_AUD_EMB o || d.flag SLP.OUT_CFG_ANC_RBLD o) then 4 else 0)
  else 0

/-- The cycle, counted in fc, in which output o selects a word of slot i that is on its input virtual lane in cycle n, and the one in
which the word is on the output virtual lane (Table 4.1). -/
def selectCycle (n o i : Nat) : Nat := n + 1 + (o % 4 + 4 - i % 4) % 4
def departCycle (d : Dev) (n o i : Nat) : Nat := n + d.routeLat o i - 1

/-- Shedding sets T of an output (R122). -/
def shedOut (d : Dev) (o s : Nat) : Bool :=
  let p := d.getAct XP.OUT_POL_SHED_PRI o
  decide (1 ≤ p) && decide (p ≤ d.get XP.BLK_STAT_SHED_H) && d.synced s

/-- The source's format differs from the output's, where the output has one (Table 4.3). -/
def fmtMismatch (d : Dev) (o s : Nat) : Bool :=
  decide (s < 1664) && fmtValid (d.outFmt o) && d.srcFmt s != d.outFmt o

/-- The cause for which T of an output is 1 with a source (R118, Table 4.3, R122), lowest CAUSE code first; 0 for T = 0. The
null source and the invalid codes are governed by R117 alone. -/
def trigCause (d : Dev) (o s : Nat) : Nat :=
  if s ≥ 1664 then 0
  else
    let pol := d.getAct XP.OUT_POL_POLICY o
    let freeze := pol == 2 && d.synced s
    let black := pol == 1 || pol == 3
    if !d.srcPresent s then 2
    else if d.synced s && d.flag SLP.IN_STAT_SRC_ABSENT s && !freeze then 3
    else if d.shedOut o s then 4
    else if black && (d.fmtMismatch o s || (decide (s < 1536) && d.get SLP.IN_STAT_PARSE s == 3)) then 5
    else 0

/-- The status of XP.SRC_STAT and SLP.OUT_STAT that follows the active source (Tables 4.10 and 3.18, R119). -/
def refreshSrc (d : Dev) (o : Nat) : Dev :=
  let s := d.srcAct o
  let na := d.getAct XP.OUT_POL_POLICY o == 2 && !d.synced s
  let newNa := na && !d.flag XP.SRC_STAT_FRZ_NA o
  let d := (((d.put XP.SRC_STAT_INVALID (invalidSrc s) o).put XP.SRC_STAT_PRESENT (d.srcPresent s) o).put
    XP.SRC_STAT_SYNCED (d.synced s) o).put XP.SRC_STAT_FMT_MM (d.fmtMismatch o s) o
  let d := (d.put XP.SRC_STAT_FRZ_NA na o).raiseIf newNa XP.EVT_STAT_FRZ_NA o
  let proc := decide (o < 1536) && (d.flag SLP.OUT_CFG_AUD_EMB o || d.flag SLP.OUT_CFG_ANC_RBLD o)
  let d := (d.put XP.SRC_STAT_PROC proc o).set XP.SRC_STAT_LAT (d.routeLat o s) o
  if o < 1536 then
    (d.put SLP.OUT_STAT_SRC_PRESENT (d.srcPresent s) o).put SLP.OUT_STAT_OUT_FMT_MM (d.fmtMismatch o s) o
  else d

/-! ## The words of an output -/

/-- Does an egress context of a bundle with a role run (R196)? -/
def egressRole (d : Dev) (b r : Nat) : Bool :=
  d.flows.any fun e => decide (4096 ≤ e.1.1) && d.flag FLW.CTX_STAT_RUN e.1.1 && d.get FLW.CTX_CTL_BUNDLE e.1.1 == b &&
    d.get FLW.CTX_CTL_ROLE e.1.1 == r

/-- Does an egress video or ancillary context of a bundle run? -/
def egressOn (d : Dev) (b : Nat) : Bool := d.egressRole b 0 || d.egressRole b 1 || d.egressRole b 4

/-- Does anything take the words that leave an output slot: the group's lane transmitter, in RUN, which does not carry phases 2 and 3 in
compatibility mode (R23); the flow engines; or a Plotter feed? -/
def taken (d : Dev) (o : Nat) : Bool :=
  let g := o / 32
  if o < 1152 then d.get LNG.GRP_STAT_TX_STATE g == 3 && !(d.flag LNG.GRP_CTL_MODE g && decide (2 ≤ o % 4))
  else if o < 1536 then d.egressOn (o - 1152)
  else d.flag PLT.ENG_STAT_RUN (engOf o)

def egr (d : Dev) (o : Nat) : EgrUnit := mapGet d.egrs (o, 0) EgrUnit.init
def setEgr (d : Dev) (o : Nat) (u : EgrUnit) : Dev := { d with egrs := mapPut d.egrs (o, 0) EgrUnit.init u }

/-- The first complete line in slot words: the line, its interface words, and the slot words from its end on. -/
def wholeLine (ws : List Word) : Option (LineIn × List Samp × List Word) :=
  let ss := ifWords ws
  match findEav (fun _ => true) 0 ss with
  | none => none
  | some (i, s, _, _) =>
    match findEav (fun j => decide (i < j)) 0 ss with
    | none => none
    | some (j, _, _, _) =>
      let old := (ss.drop i).take (j - i)
      some (lineIn s old, old, (dropTo ws j).1)

/-- The rows of a line for the flow engine or the Plotter engine of its slot, complete now (R197, R198, R245). A feed's row has no samples
while its generator emits or its format is another (Table 9.4). -/
def lineEgRows (d : Dev) (o : Nat) (f : Fmt) (u : EgrUnit) (l : LineIn) : List EgRow :=
  let none' := decide (1536 ≤ o) && (d.flag XP.SRC_STAT_GEN o || d.flag XP.SRC_STAT_FMT_MM o)
  (netRows f u.sqd l).map fun r => ⟨r.1, u.field2, u.start, d.timeTu, if none' then [] else r.2⟩

/-- A line of the raster of a packet output, or of a Plotter feed, has left it whole (R196 to R202, R245). -/
def egrLine (d : Dev) (o : Nat) (l : LineIn) (ws : List Samp) : Dev :=
  match fmtOf (d.outFmt o) with
  | none => d
  | some f =>
    if ws.length = f.wpl then
      let u := d.egr o
      let u := if l.num = 1 then { u with start := (d.outOf o).frameT + d.resTu, sqd := false } else u
      let sq := (l.pkts.filter fun p => !p.chroma).filterMap pidRead
      let u := { u with field2 := f.field2 l.num, sqd := (sq.getLast?.map Config.pidSquare).getD u.sqd }
      let on (r : Nat) : Bool := decide (o < 1536) && d.egressRole (o - 1152) r
      let ancs := lineAncs l
      d.setEgr o { u with
        rows := if decide (1536 ≤ o) || on 0 then u.rows ++ d.lineEgRows o f u l else u.rows
        anc := if on 4 && !ancs.isEmpty then u.anc ++ [⟨u.field2, u.start, ancs⟩] else u.anc
        sdi := if on 1 then u.sdi ++ [(u.start, d.timeTu, octetsOf 10 (ws.map (·.toNat)))] else u.sdi }
    else d

/-- The complete lines among the words that wait at a packet output or a Plotter feed, `n` at most. -/
def egrTake (o : Nat) : Nat → Dev → Dev
  | 0, d => d
  | n + 1, d =>
    match wholeLine (mapGet d.outQ (o, 0) []) with
    | none => d
    | some (l, ws, rest) => egrTake o n ({ d with outQ := mapPut d.outQ (o, 0) [] rest }.egrLine o l ws)

def crcOf (d : Dev) (o : Nat) : SlotCrc := mapGet d.crcs (o, 0) SlotCrc.init
def setCrc (d : Dev) (o : Nat) (x : SlotCrc) : Dev := { d with crcs := mapPut d.crcs (o, 0) SlotCrc.init x }

/-- The index of the cadence frame start nearest to the counter's frame start, the later one of two (R366). -/
def frameIndex (d : Dev) (o : Nat) : Int :=
  let c := d.outCad o
  let p : Int := periodTu (d.cadRate c)
  firstFrame (d.cadRate c) (d.cadOfs c) 0 ((d.outOf o).frameT - p / 2)

/-- The words of a line have left an output slot: with its first line a frame ends and another begins (R366). -/
def crcLine (d : Dev) (o : Nat) : Dev :=
  let x := d.crcOf o
  let ss := ifWords x.cur
  let first := match findEav (fun _ => true) 0 ss with
    | some (i, s, _, _) => (lineIn s (ss.drop i)).num == 1
    | none => false
  let x := if first then
      { x with done := ((x.frame.map fun (f : Int × Nat) => (f.1, f.2 ^^^ 0xFFFFFFFF)).toList ++ x.done).take 4
               frame := some (d.frameIndex o, 0xFFFFFFFF) }
    else x
  d.setCrc o { x with cur := [], frame := x.frame.map fun (f : Int × Nat) =>
    (f.1, crc32More f.2 ((x.cur.filter wordV).flatMap fun w => leBytes 4 w.toNat)) }

/-- A word leaves an output slot: with the M word of the next line a line has left whole (R366). -/
def crcWord (o : Nat) (d : Dev) (w : Word) : Dev :=
  let d := d.when (wordV w && wordM w) (·.crcLine o)
  d.setCrc o { d.crcOf o with cur := (d.crcOf o).cur ++ [w] }

/-- Words leave an output slot: they go into its slot CRC while Consort runs, and wait for whoever takes them. -/
def outPush (d : Dev) (o : Nat) (ws : List Word) : Dev :=
  let d := if d.flag CON.CTL_EN then ws.foldl (crcWord o) d else d
  if !d.taken o then d
  else
    let d := { d with outQ := mapPut d.outQ (o, 0) [] (mapGet d.outQ (o, 0) [] ++ ws) }
    if 1152 ≤ o then egrTake o (ws.length + 1) d else d

/-- The output stages of a slot below 1,536 that have the four stages of output processing (R114, R124). -/
def processed (d : Dev) (o : Nat) : Bool :=
  decide (o < 1536) && (d.flag SLP.OUT_CFG_AUD_EMB o || d.flag SLP.OUT_CFG_ANC_RBLD o)

/-- Does the output pass its source: it runs, its counter has started where it has one (R90), and neither the generator nor a
substitute runs? -/
def passing (d : Dev) (o : Nat) : Bool :=
  d.outRuns o && ((d.outOf o).run || !fmtValid (d.outFmt o)) && !(d.flag XP.SRC_STAT_GEN o) && !(d.outOf o).sub &&
    decide (d.srcAct o < 1664)

/-- Words of its source reach an output that passes it, and leave it exactly as they entered (R111), or wait there for the line to be
processed (R124). -/
def carry (d : Dev) (o : Nat) (ws : List Word) : Dev :=
  if d.passing o then
    if d.processed o then d.setOut o { d.outOf o with proc := (d.outOf o).proc ++ ws } else d.outPush o ws
  else d

/-- Words of a source cross to every output whose active source it is (R110, R115). -/
def cross (d : Dev) (src : Nat) (ws : List Word) : Dev :=
  (d.outs.map (·.1.1)).foldl (fun d o => if d.srcAct o = src then d.carry o ws else d) d

/-- The words still on the Processed Path leave, as the output stops passing its source. -/
def procFlush (d : Dev) (o : Nat) : Dev :=
  let x := d.outOf o
  if x.proc.isEmpty then d else (d.setOut o { x with proc := [], procPos := 0 }).outPush o x.proc

/-- S(o) changes (R126): SRC_CHG on a change, and the events of a change to an invalid code (R22, R117). -/
def setSrc (d : Dev) (o s : Nat) : Dev :=
  let old := d.srcAct o
  let d := ((d.set XP.SRC_STAT_SRC_ACT s o).raiseIf (old != s) XP.EVT_STAT_SRC_CHG o).logAdd 1758 (b2n (old != s))
  let d := if invalidSrc s && old != s then
      ((d.raise XP.EVT_STAT_SRC_INV o).raise XP.BLK_EVT_INV_SRC).pulseFault ⟨111, 1, o, 0⟩
    else d
  d.refreshSrc o

/-- The number of outputs whose generator runs under T rises or falls by one (Table 4.7). -/
def subNum (d : Dev) (up : Bool) : Dev :=
  d.set XP.BLK_STAT_SUB_NUM (if up then d.get XP.BLK_STAT_SUB_NUM + 1 else d.get XP.BLK_STAT_SUB_NUM - 1)

/-- The substitute begins to count as one under T, with its event and count (R120). -/
def subStart (d : Dev) (o : Nat) : Dev :=
  let d := d.procFlush o
  let d := (d.setOut o { d.outOf o with sub := true, clean := none }).subNum true
  ((d.logAdd 1757 1).raise XP.EVT_STAT_SUB_START o).count XP.CNT_SUB_COUNT 1 o

/-- The substitute ends: SUB_END (R121). -/
def subEnd (d : Dev) (o : Nat) : Dev :=
  if (d.outOf o).sub then
    ((d.setOut o { d.outOf o with sub := false, clean := none }).subNum false).raise XP.EVT_STAT_SUB_END o
  else d

/-- The generator is emitting, or not (Tables 3.18 and 4.10). -/
def setGen (d : Dev) (o : Nat) (b : Bool) : Dev :=
  let d := d.put XP.SRC_STAT_GEN b o
  if o < 1536 then d.put SLP.OUT_STAT_GEN b o else d

/-- The frame start of a cadence nearest to an instant of cadence time, a later one on a tie, in units. -/
def nearestStart (d : Dev) (c : Nat) (x : Int) : Int :=
  let r := d.cadRate c
  let p : Int := periodTu r
  frameTu r (d.cadOfs c) (firstFrame r (d.cadOfs c) 0 (x - p / 2))

/-- Cadence time now, in units (R319, R330). -/
def cadNow (d : Dev) : Int := d.timeTu - d.resTu

/-- The offset of an output's counter from OUT_CAD: its last frame start against the nearest one of the cadence (R93). -/
def counterOfs (d : Dev) (o : Nat) : Int :=
  let x := (d.outOf o).frameT
  x - d.nearestStart (d.outCad o) x

/-- The generator begins (R92, R93, R94), keeping the offset the counter has. -/
def genStart (d : Dev) (o : Nat) : Dev :=
  if d.flag XP.SRC_STAT_GEN o then d
  else
    let ofs := d.counterOfs o
    let d := d.procFlush o
    let x := d.outOf o
    let d := (d.setOut o { x with genOfs := ofs, gen := { x.gen with rest := [], crcs := [] } }).setGen o true
    if o < 1536 then d.raise SLP.EVT_STAT_GEN_START o else d

/-- The generator ends while the output runs (R94). -/
def genEnd (d : Dev) (o : Nat) : Dev :=
  if d.flag XP.SRC_STAT_GEN o then
    let d := d.setGen o false
    if o < 1536 then d.raise SLP.EVT_STAT_GEN_END o else d
  else d

/-- CAUSE names why the generator runs, or the V = 0 substitute of an output without one (Table 4.10). An output without a generator
whose source is null or invalid carries V = 0 words under no trigger, and reads 0 (DESIGN CHOICE, log 85). -/
def refreshCause (d : Dev) (o : Nat) : Dev :=
  let s := d.srcAct o
  let c :=
    if !(d.flag XP.SRC_STAT_GEN o || (d.outOf o).sub) then 0
    else if s ≥ 1664 then 1
    else if d.flag XP.SRC_STAT_TRIG o then d.trigCause o s
    else 6
  d.set XP.SRC_STAT_CAUSE c o

/-- T reaches the output (R120): TRIG and the shed flag with its events (R122). A rise restarts the count of clean frames
(R121); an output without a generator substitutes at once. -/
def evalTrig (d : Dev) (o : Nat) : Dev :=
  let s := d.srcAct o
  let t := d.trigCause o s != 0
  let sh := decide (s < 1664) && d.shedOut o s
  let d := (d.raiseIf (sh && !d.flag XP.SRC_STAT_SHED o) XP.EVT_STAT_SHED_ON o).raiseIf
    (!sh && d.flag XP.SRC_STAT_SHED o) XP.EVT_STAT_SHED_OFF o
  let d := (d.put XP.SRC_STAT_SHED sh o).put XP.SRC_STAT_TRIG t o
  let d := d.when t fun d => d.setOut o { d.outOf o with clean := none }
  let d := d.when (t && d.outRuns o && !fmtValid (d.outFmt o) && !(d.outOf o).sub) (·.subStart o)
  (d.refreshSrc o).refreshCause o

/-- At a line start of the counter, or at a switch point, the generator begins if T = 1 or the source is null or invalid
(R117, R120); before the counter has started there is none (R90). -/
def genAtLine (d : Dev) (o : Nat) : Dev :=
  if d.outRuns o && (d.outOf o).run then
    let d :=
      if d.srcAct o ≥ 1664 then d.genStart o
      else if d.flag XP.SRC_STAT_TRIG o && !d.flag XP.SRC_STAT_GEN o then (d.genStart o).subStart o
      else d
    d.refreshCause o
  else d

/-- The commit point of an output's F fields (R13, R109, R125): a frame start of its counter. The new policy applies there (Table
4.4). An output without a counter has no such frame start (DESIGN CHOICE, log 85). -/
def outCommit (d : Dev) (o : Nat) : Dev :=
  let d := d.commit 0x00200104 o
  let d := if o < 1536 then d.commit 0x00300114 o else d
  (d.evalTrig o).genAtLine o

/-- The output returns to its source (R94, R121), `dev` slot words from the counter's line start. -/
def outReturn (d : Dev) (o : Nat) (dev : Int) : Dev :=
  let d := ((d.genEnd o).subEnd o).refreshCause o
  if decide (o < 1536) && (d.outOf o).run && (decide (dev > 1) || decide (dev < -1)) then
    (d.raise SLP.EVT_STAT_PHASE_JUMP o).pulseFault ⟨93, 1, o, 0⟩
  else d

/-- By how many slot words an instant lies after the nearest line start of the counter (R91, R94). -/
def lineDev (d : Dev) (o now : Nat) : Int :=
  let x := d.outOf o
  let r : Int := ((now : Nat) - (x.lineT : Nat) : Int)
  if decide (2 * r > x.span) then r - x.span else r

/-- The counter's frame start. -/
def counterFrame (d : Dev) (o : Nat) (t : Int) : Dev :=
  d.setOut o { d.outOf o with line := 0, frameT := t }

/-- The counter is re-phased to a source line start at an instant in slot words (R91); its accumulator has run on to there (R85). A
source frame start is the counter's frame start, and so a commit point (R109); its instant in cadence time is `t`. -/
def rephase (d : Dev) (o now : Nat) (frame : Bool) (t : Int) : Dev :=
  if (d.outOf o).run then
    let x := d.outOf o
    let c := accConst (d.outFmt o)
    let acc := (((x.gen.acc : Nat) + ((now : Nat) - (x.lineT + x.span : Nat) : Int) * c.1) % (c.2 : Int)).toNat
    let d := d.setOut o { x with lineT := now, placed := true, part := 0, gen := { x.gen with acc := acc } }
    if frame then (d.counterFrame o t).outCommit o else d
  else d

/-- A line ends: the ticks that fell in it are embedded in the line that follows (R106). -/
def shiftTicks (d : Dev) (o : Nat) : Dev := d.setOut o { d.outOf o with due := (d.outOf o).ticks, ticks := [] }

/-- A source line start at the output (R91, R94, R121): the return point after a substitute, or a re-phase. `ws` are the words the
source has delivered from that line start on, which a returning output carries. -/
def sourceLine (d : Dev) (o now : Nat) (frame : Bool) (t : Int) (ws : List Word) : Dev :=
  let d := d.refreshSrc o
  let dev := d.lineDev o now
  let back (d : Dev) : Dev := (((d.outReturn o dev).shiftTicks o).rephase o now frame t).carry o ws
  if !d.outRuns o || (d.outOf o).wait.isSome then d
  else if d.passing o then (d.shiftTicks o).rephase o now frame t
  else if d.srcAct o < 1664 && !d.flag XP.SRC_STAT_TRIG o then
    let k := d.getAct XP.OUT_POL_RET_FRAMES o
    if k = 0 then back d
    else if frame then
      match (d.outOf o).clean with
      | none => d.setOut o { d.outOf o with clean := some 0 }
      | some n => if n + 1 ≥ k then back d else d.setOut o { d.outOf o with clean := some (n + 1) }
    else d
  else d

/-- A cut at a switch point (R141, R147, R148, Table 4.4): S(o) changes, T is evaluated for the new source, and the
generator begins, continues or ends there. `seen` line starts of the new source lie behind it. -/
def cut (d : Dev) (o s seen : Nat) : Dev :=
  let d := ((d.procFlush o).setSrc o s).evalTrig o
  let d := d.setOut o { d.outOf o with seen := seen }
  if s ≥ 1664 then ((d.subEnd o).genAtLine o).refreshCause o
  else if d.flag XP.SRC_STAT_TRIG o then
    if d.flag XP.SRC_STAT_GEN o && !(d.outOf o).sub then
      ((d.setOut o { d.outOf o with sub := true, clean := none }).subNum true).refreshCause o
    else d.genAtLine o
  else ((d.genEnd o).subEnd o).refreshCause o

/-- The output stops: its generator simply stops, without an event (R94); its counter stops; no word leaves it. -/
def outStop (d : Dev) (o : Nat) : Dev :=
  let d := if (d.outOf o).sub then d.subNum false else d
  let d := ({ d with outQ := mapPut d.outQ (o, 0) [] [] }.setEgr o EgrUnit.init).setCrc o SlotCrc.init
  ((d.setOut o OutStage.init).setGen o false).set XP.SRC_STAT_CAUSE 0 o

/-- The output starts (R90, R126): its F fields take effect, S(o) is SRC_ACT, and with a format the counter waits for the
next frame start of its cadence. -/
def outStart (d : Dev) (o : Nat) : Dev :=
  let k := mapGet d.cadLast (d.outCad o, 0) (-1)
  let d := d.setOut o { OutStage.init with on := true, wait := if fmtValid (d.outFmt o) then some k else none }
  d.evalTrig o

/-- The counter starts at a frame start of its cadence, with no offset (R90, R93) and its accumulator at D − 1 (R85). The
frame start is a commit point. -/
def counterStart (d : Dev) (o : Nat) : Dev :=
  let k := mapGet d.cadLast (d.outCad o, 0) (-1)
  match (d.outOf o).wait with
  | none => d
  | some k0 =>
    if d.outRuns o && decide (k0 < k) then
      let t := frameTu (d.cadRate (d.outCad o)) (d.cadOfs (d.outCad o)) k
      ((d.setOut o { d.outOf o with wait := none, run := true, lineT := d.slotNow, span := 0, placed := true, part := 0,
                                    gen := Gen.start (d.outFmt o) }).counterFrame o t).outCommit o
    else d

/-! ## Slot words that enter -/

/-- Does the device itself make the raster of a source: a synchroniser, a bundle or a Plotter engine (R30, R95)? -/
def made (d : Dev) (src : Nat) : Bool := d.synced src || (decide (1152 ≤ src) && decide (src < 1664))

/-- Where the raster that the device makes for a source is kept. -/
def genKey (d : Dev) (src : Nat) : Nat := if d.synced src then src + 2048 else src

/-- The line starts that a source has delivered. -/
def srcSeq (d : Dev) (src : Nat) : Nat := if d.made src then (d.genOf (d.genKey src)).seq else (d.insOf src).seq

/-- The first V = 0 word, where there is one, is deleted. -/
def dropEmpty : List Word → List Word
  | [] => []
  | w :: ws => if wordV w then w :: dropEmpty ws else ws

/-- Words reach a slot's input: its input stage observes them (R28), and they cross to the outputs that carry the slot, unless a
synchroniser sits on it (R30), or has stopped since the last line start (R224). -/
def slotWords (d : Dev) (slot : Nat) (ws : List Word) : Dev :=
  let d := if decide (slot < 1536) && d.flag SLP.IN_CFG_IN_EN slot then
      d.setIns slot { d.insOf slot with buf := (d.insOf slot).buf ++ ws } else d
  if d.synced slot || (d.insOf slot).mute then d else d.cross slot ws

/-- The words of a lane's block reach their slot by its phase register (R112), through its elastic buffer: a deletion that is due takes
the first V = 0 word (R57). -/
def laneWords (d : Dev) (slot : Nat) (ws : List Word) : Dev :=
  let n := mapGet d.slips (slot, 0) 0
  let kept := if n = 0 then ws else dropEmpty ws
  let d := if kept.length = ws.length then d else { d with slips := mapPut d.slips (slot, 0) 0 (n - 1) }
  { d with inWords := mapPut d.inWords (slot, 0) [] ws }.slotWords slot kept

end Dev

/-! ## Ancillary rebuild and re-embedding (R106, R108) -/

/-- Does filter n of a slot match a packet's DID and SDID (R107)? The compared values are those in force for the line: `c` names the
copy, the input's or the output's (Table 3.14). -/
def Dev.ancMatch (d : Dev) (slot c n : Nat) (p : AncPkt) : Bool :=
  d.flag (SLP.ANC_FLT_EN n) slot && d.getAct (SLP.ANC_FLT_DID n) (slot + c) == p.did &&
    (d.flag (SLP.ANC_FLT_SDID_ANY n) slot || d.getAct (SLP.ANC_FLT_SDID n) (slot + c) == p.sdid)

/-- The copies of the filters' DID and SDID that the input stage and the output stage of a slot compare with. -/
def fltIn : Nat := 0
def fltOut : Nat := 2048

/-- DID and SDID written since the last line take effect (Table 3.14). -/
def Dev.fltCommit (d : Dev) (slot c : Nat) : Dev :=
  (List.range 8).foldl (fun d n => d.setAct (0x00300120 + 4 * n) (slot + c) (d.reg (0x00300120 + 4 * n) slot)) d

/-- A deleted packet, as ST 291-1 marks it: DID 0x80, with the checksum that follows. -/
def deletePkt (p : List Samp) : List Samp := pktWords 0x80 (pktSdid p) (pktUdw p)

/-- The bytes of an insertion or capture record (Table 3.6). -/
def ancRecord (slot : Nat) (p : AncPkt) : List Byte :=
  let body := leBytes 2 (p.line % 2048 + 0x4000 * b2n p.hanc + 0x8000 * b2n p.chroma) ++ leBytes 2 slot ++
    [BitVec.ofNat 8 p.did, BitVec.ofNat 8 p.sdid, BitVec.ofNat 8 p.udw.length, BitVec.ofNat 8 (b2n p.csErr)] ++
    p.udw.flatMap (fun w => leBytes 2 w.toNat)
  body ++ List.replicate ((8 - body.length % 8) % 8) 0

/-- The packet that a record names (Table 3.6). -/
def ancRead (bs : List Byte) : AncPkt :=
  let w := leNat (bs.take 2)
  let n := (bs.getD 6 0).toNat
  ⟨w % 2048, w / 0x4000 % 2 == 1, w / 0x8000 == 1, (bs.getD 4 0).toNat, (bs.getD 5 0).toNat, false,
    (List.range n).map fun i => BitVec.ofNat 10 (leNat ((bs.drop (8 + 2 * i)).take 2))⟩

/-- The packets of a line by stream and blanking interval (true: horizontal), each interval with the words it has room for. -/
abbrev LinePkts := List ((Nat × Bool) × Nat × List (List Samp))

/-- The packets of a line received. -/
def LineIn.intervals (l : LineIn) : LinePkts :=
  l.streams.zipIdx.flatMap fun x =>
    let part (h : Bool) (ws : List Samp) : (Nat × Bool) × Nat × List (List Samp) := ((x.2, h), ws.length, (scanPkts 0 0 ws).map (·.2))
    part true (hancOf x.1) :: (if l.v then [part false (actOf x.1)] else [])

/-- A packet put behind the packets of an interval, where it fits. -/
def placePkt (k : Nat) (h : Bool) (p : List Samp) : LinePkts → Option LinePkts
  | [] => none
  | e :: r =>
    if e.1 = (k, h) then
      if (e.2.2.map (·.length)).sum + p.length ≤ e.2.1 then some ((e.1, e.2.1, e.2.2 ++ [p]) :: r) else none
    else (placePkt k h p r).map (e :: ·)

namespace Dev

/-- The audio groups an output embeds, from the active copy of OUT_AUD (R104, R106); 9 to 15 count as none. -/
def outGroups (d : Dev) (o : Nat) : List Nat :=
  [SLP.OUT_AUD_GRP_0, SLP.OUT_AUD_GRP_1, SLP.OUT_AUD_GRP_2, SLP.OUT_AUD_GRP_3].map fun f =>
    let g := d.getAct f o
    if g ≤ 8 then g else 0

/-- The audio group that IN_AUD selects for channels 4k to 4k + 3; 9 to 15 count as none (Table 3.10). -/
def inGroup (d : Dev) (slot k : Nat) : Nat :=
  let g := d.getAct ([SLP.IN_AUD_GRP_0, SLP.IN_AUD_GRP_1, SLP.IN_AUD_GRP_2, SLP.IN_AUD_GRP_3].getD k SLP.IN_AUD_GRP_0) slot
  if g ≤ 8 then g else 0

/-- The audio that an output embeds in the line that begins (R106): its groups with the matrix output channels of the 48 kHz ticks of
the line before. -/
def outAudio (d : Dev) (o code : Nat) : AudioLine :=
  lineAudio code ((d.outGroups o).zipIdx.filter (·.1 != 0)) (d.outOf o).due

/-- The audio of a generated line: silent groups 1 to 4 (R88), and in their place and beside them what AUD_EMB embeds (R106). -/
def genAudio (d : Dev) (o code : Nat) : AudioLine :=
  let a := d.outAudio o code
  if decide (o < 1536) && d.flag SLP.OUT_CFG_AUD_EMB o then
    let more := [1, 2, 3, 4].filter fun g => !a.groups.contains g
    ⟨a.groups ++ more, a.ticks⟩
  else silentAudio (a.ticks.map (·.1))

/-- Insertion (R108): each record at the head whose LINE is the current line is taken and placed behind the packets of its
interval, or discarded where it does not fit, its line lies outside the format, or it is longer than the queue's element. -/
def ancInsert (d : Dev) (o s line lines q : Nat) : List (List Byte) → LinePkts → LinePkts × Dev
  | [], acc => (acc, d)
  | r :: rs, acc =>
    let p := ancRead r
    let outside := p.line = 0 || p.line > lines
    let tooLong := (ancRecord 0 p).length > 2 ^ d.get QM.Q_CFG_ESZ q
    if p.line = line || outside || tooLong then
      let c := d.qConsume q 8
      if c.1 then
        let k := ((List.range s).find? fun k => mainStream s k && isY s k != p.chroma).getD 0
        match placePkt k p.hanc (pktWords p.did p.sdid p.udw) acc with
        | some acc' =>
          if outside || tooLong then
            ancInsert ((c.2.count SLP.CNT_ANC_DROP_COUNT 1 o).raise SLP.EVT_STAT_INS_DISCARD o) o s line lines q rs acc
          else ancInsert c.2 o s line lines q rs acc'
        | none => ancInsert ((c.2.count SLP.CNT_ANC_DROP_COUNT 1 o).raise SLP.EVT_STAT_INS_DISCARD o) o s line lines q rs acc
      else (acc, c.2)
    else (acc, d)

/-- The rebuild of one line's packets (R106, R108): deletion, audio, insertion, in that order. -/
def ancRebuild (d : Dev) (o s line af : Nat) (a : AudioLine) (ins : List (List Byte)) (p0 : LinePkts) : LinePkts × Dev :=
  let rbld := d.flag SLP.OUT_CFG_ANC_RBLD o
  let emb := d.flag SLP.OUT_CFG_AUD_EMB o
  let f := (fmtOf (d.outFmt o)).getD ⟨2, 0, 0, 1, 1, false⟩
  let del (p : List Samp) : List Samp :=
    if (List.range 8).any fun n => d.ancMatch o fltOut n (ancOf line true false p) && d.flag (SLP.ANC_FLT_DEL n) o then deletePkt p else p
  let p1 := if rbld then p0.map fun e => (e.1, e.2.1, e.2.2.map del) else p0
  let keep (p : List Samp) : Bool := let g := audioGroup (pktDid p); g = 0 || !a.groups.contains g
  let p2 := if emb then p1.map fun e => (e.1, e.2.1, e.2.2.filter keep) else p1
  let put (k : Nat) (ps : List (List Samp)) (l : LinePkts) : LinePkts :=
    ps.foldl (fun l p => (placePkt k true p l).getD l) l
  let p3 := if emb then (List.range s).foldl (fun l k =>
      if !mainStream s k then l
      else if isY s k then put k (if f.controlLine line then a.groups.map fun g => controlPkt g af else []) l
      else put k (a.data (d.outOf o).gen.dbn) l) p2
    else p2
  if rbld && d.flag SLP.ANC_Q_INS_EN o then d.ancInsert o s line f.lines (d.get SLP.ANC_Q_INS_Q o) ins p3 else (p3, d)

/-- The audio frame number (R280): at a fractional rate k mod 5 + 1 for frame k of the cadence, counted from the epoch, and otherwise 1;
`t` is the frame start in cadence time. -/
def audioNum (d : Dev) (code c : Nat) (t : Int) : Nat :=
  let r := d.cadRate c
  let k := firstFrame r (d.cadOfs c) 0 (t - periodTu r / 2)
  if ((fmtOf code).map (·.den)).getD 1 = 1 then 1 else (k % 5).toNat + 1

/-- The audio frame number of an output. -/
def audioFrame (d : Dev) (o : Nat) : Nat := d.audioNum (d.outFmt o) (d.outCad o) (d.outOf o).frameT

/-- A line of an output with its packets rebuilt, `s` streams: the streams with the intervals' new packets. The line CRC of the next
line follows the active part where that has changed. -/
def lineRebuild (d : Dev) (o : Nat) (l : LineIn) (a : AudioLine) (ins : List (List Byte)) : List (List Samp) × Dev :=
  let s := l.streams.length
  let r := d.ancRebuild o s l.num (d.audioFrame o) a ins l.intervals
  let part (k : Nat) (h : Bool) (old : List Samp) : List Samp :=
    match r.1.find? fun e => e.1 = (k, h) with
    | none => old
    | some e => if e.2.2 = (scanPkts 0 0 old).map (·.2) then old else (fillPkts (blank s k) old.length e.2.2).1
  let crcs := (d.outOf o).gen.crcs
  let sts := l.streams.zipIdx.map fun x =>
    let n := x.1.length
    let head := x.1.take 6
    let crc := match crcs[x.2]? with
      | some c => crcWords (lineCrc c head)
      | none => (x.1.drop 6).take 2
    head ++ crc ++ part x.2 true (hancOf x.1) ++ (x.1.drop (n - activeOf n - 4)).take 4 ++ part x.2 false (actOf x.1)
  let changed := sts.map actOf != l.streams.map actOf
  let x := r.2.outOf o
  let pkts := r.1.flatMap fun e => e.2.2.map (ancOf l.num e.1.2 (!isY s e.1.1))
  (sts, r.2.setOut o { x with
    anc := pkts
    gen := { x.gen with crcs := if changed then sts.map fun st => lineCrc 0 (actOf st) else [],
                        dbn := if a.ticks.isEmpty then x.gen.dbn else x.gen.dbn % 255 + 1 } })

/-- The complete line that waits on the Processed Path is rebuilt and leaves (R106, R108, R124); the words from the next line start
on wait. -/
def procLine (d : Dev) (o : Nat) (ins : List (List Byte)) : Dev :=
  let x := d.outOf o
  let ss := ifWords x.proc
  match findEav (fun i => decide (x.procPos < i)) 0 ss with
  | none => d
  | some (i, s, _, _) =>
    let old := (ss.take i).drop x.procPos
    if (eavAt old).isNone then
      (d.setOut o { x with proc := (dropTo x.proc i).1, procPos := (dropTo x.proc i).2 }).outPush o (takeTo x.proc i)
    else
      let d := d.fltCommit o fltOut
      let r := d.lineRebuild o (lineIn s old) (d.outAudio o (d.outFmt o)) ins
      let ws := refill x.proc (ss.take x.procPos ++ interleave r.1 ++ ss.drop i)
      let d := r.2
      (d.setOut o { d.outOf o with proc := (dropTo ws i).1, procPos := (dropTo ws i).2 }).outPush o (takeTo ws i)

/-- The counter's next line begins where the line before ends, or where its start has been placed (R89). -/
def counterLine (d : Dev) (o : Nat) : Dev :=
  match fmtOf (d.outFmt o) with
  | none => d
  | some f =>
    let x := d.outOf o
    if x.run then
      d.setOut o { x with line := if x.line ≥ f.lines then 1 else x.line + 1,
                          lineT := if x.placed then x.lineT else x.lineT + x.span, placed := false }
    else d

/-- The counter runs over the line that has begun, one interface word for each V = 1 position of its accumulator (R85, R89). -/
def counterSpan (d : Dev) (o : Nat) : Dev :=
  match fmtOf (d.outFmt o) with
  | none => d
  | some f =>
    let x := d.outOf o
    let c := accConst (d.outFmt o)
    let n := accRun c.1 c.2 x.gen.acc ((x.part + f.wpl) / 3)
    d.setOut o { x with span := n.1, part := (x.part + f.wpl) % 3, gen := { x.gen with acc := n.2 } }

/-- The generator emits the line of the counter that begins (R88, R92), processed where the output processes its words (R124). -/
def genLine (d : Dev) (o : Nat) (ins : List (List Byte)) : Dev :=
  match fmtOf (d.outFmt o) with
  | none => d
  | some f =>
    let x := d.outOf o
    let code := d.outFmt o
    let a := d.genAudio o code
    if decide (o < 1536) && d.flag SLP.OUT_CFG_ANC_RBLD o then
      let d := d.fltCommit o fltOut
      let r0 := x.gen.black code f x.line (d.audioFrame o) a
      let l := lineIn f.s ((ifWords r0.1 ++ r0.2.rest).drop x.gen.rest.length)
      let r := d.lineRebuild o l a ins
      let c := accConst code
      let w := packWords c.1 c.2 x.gen.acc x.gen.fix true (x.gen.rest ++ interleave r.1)
      let y := r.2.outOf o
      let g : Gen := { y.gen with acc := w.2.1, rest := w.2.2.1, fix := w.2.2.2, crcs := r.1.map fun st => lineCrc 0 (actOf st) }
      (r.2.setOut o { y with span := w.1.length, part := w.2.2.1.length, gen := g }).outPush o w.1
    else
      let r := x.gen.black code f x.line (d.audioFrame o) a
      (d.setOut o { x with span := r.1.length, part := r.2.rest.length, gen := r.2, anc := [] }).outPush o r.1

end Dev

/-! ## Meanings -/

/-- COUNTER_START (R90): the cadence has delivered a frame start since the output started. -/
def execCounterStart (o : Slot) (s : State) := s.go fun d => d.counterStart o

/-- COUNTER_LINE_START (R92, R108, R120): the counter's next line begins; the generator begins there where it is called for, and emits
the line. -/
def execCounterLineStart (o : Slot) (ins : List (List Byte)) (s : State) := s.go fun d =>
  let d := if (d.outOf o).placed then d else d.shiftTicks o
  let d := (d.counterLine o).genAtLine o
  if d.outRuns o && (d.outOf o).run then (if d.flag XP.SRC_STAT_GEN o then d.genLine o ins else d.counterSpan o) else d

/-- COUNTER_FRAME_START (R125): a commit point. A generator whose frame start deviates from its target, the cadence's frame start with
the offset kept, by more than one slot word makes one correction (R86, R93). -/
def execCounterFrameStart (o : Slot) (s : State) := s.go fun d =>
  let x := d.outOf o
  if x.run then
    let t := d.cadNow
    let word : Int := (tuPerNs * 5 / 2 : Nat)
    let dev := t - (d.nearestStart (d.outCad o) (t - x.genOfs) + x.genOfs)
    let fix := if !d.flag XP.SRC_STAT_GEN o then x.gen.fix
      else if dev > word then some true else if dev < -word then some false else x.gen.fix
    ((d.setOut o { x with gen := { x.gen with fix := fix } }).counterFrame o t).outCommit o
  else d

/-- TRIGGER_CHANGE (R120). -/
def execTriggerChange (o : Slot) (s : State) := s.go fun d => d.evalTrig o

/-- ROUTE_WRITE (R126), at the output the master selects: while the output is stopped the written source is S(o), with the T and the
flags that follow it; while it runs a change is ignored, with CLASS_VIOL (R8). -/
def execRouteWrite (m : Master) (v : Word) (s : State) := s.go fun d =>
  match d.selOf m XP.OUT_SEL_SEL 1664 with
  | none => d
  | some o =>
    let src := v.toNat % 2048
    if d.outRuns o then
      if d.get XP.ROUTE_SRC o = src then d else (d.raise XP.BLK_EVT_CLASS_VIOL).busViol m.code 0x00200100
    else ((d.set XP.ROUTE_SRC src o).setSrc o src).evalTrig o

/-- XP_CNT_CLR (Table 4.13). -/
def execXpCntClr (o : Slot) (s : State) := s.go fun d => d.clear [XP.CNT_SUB_COUNT] o

end Sys2Proof.Machine
end

