-- ==== Sys2Proof/Machine/Amx.lean ====
section
/-!
DEFINITION. Sys2Proof/Machine/Amx.lean: the Sounding matrix (chapter 10): multipliers and fade weights exactly, the sum,
source changes, delays, levels, commits, start and stop, and audio follow.
-/

namespace Sys2Proof.Machine

/-! ## Exact arithmetic -/

/-- Is 2m − 1 at most 2^25 × 10^(g/320)? Both sides raised to the power 320. -/
def gainAtLeast (g : Int) (m : Nat) : Bool :=
  decide ((2 * m - 1) ^ 320 * 10 ^ (Neg.neg g).toNat ≤ 2 ^ 8000 * 10 ^ g.toNat)

/-- The largest m below 2^n above a start that `gainAtLeast` admits, bit by bit. -/
def gainSearch (g : Int) : Nat → Nat → Nat
  | 0, m => m
  | n + 1, m => gainSearch g n (if gainAtLeast g (m + 2 ^ n) then m + 2 ^ n else m)

/-- The multiplier of a gain: round(2^24 × 10^(GAIN / 320)), below −1,440 mute and above 192 as 192 (R282). -/
def gainMult (g : Int) : Nat :=
  if g < Neg.neg 1440 then 0 else if g = 0 then 2 ^ 24 else gainSearch (if g > 192 then 192 else g) 27 0

/-- π × 2^80, rounded. -/
def piFix : Nat := 3797952473636338580787994

/-- The terms of the sine's series, scaled by 2^80: the angle's square `x2`, the term before, its index and how many remain. -/
def sinTerms (x2 : Int) (term : Int) (k : Nat) : Nat → Int
  | 0 => 0
  | n + 1 => term + sinTerms x2 (Neg.neg (term * x2 / 2 ^ 80) / ((2 * k + 2) * (2 * k + 3) : Nat)) (k + 1) n

/-- Q(i) = round(65,536 × sin(π × i / 2,048)) (R287), from the series at 80 fractional bits. -/
def fadeQ (i : Nat) : Int :=
  let x : Int := (piFix * i / 2048 : Nat)
  (sinTerms (x * x / 2 ^ 80) x 0 16 + 2 ^ 63) / 2 ^ 64

/-- The weights w_in and w_out of a fade (R287). -/
def fadeWeights (f : AmxFade) : Int × Int :=
  if f.power then
    let i := f.t * 1024 / f.n
    (fadeQ i, fadeQ (1024 - i))
  else
    let w : Int := (f.t * 65536 / f.n : Nat)
    (w, 65536 - w)

/-- The multiplier in force (R283). -/
def AmxIn.mult (i : AmxIn) : Nat :=
  if i.rt ≥ 64 then i.mb else (i.ma + ((i.mb : Int) - i.ma) * i.rt / 64).toNat

/-- The pool blocks of a delay (R290). -/
def dlyBlocks (n : Nat) : Nat := if n = 0 then 0 else (n + 64 + 4095) / 4096

/-- The sample of a channel in a list; 0 where it is not listed (R277). -/
def sampleAt (xs : Map Int) (ch : Nat) : Int := mapGet xs (ch, 0) 0

/-- A source's sample; silence is 0 (R286). -/
def sourceAt (xs : Map Int) : Option Nat → Int
  | none => 0
  | some c => sampleAt xs c

/-- The saturation of R284. -/
def amxClamp (v : Int) : Int := satSigned 24 v

namespace Dev

def amxOut (d : Dev) (ch : Nat) : AmxOut := mapGet d.amx (ch, 0) AmxOut.init
def setAmx (d : Dev) (ch : Nat) (a : AmxOut) : Dev := { d with amx := mapPut d.amx (ch, 0) AmxOut.init a }

/-- A field of an active copy set to a number. -/
def setActF (d : Dev) (f : Fld) (v ch : Nat) : Dev := d.setAct f.off ch (putBits (d.actReg f.off ch) f.lo f.w v)

/-- The channels whose configuration or state is not the reset one; every other channel's output is 0 (R284). -/
def amxChans (d : Dev) : List Nat :=
  let ks (m : List (Key × Word)) : List Nat :=
    (m.filter fun e => decide (0x00900100 ≤ e.1.1) && decide (e.1.1 ≤ 0x00900110)).map (·.1.2)
  (ks d.regs ++ ks d.act ++ d.amx.map (·.1.1)).eraseDups

/-- The multiplier that the shadow or the active copy of an input calls for (R282). -/
def amxMult (d : Dev) (act : Bool) (ch k : Nat) : Nat :=
  let g (f : Fld) : Nat := if act then d.getAct f ch else d.get f ch
  if g (AMX.SRC_MUTE k) != 0 then 0 else gainMult (toSigned 12 (g (AMX.SRC_GAIN k)))

/-- The source of an input: none while it is disabled. -/
def amxSrc (d : Dev) (act : Bool) (ch k : Nat) : Option Nat :=
  let g (f : Fld) : Nat := if act then d.getAct f ch else d.get f ch
  if g (AMX.SRC_EN k) = 0 then none else some (g (AMX.SRC_SRC k))

/-- Is a channel a summing channel (R285)? -/
def amxSums (d : Dev) (act : Bool) (ch : Nat) : Bool := [1, 2, 3].any fun k => (d.amxSrc act ch k).isSome

/-! ## Checks (R294) -/

/-- The lowest of a list of channels that meets a condition. -/
def lowestChan (cs : List Nat) (p : Nat → Bool) : Option Nat := (cs.filter p).min?

/-- The pool blocks that the shadow set needs beyond those held (R294). -/
def amxMore (d : Dev) : Nat :=
  (d.amxChans.map fun c => dlyBlocks (d.get AMX.OUT_CFG_DELAY c) - d.get AMX.OUT_STAT_ADP_BLK c).sum

/-- The first check that fails, with its channel; code 1 where all pass (R294). -/
def amxCheck (d : Dev) : Nat × Nat :=
  let cs := d.amxChans
  match lowestChan cs fun c => [0, 1, 2, 3].any fun k => d.flag (AMX.SRC_EN k) c && decide (27647 < d.get (AMX.SRC_SRC k) c) with
  | some c => (2, c)
  | none =>
    match lowestChan cs fun c => decide (4800 < d.get AMX.OUT_CFG_XF_LEN c) with
    | some c => (5, c)
    | none =>
      if 4096 < (cs.filter (d.amxSums false)).length then (3, 0)
      else if d.get FS.ADP_STAT_BLK_FREE < d.amxMore then (4, 0)
      else (1, 0)

/-! ## Source changes, commits, start and stop -/

/-- The pool blocks of a channel set, in the channel's, the matrix's and the pool's counts (R236, R290). -/
def amxBlocks (d : Dev) (ch n : Nat) : Dev :=
  let held := d.get AMX.OUT_STAT_ADP_BLK ch
  let d := (d.poolSet (0, ch) n).set FS.ADP_STAT_BLK_FREE (d.get FS.ADP_STAT_BLK_FREE + held - n)
  (d.set AMX.USE_STAT_ADP_USED (d.get AMX.USE_STAT_ADP_USED + n - held)).set AMX.OUT_STAT_ADP_BLK n ch

/-- FADING, SUMMING and DLY_FADE of a channel follow its state (Table 10.10). -/
def amxStat (d : Dev) (ch : Nat) : Dev :=
  let a := d.amxOut ch
  let fading := (a.ins.zipIdx.map fun x => if x.1.fade.isSome then 2 ^ x.2 else 0).sum
  ((d.set AMX.OUT_STAT_FADING fading ch).put AMX.OUT_STAT_SUMMING (d.flag AMX.BLK_STAT_RUN && d.amxSums true ch) ch).put
    AMX.OUT_STAT_DLY_FADE a.dlyFade.isSome ch

/-- SUM_USED follows the active set (R285). -/
def amxSumUsed (d : Dev) : Dev :=
  d.set AMX.USE_STAT_SUM_USED (if d.flag AMX.BLK_STAT_RUN then (d.amxChans.filter (d.amxSums true)).length else 0)

/-- The source of an input changes (R286 to R288): a fade begins, or the running one restarts with its new source as the old
one. `old` is the source before, and the registers hold the new one. -/
def amxFade (d : Dev) (ch k : Nat) (old : Option Nat) : Dev :=
  let new := d.amxSrc true ch k
  if old = new then d
  else
    let a := d.amxOut ch
    let i := a.ins.getD k ⟨2 ^ 24, 2 ^ 24, 64, none⟩
    let from' := match i.fade with | none => old | some f => f.new
    let n := d.getAct AMX.OUT_CFG_XF_LEN ch
    let f : Option AmxFade := if n = 0 then none else some ⟨from', new, 1, n, d.getAct AMX.OUT_CFG_XF_LAW ch != 0⟩
    (d.raiseIf i.fade.isSome AMX.BLK_EVT_XF_RESTART).setAmx ch { a with ins := a.ins.set k { i with fade := f } }

/-- A change of a gain or a mute starts a ramp from the multiplier in force (R283). -/
def amxRamp (d : Dev) (ch k : Nat) (changed : Bool) : Dev :=
  if changed then
    let a := d.amxOut ch
    let i := a.ins.getD k ⟨2 ^ 24, 2 ^ 24, 64, none⟩
    d.setAmx ch { a with ins := a.ins.set k { i with ma := i.mult, mb := d.amxMult true ch k, rt := 0 } }
  else d

/-- A change of DELAY at a commit (R290, R291): a line that starts takes its delay at once; on a running line the output
falls first. Blocks needed in addition are granted now. -/
def amxDelay (d : Dev) (ch : Nat) : Dev :=
  let a := d.amxOut ch
  let n := d.getAct AMX.OUT_CFG_DELAY ch
  let target := match a.dlyFade with | none => a.dly | some f => f.2
  if n = target then d
  else
    let d := d.amxBlocks ch (max (dlyBlocks n) (d.get AMX.OUT_STAT_ADP_BLK ch))
    if a.dly = 0 && a.dlyFade.isNone then d.setAmx ch { a with dly := n }
    else
      let t := match a.dlyFade with | none => 1 | some f => if f.1 ≤ 32 then f.1 else 1
      d.setAmx ch { a with dlyFade := some (t, n) }

/-- The shadow set of a channel becomes active while the matrix runs (R293). -/
def amxApply (d : Dev) (ch : Nat) : Dev :=
  let olds := [0, 1, 2, 3].map fun k => (d.amxSrc true ch k, d.getAct (AMX.SRC_GAIN k) ch, d.getAct (AMX.SRC_MUTE k) ch)
  let d := [0, 1, 2, 3, 4].foldl (fun d k => d.commit (0x00900100 + 4 * k) ch) d
  let d := olds.zipIdx.foldl (fun d x =>
    let k := x.2
    (d.amxRamp ch k (x.1.2.1 != d.getAct (AMX.SRC_GAIN k) ch || x.1.2.2 != d.getAct (AMX.SRC_MUTE k) ch)).amxFade ch k x.1.1) d
  (d.amxDelay ch).amxStat ch

/-- Has the instant come from which a commit point or a start of the matrix is admitted (R293, R295)? -/
def amxReady (d : Dev) : Bool := (mapGet d.commitAt (1, 0) none).all fun t => decide (t ≤ d.cadNow)

/-- A commit point of the matrix (R293, R294). -/
def amxCommitPoint (d : Dev) : Dev :=
  if d.flag AMX.BLK_STAT_ARMED && d.amxReady then
    let r := d.amxCheck
    let d := ((d.put AMX.BLK_STAT_ARMED false).set AMX.BLK_STAT_RESULT r.1).set AMX.BLK_STAT_FAIL_CH r.2
    if r.1 = 1 then (d.amxChans.foldl amxApply d).amxSumUsed.raise AMX.BLK_EVT_COMMIT_OK
    else (d.raise AMX.BLK_EVT_COMMIT_REJ).count AMX.CNT_REJ_COUNT
  else d

/-- A channel when the matrix starts: its multipliers, delay and blocks as configured, with no fade and no ramp (R295). -/
def amxStartChan (d : Dev) (ch : Nat) : Dev :=
  let ins := [0, 1, 2, 3].map fun k => (⟨d.amxMult true ch k, d.amxMult true ch k, 64, none⟩ : AmxIn)
  let n := d.getAct AMX.OUT_CFG_DELAY ch
  let d := d.setAmx ch { AmxOut.init with ins := ins, dly := n }
  (d.amxBlocks ch (dlyBlocks n)).amxStat ch

/-- The matrix starts (R295). -/
def amxStart (d : Dev) : Dev :=
  let d := { d.put AMX.BLK_STAT_RUN true with commitAt := mapPut d.commitAt (1, 0) none none }
  let d := d.amxChans.foldl (fun d ch => [0, 1, 2, 3, 4].foldl (fun d k => d.commit (0x00900100 + 4 * k) ch) d) d
  (d.amxChans.foldl amxStartChan d).amxSumUsed

/-- The matrix stops (R295, Table 10.4). -/
def amxStop (d : Dev) : Dev :=
  let d := (d.put AMX.BLK_STAT_RUN false).put AMX.BLK_STAT_ARMED false
  let cs := d.amxChans
  let d := { cs.foldl (fun d ch => d.amxBlocks ch 0) d with amx := [], commitAt := mapPut d.commitAt (1, 0) none none }
  (cs.foldl amxStat d).amxSumUsed

/-- The earliest instant of a commit point or a start that a write calls for now: 2 µs on (R293, R295). -/
def amxDue (d : Dev) : Dev := { d with commitAt := mapPut d.commitAt (1, 0) none (some (d.cadNow + nsTu 2000)) }

/-- A write of BLK_CTL.EN (R295): a stopped matrix is checked, and waits for its start where the checks pass; the start, and the stop of a
running one, come at a tick. -/
def amxEnable (d : Dev) (en : Bool) : Dev :=
  let d := d.put AMX.BLK_CTL_EN en
  if d.flag AMX.BLK_STAT_RUN then d
  else if en then
    let r := d.amxCheck
    let d := (d.set AMX.BLK_STAT_RESULT r.1).set AMX.BLK_STAT_FAIL_CH r.2
    if r.1 = 1 then d.amxDue else (d.raise AMX.BLK_EVT_COMMIT_REJ).count AMX.CNT_REJ_COUNT
  else { d with commitAt := mapPut d.commitAt (1, 0) none none }

/-- The start or the stop of the matrix at a tick (R295). -/
def amxTurn (d : Dev) : Dev :=
  let en := d.flag AMX.BLK_CTL_EN
  if d.flag AMX.BLK_STAT_RUN then (if en then d else d.amxStop)
  else if en && (mapGet d.commitAt (1, 0) none).isSome && d.amxReady then d.amxStart
  else d

/-- Audio follow on an output's channels (R289): SRC_0 and EN_0 are written in the shadow and the active copy. Where the take did not
change the output's source, no fade follows (R149). -/
def amxFollow (d : Dev) (o s : Nat) (fade : Bool) : Dev :=
  (List.range 16).foldl (fun d c =>
    let ch := o * 16 + c
    let old := d.amxSrc true ch 0
    let d :=
      if s < 1536 then
        let v := s * 16 + c
        (((d.set (AMX.SRC_SRC 0) v ch).set (AMX.SRC_EN 0) 1 ch).setActF (AMX.SRC_SRC 0) v ch).setActF (AMX.SRC_EN 0) 1 ch
      else (d.set (AMX.SRC_EN 0) 0 ch).setActF (AMX.SRC_EN 0) 0 ch
    if !d.flag AMX.BLK_STAT_RUN then d
    else if fade then (d.amxFade ch 0 old).amxStat ch
    else if d.amxSrc true ch 0 = old then d
    else
      let a := d.amxOut ch
      (d.setAmx ch { a with ins := a.ins.modify 0 fun i => { i with fade := none } }).amxStat ch) d

/-! ## A tick -/

/-- What an input of an output channel adds to the sum (R284). -/
def amxInput (d : Dev) (xs : Map Int) (ch k : Nat) (i : AmxIn) : Int :=
  match i.fade with
  | some f =>
    let w := fadeWeights f
    i.mult * (sourceAt xs f.old * w.2 + sourceAt xs f.new * w.1) / 65536
  | none => i.mult * sourceAt xs (d.amxSrc true ch k)

/-- The input after a tick: the ramp and the fade advance; a fade ends after t = N (R283, R287). -/
def amxNext (i : AmxIn) : AmxIn :=
  let fade := i.fade.bind fun f => if f.t ≥ f.n then none else some { f with t := f.t + 1 }
  { i with rt := min 64 (i.rt + 1), fade := fade }

/-- Does the store address of a delay line's sample lie on a granule with an uncorrectable error (R239)? -/
def poolBad (d : Dev) (key : Key) (t : Nat) : Bool := (d.poolAddr key t).any fun a => d.ueGran.contains (a / 32)

/-- The value that leaves an output channel at tick n: the sum computed DELAY + 1 ticks ago (R281), scaled while its delay
changes (R291); 0 where its pool granule is bad (R239). A sum from before the delay line started is a free value (log 2). -/
def amxLeave (d : Dev) (n ch : Nat) : Int × Dev :=
  let a := d.amxOut ch
  let bad := d.poolBad (0, ch) (n - 1 - a.dly)
  let v : Int × Dev :=
    match a.hist[a.dly]? with
    | some v => (v, d)
    | none => (toSigned 24 d.draw.1, d.draw.2)
  let v : Int × Dev := if bad && decide (0 < a.dly) then (0, d) else v
  match a.dlyFade with
  | none => v
  | some f => (Int.tdiv (v.1 * (if f.1 ≤ 32 then 32 - f.1 else f.1 - 32 : Nat)) 32, v.2)

/-- A delay change after a tick: at t = 32 the read point moves and the blocks no longer needed return; at 64 it ends
(R291). -/
def amxDelayStep (d : Dev) (ch : Nat) : Dev :=
  let a := d.amxOut ch
  match a.dlyFade with
  | none => d
  | some f =>
    let d := d.setAmx ch { a with dly := (if f.1 = 32 then f.2 else a.dly), dlyFade := (if f.1 ≥ 64 then none else some (f.1 + 1, f.2)) }
    if f.1 = 32 then d.amxBlocks ch (dlyBlocks f.2) else d

/-- One output channel at tick n (R281, R284, R291, R292). -/
def amxChan (d : Dev) (n : Nat) (xs : Map Int) (ch : Nat) : Dev :=
  let v := d.amxLeave n ch
  let d := v.2
  let a := d.amxOut ch
  let sum := (a.ins.zipIdx.map fun x => d.amxInput xs ch x.2 x.1).sum
  let raw := (sum + 2 ^ 23) / 2 ^ 24
  let out := amxClamp raw
  let clip := out != raw
  let keep := max 1 (d.get AMX.OUT_STAT_ADP_BLK ch * 4096)
  let hist := (out :: a.hist).take keep
  let a' := { a with ins := a.ins.map amxNext, hist := hist, out := v.1, peak := max a.peak v.1.natAbs, clip := a.clip || clip }
  let d := (d.setAmx ch a').when clip fun d => ((d.count AMX.CNT_CLIP_COUNT).raise AMX.BLK_EVT_CLIP).pulseFault (devFault 172)
  (d.amxDelayStep ch).amxStat ch

/-- Frame starts of LVL_CAD up to a tick's instant, in cadence time (R279, R280). -/
def lvlFrames (d : Dev) (n : Int) : Int :=
  let c := d.get AMX.BLK_CTL_LVL_CAD
  firstFrame (d.cadRate c) (d.cadOfs c) 0 (n * (140625000 * 2 ^ 40) + 1)

/-- A level frame ends (R292). -/
def lvlFrame (d : Dev) : Dev :=
  let ins := (d.lvlIn.map (·.1.1) ++ ((d.regs.filter fun e => e.1.1 == 0x00900118).map (·.1.2))).eraseDups
  let d := ins.foldl (fun d ch => d.set AMX.LVL_IN_IN_PEAK (mapGet d.lvlIn (ch, 0) 0) ch) d
  let d := { d with lvlIn := [] }
  d.amxChans.foldl (fun d ch =>
    let a := d.amxOut ch
    let d := (d.set AMX.LVL_OUT_OUT_PEAK a.peak ch).put AMX.OUT_STAT_CLIPPED a.clip ch
    d.setAmx ch { a with peak := 0, clip := false }) d

/-- The matrix at tick n over its input samples (R279 to R292). -/
def amxTick (d : Dev) (n : Nat) (xs : Map Int) : Dev :=
  let d := (d.amxTurn.set AMX.TICK_LO_TICK_L n).set AMX.TICK_HI_TICK_H (n / 2 ^ 32)
  if d.flag AMX.BLK_STAT_RUN then
    let d := d.logAdd 1742 1
    let d := if d.lvlFrames n = d.lvlFrames (n - 1) then d else d.lvlFrame
    let d := { d with lvlIn := xs.foldl (fun (m : Map Nat) (x : Key × Int) => mapPut m x.1 0 (max (mapGet m x.1 0) x.2.natAbs)) d.lvlIn }
    d.amxChans.foldl (fun d ch => d.amxChan n xs ch) d
  else d

/-- The value that leaves an output channel; 0 while the matrix is stopped (R295). -/
def amxValue (d : Dev) (ch : Nat) : Int := (d.amxOut ch).out

end Dev

/-! ## Meanings -/

/-- AMX_COMMIT (R293). -/
def execAmxCommit (s : State) := s.go fun d =>
  d.when (d.flag AMX.BLK_STAT_RUN && !d.flag AMX.BLK_STAT_ARMED) fun d => (d.put AMX.BLK_STAT_ARMED true).amxDue

/-- AMX_COMMIT_POINT (R293). -/
def execAmxCommitPoint (s : State) := s.go fun d => d.amxCommitPoint

/-- MATRIX_ENABLE (R295). -/
def execMatrixEnable (en : Bool) (s : State) := s.go fun d => d.amxEnable en

/-- AMX_CNT_CLR (Table 10.6). -/
def execAmxCntClr (s : State) := s.go fun d => d.clear [AMX.CNT_CLIP_COUNT, AMX.CNT_REJ_COUNT]

/-- AUDIO_FOLLOW (R289): the source that a take gave the output's audio is applied at this tick. -/
def execAudioFollow (o : Slot) (s : State) := s.go fun d =>
  match mapGet d.follow (o.val, 0) none with
  | none => d
  | some t => { d with follow := mapPut d.follow (o.val, 0) none none }.amxFollow o t.1 t.2

end Sys2Proof.Machine
end

