-- ==== Sys2Proof/Machine/Compose.lean ====
section
/-!
DEFINITION. Sys2Proof/Machine/Compose.lean: the arithmetic of a Plotter (R248 to R266): scaling, keys, blending, surfaces,
meters and patterns, exactly as the rules write it.
-/

namespace Sys2Proof.Machine

/-- A plane of samples by pixel and line. -/
abbrev Plane := Nat → Nat → Int

/-- The planes of a picture in 4:4:4:4. -/
structure Planes where
  y : Plane
  cb : Plane
  cr : Plane
  a : Plane

/-- A pixel of the composite in 4:4:4 (R259). -/
structure Pix where
  y : Int
  cb : Int
  cr : Int
  deriving DecidableEq, Repr

/-- A layer's configuration (Tables 9.13 and 9.14), with its pre-decimation factor (R255). -/
structure LayCfg where
  kind : Nat
  absShow : Bool
  feed : Nat
  out : Nat
  sync : Nat
  pattern : Nat
  premul : Bool
  srcX : Nat
  srcY : Nat
  srcW : Nat
  srcH : Nat
  dstX : Int
  dstY : Int
  dstW : Nat
  dstH : Nat
  opacity : Nat
  keyMode : Nat
  keyFeed : Nat
  keyInv : Bool
  keyClip : Nat
  keyGain : Nat
  colour : Pix
  addr : Nat
  otc : Bool
  width : Nat
  height : Nat
  pitch : Nat
  nbar : Nat
  gap : Nat
  flr : Nat
  amber : Nat
  red : Nat
  dec : Nat
  deriving DecidableEq, Repr

/-- Clamp to 10 bits. -/
def clamp10 (v : Int) : Int := if v < 0 then 0 else if v > 1023 then 1023 else v

/-- Clamp an index to a range. -/
def clampIdx (lo hi i : Int) : Int := if i < lo then lo else if i > hi then hi else i

/-- The sum of `n` taps from an index on. -/
def tapSum (c : Nat → Int) (s : Int → Int) (i : Int) : Nat → Int
  | 0 => 0
  | n + 1 => tapSum c s i n + c n * s (i + n)

/-- The horizontal stage (R251). -/
def hScale (ch : Nat → Nat → Int) (x0 w dstW : Nat) (s : Nat → Int) (j : Nat) : Int :=
  let dh : Nat := w * 65536 / dstW
  let x : Int := (x0 * 65536 + j * dh : Nat) + ((dh : Int) - 65536) / 2
  let ph : Nat := (x % 65536 / 1024).toNat
  let get (i : Int) : Int := s (clampIdx x0 (x0 + w - 1) i).toNat
  clamp10 ((tapSum (ch ph) get (x / 65536 - 3) 8 + 256) / 512)

/-- H' of R252. -/
def effLines (c : LayCfg) : Nat := (c.srcH + c.dec - 1) / c.dec

/-- m of R252. -/
def boxLen (c : LayCfg) : Nat := (effLines c + c.dstH - 1) / c.dstH

/-- T_v of R252. -/
def vTaps (c : LayCfg) : Nat := if effLines c = c.dstH then 0 else boxLen c + 3

/-- Both stages for one plane at a destination pixel (R251, R252). -/
def scaleAt (ch cv : Nat → Nat → Int) (c : LayCfg) (p : Plane) (j i : Nat) : Int :=
  let h := effLines c
  let line (n : Int) : Int :=
    hScale ch c.srcX c.srcW c.dstW (fun x => p x (c.srcY + (clampIdx 0 (h - 1) n).toNat * c.dec)) j
  if h = c.dstH then line i
  else
    let m := boxLen c
    let box (n : Int) : Int := (tapSum (fun _ => 1) line (n - ((m - 1) / 2 : Nat)) m + (m / 2 : Nat)) / m
    let dv : Nat := h * 65536 / c.dstH
    let y : Int := (i * dv : Nat) + ((dv : Int) - 65536) / 2
    clamp10 ((tapSum (cv (y % 65536 / 1024).toNat) box (y / 65536 - 1) 4 + 256) / 512)

/-- A 4:2:2 source expanded to 4:4:4 over whole lines of `w` pixels (R254); `s i y` is sample i of line y in the order
Cb, Y, Cr, Y. -/
def expand422 (w : Nat) (s : Nat → Nat → Int) : Planes :=
  let c (o x y : Nat) : Int :=
    let q := x / 2
    if x % 2 = 0 || x + 1 ≥ w then s (4 * q + o) y else (s (4 * q + o) y + s (4 * q + 4 + o) y + 1) / 2
  ⟨fun x y => s (2 * x + 1) y, c 0, c 2, fun _ _ => 1023⟩

/-- The effective opacity g of a layer at a pixel, from its key (R256). -/
def keyed (c : LayCfg) (k : Int) : Int :=
  if c.keyMode = 1 || c.keyMode = 2 then
    let k := if c.keyInv then 1023 - k else k
    let a := clamp10 (((k - c.keyClip) * c.keyGain + 128) / 256)
    (a * c.opacity + 511) / 1023
  else c.opacity

/-- One component blended with straight alpha (R257). -/
def blend (f a b : Int) : Int := clamp10 ((f * a + b * (1023 - a) + 511) / 1023)

/-- One component blended as premultiplied about black (R258). -/
def blendPre (z f g ae b : Int) : Int :=
  clamp10 (z + ((f - z) * g + 511) / 1023 + ((b - z) * (1023 - ae) + 511) / 1023)

/-- A layer's pixel over the composite: its value, its opacity g and, for a surface, its scaled alpha (R256 to R258). -/
def pixOver (c : LayCfg) (v : Pix) (g : Int) (alpha : Option Int) (b : Pix) : Pix :=
  let a := match alpha with | none => g | some s => (s * g + 511) / 1023
  if c.premul && alpha.isSome then
    ⟨blendPre 64 v.y g a b.y, blendPre 512 v.cb g a b.cb, blendPre 512 v.cr g a b.cr⟩
  else ⟨blend v.y a b.y, blend v.cb a b.cb, blend v.cr a b.cr⟩

/-! ## Meters (R264, R265) and patterns (R266) -/

/-- One sample of the quasi-peak detector; every 16th sample also returns (R264). -/
def meterStep (p r : Nat) (sixteenth : Bool) : Nat :=
  let p := if r > p then p + (r - p) * 432 / 65536 else p
  if sixteenth then p - p * 30 / 65536 else p

/-- The exponent of `levelGe`: 2 × 320. -/
def levelExp : Nat := 640

/-- Is 320 × log10(p / 2^23) at least n − 1/2? Exact: 640 log10(p / 2^23) ≥ 2n − 1. -/
def levelGe (p : Nat) (n : Int) : Bool :=
  let e := 2 * n - 1
  if e ≥ 0 then decide (10 ^ e.toNat * (2 ^ 23) ^ levelExp ≤ p ^ levelExp)
  else decide ((2 ^ 23) ^ levelExp ≤ p ^ levelExp * 10 ^ (Neg.neg e).toNat)

/-- The greatest n from `hi` down that `levelGe` admits. -/
def levelFrom (p : Nat) (hi : Int) : Nat → Int
  | 0 => hi
  | k + 1 => if levelGe p hi then hi else levelFrom p (hi - 1) k

/-- L16 of a bar, in 1/16 dB; none for −∞ (R265). -/
def levelOf (p : Nat) : Option Int := if p = 0 then none else some (levelFrom p 1 4096)

/-- The lit height of a bar (R265). -/
def litHeight (c : LayCfg) (p : Nat) : Int :=
  match levelOf p with
  | none => 0
  | some l => clampIdx 0 c.dstH ((l + 16 * c.flr) * c.dstH / (16 * c.flr : Nat))

/-- The colour of a meter row, 0 at the bottom (R265, Table 9.6). -/
def meterRow (c : LayCfg) (h : Int) (r : Nat) : Pix :=
  if (r : Int) < h then
    if ((r + 1) * c.flr : Nat) > ((c.flr : Int) - c.red) * c.dstH then ⟨250, 409, 960⟩
    else if ((r + 1) * c.flr : Nat) > ((c.flr : Int) - c.amber) * c.dstH then ⟨720, 150, 655⟩
    else ⟨691, 167, 105⟩
  else c.colour

/-- A meter layer's pixel, none where it is transparent; `p b` is the detector of bar b (R264, R265). -/
def meterPix (c : LayCfg) (p : Nat → Nat) (j i : Nat) : Option Pix :=
  let n := max 1 (min 16 c.nbar)
  let w := c.dstW / n
  let b := if w = 0 then n else j / w
  if b < n && j % w + c.gap < w then some (meterRow c (litHeight c (p b)) (c.dstH - 1 - i)) else none

/-- The 75% colour bars (Table 9.7). -/
def colourBars : List Pix :=
  [⟨721, 512, 512⟩, ⟨674, 176, 543⟩, ⟨581, 589, 176⟩, ⟨534, 253, 207⟩, ⟨251, 771, 817⟩, ⟨204, 435, 848⟩,
    ⟨111, 848, 481⟩, ⟨64, 512, 512⟩]

/-- A pattern layer's pixel (R266); patterns 4 to 7 are treated as 0. -/
def patternPix (c : LayCfg) (frame j i : Nat) : Pix :=
  match c.pattern with
  | 1 => ⟨64 + (if c.dstW = 1 then 0 else (j * 876 / (c.dstW - 1) : Nat)), 512, 512⟩
  | 2 => if (j / 16 + i / 16) % 2 = 0 then c.colour else ⟨64, 512, 512⟩
  | 3 =>
    let x := 2 * frame % c.dstW
    if j = x || j = x + 1 then ⟨940, 512, 512⟩ else c.colour
  | _ =>
    let b := ((List.range 8).filter fun b => decide (b * c.dstW / 8 ≤ j)).length - 1
    colourBars.getD b ⟨64, 512, 512⟩

/-! ## Surfaces (R261 to R263, R239) -/

/-- The start of SURF (Table 8.1), and its end for a boundary in MiB, at most 11,984 (Table 8.8). -/
def surfBase : Nat := 0x840000000
def surfEnd (mib : Nat) : Nat := surfBase + min 11984 mib * 1048576

/-- A little-endian field of the store. -/
def storeNat (m : Memory) (a n : Nat) : Nat := leNat (memReads 0x00 m a n)

/-- Does a granule of a range hold an uncorrectable error? -/
def badRange (ue : List Nat) (a n : Nat) : Bool := ue.any fun g => decide (g * 32 < a + n) && decide (a < g * 32 + 32)

/-- A colour of 40 bits (R262). -/
def colour40 (n : Nat) : Pix × Int :=
  (⟨(n % 1024 : Nat), (n / 1024 % 1024 : Nat), (n / 2 ^ 20 % 1024 : Nat)⟩, (n / 2 ^ 30 % 1024 : Nat))

/-- A pixel of an uncompressed surface (R261); one on a bad granule has alpha 0 (R239). -/
def uncPix (m : Memory) (ue : List Nat) (base pitch x y : Nat) : Pix × Int :=
  let a := base + y * pitch * 64 + 8 * x
  let f (i : Nat) : Int := (storeNat m (a + 2 * i) 2 % 1024 : Nat)
  if badRange ue a 8 then (⟨0, 0, 0⟩, 0) else (⟨f 0, f 1, f 2⟩, f 3)

/-- Bytes of an OTC data block by mode (Table 9.5). -/
def otcBytes (mode : Nat) : Nat := match mode with | 2 => 64 | 3 => 128 | 4 => 320 | _ => 0

/-- The tile of an OTC surface that holds a pixel. -/
def otcTile (width x y : Nat) : Nat := y / 8 * ((width + 7) / 8) + x / 8

/-- Is a tile of an OTC surface invalid (R263)? -/
def otcBad (m : Memory) (send base tile : Nat) : Bool :=
  let e := storeNat m (base + 8 * tile) 8
  let mode := e % 16
  decide (5 ≤ mode) || (decide (2 ≤ mode) && decide (send < base + e / 2 ^ 32 * 32 + otcBytes mode))

/-- A pixel of an OTC surface (R262, R263); a tile with an uncorrectable error has alpha 0 (R239). -/
def otcPix (m : Memory) (ue : List Nat) (send base width x y : Nat) : Pix × Int :=
  let t := otcTile width x y
  let e := storeNat m (base + 8 * t) 8
  let mode := e % 16
  let blk := base + e / 2 ^ 32 * 32
  let p := 8 * (y % 8) + x % 8
  let col (a : Nat) : Pix × Int := colour40 (storeNat m a 5)
  if otcBad m send base t || badRange ue (base + 8 * t) 8 || badRange ue blk (otcBytes mode) then (⟨0, 0, 0⟩, 0)
  else
    match mode with
    | 1 => colour40 (e / 16)
    | 2 => col (blk + 5 * (storeNat m (blk + 20 + p / 4) 1 / 4 ^ (p % 4) % 4))
    | 3 => col (blk + 5 * (storeNat m (blk + 80 + p / 2) 1 / 16 ^ (p % 2) % 16))
    | 4 => col (blk + 5 * p)
    | _ => (⟨0, 0, 0⟩, 0)

/-- A surface's planes. -/
def surfPlanes (m : Memory) (ue : List Nat) (send : Nat) (c : LayCfg) : Planes :=
  let base := surfBase + c.addr * 4096
  let px (x y : Nat) : Pix × Int := if c.otc then otcPix m ue send base c.width x y else uncPix m ue base c.pitch x y
  ⟨fun x y => (px x y).1.y, fun x y => (px x y).1.cb, fun x y => (px x y).1.cr, fun x y => (px x y).2⟩

/-- The tiles that a layer's crop window touches. -/
def cropTiles (c : LayCfg) : List Nat :=
  let xs := (List.range ((c.srcX + c.srcW + 7) / 8 - c.srcX / 8)).map (· + c.srcX / 8)
  let ys := (List.range ((c.srcY + c.srcH + 7) / 8 - c.srcY / 8)).map (· + c.srcY / 8)
  ys.flatMap fun y => xs.map fun x => y * ((c.width + 7) / 8) + x

/-! ## Output (R260) -/

/-- One output line in 4:2:2, in the order Cb, Y, Cr, Y, clipped to 4 to 1,019 (R260). -/
def line422 (w : Nat) (p : Nat → Pix) : List (BitVec 10) :=
  let clip (v : Int) : BitVec 10 := BitVec.ofInt 10 (clampIdx 4 1019 v)
  let at_ (i : Int) : Pix := p (clampIdx 0 (w - 1) i).toNat
  let c (f : Pix → Int) (q : Nat) : Int :=
    let x : Int := 2 * (q : Int)
    (f (at_ (x - 1)) + 2 * f (at_ x) + f (at_ (x + 1)) + 2) / 4
  (List.range (w / 2)).flatMap fun q =>
    [clip (c (·.cb) q), clip (p (2 * q)).y, clip (c (·.cr) q), clip (p (2 * q + 1)).y]

end Sys2Proof.Machine
end

