-- ==== Sys2Proof/Machine/Mac.lean ====
section
/-!
DEFINITION. Sys2Proof/Machine/Mac.lean: the MACs (chapter 6): activity and link, transmission, time-aware gates, and the
transmit timestamp queues (R328, R329).
-/

namespace Sys2Proof.Machine

/-- Is a MAC active in its port's split mode (Table 6.1)? -/
def macIn (split m : Nat) : Bool :=
  match split with
  | 0 => m % 4 == 0
  | 1 => m % 2 == 0
  | 2 => true
  | _ => false

/-- The counters of a MAC by index (R178). -/
def cRxFrames : Nat := 0
def cRxOctets : Nat := 1
def cRxFcs : Nat := 2
def cRxOvf : Nat := 3
def cRxOversize : Nat := 4
def cRxRunt : Nat := 5
def cRxFilt : Nat := 6
def cRxVlan : Nat := 7
def cRxPause : Nat := 8
def cTxFrames : Nat := 9
def cTxOctets : Nat := 10
def cTxUnderrun : Nat := 11
def cTxOversize : Nat := 12
def cTxLinkDrop : Nat := 13
def cTxGateDrop : Nat := 14

namespace Dev

def mac (d : Dev) (m : Nat) : MacUnit := mapGet d.macs (m, 0) MacUnit.init
def setMac (d : Dev) (m : Nat) (u : MacUnit) : Dev := { d with macs := mapPut d.macs (m, 0) MacUnit.init u }

/-- A MAC's 64-bit counter increased, saturating at all ones (Table 6.20). -/
def macCount (d : Dev) (k : Nat) (n : Nat) (m : Nat) : Dev :=
  d.set2 (MAC.CNT_LO_COUNT_L k) (MAC.CNT_HI_COUNT_H k)
    (min (2 ^ 64 - 1) (d.get2 (MAC.CNT_LO_COUNT_L k) (MAC.CNT_HI_COUNT_H k) m + n)) m

/-- MAX_LEN of a MAC; values below 64 are treated as 64 (Table 6.7). -/
def maxLen (d : Dev) (m : Nat) : Nat := max 64 (d.get MAC.CFG_MAX_LEN m)

/-- The split mode of a MAC's port. -/
def split (d : Dev) (m : Nat) : Nat := d.get MAC.PORT_CFG_SPLIT (m / 4)

/-- The rate of a MAC in Gb/s (Table 6.1). -/
def macRate (d : Dev) (m : Nat) : Nat :=
  match d.split m with
  | 0 => 400
  | 1 => 200
  | _ => 100

/-- A MAC's share of its port's receive buffer, in bytes (R168). -/
def rxShare (d : Dev) (m : Nat) : Nat :=
  match d.split m with
  | 0 => 524288
  | 1 => 262144
  | _ => 131072

/-- ACTIVE and RUN of a port's MACs follow its split mode and their EN (R160). -/
def refreshActive (d : Dev) (port : Nat) : Dev :=
  (List.range 4).foldl (fun d k =>
    let m := port * 4 + k
    let a := macIn (d.get MAC.PORT_CFG_SPLIT port) m
    (d.put MAC.STAT_ACTIVE a m).put MAC.STAT_RUN (a && d.flag MAC.CFG_EN m) m) d

/-! ## Transmit timestamps (R328, R329) -/

/-- TSQ registers of a MAC show its head entry. -/
def showTsq (d : Dev) (m : Nat) : Dev :=
  let q := (d.mac m).tsq
  let e := q.headD ⟨0, false, false, false, 0⟩
  let ns := e.time / 2 ^ 40
  let d := ((d.set (TIM.TSQ_0_TS_ID m) e.id).put (TIM.TSQ_0_VALID m) (!q.isEmpty)).put (TIM.TSQ_0_DISCARD m) e.discard
  let d := ((d.put (TIM.TSQ_0_BAD_FCS m) e.badFcs).put (TIM.TSQ_0_OVF m) e.ovf).set (TIM.TSQ_0_FILL m) q.length
  let d := (d.set (TIM.TSQ_1_NS m) (ns % 1000000000)).set (TIM.TSQ_2_SEC_L m) (ns / 1000000000)
  (d.set (TIM.TSQ_3_SEC_H m) (ns / 1000000000 / 2 ^ 32)).set (TIM.TSQ_3_FRAC m) (e.time / 2 ^ 24)

/-- A timestamp entry becomes due for a frame that asked for one. -/
def tsDue (d : Dev) (m : Nat) (f : TxFrame) (discard badFcs : Bool) (time : Nat) : Dev :=
  match f.ts with
  | none => d
  | some id =>
    let u := d.mac m
    d.setMac m { u with dues := u.dues ++ [⟨id, discard, badFcs, false, if discard then 0 else time⟩] }

/-- A due entry is stored, or dropped where the queue holds 64 (R329). -/
def tsStore (d : Dev) (m : Nat) : Dev :=
  let u := d.mac m
  match u.dues with
  | [] => d
  | e :: rest =>
    if 64 ≤ u.tsq.length then
      ((d.setMac m { u with dues := rest, tsqLost := true }).count TIM.CNT_TSQ_OVF_COUNT).raise TIM.EVT_STAT_TSQ_OVF
    else
      (d.setMac m { u with dues := rest, tsq := u.tsq ++ [{ e with ovf := u.tsqLost }], tsqLost := false }).showTsq m

/-- The head entry is removed; a pop on an empty queue does nothing (R329). -/
def tsPop (d : Dev) (m : Nat) : Dev :=
  let u := d.mac m
  (d.setMac m { u with tsq := u.tsq.tail }).showTsq m

/-! ## Transmission (R170 to R173) -/

/-- The frame being sent ends: it has left whole, or after `cutAt` bytes with a complemented FCS (R171 to R173), which `underrun` says
that the buffer's running empty caused. A frame that link loss or a fall of EN cuts off counts in neither TX_FRAMES nor TX_OCTETS
(DESIGN CHOICE, log 98). -/
def txEnd (d : Dev) (m : Nat) (cutAt : Option Nat) (underrun : Bool) : Dev :=
  match (d.mac m).flight with
  | none => d
  | some x =>
    let bytes := match cutAt with | some n => x.frame.bytes.take n | none => x.frame.bytes
    let bad := x.trunc || cutAt.isSome
    let d := ((d.setMac m { d.mac m with flight := none }).emit (.frame m bytes bad x.trunc underrun)).bwAdd (138 + m) (bytes.length + 4)
    let d := if cutAt.isSome && !underrun then d
      else (d.macCount cTxFrames 1 m).macCount cTxOctets (bytes.length + 4) m
    d.tsDue m x.frame false bad x.time

/-- Bytes of the frame being sent that have left by now, its eight of preamble before them: a byte takes 8 bits at the MAC's rate, and a
cc is 1.25 ns. -/
def txGone (d : Dev) (m start : Nat) : Nat := (d.cc - start) * 5 * d.macRate m / 32 - 8

/-- A frame whose last byte has left has ended (R173 finds it no longer being sent). -/
def txSettle (d : Dev) (m : Nat) : Dev :=
  match (d.mac m).flight with
  | none => d
  | some x => if x.frame.bytes.length + 4 ≤ d.txGone m x.start then d.txEnd m none false else d

/-- The frame being sent is cut within 64 cc (R173): how many of the bytes that can leave by then have left is open (log 2). -/
def txCut (d : Dev) (m : Nat) : Dev :=
  match (d.mac m).flight with
  | none => d
  | some x =>
    let r := d.draw
    r.2.txEnd m (some (d.txGone m x.start + r.1 % (10 * d.macRate m + 1))) false

/-- A frame is discarded unsent. -/
def txDiscard (d : Dev) (m : Nat) (f : TxFrame) (cnt : Nat) : Dev := (d.macCount cnt 1 m).tsDue m f true false 0

/-- The head frame of a class. -/
def headOf (d : Dev) (m c : Nat) : Option TxFrame := (d.mac m).offers.find? (·.tc == c)

/-- The head frame of a class has changed: it comes to the head in this cc (R175). -/
def newHead (d : Dev) (m c : Nat) : Dev :=
  let u := d.mac m
  d.setMac m { u with heads := u.heads.set c d.cc }

/-- A frame is offered to a MAC: it waits in the order of its offer, or is discarded while the link is down (R170, R173). -/
def offer (d : Dev) (m : Nat) (f : TxFrame) : Dev :=
  if d.flag MAC.STAT_LINK m then
    let d := if (d.headOf m f.tc).isNone then d.newHead m f.tc else d
    let u := d.mac m
    d.setMac m { u with offers := u.offers ++ [f] }
  else d.txDiscard m f cTxLinkDrop

/-- FILL, FULL and HWM of an egress flow queue follow the packets that wait for its MAC (R205, Table 7.19). -/
def flowFill (d : Dev) (m : Nat) (flow : Option Nat) : Dev :=
  match flow with
  | none => d
  | some q =>
    let n := ((d.mac m).offers.filter (·.flow == some q)).length
    let d := (d.set QM.Q_STAT_FILL n q).put QM.Q_STAT_FULL (decide (64 ≤ n)) q
    d.set QM.Q_HWM_HWM (max n (d.get QM.Q_HWM_HWM q)) q

/-- A waiting frame leaves the queue. -/
def unoffer (d : Dev) (m : Nat) (f : TxFrame) : Dev :=
  let u := d.mac m
  ((d.setMac m { u with offers := u.offers.erase f }).newHead m f.tc).flowFill m f.flow

/-- The cut-through start in bytes: THR, 0 treated as 1 and above 32 as 32 (Table 6.11). -/
def thrBytes (d : Dev) (m : Nat) : Nat := 64 * max 1 (min 32 (d.get MAC.TX_CT_THR m))

end Dev

/-! ## Gates (R174 to R176) -/

/-- The entry of a list in force `r` into the cycle, in units of 2^-40 ns, and what is left of it; the last entry holds to
the end of the cycle (R174). -/
def gateAt (r left : Nat) (i : Nat) : List (Nat × Nat) → Nat × Nat × Nat
  | [] => (0, i, left)
  | [e] => (e.1, i, left - r)
  | e :: f :: es =>
    let n := max 8 e.2 * 8 * 2 ^ 40
    if r < n then (e.1, i, min n left - r) else gateAt (r - n) (left - n) (i + 1) (f :: es)

/-- The states in force under a list at a time, the entry's index, and the time left until the next boundary. -/
def gateState (g : GateList) (t : Nat) : Nat × Nat × Nat :=
  let c : Nat := g.cycle * 2 ^ 40
  let r := (((t : Int) - (g.base * 2 ^ 40 : Nat)) % (c : Int)).toNat
  gateAt r c 0 g.entries

namespace Dev

/-- The schedule at a time: the pending list from its change time, else the list in force, else INIT_STATES; every gate is
open while GATE_EN = 0 (R174, R175). The second part bounds how long the answer holds. -/
def gatesAt (d : Dev) (m t : Nat) : Nat × Option Nat :=
  if !d.flag MAC.GATE_CTL_GATE_EN m then (0xFF, none)
  else
    let u := d.mac m
    let now : Nat × Option Nat :=
      match u.oper with
      | some g => let s := gateState g t; (s.1, some s.2.2)
      | none => (d.get MAC.GATE_CTL_INIT_STATES m, none)
    match u.pend with
    | none => now
    | some (g, x) =>
      let xt := x * 2 ^ 40
      if xt ≤ t then let s := gateState g t; (s.1, some s.2.2)
      else (now.1, some (min (now.2.getD (xt - t)) (xt - t)))

/-- Is gate `c` open throughout a span of `len` from a time (R175)? -/
def gateOpen (d : Dev) (m c : Nat) : Nat → Nat → Nat → Bool
  | 0, _, len => len == 0
  | fuel + 1, t, len =>
    let s := d.gatesAt m t
    if !s.1.testBit c then false
    else
      match s.2 with
      | none => true
      | some k => if len ≤ k || k = 0 then true else gateOpen d m c fuel (t + k) (len - k)

/-- The time a frame takes on the line, in 2^-40 ns, rounded up (R175). -/
def lineTime (d : Dev) (m bytes : Nat) : Nat := ((bytes + 20) * 8 * 2 ^ 40 + (d.macRate m - 1)) / d.macRate m

/-- May the head frame of a class start now (R170, R175)? `avail` is how much of it is in the transmit buffer. -/
def ready (d : Dev) (m : Nat) (f : TxFrame) (avail : Nat) : Bool :=
  let n := min (d.maxLen m) (f.bytes.length + 4)
  decide (min (d.thrBytes m) (f.bytes.length + 4) ≤ avail) && d.gateOpen m f.tc 4096 d.time (d.lineTime m n)

/-- No Ethernet transmitter sends a signal in reset, during the 120 °C trip and in safe-idle (R163, R382). -/
def etherSilent (d : Dev) : Bool := d.inReset || d.flag FLT.STAT_TRIP || d.flag FLT.STAT_SAFE_IDLE

/-- The MAC, once the frame before has left, starts the head frame of the highest class that is ready (R170); an offer above MAX_LEN is
sent cut (R172). -/
def txStart (d : Dev) (m : Nat) (avail : List Nat) : Dev :=
  let d := d.txSettle m
  if d.flag MAC.STAT_RUN m && d.flag MAC.STAT_LINK m && !d.etherSilent && (d.mac m).flight.isNone then
    let pick := ([7, 6, 5, 4, 3, 2, 1, 0].filterMap fun c => d.headOf m c).find? fun f =>
      d.ready m f (avail.getD f.tc (f.bytes.length + 4))
    match pick with
    | none => d
    | some f =>
      let d := d.unoffer m f
      let tooLong := decide (d.maxLen m < f.bytes.length + 4)
      let sent := if tooLong then { f with bytes := f.bytes.take (d.maxLen m - 4) } else f
      let d := if tooLong then (d.macCount cTxOversize 1 m).raise MAC.EVT_STAT_TX_OVERSIZE m else d
      (d.logAdd (138 + m) 1).setMac m { d.mac m with flight := some ⟨sent, d.time, d.cc, tooLong⟩ }
  else d

/-- The transmit buffer runs empty (R171): the frame ends with a complemented FCS, and THR, 0 counting as 1, rises by 1 below 32. -/
def underrun (d : Dev) (m sent : Nat) : Dev :=
  let d := d.txSettle m
  if (d.mac m).flight.isSome then
    let d := ((d.txEnd m (some sent) true).macCount cTxUnderrun 1 m).raise MAC.EVT_STAT_TX_UNDERRUN m
    let thr := max 1 (d.get MAC.TX_CT_THR m)
    if thr < 32 then (d.set MAC.TX_CT_THR (thr + 1) m).raiseIf (thr + 1 == 32) MAC.EVT_STAT_CT_MAX m else d
  else d

/-- A MAC's link is down (R163, R173): the frame being sent, or one that EN cut off in the same cc (R177), ends with a complemented FCS
and counts in TX_LINK_DROP; those that wait are discarded. -/
def linkFall (d : Dev) (m : Nat) : Dev :=
  let d := d.txSettle m
  let d := if (d.mac m).flight.isSome then (d.txCut m).macCount cTxLinkDrop 1 m
    else if (d.mac m).cutCc == some d.cc then (d.setMac m { d.mac m with cutCc := none }).macCount cTxLinkDrop 1 m
    else d
  let fs := (d.mac m).offers
  fs.foldl (fun d f => (d.unoffer m f).txDiscard m f cTxLinkDrop) d

/-- EN falls (R173): the frame being sent is cut off. -/
def enFall (d : Dev) (m : Nat) : Dev :=
  let d := d.txSettle m
  if (d.mac m).flight.isSome then
    let d := d.setMac m { d.mac m with cutCc := some d.cc }
    d.txCut m
  else d

/-- Has the head frame of a class stayed at the head for one whole cycle of the list in force without being let through (R175)? -/
def gateStarved (d : Dev) (m : Nat) (f : TxFrame) : Bool :=
  match (d.mac m).oper with
  | none => false
  | some g =>
    d.flag MAC.GATE_CTL_GATE_EN m && decide (g.cycle * 4 ≤ (d.cc - (d.mac m).heads.getD f.tc 0) * 5) &&
      !d.gateOpen m f.tc 4096 d.time (d.lineTime m (min (d.maxLen m) (f.bytes.length + 4)))

/-- The admin list of a MAC (Tables 6.13 to 6.15). -/
def adminList (d : Dev) (m : Nat) : GateList :=
  let n := max 1 (min 64 (d.get MAC.GATE_CTL_ADMIN_LEN m))
  ⟨d.get2 MAC.GATE_BASE_SEC_LO_SEC_L MAC.GATE_BASE_SEC_HI_SEC_H m * 1000000000 + d.get MAC.GATE_BASE_NS_NS m,
    d.get MAC.GATE_CYCLE_CYCLE m,
    (List.range n).map fun i => (d.get MAC.GCL_DATA_STATES (m * 64 + i), max 8 (d.get MAC.GCL_DATA_INTERVAL (m * 64 + i)))⟩

/-- CFG_CHANGE (R176): refused, or the admin values become the pending list with its change time. -/
def gateChange (d : Dev) (m : Nat) : Dev :=
  let g := d.adminList m
  if !d.flag MAC.GATE_CTL_GATE_EN m || decide (g.cycle < 64) || decide (1000000000 < g.cycle) ||
      decide (1000000000 ≤ d.get MAC.GATE_BASE_NS_NS m) then
    (d.raise MAC.GATE_STAT_CFG_ERR m).raise MAC.EVT_STAT_GATE_ERR m
  else
    let t := (d.time + (1000 * 2 ^ 40 + (2 ^ 40 - 1))) / 2 ^ 40
    let x := if t ≤ g.base then g.base else g.base + (t - g.base + (g.cycle - 1)) / g.cycle * g.cycle
    ((d.setMac m { d.mac m with pend := some (g, x) }).put MAC.GATE_STAT_PENDING true m).put MAC.GATE_STAT_CFG_ERR false m

/-- Chronometer time has reached or passed the change time of the pending list (R176, R177): it takes effect with its entry 0. -/
def gateSwap (d : Dev) (m : Nat) : Dev :=
  match (d.mac m).pend with
  | none => d
  | some (g, x) =>
    if d.time < x * 2 ^ 40 then d
    else
      let d := d.setMac m { d.mac m with pend := none, oper := some g }
      let d := ((d.put MAC.GATE_STAT_OPER true m).put MAC.GATE_STAT_PENDING false m).raise MAC.EVT_STAT_GATE_CHG m
      let e := gateState g d.time
      let d := (d.set MAC.GATE_STAT_OPER_LEN g.entries.length m).set MAC.GATE_STAT_CUR_IDX e.2.1 m
      d.set MAC.GATE_STAT_CUR_STATES (if d.flag MAC.GATE_CTL_GATE_EN m then e.1 else 0xFF) m

/-- An entry boundary (R174): the gate states and the entry in force at the present time. From the pending list's change time on no
entry of the old list begins (R177). -/
def gateStep (d : Dev) (m : Nat) : Dev :=
  match (d.mac m).oper with
  | none => d
  | some g =>
    if (d.mac m).pend.any fun p => decide (p.2 * 2 ^ 40 ≤ d.time) then d
    else
      let s := gateState g d.time
      (d.set MAC.GATE_STAT_CUR_STATES (if d.flag MAC.GATE_CTL_GATE_EN m then s.1 else 0xFF) m).set MAC.GATE_STAT_CUR_IDX s.2.1 m

/-- GATE_EN or INIT_STATES is written: the gates now (R174). -/
def gateShow (d : Dev) (m : Nat) : Dev := d.set MAC.GATE_STAT_CUR_STATES (d.gatesAt m d.time).1 m

end Dev

/-! ## Meanings -/

/-- AUTO_NEGOTIATION_DONE (R161), on the running MACs of a port that negotiates. -/
def execAutoNegotiationDone (p : Fin 16) (s : State) := s.go fun d =>
  if d.flag MAC.PORT_CFG_AN_EN p && (d.get MAC.PORT_CFG_PHY p == 0 || d.get MAC.PORT_CFG_PHY p == 3) then
    (List.range 4).foldl (fun d k =>
      let m := p.val * 4 + k
      if d.flag MAC.STAT_RUN m then (d.put MAC.STAT_AN_DONE true m).put MAC.STAT_TRAIN_DONE true m else d) d
  else d

/-- LINK_UP (R163). -/
def execLinkUp (m : Mac) (s : State) := s.go fun d =>
  if d.flag MAC.STAT_RUN m && !d.flag MAC.STAT_LINK m then
    ((d.put MAC.STAT_LINK true m).raise MAC.EVT_STAT_LINK_UP m).dropFault ⟨124, 3, 0, m⟩
  else d

/-- LINK_DOWN (R163, R173). -/
def execLinkDown (m : Mac) (s : State) := s.go fun d =>
  if d.flag MAC.STAT_LINK m then
    (((d.linkFall m).put MAC.STAT_LINK false m).raise MAC.EVT_STAT_LINK_DOWN m).raiseFault ⟨124, 3, 0, m⟩
  else d

/-- TX_FRAME_START (R170, R172, R175). -/
def execTxFrameStart (m : Mac) (avail : List Nat) (s : State) := s.go fun d => d.txStart m avail

/-- TX_UNDERRUN (R171): the frame ends after `sent` bytes. -/
def execTxUnderrun (m : Mac) (sent : Nat) (s : State) := s.go fun d => d.underrun m sent

/-- TX_LINK_DROP (R173): a frame offered while the link is down. -/
def execTxLinkDrop (m : Mac) (f : TxFrame) (s : State) := s.go fun d =>
  if d.flag MAC.STAT_LINK m then d else d.txDiscard m f cTxLinkDrop

/-- TX_GATE_DROP (R175): the head frame of a class has waited one whole gate cycle. -/
def execTxGateDrop (m : Mac) (tc : Fin 8) (s : State) := s.go fun d =>
  match d.headOf m tc with
  | none => d
  | some f => if !d.gateStarved m f then d else ((d.unoffer m f).txDiscard m f cTxGateDrop).raise MAC.EVT_STAT_TX_GATE_DROP m

/-- MAC_ENABLE (R160, R173). -/
def execMacEnable (m : Mac) (en : Bool) (s : State) := s.go fun d =>
  let d := d.put MAC.CFG_EN en m
  if en then
    if d.flag MAC.STAT_ACTIVE m then d.put MAC.STAT_RUN true m else d.raise MAC.EVT_STAT_INACTIVE m
  else (d.enFall m).put MAC.STAT_RUN false m

/-- GATE_CFG_CHANGE (R176). -/
def execGateCfgChange (m : Mac) (s : State) := s.go fun d => d.gateChange m

/-- GATE_LIST_CHANGE (R176). -/
def execGateListChange (m : Mac) (s : State) := s.go fun d => d.gateSwap m

/-- GATE_ENTRY_BOUNDARY (R174). -/
def execGateEntryBoundary (m : Mac) (s : State) := s.go fun d => d.gateStep m

/-- MAC_CNT_CLR (Table 6.19). -/
def execMacCntClr (m : Mac) (s : State) := s.go fun d =>
  (List.range 15).foldl (fun d k => d.clear [MAC.CNT_LO_COUNT_L k, MAC.CNT_HI_COUNT_H k] m) d

/-- LINK_RESTART (Table 6.19): auto-negotiation and training begin again; the loss of lock that follows is LINK_DOWN. -/
def execLinkRestart (m : Mac) (s : State) := s.go fun d =>
  (d.put MAC.STAT_AN_DONE false m).put MAC.STAT_TRAIN_DONE false m

/-- TX_TIMESTAMP_ENTRY (R328, R329): the last bit of a frame that asked for a timestamp has left, or the frame was
discarded. -/
def execTxTimestampEntry (m : Mac) (s : State) := s.go fun d =>
  (d.txSettle m).tsStore m

/-- TSQ_POP (R329). -/
def execTsqPop (m : Mac) (s : State) := s.go fun d => d.tsPop m

end Sys2Proof.Machine
end

