-- ==== Sys2Proof/Machine/Queues.lean ====
section
/-!
DEFINITION. Sys2Proof/Machine/Queues.lean: the general queues of the queue manager (R206 to R211, R217).
-/

namespace Sys2Proof.Machine

namespace Dev

/-- A write of Q_CFG.EN (R207): a queue whose element or ring size is out of range does not start. -/
def queueEnable (d : Dev) (q : Nat) (en : Bool) : Dev :=
  let d := d.put QM.Q_CFG_EN en q
  if en then
    if d.flag QM.Q_STAT_RUN q then d
    else
      let esz := d.get QM.Q_CFG_ESZ q
      let logN := d.get QM.Q_CFG_LOG_N q
      if 4 ≤ esz && esz ≤ 11 && 2 ≤ logN && logN ≤ 16 then
        ((d.put QM.Q_STAT_CFG_ERR false q).put QM.Q_STAT_RUN true q).qStatus q
      else (d.put QM.Q_STAT_CFG_ERR true q).raise QM.BLK_EVT_CFG_ERR
  else { d.put QM.Q_STAT_RUN false q with qSince := mapPut d.qSince (q, 0) (0, 0) (0, 0) }

/-- Software writes one of a queue's indices (R208): only the one it owns, and only forward within the ring. -/
def indexWrite (d : Dev) (q : Nat) (prod : Bool) (v : Nat) : Dev :=
  let n := d.qSize q
  let x := v % 2 ^ 17 % (2 * n)
  let fill := d.qFill q
  let own := prod == d.flag QM.Q_CFG_DIR q
  let new := if prod then (x + 2 * n - d.get QM.Q_CONS_IDX q) % (2 * n)
    else (d.get QM.Q_PROD_IDX q + 2 * n - x) % (2 * n)
  let ok := own && decide (new ≤ n) && (if prod then decide (fill ≤ new) else decide (new ≤ fill))
  if ok then (d.set (if prod then QM.Q_PROD_IDX else QM.Q_CONS_IDX) x q).qStatus q
  else d.raise QM.BLK_EVT_IDX_ERR

/-- The queue's timer runs out: TIMER µs have passed since the first unnotified element (R211). A cc is 1.25 ns. -/
def notifyTimer (d : Dev) (q : Nat) : Dev :=
  let x := mapGet d.qSince (q, 0) (0, 0)
  let t := d.get QM.Q_MOD_TIMER q
  if d.flag QM.Q_CFG_NOTIFY q && t != 0 && x.1 != 0 && decide (t * 800 ≤ d.cc - x.2) then
    { d with qSince := mapPut d.qSince (q, 0) (0, 0) (0, 0) }.triggerVec (d.get QM.Q_CFG_VEC q)
  else d

end Dev

/-- The number of a general queue. -/
def genQ (q : GenQ) : Nat := 12288 + q.val

/-! ## Meanings -/

/-- QUEUE_ENABLE (R207). -/
def execQueueEnable (q : GenQ) (en : Bool) (s : State) := s.go fun d => d.queueEnable (genQ q) en

/-- QUEUE_INDEX_WRITE (R208), at the queue the master selects; a flow queue has no ring (R206). -/
def execQueueIndexWrite (m : Master) (prod : Bool) (v : Word) (s : State) := s.go fun d =>
  match d.selOf m QM.Q_SEL_SEL 16384 with
  | none => d
  | some q => if q < 12288 then d else d.indexWrite q prod v.toNat

/-- QUEUE_ELEMENT_CONSUME (R209). -/
def execQueueElementConsume (q : GenQ) (s : State) := s.go fun d => (d.qConsume (genQ q) 0).2

/-- QUEUE_ELEMENT_PRODUCE (R209, R210). -/
def execQueueElementProduce (q : GenQ) (bytes : List Byte) (s : State) := s.go fun d => (d.qProduce (genQ q) bytes).2

/-- QUEUE_NOTIFY_TIMER (R211). -/
def execQueueNotifyTimer (q : GenQ) (s : State) := s.go fun d => d.notifyTimer (genQ q)

/-- Q_CNT_CLR (Table 7.20). -/
def execQCntClr (q : Fin 16384) (s : State) := s.go fun d => d.clear [QM.Q_CNT_OVF_COUNT] q

/-- HWM_CLR (Table 7.20). -/
def execHwmClr (q : Fin 16384) (s : State) := s.go fun d => d.set QM.Q_HWM_HWM (d.get QM.Q_STAT_FILL q) q

/-- IDX_CLR (Table 7.20): no effect while the queue runs; a general queue is stopped while EN = 0 (R217). -/
def execIdxClr (q : GenQ) (s : State) := s.go fun d =>
  if d.flag QM.Q_CFG_EN (genQ q) then d
  else (d.clear [QM.Q_PROD_IDX, QM.Q_CONS_IDX] (genQ q)).qStatus (genQ q)

end Sys2Proof.Machine
end

