-- ==== Sys2Proof/Machine/Sha.lean ====
section
/-!
DEFINITION. Sys2Proof/Machine/Sha.lean: SHA-256 and SHA-384 (FIPS 180-4) and HMAC-SHA-256 (FIPS 198-1), which R155 and
R449 name: published functions, computed here from their standards.
-/

namespace Sys2Proof.Machine

/-- What one member of the SHA-2 family fixes: word width, rounds, rotation amounts, round constants. -/
structure ShaPar where
  w : Nat
  rounds : Nat
  bs0 : Nat × Nat × Nat
  bs1 : Nat × Nat × Nat
  ss0 : Nat × Nat × Nat
  ss1 : Nat × Nat × Nat
  ks : List Nat
  deriving DecidableEq, Repr

/-- Rotate right within `w` bits. -/
def rotr (w n x : Nat) : Nat := (x >>> n) ||| ((x <<< (w - n)) % 2 ^ w)

/-- The exclusive or of three rotations. -/
def rot3 (w : Nat) (r : Nat × Nat × Nat) (x : Nat) : Nat := rotr w r.1 x ^^^ rotr w r.2.1 x ^^^ rotr w r.2.2 x

/-- Two rotations and a shift. -/
def rot2s (w : Nat) (r : Nat × Nat × Nat) (x : Nat) : Nat := rotr w r.1 x ^^^ rotr w r.2.1 x ^^^ (x >>> r.2.2)

/-- The next word of the message schedule, from the sixteen before it (oldest first). -/
def shaNextW (p : ShaPar) (ws : List Nat) : Nat :=
  (rot2s p.w p.ss1 (ws.getD 14 0) + ws.getD 9 0 + rot2s p.w p.ss0 (ws.getD 1 0) + ws.getD 0 0) % 2 ^ p.w

/-- The rounds of one block: the window of sixteen schedule words, the round constants left, the eight working
variables. -/
def shaRounds (p : ShaPar) : List Nat → List Nat → List Nat → List Nat
  | _, [], v => v
  | ws, k :: ks, v =>
    let at_ (i : Nat) := v.getD i 0
    let choose := at_ 6 ^^^ (at_ 4 &&& (at_ 5 ^^^ at_ 6))
    let most := (at_ 0 &&& (at_ 1 ||| at_ 2)) ||| (at_ 1 &&& at_ 2)
    let t := at_ 7 + rot3 p.w p.bs1 (at_ 4) + choose + k + ws.getD 0 0
    let first := (t + rot3 p.w p.bs0 (at_ 0) + most) % 2 ^ p.w
    shaRounds p (ws.tail ++ [shaNextW p ws]) ks
      ((first :: v.take 3) ++ ((at_ 3 + t) % 2 ^ p.w :: (v.drop 4).take 3))

/-- Sixteen words of a block of bytes, most significant byte first. -/
def shaWords (n : Nat) : Nat → List Byte → List Nat
  | 0, _ => []
  | k + 1, bs => beNat (bs.take n) :: shaWords n k (bs.drop n)

/-- All blocks: `fuel` blocks at most. -/
def shaBlocks (p : ShaPar) : Nat → List Byte → List Nat → List Nat
  | 0, _, h => h
  | fuel + 1, bs, h =>
    if bs.isEmpty then h
    else
      let bl := p.w * 2
      let v := shaRounds p (shaWords (p.w / 8) 16 (bs.take bl)) p.ks h
      shaBlocks p fuel (bs.drop bl) ((h.zip v).map fun x => (x.1 + x.2) % 2 ^ p.w)

/-- The padding of the standard: 0x80, zeros, the length in bits. -/
def shaPad (w : Nat) (bs : List Byte) : List Byte :=
  let bl := w * 2
  let lenB := w / 4
  let zeros := (2 * bl - 1 - lenB - bs.length % bl) % bl
  bs ++ [0x80] ++ List.replicate zeros 0 ++ beBytes lenB (bs.length * 8)

/-- The digest as a list of words. -/
def shaDigest (p : ShaPar) (h0 : List Nat) (bs : List Byte) : List Nat :=
  shaBlocks p (bs.length / (p.w * 2) + 2) (shaPad p.w bs) h0

/-- Is `p` a prime: no number from 2 to 20 but itself divides it (enough below 441)? -/
def smallPrime (p : Nat) : Bool := decide (2 ≤ p) && (List.range 19).all fun i => p % (i + 2) != 0 || p == i + 2

/-- The primes below 410, of which there are 80. -/
def primes80 : List Nat := (List.range 410).filter smallPrime

/-- The largest number of at most `k` bits whose `n`-th power does not exceed `x`, one bit at a time from the top; `r` holds
the bits found. -/
def rootBits (n x : Nat) : Nat → Nat → Nat
  | 0, r => r
  | k + 1, r => rootBits n x k (if (r + 2 ^ k) ^ n ≤ x then r + 2 ^ k else r)

/-- The first 64 bits of the fractional part of the `n`-th root of a number (of an integer part below 32). -/
def rootFrac (n x : Nat) : Nat := rootBits n (x * 2 ^ (64 * n)) 69 0 % 2 ^ 64

/-- The round constants of SHA-512: from the cube roots of the first 80 primes. -/
def sha512K : List Nat := primes80.map (rootFrac 3)

/-- SHA-256 takes the upper halves of the first 64 of them. -/
def sha256Par : ShaPar :=
  ⟨32, 64, (2, 13, 22), (6, 11, 25), (7, 18, 3), (17, 19, 10), (sha512K.take 64).map (· / 2 ^ 32)⟩

/-- SHA-384 and SHA-512. -/
def sha512Par : ShaPar := ⟨64, 80, (28, 34, 39), (14, 18, 41), (1, 8, 7), (19, 61, 6), sha512K⟩

/-- SHA-256 of a list of bytes; it starts from the square roots of the first eight primes. -/
def sha256 (bs : List Byte) : List Byte :=
  (shaDigest sha256Par ((primes80.take 8).map fun p => rootFrac 2 p / 2 ^ 32) bs).flatMap (beBytes 4)

/-- SHA-384 of a list of bytes; it starts from the square roots of the ninth to the sixteenth prime. -/
def sha384 (bs : List Byte) : List Byte :=
  ((shaDigest sha512Par (((primes80.drop 8).take 8).map (rootFrac 2)) bs).take 6).flatMap (beBytes 8)

/-- HMAC-SHA-256 with a key of 32 bytes (R155). -/
def hmacSha256 (key msg : List Byte) : List Byte :=
  let k := key ++ List.replicate (64 - key.length) 0
  sha256 (k.map (· ^^^ 0x5C) ++ sha256 (k.map (· ^^^ 0x36) ++ msg))

end Sys2Proof.Machine
end

