-- ==== Sys2Proof/Machine/Takes.lean ====
section
/-!
DEFINITION. Sys2Proof/Machine/Takes.lean: the take engine (chapter 5): entries and their checks, the output queues,
switch points, salvos, results, take messages, and the journal a device in the control role forms (R364).
-/

namespace Sys2Proof.Machine

/-- The fields of a 16-byte take entry (Table 5.1). -/
def takeParse (bs : List Byte) : TakeEntry :=
  let n := leNat (bs.take 16)
  let f (lo w : Nat) : Nat := n / 2 ^ lo % 2 ^ w
  ⟨f 0 48, f 48 32, f 80 11, f 94 2, f 96 11, n.testBit 107, n.testBit 108, n.testBit 109, f 112 16⟩

/-- The 16 bytes of a take entry; its reserved bits are 0 (R127). -/
def takeBytes (e : TakeEntry) : List Byte :=
  leBytes 6 e.sec ++ leBytes 4 e.ns ++ leBytes 2 (e.out % 2048 + e.type % 4 * 0x4000) ++
    leBytes 2 (e.src % 2048 + 0x800 * b2n e.afollow + 0x1000 * b2n e.field2 + 0x2000 * b2n e.now) ++ leBytes 2 e.salvo

/-- The instant of an entry, in units. -/
def takeInst (e : TakeEntry) : Int := nsTu (e.sec * 1000000000 + e.ns : Nat)

/-- The margin of R133 and R138: 32 µs. -/
def takeMargin : Int := nsTu 32000

/-- The ORIGIN code of Table 5.7. -/
def originCode : Origin → Nat
  | .regs _ => 0 | .ring => 1 | .msg => 2 | .journal c => c

/-- A result record (Table 5.7). -/
def takeRecord (sec ns out org code flags salvo : Nat) : List Byte :=
  leBytes 6 sec ++ leBytes 4 ns ++ leBytes 2 (out % 2048 + org % 4 * 0x4000) ++
    [BitVec.ofNat 8 code, BitVec.ofNat 8 flags] ++ leBytes 2 salvo

/-- The contents that R128 rejects with BAD_ENTRY. -/
def badEntry (org : Origin) (e : TakeEntry) : Bool :=
  e.type == 3 || (decide (1664 ≤ e.out) && !(e.type == 2 && e.out == 0x7FF) && e.type != 1) ||
    decide (1000000000 ≤ e.ns) || (e.type == 1 && (e.salvo == 0 || e.src == 0 || decide (1664 < e.src))) ||
    (e.type == 2 && e.out == 0x7FF && e.salvo == 0) || (org == .msg && e.now)

/-- The greatest of a list of integers, and of a number where the list is empty. -/
def maxInt (x : Int) (l : List Int) : Int := l.foldl max x

namespace Dev

/-! ## The output's queue and its switch points -/

/-- The pending takes of an output (R129). -/
def takesOf (d : Dev) (o : Nat) : List Take := mapGet d.takes (o, 0) []

/-- The delay of an output's switch line after its frame start (R137). -/
def swOfs (d : Dev) (o : Nat) (field2 : Bool) : Int :=
  match fmtOf (d.outFmt o) with
  | none => 0
  | some f => ((switchLine f field2 - 1) * lineTu f : Nat)

/-- The line a take switches at. -/
def swLine (d : Dev) (o : Nat) (field2 : Bool) : Nat := ((fmtOf (d.outFmt o)).map (switchLine · field2)).getD 7

/-- The switch instant Q(k) of an output in Chronometer time (R137, R319). -/
def swInst (d : Dev) (o : Nat) (field2 : Bool) (k : Int) : Int :=
  frameTu (d.cadRate (d.outCad o)) (d.cadOfs (d.outCad o)) k + d.swOfs o field2 + d.resTu

/-- The smallest frame whose switch instant is at or after `x` (R138, R319). -/
def swFrame (d : Dev) (x : Int) (m : Nat × Bool) : Int :=
  firstFrame (d.cadRate (d.outCad m.1)) (d.cadOfs (d.outCad m.1)) (d.swOfs m.1 m.2) (x - d.resTu)

/-- The due frame of takes on one cadence, and whether they are LATE (R138, R144): the smallest frame in which every one
reaches the instant and the 32 µs margin after acceptance. -/
def dueFrame (d : Dev) (m : Nat × Bool) (ms : List (Nat × Bool)) (inst acc : Int) (now : Bool) : Int × Bool :=
  let x := if now then acc else inst
  let a := maxInt (d.swFrame x m) (ms.map (d.swFrame x))
  let b := maxInt (d.swFrame (acc + takeMargin) m) (ms.map (d.swFrame (acc + takeMargin)))
  (max a b, decide (a < b))

/-- The offset of an output's counter from its cadence, in (−T/2, +T/2], in units: between two equally near counter frame starts the
later one counts (R139). -/
def swShift (d : Dev) (o : Nat) : Int :=
  let r := d.cadRate (d.outCad o)
  let p : Int := periodTu r
  let x := ((d.outOf o).frameT - frameTu r (d.cadOfs (d.outCad o)) 0) % p
  if !(d.outOf o).run then 0 else if 2 * x > p then x - p else x

/-- The switch point of a take due in frame `k`: the counter's line start of its switch line in the counter frame nearest to the
cadence's (R139). -/
def swPoint (d : Dev) (o : Nat) (field2 : Bool) (k : Int) : Int := d.swInst o field2 k + d.swShift o

/-- Does a pending take switch at frame `k` with the given field (R131)? -/
def sameSwitch (d : Dev) (o : Nat) (k : Int) (field2 : Bool) (t : Take) : Bool :=
  t.due == some k && d.swLine o t.field2 == d.swLine o field2

/-- Is a pending take committed against a removal accepted at `acc` (R133)? -/
def committed (d : Dev) (o : Nat) (acc : Int) (t : Take) : Bool :=
  match t.due with
  | none => false
  | some k => decide (d.swPoint o t.field2 k < acc + takeMargin)

/-- The order of two armed takes of an output. -/
def takeBefore (d : Dev) (o : Nat) (a b : Take) : Bool :=
  match a.due, b.due with
  | some i, some j => decide (i < j) || (i == j && decide (d.swLine o a.field2 < d.swLine o b.field2))
  | some _, none => true
  | none, _ => false

/-- The armed take that executes next (R132). -/
def nextTake (d : Dev) (o : Nat) : Option Take :=
  ((d.takesOf o).filter (·.due.isSome)).foldl (fun b t =>
    match b with
    | none => some t
    | some u => if d.takeBefore o t u then some t else some u) none

/-- The queue of an output and its status (Table 5.15). -/
def setTakes (d : Dev) (o : Nat) (ts : List Take) : Dev :=
  let d := { d with takes := mapPut d.takes (o, 0) [] ts }
  let d := (d.set HIF.TK_QSTAT_DEPTH ts.length o).set HIF.TK_QSTAT_UNARMED (ts.filter (·.due.isNone)).length o
  d.set HIF.TK_QSTAT_NEXT_SRC (match d.nextTake o with | some t => t.src | none => 0x7FF) o

/-! ## Outcomes -/

/-- The final outcome of an entry: its event and count, and its result record at the present time (R154, Tables 5.2, 5.16,
5.17). -/
def takeFinal (d : Dev) (org : Origin) (out code flags salvo : Nat) : Dev :=
  let d := if code = 2 then (d.raise HIF.TK_EVT_EXEC).count HIF.TK_CNT_EXE_COUNT
    else (d.raise HIF.TK_EVT_REJECT).count HIF.TK_CNT_REJ_COUNT
  let d := (d.raiseIf (code == 8 || code == 9) HIF.TK_EVT_SALVO_FAIL).logAdd (if code = 2 then 1739 else 1740) 1
  if d.flag HIF.TK_QUEUES_RES_EN then
    let r := d.qProduce (d.get HIF.TK_QUEUES_RES_Q) (takeRecord d.timeSec d.timeNs out (originCode org) code flags salvo)
    if r.1 then r.2 else (r.2.count HIF.TK_CNT_RES_OVF_COUNT).raise HIF.TK_EVT_RES_OVF
  else d

/-- The final outcome of a take, with the output's last code (Table 5.15). -/
def takeEnd (d : Dev) (o : Nat) (t : Take) (code flags : Nat) : Dev :=
  (d.takeFinal t.origin o code (flags + b2n t.late + 4 * b2n t.deferred) t.salvo).set HIF.TK_QSTAT_LAST_CODE code o

/-- The pending takes of an output that meet a test end with a code; the others stay. -/
def takesDrop (d : Dev) (o : Nat) (code : Nat) (p : Take → Bool) : Dev :=
  let ts := d.takesOf o
  (ts.filter p).foldl (fun d t => d.takeEnd o t code 0) (d.setTakes o (ts.filter (!p ·)))

/-- The outputs that hold a pending take. -/
def takeOuts (d : Dev) : List Nat := d.takes.map (·.1.1)

/-- The pending takes of every output that meet a test end with a code. A salvo that loses its last member so stays open (DESIGN
CHOICE, log 93). -/
def takesDropAll (d : Dev) (code : Nat) (p : Nat → Take → Bool) : Dev :=
  d.takeOuts.foldl (fun d o => d.takesDrop o code (p o)) d

/-- How many pending takes, on every output, meet a test. -/
def takesCount (d : Dev) (p : Nat → Take → Bool) : Nat :=
  (d.takeOuts.map fun o => ((d.takesOf o).filter (p o)).length).sum

/-- An output stops: its pending takes end with STOPPED (R134). -/
def takesStop (d : Dev) (o : Nat) : Dev := d.takesDrop o 6 fun _ => true

/-- An unarmed member of a salvo. -/
def isMember (salvo : Nat) (t : Take) : Bool := t.salvo == salvo && t.due.isNone

/-- A salvo ends without being armed: its members end with a code, and it is closed (R143). -/
def salvoEnd (d : Dev) (salvo code : Nat) : Dev :=
  let d := d.takesDropAll code fun _ => isMember salvo
  { d with salvos := d.salvos.filter (·.id != salvo) }

/-- SALVO_TMO in units (R143, Table 5.9): steps of 10 ms, 0 treated as 1. -/
def salvoTmo (d : Dev) : Int := nsTu (max 1 (d.get HIF.TK_CTL_SALVO_TMO) * 10000000 : Nat)

/-- Has an open salvo's time run out (R143)? -/
def salvoOver (d : Dev) (v : Salvo) : Bool := decide (v.openedAt + d.salvoTmo ≤ d.timeTu)

/-- The salvos whose time has run out end with ORPHAN before anything else of that cycle (R143, Table 5.6). -/
def salvoExpire (d : Dev) : Dev :=
  (d.salvos.filter d.salvoOver).foldl (fun d v => d.salvoEnd v.id 9) d

/-- The device holds the control role, or takes it (R364). -/
def conActive (d : Dev) : Bool := d.get CON.STAT_STATE == 4 || d.get CON.STAT_STATE == 5

/-- The device follows the active twin's journal (R364). -/
def conFollows (d : Dev) : Bool := d.get CON.STAT_STATE == 2 || d.get CON.STAT_STATE == 3

/-- A journal record of an accepted entry, or of a FLUSH, as a JOURNAL unit (R364, Table 14.4). -/
def journal (d : Dev) (org : Origin) (e : TakeEntry) (flush : Bool) (msg : Option (Nat × Nat)) : Dev :=
  if d.conActive then
    let j := (d.get CON.JSEQ_TX_JSEQ + 1) % 2 ^ 32
    let key := match msg with | some (k, _) => k + 128 | none => 0
    let seq := match msg with | some (_, q) => q | none => 0
    let rec_ := takeBytes e ++ leBytes 6 d.timeSec ++ leBytes 4 d.timeNs ++
      [BitVec.ofNat 8 (originCode org + 4 * b2n flush), BitVec.ofNat 8 key] ++ leBytes 8 seq ++ leBytes 4 j
    { d.set CON.JSEQ_TX_JSEQ j with units := d.units ++ [(0x02, rec_)] }
  else d

/-! ## Entries -/

/-- A take joins the queue with a due frame: a pending take with the same switch point is superseded (R131). -/
def takeJoin (d : Dev) (o : Nat) (t : Take) (k : Int) : Dev :=
  let d := d.takesDrop o 3 (d.sameSwitch o k t.field2)
  d.setTakes o (d.takesOf o ++ [t])

/-- A TAKE (R130, R131, R138, R142): its code, whether it is LATE, and the state. -/
def takeTake (d : Dev) (org : Origin) (e : TakeEntry) (acc : Int) : Nat × Bool × Dev :=
  let o := e.out
  let ts := d.takesOf o
  let t : Take := ⟨e.src, e.afollow, e.field2, e.now, e.salvo, takeInst e, acc, none, false, false, org⟩
  let isOpen := d.salvos.any (·.id == e.salvo)
  if !d.outRuns o || !fmtValid (d.outFmt o) then (6, false, d)
  else if e.salvo != 0 then
    if isOpen && ts.any (isMember e.salvo) then (0x0A, false, d)
    else if !isOpen && decide (256 ≤ d.salvos.length) then (0x0B, false, d)
    else if 4 ≤ ts.length then (5, false, d)
    else
      let d := if isOpen then d else { d with salvos := d.salvos ++ [⟨e.salvo, acc⟩] }
      (1, false, d.setTakes o (ts ++ [t]))
  else
    let k := d.dueFrame (o, e.field2) [] t.inst acc e.now
    if decide (4 ≤ ts.length) && !ts.any (d.sameSwitch o k.1 e.field2) then (5, false, d)
    else (1, k.2, (d.takeJoin o { t with due := some k.1, late := k.2 } k.1).raiseIf k.2 HIF.TK_EVT_LATE)

/-- The unarmed members of a salvo, with their outputs. -/
def members (d : Dev) (salvo : Nat) : List (Nat × Take) :=
  d.takeOuts.flatMap fun o => ((d.takesOf o).filter (isMember salvo)).map fun t => (o, t)

/-- One member of a salvo is armed with the members on its cadence (R143, R144); then it supersedes (R131). -/
def armMember (d : Dev) (e : TakeEntry) (acc : Int) (ms : List (Nat × Take)) (m : Nat × Take) : Dev :=
  let same := (ms.filter fun x => d.outCad x.1 == d.outCad m.1).map fun x => (x.1, x.2.field2)
  let k := d.dueFrame (m.1, m.2.field2) same (takeInst e) acc e.now
  let t := { m.2 with inst := takeInst e, now := e.now, accAt := acc, due := some k.1, late := k.2 }
  let d := d.setTakes m.1 ((d.takesOf m.1).filter fun x => !isMember e.salvo x)
  (d.takeJoin m.1 t k.1).raiseIf k.2 HIF.TK_EVT_LATE

/-- An ARM (R143). -/
def takeArm (d : Dev) (e : TakeEntry) (acc : Int) : Nat × Bool × Dev :=
  if d.salvos.any (·.id == e.salvo) then
    let ms := d.members e.salvo
    if ms.length = e.src then
      let d' := ms.foldl (fun d' m => d'.armMember e acc ms m) d
      (1, false, { d' with salvos := d'.salvos.filter (·.id != e.salvo) })
    else (8, false, d.salvoEnd e.salvo 8)
  else (0x0E, false, d)

/-- Does a CANCEL name a pending take (R133)? -/
def cancels (d : Dev) (e : TakeEntry) (acc : Int) (o : Nat) (t : Take) : Bool :=
  (e.out == 0x7FF || e.out == o) && (e.salvo == 0 || t.salvo == e.salvo) && !d.committed o acc t

/-- A CANCEL (R133). -/
def takeCancel (d : Dev) (e : TakeEntry) (acc : Int) : Nat × Bool × Dev :=
  if d.takesCount (d.cancels e acc) = 0 then (0x0E, false, d)
  else (1, false, d.takesDropAll 4 (d.cancels e acc))

/-- The result of a master's GO (Table 5.14). -/
def takeAnswer (d : Dev) (org : Origin) (code : Nat) (late : Bool) : Dev :=
  match org with
  | .regs m => ((d.set HIF.TK_RES_CODE code m.code).put HIF.TK_RES_LATE late m.code).set HIF.TK_RES_BUSY 0 m.code
  | _ => d

/-- An entry processed at acceptance time `acc` (R128, R130, R133, R143, R156, R364); salvos whose time has run out end first (Table
5.6). STALE is judged behind BAD_ENTRY and before the other rejections, and not of a salvo member, whose SEC and NS are ignored
(DESIGN CHOICE, log 92). -/
def takeProc (d : Dev) (org : Origin) (e : TakeEntry) (acc : Int) (msg : Option (Nat × Nat)) : Dev :=
  let d := d.salvoExpire
  let byReg := match org with | .regs _ => true | _ => false
  let byMsg := msg.isSome
  let r : Nat × Bool × Dev :=
    if !d.flag HIF.TK_CTL_EN || (byReg && d.conFollows) then (0x0C, false, d)
    else if badEntry org e then (7, false, d)
    else if byMsg && !(e.type == 0 && e.salvo != 0) && decide (takeInst e < acc - nsTu 1000000000) then (0x0D, false, d)
    else if e.type = 0 then d.takeTake org e acc
    else if e.type = 1 then d.takeArm e acc
    else d.takeCancel e acc
  let d := if r.1 = 1 then
      (match org with | .journal _ => r.2.2 | _ => r.2.2.journal org e false msg).logAdd 1738 1
    else
      let out := if e.type = 1 then 0x7FF else e.out
      let d := r.2.2.takeFinal org out r.1 0 e.salvo
      if e.type = 0 && e.out < 1664 then d.set HIF.TK_QSTAT_LAST_CODE r.1 e.out else d
  d.takeAnswer org r.1 r.2.1

/-- The entry received first reaches its turn, where it is of one of the types (R151, R152, R153). While the control side is down none
is accepted (R135). -/
def takeTurn (d : Dev) (types : List Nat) : Dev :=
  match d.submitted with
  | [] => d
  | x :: rest =>
    if d.restarting || !types.contains x.entry.type then d
    else { d with submitted := rest }.takeProc x.origin x.entry d.timeTu none

/-- The FLUSH of an output (R152, R364). -/
def takeFlush (d : Dev) (o : Nat) (acc : Int) : Dev := d.takesDrop o 4 fun t => !d.committed o acc t

/-- The entry a master has staged, with OUT from its own XP.OUT_SEL for a TAKE (R152). -/
def staged (d : Dev) (m : Master) (o : Nat) : TakeEntry :=
  let e := takeParse ((List.range 4).flatMap fun k => leBytes 4 (d.get (HIF.TK_ENT_DATA k) m.code))
  if e.type = 0 then { e with out := o } else e

/-! ## Execution -/

/-- E of an engine: ENG_CFG.DLY, from 2 to 23 lines (R243, Table 9.12). -/
def engDelay (d : Dev) (e : Nat) : Nat := max 2 (min 23 (d.get PLT.ENG_CFG_DLY e))

/-- The timing test of a take at its switch point (R146, Table 5.5). -/
def takeTimed (d : Dev) (o s : Nat) : Bool :=
  let line : Int := ((fmtOf (d.outFmt o)).map lineTu).getD 0
  let near (x : Int) : Bool := decide (x ≤ line) && decide (Neg.neg line ≤ x)
  if s ≥ 1664 then true
  else if s < 1536 then
    near (d.swShift o) &&
      (if d.synced s then d.get FS.SYNC_CTL_CAD (mapGet d.syncOf (s, 0) 0 - 1) == d.outCad o
       else d.flag SLP.IN_STAT_TIMED s && d.get SLP.IN_CFG_CAD s == d.outCad o)
  else
    let engLine : Int := ((fmtOf (d.get PLT.ENG_CFG_FMT (engOf s))).map lineTu).getD 0
    d.get PLT.ENG_CFG_CAD (engOf s) == d.outCad o && near (d.swShift o - d.engDelay (engOf s) * engLine)

/-- A take falls due before the handover completes: it is deferred to the first switch point at or after H, where the
later acceptance stays (R150, R372). -/
def takeDefer (d : Dev) (o : Nat) (t : Take) (h : Int) : Dev :=
  let k := d.swFrame (h - d.swShift o) (o, t.field2)
  let t' := { t with due := some k, deferred := true }
  let d := (d.setTakes o ((d.takesOf o).erase t)).raise HIF.TK_EVT_DEFERRED
  if (d.takesOf o).any fun x => d.sameSwitch o k t.field2 x && decide (t.accAt ≤ x.accAt) then d.takeEnd o t' 3 0
  else d.takeJoin o t' k

/-- A take executes at its switch point (R141, R146 to R149). -/
def takeRun (d : Dev) (o : Nat) (t : Take) : Dev :=
  let d := d.setTakes o ((d.takesOf o).erase t)
  let mis := !d.takeTimed o t.src
  let absent := decide (t.src < 1664) && !d.srcPresent t.src
  let follows := t.afollow && decide (o < 1536)
  let old := d.srcAct o
  let d := (d.cut o t.src (d.srcSeq t.src)).raiseIf mis HIF.TK_EVT_MISTIMED
  let d := if follows then { d with follow := mapPut d.follow (o, 0) none (some (t.src, old != t.src)) } else d
  d.takeEnd o t 2 (2 * b2n mis + 8 * b2n follows + 16 * b2n absent)

/-- The switch point of a take has come (R139): the counter's line start of the switch line is next, in the counter frame nearest to the
due frame of the cadence or a later one. -/
def takeDue (d : Dev) (o : Nat) (t : Take) : Bool :=
  let x := d.outOf o
  let r := d.cadRate (d.outCad o)
  match t.due with
  | none => false
  | some k => x.run && x.line + 1 == d.swLine o t.field2 &&
      decide (2 * (frameTu r (d.cadOfs (d.outCad o)) k - x.frameT) < periodTu r)

/-- The switch point of an output's next take. -/
def takeExec (d : Dev) (o : Nat) : Dev :=
  if d.restarting then d
  else
    match d.nextTake o with
    | none => d
    | some t =>
      if d.takeDue o t then
        match d.handover, t.due with
        | some h, some k => if d.swPoint o t.field2 k < h then d.takeDefer o t h else d.takeRun o t
        | _, _ => d.takeRun o t
      else d

/-! ## Messages -/

/-- A take message arrives for checking (R157): at most 64 wait. -/
def takeMsgArrive (d : Dev) (bs : List Byte) : Dev :=
  if d.flag HIF.TK_CTL_EN && d.flag HIF.TK_CTL_MSG_EN && !d.restarting then
    if 64 ≤ d.takeMsgs.length then (d.count HIF.TK_CNT_DROP_COUNT).raise HIF.TK_EVT_MSG_OVF
    else { d with takeMsgs := d.takeMsgs ++ [bs] }
  else d

/-- A message fails one of the checks 2 to 5 (R156). -/
def takeMsgFail (d : Dev) (f : Fld) : Dev := (d.count HIF.TK_CNT_AUTH_COUNT).raise f

/-- A message's sequence number is above the last of its key slot (R156, check 5). -/
def seqNew (d : Dev) (key seq : Nat) : Bool :=
  match mapGet d.lastSeq (key, 0) none with
  | none => true
  | some q => decide (q < seq)

/-- The checks of a take message in their order, and its entries (R156, R364, Table 5.8). -/
def takeMsgCheck (d : Dev) (bs : List Byte) (tagOk : Bool) : Dev :=
  let f (a n : Nat) : Nat := leNat ((bs.drop a).take n)
  let n := f 1 1
  let key := f 4 1 % 32
  let target := f 2 2
  if target != d.get GLB.SYSID_SYSID && target != 0xFFFF then d
  else if f 0 1 != 1 || n == 0 || decide (32 < n) || decide (bs.length < 48 + 16 * n) then
    d.takeMsgFail HIF.TK_EVT_AUTH_FAIL
  else
    let u := d.keyUse key 3 tagOk
    let d := u.2
    if !u.1 then d.takeMsgFail HIF.TK_EVT_AUTH_FAIL
    else if hmacSha256 (d.keyBytes key) (bs.take (16 + 16 * n)) != (bs.drop (16 + 16 * n)).take 32 then
      d.takeMsgFail HIF.TK_EVT_AUTH_FAIL
    else if !d.seqNew key (f 8 8) then d.takeMsgFail HIF.TK_EVT_REPLAY
    else
      let d := { d.logAdd 1741 1 with lastSeq := mapPut d.lastSeq (key, 0) none (some (f 8 8)) }
      if d.conFollows then d
      else (List.range n).foldl (fun d i =>
        d.takeProc .msg (takeParse (bs.drop (16 + 16 * i))) d.timeTu (some (key, f 8 8))) d

end Dev

/-! ## Meanings -/

/-- TAKE_GO (R152): ignored while the window is closed or BUSY is set. -/
def execTakeGo (m : Master) (s : State) := s.go fun d =>
  match d.selOf m XP.OUT_SEL_SEL 1664 with
  | none => d
  | some o =>
    if d.flag HIF.TK_RES_BUSY m.code || d.restarting then d
    else { d.set HIF.TK_RES_BUSY 1 m.code with submitted := d.submitted ++ [⟨.regs m, d.staged m o⟩] }

/-- TAKE_FLUSH (R152, R364). -/
def execTakeFlush (m : Master) (s : State) := s.go fun d =>
  match d.selOf m XP.OUT_SEL_SEL 1664 with
  | none => d
  | some o =>
    if d.restarting then d
    else (d.takeFlush o d.timeTu).journal (.regs m) ⟨0, 0, o, 0, 0, false, false, false, 0⟩ true none

/-- TAKE_RING_ENTRY (R153): the engine takes the next element of the take ring, not in JOIN or STANDBY (R364). -/
def execTakeRingEntry (bytes : List Byte) (s : State) := s.go fun d =>
  if d.flag HIF.TK_CTL_EN && d.flag HIF.TK_CTL_RING_EN && !d.conFollows && !d.restarting then
    let r := d.qConsume (d.get HIF.TK_QUEUES_ENT_Q) 16
    if r.1 then { r.2 with submitted := r.2.submitted ++ [⟨.ring, takeParse bytes⟩] } else r.2
  else d

/-- TAKE_MESSAGE (R156, R157): a message arrives to wait, or the first that waits is checked. -/
def execTakeMessage (arriving : Option (List Byte)) (tagOk : Bool) (s : State) := s.go fun d =>
  match arriving with
  | some bs => d.takeMsgArrive bs
  | none =>
    if d.restarting then d
    else
      match d.takeMsgs with
      | [] => d
      | bs :: rest => { d with takeMsgs := rest }.takeMsgCheck bs tagOk

/-- TAKE_ENTRY (R130): the entry received first, where it is a TAKE; one of TYPE 3 ends with BAD_ENTRY here. -/
def execTakeEntry (s : State) := s.go fun d => d.takeTurn [0, 3]

/-- ARM_ENTRY (R143): the entry received first, where it is an ARM. -/
def execArmEntry (s : State) := s.go fun d => d.takeTurn [1]

/-- CANCEL_ENTRY (R133): the entry received first, where it is a CANCEL. -/
def execCancelEntry (s : State) := s.go fun d => d.takeTurn [2]

/-- TAKE_EXECUTE (R139, R141, R150). -/
def execTakeExecute (o : Slot) (s : State) := s.go fun d => d.takeExec o

/-- SALVO_EXPIRY (R143): the time of an open salvo has run out. -/
def execSalvoExpiry (salvo : BitVec 16) (s : State) := s.go fun d =>
  if d.salvos.any fun v => v.id == salvo.toNat && d.salvoOver v then d.salvoEnd salvo.toNat 9 else d

/-- TAKE_ENGINE_ENABLE (R134). -/
def execTakeEngineEnable (en : Bool) (s : State) := s.go fun d =>
  let was := d.flag HIF.TK_CTL_EN
  let d := d.put HIF.TK_CTL_EN en
  if was && !en then { d.takesDropAll 0x0C (fun _ _ => true) with salvos := [] } else d

/-- TK_CNT_CLR (R158). -/
def execTkCntClr (s : State) := s.go fun d =>
  d.clear [HIF.TK_CNT_EXE_COUNT, HIF.TK_CNT_REJ_COUNT, HIF.TK_CNT_AUTH_COUNT, HIF.TK_CNT_DROP_COUNT,
    HIF.TK_CNT_RES_OVF_COUNT, HIF.TK_CNT_LOST_COUNT]

end Sys2Proof.Machine
end

