-- ==== Sys2Proof/Machine/Flw.lean ====
section
/-!
DEFINITION. Sys2Proof/Machine/Flw.lean: received frames and their classification, the flow contexts and bundles, egress
packets and the host rings (chapter 7, R164 to R169).
-/

namespace Sys2Proof.Machine

/-! ## Frames -/

/-- An Ethernet frame's tag and the rest: PCP and VID of an IEEE 802.1Q tag where there is one, the EtherType, and the bytes
after it. -/
structure EthParts where
  tag : Option (Nat × Nat)
  etype : Nat
  payload : List Byte
  deriving DecidableEq, Repr

/-- The parts of a frame without FCS; an IEEE 802.1ad tag is no tag (R162). -/
def ethParts (bs : List Byte) : EthParts :=
  if beAt bs 12 2 = 0x8100 then ⟨some (beAt bs 14 2 / 8192, beAt bs 14 2 % 4096), beAt bs 16 2, bs.drop 18⟩
  else ⟨none, beAt bs 12 2, bs.drop 14⟩

/-- A UDP datagram: its IP version, addresses, ports, whether its IPv4 header checksum is right, and its data. -/
structure Udp where
  v6 : Bool
  src : Nat
  dst : Nat
  dport : Nat
  ckOk : Bool
  data : List Byte
  deriving DecidableEq, Repr

/-- The one's complement sum of the 16-bit words of a list of bytes, folded. -/
def sum16 : List Byte → Nat
  | [] => 0
  | [a] => a.toNat * 256
  | a :: b :: r =>
    let s := a.toNat * 256 + b.toNat + sum16 r
    s % 65536 + s / 65536

/-- The datagram of an IPv4 packet without fragmentation or an IPv6 packet with UDP as the next header (R182, rule 3). -/
def udpOf (p : EthParts) : Option Udp :=
  let b := p.payload
  if p.etype = 0x0800 && beAt b 0 1 / 16 = 4 then
    let h := beAt b 0 1 % 16 * 4
    if 20 ≤ h && beAt b 6 2 % 0x4000 = 0 && beAt b 9 1 = 17 && h + 8 ≤ b.length then
      let udp := (b.take (beAt b 2 2)).drop h
      some ⟨false, beAt b 12 4, beAt b 16 4, beAt udp 2 2, sum16 (b.take h) == 0xFFFF, (udp.take (beAt udp 4 2)).drop 8⟩
    else none
  else if p.etype = 0x86DD && beAt b 0 1 / 16 = 6 && beAt b 6 1 = 17 && 48 ≤ b.length then
    let udp := (b.drop 40).take (beAt b 4 2)
    some ⟨true, beAt b 8 16, beAt b 24 16, beAt udp 2 2, true, (udp.take (beAt udp 4 2)).drop 8⟩
  else none

/-- An RTP packet: version, marker, payload type, sequence number, timestamp, SSRC and payload; CSRC lists and header extensions are
skipped (Table 7.1), and padding is left out. -/
structure Rtp where
  ver : Nat
  marker : Bool
  pt : Nat
  seq : Nat
  stamp : Nat
  ssrc : Nat
  payload : List Byte
  deriving DecidableEq, Repr

def rtpOf (b : List Byte) : Rtp :=
  let cc := beAt b 0 1 % 16
  let r := b.drop (12 + 4 * cc)
  let r := if (beAt b 0 1).testBit 4 then r.drop (4 + 4 * beAt r 2 2) else r
  let r := if (beAt b 0 1).testBit 5 then r.take (r.length - (r.getLastD 0).toNat) else r
  ⟨beAt b 0 1 / 64, decide (128 ≤ beAt b 1 1), beAt b 1 1 % 128, beAt b 2 2, beAt b 4 4, beAt b 8 4, r⟩

/-- Do the sample row data of an ST 2110-20 payload lie inside a geometry (R183)? The headers must be whole, and the last of three not
promise another. -/
def srdOk (fmt depth : Nat) (b : List Byte) : Bool :=
  let g := geometry fmt
  let hs := (srdHeads 3 b).1
  decide (6 * hs.length ≤ b.length) && !(hs.length == 3 && decide (32768 ≤ beAt b 16 2)) &&
    hs.all fun h => decide (h.2.row < g.2.1) && (g.2.2 || !h.2.field2) &&
      decide (h.2.ofs + h.1 / pgroup depth * 2 ≤ g.1) && h.1 % pgroup depth == 0

/-- The distance of two keys modulo 2^32. -/
def keyDist (a b : Nat) : Nat := min ((a + 2 ^ 32 - b) % 2 ^ 32) ((b + 2 ^ 32 - a) % 2 ^ 32)

/-- A 16-bit sequence number unwrapped to the 32-bit key nearest the highest seen (R193). -/
def unwrapSeq (hi : Option Nat) (seq : Nat) : Nat :=
  match hi with
  | none => seq
  | some h =>
    let up := (seq + 65536 - h % 65536) % 65536
    if up ≤ 32768 then (h + up) % 2 ^ 32 else (h + 2 ^ 32 - (65536 - up)) % 2 ^ 32

namespace Dev

def flow (d : Dev) (c : Nat) : FlowCtx := mapGet d.flows (c, 0) FlowCtx.init
def setFlow (d : Dev) (c : Nat) (x : FlowCtx) : Dev := { d with flows := mapPut d.flows (c, 0) FlowCtx.init x }

def ctxRuns (d : Dev) (c : Nat) : Bool := d.flag FLW.CTX_STAT_RUN c

/-- The contexts that run, in rising order. -/
def running (d : Dev) : List Nat := (d.flows.map (·.1.1)).filter d.ctxRuns

def role (d : Dev) (c : Nat) : Nat := d.get FLW.CTX_CTL_ROLE c
def bundleOf (d : Dev) (c : Nat) : Nat := d.get FLW.CTX_CTL_BUNDLE c

/-- Is leg g enabled on an ingress context? LEGS 0b00 is treated as 0b01 (Table 7.11). -/
def legOn (d : Dev) (c g : Nat) : Bool :=
  let l := d.get FLW.CTX_CTL_LEGS c
  (if l = 0 then 1 else l).testBit g

/-- The destination or source address of a leg, as a number (Table 7.13). -/
def legDst (d : Dev) (c g : Nat) (v6 : Bool) : Nat :=
  let w (f : Nat → Fld) := d.get (f g) c
  if v6 then ((w FLW.LEG_DST_0_ADDR * 2 ^ 32 + w FLW.LEG_DST_1_ADDR) * 2 ^ 32 + w FLW.LEG_DST_2_ADDR) * 2 ^ 32 +
    w FLW.LEG_DST_3_ADDR else w FLW.LEG_DST_0_ADDR
def legSrc (d : Dev) (c g : Nat) (v6 : Bool) : Nat :=
  let w (f : Nat → Fld) := d.get (f g) c
  if v6 then ((w FLW.LEG_SRC_0_ADDR * 2 ^ 32 + w FLW.LEG_SRC_1_ADDR) * 2 ^ 32 + w FLW.LEG_SRC_2_ADDR) * 2 ^ 32 +
    w FLW.LEG_SRC_3_ADDR else w FLW.LEG_SRC_0_ADDR

/-- Does a datagram match leg g of an ingress context (R184)? -/
def legMatch (d : Dev) (c g m vid : Nat) (u : Udp) : Bool :=
  d.legOn c g && d.get (FLW.LEG_MAC_MAC g) c == m && d.flag FLW.CTX_CTL_IPV6 c == u.v6 &&
    d.legDst c g u.v6 == u.dst && d.get (FLW.LEG_PORT_DST_PORT g) c == u.dport &&
    (!d.flag (FLW.LEG_MAC_VID_CHK g) c || d.get (FLW.LEG_MAC_VID g) c == vid) &&
    (!d.flag (FLW.LEG_MAC_SRC_CHK g) c || d.legSrc c g u.v6 == u.src)

/-- The lowest-numbered running ingress context that a datagram matches, with the leg (R182). -/
def findCtx (d : Dev) (m vid : Nat) (u : Udp) : Option (Nat × Nat) :=
  ((d.running.filter (· < 4096)).flatMap fun c => [(c, 0), (c, 1)]).find? fun x => d.legMatch x.1 x.2 m vid u

/-- A header error (R183, R191). -/
def hdrErr (d : Dev) : Dev := (d.count FLW.CNT_HDR_ERR_COUNT).raise FLW.BLK_EVT_HDR_ERR

/-- A leg delivers a packet (R192): a lost leg is back. -/
def legBack (d : Dev) (c g : Nat) : Dev :=
  if (d.get FLW.CTX_STAT_LEG_ACT c).testBit g then d
  else (d.putBit FLW.CTX_STAT_LEG_ACT g true c).raise
    (if g = 0 then FLW.CTX_EVT_LEG_BACK_0 else FLW.CTX_EVT_LEG_BACK_1) c

/-- Cells held by an ingress context and its queue's status (R194, Table 7.19). -/
def setCells (d : Dev) (c : Nat) (x : FlowCtx) : Dev :=
  let n := (x.pkts.map (·.cells)).sum
  let d := (d.setFlow c x).set QM.Q_STAT_FILL n c
  let d := d.put QM.Q_STAT_FULL (decide (d.get QM.Q_QUOTA_CELLS c ≤ n) && n != 0) c
  d.set QM.Q_HWM_HWM (max n (d.get QM.Q_HWM_HWM c)) c

/-- How far a timestamp lies after another, both modulo 2^32. -/
def stampAfter (a b : Nat) : Int := toSigned 32 (a + 2 ^ 32 - b)

/-- Units in a period of a media clock (R185): 27 MHz for ST 2022-6, 90 kHz for ST 2110-20. -/
def clockTu (sdi : Bool) : Nat := 1000000000 * tuPerNs / (if sdi then 27000000 else 90000)

/-- The 48 kHz tick that has passed last (R279). -/
def tickNow (d : Dev) : Nat := d.time * 48000 / (1000000000 * 2 ^ 40)

def bdl (d : Dev) (b : Nat) : BdlUnit := mapGet d.bdls (b, 0) BdlUnit.init
def setBdl (d : Dev) (b : Nat) (u : BdlUnit) : Dev := { d with bdls := mapPut d.bdls (b, 0) BdlUnit.init u }

/-- A bundle's format, where it has one. -/
def bdlFmt (d : Dev) (b : Nat) : Option Fmt := fmtOf (d.get (FLW.BDL_CTL_FMT b))

/-- The interface frame to which a timestamp of a bundle's 90 kHz flows belongs, counted from the one that plays, and whether it belongs
to its second half; `second` where the packet itself says field 2. None before a frame has played. -/
def stampFrame (d : Dev) (b stamp : Nat) (second : Bool) : Option (Int × Bool) :=
  match (d.bdl b).stamp, d.bdlFmt b with
  | some s, some f =>
    let p : Int := periodTu (f.num, f.den)
    let x := stampAfter stamp s * (clockTu false : Nat)
    if f.s = 4 then
      let h := (2 * x + p / 2) / p
      some (h / 2, h % 2 == 1)
    else
      let y := if second then x - p / 2 else x
      some ((y + p / 2) / p, second)
  | _, _ => none

/-- Where a packet of a video or ancillary context says field 2. -/
def pktSecond (role : Nat) (data : List Byte) : Bool :=
  if role = 0 then ((srdsOf (data.drop 2)).headD ⟨0, false, 0, []⟩).field2 else (role == 4 && beAt data 5 1 / 64 == 3)

/-- The interface lines that a packet's samples or ancillary packets belong to, in its frame; an ancillary packet without a specific
line counts as the last (R96). -/
def pktLines (f : Fmt) (role : Nat) (second : Bool) (data : List Byte) : List Nat :=
  if role = 0 then (srdsOf (data.drop 2)).map fun x => rowLine f x.row second
  else (ancPayload (data.drop 2)).map fun a => if a.line = 0x7FF then f.lines else a.line

/-- The frame of an ST 2022-6 flow to which a datagram belongs, counted from the one that plays, and the octet of the frame at which its
media payload begins; none before a frame has played. -/
def gramAt (d : Dev) (b key : Nat) (f : Fmt) : Option (Int × Nat) :=
  (d.bdl b).first.map fun k =>
    let i := stampAfter key k
    let n : Int := frameGrams f
    (i / n, (i % n).toNat * mediaOct)

/-- A packet's place in time against what its samples' positions need (R187): (first, last) line of its samples relative to the line
under way, in frames × lines; positive lies ahead. For audio, in ticks. None where nothing has played yet. -/
def pktAhead (d : Dev) (c key stamp : Nat) (data : List Byte) : Option (Int × Int) :=
  let b := d.bundleOf c
  let r := d.role c
  let g := d.genOf (1152 + b)
  match d.bdlFmt b with
  | none => none
  | some f =>
    let span (q : Int) (ls : List Nat) : Int × Int :=
      let z : Int := q * (f.lines : Nat) - (g.line : Nat)
      (z + (ls.foldl min f.lines : Nat), z + (ls.foldl max 0 : Nat))
    if r = 1 then
      (d.gramAt b key f).map fun o =>
        let line (x : Nat) : Nat := x / (f.wpl * 5 / 4) + 1
        span o.1 [line o.2, min f.lines (line (o.2 + mediaOct - 1))]
    else if r = 2 || r = 3 then
      let nch := max 1 (d.get FLW.CTX_MEDIA_NCH c)
      let n := data.length / ((if r = 3 then 4 else if d.flag FLW.CTX_MEDIA_L16 c then 2 else 3) * nch)
      let t := stampAfter (stamp + d.getAct (FLW.BDL_PLAY_AUD_DELAY b)) (d.tickNow % 2 ^ 32)
      some (t, t + (n - 1 : Nat))
    else
      let second := pktSecond r data
      (d.stampFrame b stamp second).map fun q => span q.1 (pktLines f r q.2 data)

/-- A packet with its key is merged and buffered (R187, R193, R194): of two copies in one cycle leg 0's is kept (Table 7.6). -/
def keyAccept (d : Dev) (c : Nat) (p : HeldPkt) : Dev :=
  let x := d.flow c
  let far := match x.hi with | some h => decide (32768 < keyDist p.key h) | none => false
  let d := d.raiseIf far FLW.CTX_EVT_RESYNC c
  let x := if far then { x with hi := some p.key, seen := [], left := none } else x
  if x.seen.contains p.key then
    let swap (q : HeldPkt) : HeldPkt := if q.key = p.key && q.cc = p.cc && decide (p.leg < q.leg) then { p with cells := q.cells } else q
    (d.setFlow c { x with pkts := x.pkts.map swap }).count FLW.CNT_DUP_COUNT 1 c
  else
    let hi := match x.hi with
      | some h => if (p.key + 2 ^ 32 - h) % 2 ^ 32 ≤ 32768 then p.key else h
      | none => p.key
    let x := { x with hi := some hi, seen := p.key :: x.seen.filter (fun k => keyDist k hi ≤ 32768),
                      left := some (x.left.getD ((p.key + 2 ^ 32 - 1) % 2 ^ 32)) }
    let d := d.setFlow c x
    if (d.pktAhead c p.key p.stamp p.data).any fun a => decide (a.1 ≤ 0) then (d.count FLW.CNT_LATE_COUNT 1 c).raise FLW.CTX_EVT_LATE c
    else if (x.pkts.map (·.cells)).sum + p.cells > d.get QM.Q_QUOTA_CELLS c then d.count QM.Q_CNT_OVF_COUNT 1 c
    else d.setCells c { x with pkts := insertBy (fun a b => decide (stampAfter a.key b.key < 0)) p x.pkts }

/-- Packets whose last sample has left leave their cells, and the keys before the last of them that have not arrived are lost (R193,
R194). -/
def leavePkts (d : Dev) (c : Nat) (gone : HeldPkt → Bool) : Dev :=
  let x := d.flow c
  match (x.pkts.filter gone).getLast? with
  | none => d
  | some h =>
    let l := x.left.getD h.key
    let n := stampAfter h.key l
    let lost := if n ≤ 0 then 0 else (List.range (n.toNat - 1)).countP fun i => !x.seen.contains ((l + 1 + i) % 2 ^ 32)
    let d := d.setCells c { x with pkts := x.pkts.filter fun p => !gone p, left := some (if n ≤ 0 then l else h.key) }
    if lost = 0 then d else (d.count FLW.CNT_LOST_COUNT lost c).raise FLW.CTX_EVT_LOST c

/-- The packets of a context whose last line, or last tick, is over leave (R194; DESIGN CHOICE, log 99). -/
def leavePast (d : Dev) (c : Nat) : Dev :=
  d.leavePkts c fun p => (d.pktAhead c p.key p.stamp p.data).any fun a => decide (a.2 < (if d.role c = 2 || d.role c = 3 then 1 else 0))

/-- A datagram that reaches a context (R182 rule 3, R183, R191, R193). -/
def ctxPacket (d : Dev) (c g : Nat) (u : Udp) : Dev :=
  let p := rtpOf u.data
  let role := d.role c
  let fmt := d.get (FLW.BDL_CTL_FMT (d.bundleOf c)) 0
  let bad := !u.ckOk || p.ver != 2 || (d.flag FLW.CTX_MEDIA_PT_CHK c && d.get FLW.CTX_MEDIA_PT c != p.pt) ||
    (d.flag FLW.CTX_CTL_SSRC_CHK c && d.get FLW.CTX_SSRC_SSRC c != p.ssrc) ||
    (role == 0 && !srdOk fmt (d.get FLW.CTX_MEDIA_DEPTH c) (p.payload.drop 2)) || (role == 1 && (hbrmtOf p.payload).1 != fmt)
  if !d.flag (FLW.BDL_STAT_RUN (d.bundleOf c)) then d
  else if bad then d.hdrErr
  else
    let d := (d.count (if g = 0 then FLW.CNT_PKT_0_COUNT else FLW.CNT_PKT_1_COUNT) 1 c).legBack c g
    let x := d.flow c
    let d := d.setFlow c { x with legAt := if g = 0 then (d.cc, x.legAt.2) else (x.legAt.1, d.cc) }
    let key := if role = 0 then beAt p.payload 0 2 * 65536 + p.seq else unwrapSeq x.hi p.seq
    d.keyAccept c ⟨key, (p.payload.length + 16 + 255) / 256, p.stamp, p.marker, g, d.cc, p.payload⟩

/-- A frame for the host receive queue of its MAC (R182, R212, R327). -/
def hostRx (d : Dev) (m : Nat) (bs : List Byte) (trunc : Bool) (tc : Nat) (tag : Option (Nat × Nat)) (vid : Nat) : Dev :=
  if d.flag (FLW.HQ_RX_EN m) then
    let q := d.get (FLW.HQ_RXQ m)
    let room := 2 ^ d.get QM.Q_CFG_ESZ q - 32
    let bytes := bs.take room
    let ts := if m < 32 then (d.get TIM.TS_RX_0_RX_TS).testBit m else (d.get TIM.TS_RX_1_RX_TS).testBit (m - 32)
    let flags := 3 * b2n trunc + 4 * b2n (decide (room < bs.length)) + 8 * b2n ts + 16 * tc + 128 * b2n tag.isSome
    let pcp := match tag with | some (p, _) => p | none => 0
    let stamp := if ts then leBytes 6 d.timeSec ++ leBytes 4 d.timeNs ++ leBytes 2 (d.time / 2 ^ 24) else List.replicate 12 0
    (d.qProduce q (leBytes 2 bytes.length ++ [BitVec.ofNat 8 m, BitVec.ofNat 8 flags] ++ leBytes 2 (vid + pcp * 8192) ++
      [0, 0] ++ stamp ++ List.replicate 12 0 ++ bytes)).2
  else (d.count FLW.CNT_NOMATCH_COUNT).raise FLW.BLK_EVT_NOMATCH

/-- The address filter (R165). -/
def addrOk (d : Dev) (m dst : Nat) : Bool :=
  d.flag MAC.CFG_PROMISC m || dst == d.get MAC.ADDR_HI_ADDR_H m * 2 ^ 32 + d.get MAC.ADDR_LO_ADDR_L m ||
    (dst == 0xFFFFFFFFFFFF && d.flag MAC.CFG_BCAST m) ||
    (dst.testBit 40 && d.flag MAC.CFG_ALL_MC m)

/-- The VID in force of a frame that the VLAN rule accepts (R166). -/
def vlanOf (d : Dev) (m : Nat) (tag : Option (Nat × Nat)) : Option Nat :=
  let pvid := d.get MAC.VLAN_CFG_PVID m
  let v := match tag with | some (_, v) => v | none => 0
  if v = 0 then (if d.flag MAC.VLAN_CFG_UNTAG_OK m then some pvid else none)
  else if v = 4095 then none
  else if !d.flag MAC.VLAN_CFG_VLAN_FILT m || v == pvid ||
      (List.range 16).any fun n => d.flag (MAC.VLAN_EN n) m && d.get (MAC.VLAN_VID n) m == v then some v
  else none

/-- The receive traffic class of a frame (R167). -/
def rxClass (d : Dev) (m : Nat) (tag : Option (Nat × Nat)) : Nat :=
  match tag with
  | some (p, _) => d.get ⟨0x00400114, 3 * p, 3⟩ m
  | none => 0

/-- Is a frame a take message (R155)? -/
def isTakeMsg (d : Dev) (p : EthParts) : Bool :=
  d.flag HIF.TK_CTL_EN && d.flag HIF.TK_CTL_MSG_EN && p.etype == 0x88B5 &&
    (match p.tag with
     | some (_, v) => v == d.get HIF.TK_VLAN_VID && v != 0 && v != 4095
     | none => false)

/-- The classification of a frame that is handed on (R182). -/
def classify (d : Dev) (m : Nat) (bs : List Byte) (p : EthParts) (trunc : Bool) (vid tc : Nat) : Dev :=
  if d.isTakeMsg p then (if trunc then d else d.takeMsgArrive p.payload)
  else if trunc then d.hostRx m bs true tc p.tag vid
  else
    match udpOf p with
    | none => d.hostRx m bs false tc p.tag vid
    | some u =>
      match d.findCtx m vid u with
      | some (c, g) => d.ctxPacket c g u
      | none => d.hostRx m bs false tc p.tag vid

/-- A received frame, FCS included (R164 to R169): counted in the first drop counter that applies, or handed on. -/
def rxFrame (d : Dev) (m : Nat) (bytes : List Byte) (i : RxInfo) : Dev :=
  let len := bytes.length
  let d := d.bwAdd (74 + m) len
  let p := ethParts (bytes.take (len - 4))
  let tc := d.rxClass m p.tag
  let tooLong := decide (d.maxLen m < len)
  let fcsOk := crc32 (bytes.take (len - 4)) == leNat (bytes.drop (len - 4))
  if d.rxShare m - (if tc = 7 then 0 else 16384) < i.held + len then
    (d.macCount cRxOvf 1 m).raise MAC.EVT_STAT_RX_OVF m
  else if len < 64 then d.macCount cRxRunt 1 m
  else if i.cut || (!tooLong && !fcsOk) then d.macCount cRxFcs 1 m
  else if p.etype = 0x8808 then d.macCount cRxPause 1 m
  else if !d.addrOk m (beAt bytes 0 6) then d.macCount cRxFilt 1 m
  else
    match d.vlanOf m p.tag with
    | none => d.macCount cRxVlan 1 m
    | some vid =>
      let n := min len (d.maxLen m)
      let d := ((d.macCount cRxFrames 1 m).macCount cRxOctets n m).logAdd (74 + m) 1
      let d := if tooLong then (d.macCount cRxOversize 1 m).raise MAC.EVT_STAT_RX_OVERSIZE m else d
      let body := if tooLong then bytes.take n else bytes.take (len - 4)
      d.classify m body (ethParts body) tooLong vid tc

/-! ## Contexts (R181, R194, R203, R204) -/

/-- The kind of a role: video, audio with its index, or ancillary. -/
def roleKind (d : Dev) (c : Nat) : Nat × Nat :=
  let r := d.role c
  if r ≤ 1 then (0, 0) else if r ≤ 3 then (1, d.get FLW.CTX_CTL_AIDX c) else (2, 0)

/-- Are two contexts of one direction? -/
def sameDir (a b : Nat) : Bool := decide (a < 4096) == decide (b < 4096)

/-- Are two egress contexts the two legs of one flow? -/
def partner (a b : Nat) : Bool := decide (4096 ≤ a) && decide (4096 ≤ b) && a / 2 == b / 2 && a != b

/-- The fields of a context that its table marks invalid (R181, Tables 7.11 and 7.12). -/
def mediaBad (d : Dev) (c : Nat) : Bool :=
  let r := d.role c
  let nch := d.get FLW.CTX_MEDIA_NCH c
  decide (4 < r) || decide (383 < d.bundleOf c) || (decide (r ≤ 1) && d.get FLW.CTX_MEDIA_DEPTH c == 3) ||
    ((r == 2 || r == 3) && (nch == 0 || decide (16 < nch) ||
      (decide (4096 ≤ c) && decide (16 < d.get FLW.CTX_MEDIA_CH_FIRST c + nch))))

/-- The fields in which a second leg differs from its running partner (R203). -/
def legDiffers (d : Dev) (a b : Nat) : Bool :=
  [FLW.CTX_CTL_LEGS, FLW.CTX_CTL_ROLE, FLW.CTX_CTL_AIDX, FLW.CTX_CTL_SSRC_CHK, FLW.CTX_CTL_BUNDLE].any
      (fun f => d.get f a != d.get f b) ||
    [0x00500104, 0x00500108, 0x0050010C].any fun off => d.reg off a != d.reg off b

/-- A unicast destination (R204). -/
def unicast (d : Dev) (c : Nat) : Bool :=
  if d.flag FLW.CTX_CTL_IPV6 c then d.get (FLW.LEG_DST_0_ADDR 0) c / 2 ^ 24 != 0xFF
  else d.get (FLW.LEG_DST_0_ADDR 0) c / 2 ^ 28 != 0xE

/-- Does a start check fail (R181, R203, R204)? -/
def ctxBad (d : Dev) (c : Nat) : Bool :=
  let others := d.running.filter fun x => x != c && sameDir x c && d.bundleOf x == d.bundleOf c
  let others' := others.filter fun x => !partner x c
  d.mediaBad c || others'.any (fun x => d.roleKind x == d.roleKind c) ||
    others.any (fun x => decide (d.role x ≤ 1) && decide (d.role c ≤ 1) && d.role x != d.role c) ||
    (decide (2 ≤ d.role c) && others.any fun x => d.role x == 1) ||
    (d.role c == 1 && others.any fun x => decide (2 ≤ d.role x)) ||
    (d.running.any fun x => partner x c && d.legDiffers x c) ||
    (decide (4096 ≤ c) && !d.flag (FLW.LEG_QOS_USE_DMAC 0) c && d.unicast c)

/-- The output stage of an egress context's bundle sends nothing (R196). -/
def egressWaits (d : Dev) (c : Nat) : Bool :=
  let o := 1152 + d.bundleOf c
  !d.outRuns o || !fmtValid (d.outFmt o)

/-- VIDEO of a bundle: a video context runs (Table 7.9). -/
def refreshVideo (d : Dev) (b : Nat) : Dev :=
  d.put (FLW.BDL_STAT_VIDEO b) (d.running.any fun x => decide (x < 4096) && d.bundleOf x == b && decide (d.role x ≤ 1)) 0

/-- The bundle's slot becomes absent (R192). -/
def bdlAbsent (d : Dev) (b : Nat) : Dev :=
  if d.flag (FLW.BDL_STAT_PRESENT b) then
    ((d.put (FLW.BDL_STAT_PRESENT b) false).raise (FLW.BDL_EVT_ABSENT b)).refreshPresence (1152 + b) false
  else d

/-- Is BDL_CTL.FMT accepted (R216)? A code of Table 3.2, up to 0x14 while the video context is ST 2022-6. -/
def bdlFmtOk (d : Dev) (b : Nat) : Bool :=
  let fmt := d.get (FLW.BDL_CTL_FMT b)
  let sdi := d.running.any fun c => decide (c < 4096) && d.bundleOf c == b && d.role c == 1
  fmtValid fmt && !(sdi && decide (0x14 < fmt))

/-- The bundle runs while EN = 1 and its format is accepted; CFG_ERR otherwise (R216). A stop makes its slot absent (R192), and the packets
held are dropped (DESIGN CHOICE, log 102). -/
def bdlRefresh (d : Dev) (b : Nat) : Dev :=
  let en := d.flag (FLW.BDL_CTL_EN b)
  if en && d.bdlFmtOk b then
    let d' := d.put (FLW.BDL_STAT_CFG_ERR b) false
    if d.flag (FLW.BDL_STAT_RUN b) then d'
    else (d'.put (FLW.BDL_STAT_RUN b) true).commit (0x00508004 + 16 * b) 0
  else
    let d := (d.put (FLW.BDL_STAT_CFG_ERR b) en).put (FLW.BDL_STAT_RUN b) false
    let d := ((d.bdlAbsent b).setBdl b BdlUnit.init).genStop (1152 + b)
    (d.running.filter fun c => decide (c < 4096) && d.bundleOf c == b).foldl (fun d c =>
      d.setCells c { d.flow c with pkts := [], left := none }) d

/-- A context starts or is refused (R181, R194). -/
def ctxStart (d : Dev) (c : Nat) : Dev :=
  if d.ctxRuns c then d
  else if d.ctxBad c then (d.put FLW.CTX_STAT_CFG_ERR true c).raise FLW.CTX_EVT_CFG_ERR c
  else if c < 4096 && d.get QM.Q_QUOTA_CELLS c > d.get QM.CELL_STAT_FREE then
    ((d.put FLW.CTX_STAT_CFG_ERR false c).put FLW.CTX_STAT_QUOTA_ERR true c).raise FLW.CTX_EVT_QUOTA_ERR c
  else
    let fresh := !(d.running.any fun x => partner x c)
    let d := (d.clear [FLW.CTX_STAT_CFG_ERR, FLW.CTX_STAT_QUOTA_ERR] c).put FLW.CTX_STAT_RUN true c
    let d := (d.setFlow c { FlowCtx.init with run := true }).put QM.Q_STAT_RUN true c
    if c < 4096 then
      let d := d.set QM.CELL_STAT_FREE (d.get QM.CELL_STAT_FREE - d.get QM.Q_QUOTA_CELLS c)
      let d := d.set FLW.CTX_STAT_LEG_ACT (b2n (d.legOn c 0) + 2 * b2n (d.legOn c 1)) c
      let d := d.setFlow c { d.flow c with legAt := (d.cc, d.cc) }
      let b := d.bundleOf c
      let d := if d.role c ≤ 1 then d.setBdl b { d.bdl b with stamp := none, first := none, next := none } else d
      (d.refreshVideo b).bdlRefresh b
    else
      let d := d.put FLW.CTX_STAT_WAIT (d.egressWaits c) c
      if fresh then
        let r := d.draw
        { r.2 with flowSeq := mapPut r.2.flowSeq ((c - 4096) / 2, 0) 0 (r.1 % 2 ^ 32) }
      else d

/-- A context stops (R194): its cells and its quota are returned at once. -/
def ctxStop (d : Dev) (c : Nat) : Dev :=
  if d.ctxRuns c then
    let d := (d.clear [FLW.CTX_STAT_RUN, FLW.CTX_STAT_WAIT, FLW.CTX_STAT_LEG_ACT] c).setFlow c FlowCtx.init
    let d := d.clear [QM.Q_STAT_RUN, QM.Q_STAT_FILL, QM.Q_STAT_FULL] c
    if c < 4096 then
      let d := (d.set QM.CELL_STAT_FREE (d.get QM.CELL_STAT_FREE + d.get QM.Q_QUOTA_CELLS c)).refreshVideo (d.bundleOf c)
      d.bdlRefresh (d.bundleOf c)
    else
      let o := 1152 + d.bundleOf c
      let d := if d.egressOn (d.bundleOf c) then d else { d with outQ := mapPut d.outQ (o, 0) [] [] }.setEgr o EgrUnit.init
      let f := (c - 4096) / 2
      if d.running.any fun x => decide (4096 ≤ x) && (x - 4096) / 2 == f then d else { d with egAud := mapPut d.egAud (f, 0) [] [] }
  else d

/-- WAIT of the egress contexts of a bundle follows its output stage (R196). -/
def refreshWait (d : Dev) (b : Nat) : Dev :=
  (d.running.filter fun c => decide (4096 ≤ c) && d.bundleOf c == b).foldl (fun d c =>
    d.put FLW.CTX_STAT_WAIT (d.egressWaits c) c) d

/-! ## Bundles (R185 to R193, R216) -/

/-- A write of BDL_CTL.EN (R192, R216). -/
def bdlEnable (d : Dev) (b : Nat) (en : Bool) : Dev := (d.put (FLW.BDL_CTL_EN b) en).bdlRefresh b

/-- A 32-bit timestamp unwrapped to the instant nearest the present time, in units (R185). -/
def rtpInst (d : Dev) (rtp tu : Nat) : Int :=
  let now : Int := d.timeTu / (tu : Int)
  let k : Int := (rtp : Int) - now % (2 ^ 32 : Nat)
  let k := if k ≥ 2 ^ 31 then k - 2 ^ 32 else if k < Neg.neg (2 ^ 31) then k + 2 ^ 32 else k
  (now + k) * tu

/-- The reference instant of a frame (R185), in Chronometer time. -/
def refInst (d : Dev) (b : Nat) (tau : Int) (tu : Nat) : Int :=
  let c := d.get (FLW.BDL_CTL_CAD b)
  let k := firstFrame (d.cadRate c) (d.cadOfs c) 0 (tau - d.resTu)
  let f := frameTu (d.cadRate c) (d.cadOfs c) k + d.resTu
  if f < tau + tu then f else tau

/-- The video context of a bundle. -/
def videoCtx (d : Dev) (b : Nat) : Option Nat := d.running.find? fun c => decide (c < 4096) && d.bundleOf c == b && decide (d.role c ≤ 1)

/-- The frame that plays next (R185): its timestamp and, for ST 2022-6, the key of its first datagram. It is the next that has packets; an
ST 2022-6 frame is found behind a marker, or behind the frame before it. Where the flow has lost a whole frame, the next one is
reckoned a frame period on. -/
def nextFrame (d : Dev) (b c : Nat) (f : Fmt) : Option (Nat × Option Nat) :=
  let u := d.bdl b
  let ps := (d.flow c).pkts
  let period (sdi : Bool) : Nat := periodTu (f.num, f.den) / clockTu sdi
  if d.role c = 1 then
    let n := frameGrams f
    let marked := ps.find? fun p => ps.any fun q => q.marker && (q.key + 1) % 2 ^ 32 == p.key
    match u.stamp, u.first with
    | some s, some k =>
      let k' := (k + n) % 2 ^ 32
      match ps.find? fun p => decide (0 ≤ stampAfter p.key k') && decide (stampAfter p.key k' < n) with
      | some p => some (p.stamp, some k')
      | none =>
        match marked.filter fun p => decide (stampAfter p.key k' < 0) || decide (n ≤ stampAfter p.key k') with
        | some p => some (p.stamp, some p.key)
        | none => some ((s + period true) % 2 ^ 32, some k')
    | _, _ => marked.map fun p => (p.stamp, some p.key)
  else
    let first (p : HeldPkt) : Bool := !pktSecond 0 p.data
    match u.stamp with
    | none => (ps.find? first).map fun p => (p.stamp, none)
    | some s =>
      match ps.find? fun p => first p && (d.stampFrame b p.stamp false).any (fun q => decide (1 ≤ q.1) && !q.2) with
      | some p => some (p.stamp, none)
      | none => some ((s + period false) % 2 ^ 32, none)

/-- A frame of a bundle's raster is chosen, with its target instant (R185, R186): the raster starts with it, or re-phases to it where it
would arrive more than a line away (R188). -/
def bdlFrame (d : Dev) (b : Nat) : Dev :=
  match d.videoCtx b, d.bdlFmt b with
  | some c, some f =>
    if d.flag (FLW.BDL_STAT_RUN b) then
      match d.nextFrame b c f with
      | none => d
      | some x =>
        let d := d.commit (0x00508004 + 16 * b) 0
        let tu := clockTu (d.role c == 1)
        let target := d.refInst b (d.rtpInst x.1 tu) tu - d.resTu + nsTu (d.getAct (FLW.BDL_PLAY_PLAY_DELAY b) * 100 : Nat)
        let g := d.genOf (1152 + b)
        let step := g.run && decide ((target - (g.frameT + periodTu (f.num, f.den))).natAbs > lineTu f)
        let d := (d.setBdl b { d.bdl b with next := some x }).raiseIf step (FLW.BDL_EVT_STEP b)
        d.setGenOf (1152 + b) { g with code := d.get (FLW.BDL_CTL_FMT b), target := target,
                                       resume := if !g.run || step then some target else g.resume }
    else d
  | _, _ => d

/-- The raster has passed TMO_LINES lines without a complete video line (R192). Lines without active samples do not count while a video
context runs (DEDUCED, log 103). -/
def bdlTimedOut (d : Dev) (b : Nat) : Bool := decide (max 1 (d.get (FLW.BDL_CTL_TMO_LINES b)) ≤ (d.bdl b).idle)

/-- The time without a packet after which a leg of a context is lost (R192), in units. -/
def legLimit (d : Dev) (c : Nat) : Nat :=
  let b := d.bundleOf c
  let f := d.bdlFmt b
  if d.role c ≤ 1 then max 1 (d.get (FLW.BDL_CTL_TMO_LINES b)) * ((f.map lineTu).getD 0)
  else if d.role c ≤ 3 then (if d.flag FLW.CTX_MEDIA_PT125 c then 500000 else 4000000) * tuPerNs
  else 4 * ((f.map fun f => periodTu (f.num, f.den)).getD 0)

/-- Is a leg silent for that time? -/
def legSilent (d : Dev) (c g : Nat) : Bool :=
  let x := (d.flow c).legAt
  decide (d.legLimit c ≤ (d.cc - (if g = 0 then x.1 else x.2)) * (tuPerNs * 5 / 4))

/-! ### Audio (R190) -/

/-- The audio contexts of a bundle, by AIDX. -/
def bdlAudio (d : Dev) (b : Nat) : List Nat :=
  sortBy (fun x y => decide (d.get FLW.CTX_CTL_AIDX x < d.get FLW.CTX_CTL_AIDX y))
    (d.running.filter fun c => decide (c < 4096) && d.bundleOf c == b && (d.role c == 2 || d.role c == 3))

/-- The subframes of a context's channels at a media-clock index; zero where the sample has not arrived. -/
def ctxSubs (d : Dev) (c n : Nat) : List Nat :=
  let nch := max 1 (d.get FLW.CTX_MEDIA_NCH c)
  let frames (p : HeldPkt) : List (List Nat) :=
    if d.role c = 3 then audFrames 4 nch am824Sub p.data
    else if d.flag FLW.CTX_MEDIA_L16 c then audFrames 2 nch (fun w => w * 256) p.data
    else audFrames 3 nch id p.data
  let hit := (d.flow c).pkts.findSome? fun p =>
    let i := stampAfter n p.stamp
    if i < 0 then none else (frames p)[i.toNat]?
  hit.getD (List.replicate nch 0)

/-- The subframes of a bundle's sixteen channels at a tick (R190): contexts in AIDX order, what lies beyond channel 15 left out. -/
def bdlSubs (d : Dev) (b tick : Nat) : List Nat :=
  let n := (tick + 2 ^ 32 - d.getAct (FLW.BDL_PLAY_AUD_DELAY b)) % 2 ^ 32
  (((d.bdlAudio b).flatMap fun c => d.ctxSubs c n) ++ List.replicate 16 0).take 16

/-! ## Egress (R196 to R205) -/

/-- The UDP datagram of an egress leg (R204): the checksum is 0 for IPv4 and computed for IPv6. -/
def udpBytes (d : Dev) (c : Nat) (data : List Byte) : List Byte :=
  let v6 := d.flag FLW.CTX_CTL_IPV6 c
  let len := 8 + data.length
  let head (ck : Nat) := beBytes 2 (d.get (FLW.LEG_PORT_SRC_PORT 0) c) ++ beBytes 2 (d.get (FLW.LEG_PORT_DST_PORT 0) c) ++
    beBytes 2 len ++ beBytes 2 ck
  if v6 then
    let pseudo := beBytes 16 (d.legSrc c 0 true) ++ beBytes 16 (d.legDst c 0 true) ++ beBytes 4 len ++ [0, 0, 0, 17]
    let ck := 0xFFFF - sum16 (pseudo ++ head 0 ++ data)
    head (if ck = 0 then 0xFFFF else ck) ++ data
  else head 0 ++ data

/-- The IP packet of an egress leg (R204). -/
def ipBytes (d : Dev) (c : Nat) (data : List Byte) : List Byte :=
  let u := d.udpBytes c data
  let dscp := d.get (FLW.LEG_QOS_DSCP 0) c * 4
  let ttl := d.get (FLW.LEG_QOS_TTL 0) c
  if d.flag FLW.CTX_CTL_IPV6 c then
    beBytes 4 (0x60000000 + dscp * 2 ^ 20) ++ beBytes 2 u.length ++ [17, BitVec.ofNat 8 ttl] ++
      beBytes 16 (d.legSrc c 0 true) ++ beBytes 16 (d.legDst c 0 true) ++ u
  else
    let head (ck : Nat) := [0x45, BitVec.ofNat 8 dscp] ++ beBytes 2 (20 + u.length) ++ [0, 0, 0x40, 0] ++
      [BitVec.ofNat 8 ttl, 17] ++ beBytes 2 ck ++ beBytes 4 (d.legSrc c 0 false) ++ beBytes 4 (d.legDst c 0 false)
    head (0xFFFF - sum16 (head 0)) ++ u

/-- The destination MAC address of an egress leg (R204). -/
def dstMac (d : Dev) (c : Nat) : Nat :=
  if d.flag (FLW.LEG_QOS_USE_DMAC 0) c then
    d.get (FLW.LEG_DMAC_HI_DMAC_H 0) c * 2 ^ 32 + d.get (FLW.LEG_DMAC_LO_DMAC_L 0) c
  else if d.flag FLW.CTX_CTL_IPV6 c then 0x3333 * 2 ^ 32 + d.get (FLW.LEG_DST_3_ADDR 0) c
  else 0x01005E * 2 ^ 24 + d.get (FLW.LEG_DST_0_ADDR 0) c % 2 ^ 23

/-- The Ethernet frame of an egress leg (R204). -/
def egressFrame (d : Dev) (c : Nat) (data : List Byte) : List Byte :=
  let m := d.get (FLW.LEG_MAC_MAC 0) c
  let tag := if d.flag (FLW.LEG_QOS_TAG_EN 0) c then
      [0x81, 0x00] ++ beBytes 2 (d.get (FLW.LEG_MAC_VID 0) c + 8192 * d.get (FLW.LEG_QOS_PCP 0) c) else []
  beBytes 6 (d.dstMac c) ++ beBytes 2 (d.get MAC.ADDR_HI_ADDR_H m) ++ beBytes 4 (d.get MAC.ADDR_LO_ADDR_L m) ++ tag ++
    (if d.flag FLW.CTX_CTL_IPV6 c then [0x86, 0xDD] else [0x08, 0x00]) ++ d.ipBytes c data

/-- One leg sends a packet to its MAC, or drops it where 64 wait (R205). -/
def legSend (d : Dev) (c : Nat) (rtp : List Byte) (late : Bool) : Dev :=
  let m := d.get (FLW.LEG_MAC_MAC 0) c
  let d := if late then (d.count FLW.CNT_LATE_COUNT 1 c).raise FLW.CTX_EVT_LATE c else d
  if 64 ≤ ((d.mac m).offers.filter (·.flow == some c)).length then d.count QM.Q_CNT_OVF_COUNT 1 c
  else
    let d := d.count (if c % 2 = 0 then FLW.CNT_PKT_0_COUNT else FLW.CNT_PKT_1_COUNT) 1 c
    (d.offer m ⟨d.egressFrame c rtp, d.get (FLW.LEG_QOS_TC 0) c, none, some c⟩).flowFill m (some c)

/-- The legs of an egress flow that send (R196, R203). -/
def flowLegs (d : Dev) (f : Nat) : List Nat := [4096 + 2 * f, 4097 + 2 * f].filter fun c => d.ctxRuns c && !d.flag FLW.CTX_STAT_WAIT c

/-- A packet of an egress flow on each leg that runs (R203): the same RTP header and payload. The payloads of ST 2110-20 and of RFC 8331
begin with the high half of the extended sequence number. -/
def flowSend (d : Dev) (f stamp : Nat) (marker late : Bool) (payload : List Byte) : Dev :=
  match d.flowLegs f with
  | [] => d
  | c :: _ =>
    let seq := mapGet d.flowSeq (f, 0) 0
    let ext := if d.role c = 0 || d.role c = 4 then beBytes 2 (seq / 65536) else []
    let rtp := [0x80, BitVec.ofNat 8 (d.get FLW.CTX_MEDIA_PT c + 128 * b2n marker)] ++ beBytes 2 seq ++ beBytes 4 stamp ++
      beBytes 4 (d.get FLW.CTX_SSRC_SSRC c) ++ ext ++ payload
    let d := if d.role c ≤ 1 then d.logAdd (1322 + d.bundleOf c) 1 else d
    (d.flowLegs f).foldl (fun d c => d.legSend c rtp late) { d with flowSeq := mapPut d.flowSeq (f, 0) 0 ((seq + 1) % 2 ^ 32) }

/-- The RTP timestamp of an egress frame or field (R199): the frame start of the output's cadence nearest F_o, read at 90 kHz. -/
def frameStamp (d : Dev) (o : Nat) (start : Int) (field2 : Bool) : Nat :=
  let c := d.outCad o
  let half : Int := if field2 then (periodTu (d.cadRate c) / 2 : Nat) else 0
  ((d.nearestStart c (start - d.resTu) + half) / clockTu false % (2 ^ 32 : Nat)).toNat

/-- MAXPL in force (Table 7.12). -/
def maxPl (d : Dev) (c : Nat) : Nat := if d.get FLW.CTX_PACE_MAXPL c = 0 then 1200 else min 8960 (d.get FLW.CTX_PACE_MAXPL c)

/-- Octets of sample data in a packet (R197): whole pixel groups, or multiples of 180 octets in block packing mode. -/
def pktOct (d : Dev) (c : Nat) : Nat :=
  let unit := if d.flag FLW.CTX_MEDIA_BPM c then 180 else pgroup (d.get FLW.CTX_MEDIA_DEPTH c)
  max 1 (d.maxPl c / unit) * unit

/-- The packets of a frame, both fields or pictures of an interlaced one together (R198; DEDUCED, log 104). -/
def nPkt (d : Dev) (c code : Nat) (f : Fmt) : Nat :=
  if d.role c = 1 then frameGrams f
  else
    let g := geometry code
    let row := g.1 / 2 * pgroup (d.get FLW.CTX_MEDIA_DEPTH c)
    (row + d.pktOct c - 1) / d.pktOct c * g.2.1 * (if f.interlaced then 2 else 1)

/-- The release instant of packet j of a frame or field (R198, Table 7.3): an ST 2022-6 flow is paced as type N (R202). -/
def releaseAt (d : Dev) (c code : Nat) (f : Fmt) (start : Int) (field2 : Bool) (j : Nat) : Int :=
  let t := periodTu (f.num, f.den)
  let tro : Nat := if d.get FLW.CTX_PACE_TRO c != 0 then d.get FLW.CTX_PACE_TRO c * 100 * tuPerNs
    else if f.lines = 750 then 28 * t / 750 else if f.interlaced then 22 * t / 1125 else 43 * t / 1125
  let n := max 1 (d.nPkt c code f)
  let gap : Nat := if d.get FLW.CTX_PACE_STYPE c = 1 && d.role c = 0 then j * t / n else j * t * 24 / (25 * n)
  start + (if field2 then t / 2 else 0 : Nat) + tro + gap

/-- Is a packet scheduled (types N and NL), or does it leave as soon as it is complete (type W)? -/
def scheduled (d : Dev) (c : Nat) : Bool := decide (d.get FLW.CTX_PACE_STYPE c < 2) || d.role c == 1

/-- The next packet of ST 2110-20 video (R197, R198). Rows of a frame that was cut short are left out. -/
def rowRelease (d : Dev) (f c o code : Nat) (fm : Fmt) : Dev :=
  let u := d.egr o
  match u.rows.head? with
  | none => d
  | some h =>
    let same (r : EgRow) : Bool := r.start == h.start && r.field2 == h.field2
    match u.rows.find? fun r => same r && r.row == u.row with
    | none =>
      if u.rows.all same then d else d.setEgr o { u with rows := u.rows.filter (!same ·), row := 0, pos := 0, num := 0 }
    | some r =>
      let at' := d.releaseAt c code fm r.start r.field2 u.num
      if d.scheduled c && decide (d.timeTu < at') then d
      else
        let depth := d.get FLW.CTX_MEDIA_DEPTH c
        let g := geometry code
        let oct := octetsOf (depthBits depth) (r.samps.map (ofTen depth))
        let data := (oct.drop u.pos).take (d.pktOct c)
        let last := decide (oct.length ≤ u.pos + data.length)
        let marker := last && u.row + 1 == g.2.1
        let srd : Srd := ⟨r.row, r.field2 && g.2.2, u.pos / pgroup depth * 2, data⟩
        let u' : EgrUnit :=
          if last then { u with rows := u.rows.filter (· != r), row := if marker then 0 else u.row + 1, pos := 0,
                                num := if marker then 0 else u.num + 1 }
          else { u with pos := u.pos + data.length, num := u.num + 1 }
        (d.setEgr o u').flowSend f (d.frameStamp o r.start r.field2) marker (d.scheduled c && decide (at' < r.done)) (srdBytes srd)

end Dev

/-- Octets taken from the lines of one ST 2022-6 frame that wait, `n` at most, when they were complete, and what is left. -/
def sdiTake (start : Int) : Nat → List (Int × Int × List Byte) → List Byte × Int × List (Int × Int × List Byte)
  | _, [] => ([], start, [])
  | n, e :: r =>
    if n = 0 || e.1 != start then ([], start, e :: r)
    else if e.2.2.length ≤ n then
      let q := sdiTake start (n - e.2.2.length) r
      (e.2.2 ++ q.1, max e.2.1 q.2.1, q.2.2)
    else (e.2.2.take n, e.2.1, (e.1, e.2.1, e.2.2.drop n) :: r)

namespace Dev

/-- The next datagram of ST 2022-6 video (R202). A frame that was cut short ends with what it has. -/
def sdiRelease (d : Dev) (f c o code : Nat) (fm : Fmt) : Dev :=
  let u := d.egr o
  match u.sdi.head? with
  | none => d
  | some h =>
    let need := min mediaOct (frameOct fm - u.num * mediaOct)
    let r := sdiTake h.1 need u.sdi
    let at' := d.releaseAt c code fm h.1 false u.num
    if (decide (r.1.length < need) && r.2.2.isEmpty) || decide (d.timeTu < at') then d
    else
      let ends := decide (r.1.length < need) || decide (frameOct fm ≤ u.num * mediaOct + need)
      let payload := hbrmtBytes code u.count ++ r.1 ++ List.replicate (mediaOct - r.1.length) 0
      let u' : EgrUnit := { u with sdi := r.2.2, num := if ends then 0 else u.num + 1, count := if ends then (u.count + 1) % 256 else u.count }
      (d.setEgr o u').flowSend f (d.frameStamp o h.1 false) ends (decide (at' < r.2.1)) payload

/-- The next video packet of an egress flow (R197, R198, R202). -/
def videoRelease (d : Dev) (f : Nat) : Dev :=
  match d.flowLegs f with
  | [] => d
  | c :: _ =>
    let o := 1152 + d.bundleOf c
    let code := d.outFmt o
    match fmtOf code with
    | none => d
    | some fm => if d.role c = 0 then d.rowRelease f c o code fm else if d.role c = 1 then d.sdiRelease f c o code fm else d

/-- The next audio packet of an egress flow (R200): its channels' samples of 6 or 48 ticks as L16, L24 or AM824 with channel status, a block
of which starts every 192 frames. -/
def audioRelease (d : Dev) (f : Nat) : Dev :=
  match d.flowLegs f with
  | [] => d
  | c :: _ =>
    let n := if d.flag FLW.CTX_MEDIA_PT125 c then 6 else 48
    let q := mapGet d.egAud (f, 0) []
    if (d.role c == 2 || d.role c == 3) && decide (n ≤ q.length) then
      let status (t v : Nat) : Nat := v % 2 ^ 24 + 2 ^ 26 * b2n (chanStatus (t % 192)) + 2 ^ 27 * b2n (t % 192 == 0)
      let enc (t : Nat) (x : Nat × Nat) : List Byte :=
        if d.role c = 3 then beBytes 4 (am824 (status t x.1) (x.2 % 2 == 0))
        else if d.flag FLW.CTX_MEDIA_L16 c then beBytes 2 (x.1 / 256) else beBytes 3 x.1
      let payload := (q.take n).flatMap fun e => e.2.zipIdx.flatMap (enc e.1)
      { d with egAud := mapPut d.egAud (f, 0) [] (q.drop n) }.flowSend f ((q.headD (0, [])).1 % 2 ^ 32) false false payload
    else d

/-- As many packets from the head as fit in a payload of `room` octets, one at least. -/
def ancFit (room : Nat) (ps : List NetAnc) : Nat :=
  max 1 (((List.range (ps.length + 1)).filter fun k => decide (((ps.take k).map fun p => (netAncBytes p).length).sum ≤ room)).foldl max 0)

/-- The next ancillary packets of an egress flow (R201). The last of a frame or field carries the marker, and leaves once the next has
begun. -/
def ancRelease (d : Dev) (f : Nat) : Dev :=
  match d.flowLegs f with
  | [] => d
  | c :: _ =>
    let o := 1152 + d.bundleOf c
    let u := d.egr o
    match u.anc, fmtOf (d.outFmt o) with
    | e :: r, some fm =>
      let k := ancFit (d.maxPl c - 8) e.pkts
      let more := decide (k < e.pkts.length)
      let follows := more || r.any fun x => x.start == e.start && x.field2 == e.field2
      let past := u.start != e.start || u.field2 != e.field2
      if d.role c = 4 && (follows || past) then
        let field := if fm.interlaced then (if e.field2 then 3 else 2) else 0
        (d.setEgr o { u with anc := if more then { e with pkts := e.pkts.drop k } :: r else r }).flowSend f (d.frameStamp o e.start e.field2)
          (!follows) false (ancPayloadBytes field (e.pkts.take k))
      else d
    | _, _ => d

/-- A host transmit element (R213, Table 7.5). -/
def hostTx (d : Dev) (m : Nat) (e : List Byte) : Dev :=
  let q := d.get (FLW.HQ_TXQ m)
  if d.flag (FLW.HQ_TX_EN m) then
    let r := d.qConsume q 16
    if r.1 then
      let d := r.2
      let len := leNat (e.take 2)
      let at2 (i : Nat) : Nat := (e.getD i 0).toNat
      let ts := if (at2 3).testBit 3 then some (leNat ((e.drop 4).take 2)) else none
      if len > 2 ^ d.get QM.Q_CFG_ESZ q - 16 || at2 2 % 64 != m then
        ((d.count FLW.CNT_TX_BAD_COUNT).raise FLW.BLK_EVT_TX_BAD).tsDue m ⟨[], 0, ts, none⟩ true false 0
      else
        let body := (e.drop 16).take len
        let bytes := body ++ List.replicate (60 - body.length) 0
        d.offer m ⟨bytes, at2 3 % 8, ts, none⟩
    else r.2
  else d

end Dev

/-! ## Meanings -/

/-- RX_FRAME (R164, R182): bytes from the destination address to the FCS. -/
def execRxFrame (m : Mac) (bytes : List Byte) (info : RxInfo) (s : State) := s.go fun d =>
  if d.flag MAC.STAT_RUN m then d.rxFrame m bytes info else d

/-- CONTEXT_ENABLE (R181, R194). -/
def execContextEnable (c : Ctx) (en : Bool) (s : State) := s.go fun d =>
  let d := d.put FLW.CTX_CTL_EN en c
  if en then d.ctxStart c else d.ctxStop c

/-- BUNDLE_ENABLE (R192, R216). -/
def execBundleEnable (b : Bundle) (en : Bool) (s : State) := s.go fun d => d.bdlEnable b en

/-- BUNDLE_FRAME (R185 to R188): the next frame of the bundle's raster is chosen, with its target instant. -/
def execBundleFrame (b : Bundle) (s : State) := s.go fun d => d.bdlFrame b

/-- BUNDLE_LINE_TIMEOUT (R192). -/
def execBundleLineTimeout (b : Bundle) (s : State) := s.go fun d => if d.bdlTimedOut b then d.bdlAbsent b else d

/-- LEG_LOSS (R192). -/
def execLegLoss (c : Flow) (leg : Fin 2) (s : State) := s.go fun d =>
  if d.ctxRuns c && (d.get FLW.CTX_STAT_LEG_ACT c).testBit leg && d.legSilent c leg then
    (d.putBit FLW.CTX_STAT_LEG_ACT leg false c).raise
      (if leg.val = 0 then FLW.CTX_EVT_LEG_LOSS_0 else FLW.CTX_EVT_LEG_LOSS_1) c
  else d

/-- VIDEO_PACKET_RELEASE (R197 to R199, R202 to R205). -/
def execVideoPacketRelease (f : Flow) (s : State) := s.go fun d => d.videoRelease f

/-- AUDIO_PACKET_RELEASE (R200). -/
def execAudioPacketRelease (f : Flow) (s : State) := s.go fun d => d.audioRelease f

/-- ANC_PACKET_RELEASE (R201). -/
def execAncPacketRelease (f : Flow) (s : State) := s.go fun d => d.ancRelease f

/-- FLW_BLK_CNT_CLR (Table 7.8). -/
def execFlwBlkCntClr (s : State) := s.go fun d =>
  d.clear [FLW.CNT_NOMATCH_COUNT, FLW.CNT_HDR_ERR_COUNT, FLW.CNT_TX_BAD_COUNT]

/-- FLW_CNT_CLR (Table 7.15). -/
def execFlwCntClr (c : Ctx) (s : State) := s.go fun d =>
  d.clear [FLW.CNT_PKT_0_COUNT, FLW.CNT_PKT_1_COUNT, FLW.CNT_DUP_COUNT, FLW.CNT_LOST_COUNT, FLW.CNT_LATE_COUNT] c

/-- HOST_TX_ELEMENT (R213). -/
def execHostTxElement (m : Mac) (elem : List Byte) (s : State) := s.go fun d => d.hostTx m elem

end Sys2Proof.Machine
end

