-- ==== Sys2Proof/Machine/Fs.lean ====
section
/-!
DEFINITION. Sys2Proof/Machine/Fs.lean: the frame store and the commands of its synchronisers (chapter 8): start and stop,
the choice and play of frames, the BAR2 windows, and error correction.
-/

namespace Sys2Proof.Machine

/-- The end of the frame store (R218). -/
def storeEnd : Nat := 48000000000

/-- The start of region SURF (Table 8.1); HOST follows it to the end of the store. -/
def surfStart : Nat := 0x840000000

namespace Dev

/-! ## Start and stop (R222 to R224) -/

/-- Audio delay blocks of a synchroniser (R231). -/
def syncBlocks (d : Dev) (n : Nat) : Nat :=
  if d.flag FS.SYNC_CTL_AUD_EMB n then
    let r := d.syncRate n
    let frames := if d.flag FS.SYNC_CTL_MIN2 n then 3 else 2
    16 * ((frames * r.2 * 48000 + 64 * r.1 + (4096 * r.1 - 1)) / (4096 * r.1))
  else 0

/-- The gang conditions of a lead (R232). -/
def gangOk (d : Dev) (n : Nat) : Bool :=
  [1, 2, 3].all fun i =>
    d.flag FS.SYNC_STAT_RUN (n + i) && d.get FS.SYNC_CTL_FMT (n + i) == d.get FS.SYNC_CTL_FMT n &&
      d.get FS.SYNC_CTL_CAD (n + i) == d.get FS.SYNC_CTL_CAD n &&
      d.get FS.SYNC_CTL_MIN2 (n + i) == d.get FS.SYNC_CTL_MIN2 n &&
      d.get FS.SYNC_CTL_SLOT (n + i) == d.get FS.SYNC_CTL_SLOT n + i

/-- The code of the first start condition that fails, or 0 (R222). -/
def syncStartCode (d : Dev) (n : Nat) : Nat :=
  let slot := d.get FS.SYNC_CTL_SLOT n
  let fmt := d.get FS.SYNC_CTL_FMT n
  let rateOk := match fmtOf fmt with
    | none => false
    | some f => sameRate (f.num, f.den) (d.syncRate n)
  if slot ≥ 1536 || (d.syncAt slot).any (· != n) then 1
  else if !rateOk then 2
  else if storeUnits fmt > 2048 - d.get FS.BLK_STAT_UNITS_USED then 3
  else if d.syncBlocks n > d.get FS.ADP_STAT_BLK_FREE then 4
  else if d.flag FS.SYNC_CTL_MIN2 n && decide (0x18 ≤ fmt) then 5
  else if !d.flag FS.BLK_STAT_READY then 6
  else if d.flag FS.SYNC_CTL_GANG n && n % 4 == 0 && !d.gangOk n then 7
  else 0

/-- A synchroniser starts (R222, R224): it holds its charge and its pool blocks, and its slot is absent until a frame
plays. -/
def syncRun (d : Dev) (n : Nat) : Dev :=
  let slot := d.get FS.SYNC_CTL_SLOT n
  let units := storeUnits (d.get FS.SYNC_CTL_FMT n)
  let blocks := d.syncBlocks n
  let d := d.set FS.BLK_STAT_UNITS_USED (d.get FS.BLK_STAT_UNITS_USED + units)
  let d := d.set FS.BLK_STAT_SYNC_RUN (d.get FS.BLK_STAT_SYNC_RUN + 1)
  let d := d.set FS.ADP_STAT_BLK_FREE (d.get FS.ADP_STAT_BLK_FREE - blocks)
  let d := (d.set FS.SYNC_STAT_ERR 0 n).put FS.SYNC_STAT_RUN true n
  let d := (d.put FS.SYNC_STAT_EMPTY true n).put FS.SYNC_STAT_FROZEN (d.flag FS.SYNC_CTL_FRZ n) n
  let d := (List.range 16).foldl (fun d c => d.poolSet (1, 16 * n + c) (blocks / 16)) d
  let d := d.setSync n { SyncUnit.init with units := units, blocks := blocks }
  let seq := if slot < 1152 then (d.insOf slot).seq else (d.genOf slot).seq
  let d := { d.setGenOf (slot + 2048) { SrcGen.init with seq := seq } with syncOf := mapPut d.syncOf (slot, 0) 0 (n + 1) }
  (d.put SLP.IN_STAT_PRESENT false slot).refreshPresence slot false

/-- A write of EN = 1 (R222): a running synchroniser runs on; a stopped one starts or is refused. -/
def syncStart (d : Dev) (n : Nat) : Dev :=
  let d := d.put FS.SYNC_CTL_EN true n
  if d.flag FS.SYNC_STAT_RUN n then d
  else
    let e := d.syncStartCode n
    if e = 0 then d.syncRun n else (d.set FS.SYNC_STAT_ERR e n).raise FS.SYNC_EVT_CFG_ERR n

/-- A synchroniser stops (R224): its frames are discarded and what it held returns. -/
def syncStop (d : Dev) (n : Nat) : Dev :=
  let d := d.put FS.SYNC_CTL_EN false n
  if d.flag FS.SYNC_STAT_RUN n then
    let slot := d.get FS.SYNC_CTL_SLOT n
    let u := d.syncUnit n
    let d := d.set FS.BLK_STAT_UNITS_USED (d.get FS.BLK_STAT_UNITS_USED - u.units)
    let d := d.set FS.BLK_STAT_SYNC_RUN (d.get FS.BLK_STAT_SYNC_RUN - 1)
    let d := d.set FS.ADP_STAT_BLK_FREE (d.get FS.ADP_STAT_BLK_FREE + u.blocks)
    let d := (d.put FS.SYNC_STAT_RUN false n).refreshHolding n
    let d := (d.put FS.SYNC_STAT_EMPTY true n).setSync n SyncUnit.init
    let d := (List.range 16).foldl (fun d c => d.poolSet (1, 16 * n + c) 0) d
    let seq := (d.genOf (slot + 2048)).seq
    let d := d.setIns slot { d.insOf slot with mute := true, seq := seq }
    let d := d.genStop (slot + 2048)
    let d := if slot < 1152 then d else d.setGenOf slot { d.genOf slot with seq := seq }
    { d with syncOf := mapPut d.syncOf (slot, 0) 0 0 }.refreshPresence slot false
  else d

/-- HOLD_TMO consecutive repeats while HOLDING (R228): the complete frames are discarded, and the slot is absent from the
next cadence frame start. A frame that is chosen or due there plays instead (R234). -/
def syncTimeout (d : Dev) (n : Nat) : Dev :=
  let u := d.syncUnit n
  let tmo := d.getAct FS.SYNC_HOLD_HOLD_TMO n
  let k := mapGet d.cadLast (d.get FS.SYNC_CTL_CAD n, 0) (-1) + 1
  let plays := (u.choice.bind id).isSome || u.frames.any fun f => f.complete && decide (f.due ≤ k)
  if !plays && d.flag FS.SYNC_STAT_RUN n && d.flag FS.SYNC_STAT_HOLDING n && tmo != 0 && decide (tmo ≤ u.repeats) then
    let d := d.setSync n { u with frames := u.frames.filter fun f => !f.complete, playing := none, prev := none,
                                  choice := none, repeats := 0 }
    ((d.put FS.SYNC_STAT_EMPTY true n).raise FS.SYNC_EVT_EMPTY n).refreshHolding n
  else d

/-! ## Error correction (R239) -/

/-- A corrected store error. -/
def eccCorrected (d : Dev) : Dev :=
  (((d.logAdd 1759 1).count FS.ECC_CNT_CE_COUNT).raise FS.BLK_EVT_ECC_CE).pulseFault (devFault 140)

/-- An uncorrectable store error at an address: counted, its address captured where none is held. -/
def eccUncorrectable (d : Dev) (addr : Nat) : Dev :=
  let d := ((d.count FS.ECC_CNT_UE_COUNT).raise FS.BLK_EVT_ECC_UE).pulseFault (devFault 141)
  let d := if d.ueGran.contains (addr / 32) then d else { d with ueGran := addr / 32 :: d.ueGran }
  if d.flag FS.ECC_ADDR_LO_VALID then d
  else ((d.raise FS.ECC_ADDR_LO_VALID).set FS.ECC_ADDR_LO_ADDR_L (addr / 32)).set FS.ECC_ADDR_HI_ADDR_H (addr / 2 ^ 32)

/-! ## The BAR2 windows (R237, R238) -/

/-- The store address a BAR2 offset reaches. -/
def bar2Addr (d : Dev) (o : Nat) : Nat := d.get (FS.WIN_PAGE_PAGE (o / 0x4000000)) * 4096 + o % 0x4000000

/-- The parts of an access of `len` bytes at a BAR2 offset, one for each window it falls in (R237): the store address, the place of the
part in the access, and its length. -/
def bar2Parts (d : Dev) (o len : Nat) : List (Nat × Nat × Nat) :=
  (List.range 4).filterMap fun k =>
    let a := max o (k * 0x4000000)
    let b := min (o + len) ((k + 1) * 0x4000000)
    if a < b then some (d.bar2Addr a, a - o, b - a) else none

end Dev

/-- Bytes written where the enable is given and the region admits a host write (R238). -/
def bar2Put (m : Memory) (a : Nat) : List (Option Byte) → Memory
  | [] => m
  | b :: bs =>
    let m := match b with
      | some v => if surfStart ≤ a ∧ a < storeEnd then memWrite storeFill m a v else m
      | none => m
    bar2Put m (a + 1) bs

/-- The granules that a write covers whole, with every byte enabled: their correction is superseded (R240). -/
def fullGranules (a : Nat) (bs : List (Option Byte)) : List Nat :=
  (List.range (bs.length / 32 + 2)).map (· + a / 32) |>.filter fun g =>
    decide (a ≤ g * 32) && decide (g * 32 + 32 ≤ a + bs.length) &&
      ((bs.drop (g * 32 - a)).take 32).all (·.isSome)

/-- The other granules that a write reaches: each is read, modified and written (R237). -/
def partGranules (a : Nat) (bs : List (Option Byte)) : List Nat :=
  ((List.range ((a + bs.length + 31) / 32 - a / 32)).map (· + a / 32)).filter fun g => !(fullGranules a bs).contains g

/-! ## Meanings -/

/-- SYNC_START (R222). -/
def execSyncStart (n : Fin 512) (s : State) := s.go fun d => d.syncStart n

/-- SYNC_STOP (R224). -/
def execSyncStop (n : Fin 512) (s : State) := s.go fun d => d.syncStop n

/-- SYNC_FRAME_CHOICE (R226), for frame k of the synchroniser's cadence. -/
def execSyncFrameChoice (n : Fin 512) (k : Int) (s : State) := s.go fun d =>
  if d.flag FS.SYNC_STAT_RUN n then d.syncChoice n k fun _ => true else d

/-- SYNC_FRAME_PLAY (R226), at frame k of the synchroniser's cadence. -/
def execSyncFramePlay (n : Fin 512) (k : Int) (s : State) := s.go fun d =>
  if d.flag FS.SYNC_STAT_RUN n then d.syncPlay n k else d

/-- SYNC_FRAME_INCOMPLETE (R227). -/
def execSyncFrameIncomplete (n : Fin 512) (s : State) := s.go fun d => d.inputFails n

/-- SYNC_HOLD_TIMEOUT (R228). -/
def execSyncHoldTimeout (n : Fin 512) (s : State) := s.go fun d => d.syncTimeout n

/-- SYNC_FREEZE (R229). -/
def execSyncFreeze (n : Fin 512) (v : Bool) (s : State) := s.go fun d =>
  (d.put FS.SYNC_CTL_FRZ v n).put FS.SYNC_STAT_FROZEN v n

/-- FS_CNT_CLR (Table 8.9). -/
def execFsCntClr (s : State) := s.go fun d => d.clear [FS.ECC_CNT_CE_COUNT, FS.ECC_CNT_UE_COUNT]

/-- ECC_ADDR_CLR (Table 8.9). -/
def execEccAddrClr (s : State) := s.go fun d =>
  d.clear [FS.ECC_ADDR_LO_VALID, FS.ECC_ADDR_LO_ADDR_L, FS.ECC_ADDR_HI_ADDR_H]

/-- SYNC_CNT_CLR (Table 8.16). -/
def execSyncCntClr (n : Fin 512) (s : State) := s.go fun d =>
  d.clear [FS.CNT_REPEAT_COUNT, FS.CNT_DROP_COUNT, FS.CNT_INCOMPLETE_COUNT, FS.CNT_ANC_DROP_COUNT] n

/-- BAR2_READ (R237, R238, R239): the store's bytes, or an error with all ones where a part of the access lies beyond the store or on a
granule with an uncorrectable error. -/
def execBar2Read (o : Fin 0x10000000) (len : Nat) (s : State) : Host.Outcome State Fault Refusal :=
  let ps := s.dev.bar2Parts o len
  let beyond := ps.any fun p => decide (storeEnd < p.1 + p.2.2)
  let bad := s.dev.ueGran.any fun g => ps.any fun p => decide (g * 32 < p.1 + p.2.2) && decide (p.1 < g * 32 + 32)
  let ans := if beyond || bad then (List.replicate len 0xFF, true)
    else (ps.flatMap fun p => memReads storeFill s.store p.1 p.2.2, false)
  s.go fun d =>
    let d := if ans.2 then d else (d.bwAdd 267 len).hbmMoves false (ps.map fun p => (p.1, p.2.2))
    ({ d with bar2 := some ans }.logAdd 1746 1).raiseIf beyond FS.BLK_EVT_WIN_RANGE

/-- BAR2_WRITE (R237, R238): bytes with their enables; what lies outside SURF and HOST is discarded, with WIN_WP or
WIN_RANGE. -/
def execBar2Write (o : Fin 0x10000000) (bytes : List (Option Byte)) (s : State) : Host.Outcome State Fault Refusal :=
  let ps := s.dev.bar2Parts o bytes.length
  let part (p : Nat × Nat × Nat) : List (Option Byte) := (bytes.drop p.2.1).take p.2.2
  let range := ps.any fun p => decide (storeEnd < p.1 + p.2.2)
  let wp := ps.any fun p => decide (p.1 < surfStart)
  let good := ps.flatMap fun p => (fullGranules p.1 (part p)).filter fun g => decide (surfStart ≤ g * 32)
  let d := ((s.dev.logAdd 1747 1).bwAdd 266 bytes.length).raiseIf range FS.BLK_EVT_WIN_RANGE |>.raiseIf wp FS.BLK_EVT_WIN_WP
  let part' := ps.flatMap fun p => partGranules p.1 (part p)
  let d := if range || wp then d
    else (d.hbmMoves false (part'.map fun g => (g * 32, 32))).hbmMoves true (ps.map fun p => (p.1, p.2.2))
  let store := ps.foldl (fun m p => bar2Put m p.1 (part p)) s.store
  .next { s with store := store, dev := { d with ueGran := d.ueGran.filter fun g => !good.contains g } }

/-- ECC_CE (R239): counted and raised; what is written back corrected is what the store holds. -/
def execEccCe (s : State) := s.go fun d => d.eccCorrected

/-- ECC_UE (R239): counted, captured and raised; the synchroniser whose picture is read is told. -/
def execEccUe (addr : Fin 48000000000) (reader : StoreReader) (s : State) := s.go fun d =>
  let d := d.eccUncorrectable addr
  match reader with
  | .syncPicture n => d.raise FS.SYNC_EVT_ECC_UE n
  | .pool => d.pulseFault (Dev.devFault 174)
  | _ => d

/-- PATROL_SCRUB (R240): one pass, with the granules it finds: `ces` correctable ones, each written back, and the addresses
of the uncorrectable ones. -/
def execPatrolScrub (ces : Nat) (ues : List (Fin 48000000000)) (s : State) := s.go fun d =>
  if d.flag FS.SCRUB_CFG_EN then
    let d := (List.range ces).foldl (fun d _ => d.eccCorrected) d
    (ues.map (·.val)).foldl (fun d a => d.eccUncorrectable a) d
  else d

end Sys2Proof.Machine
end

