-- ==== Sys2Proof/Machine/Sources.lean ====
section
/-!
DEFINITION. Sys2Proof/Machine/Sources.lean: the rasters that the device makes for inputs of the crosspoint, line by line: a
synchroniser's (R230, R231), a bundle's (R95 to R97, R186 to R192) and a Plotter output's (R243).
-/

namespace Sys2Proof.Machine

/-- A slot word's time, in units (R19). -/
def slotTu : Nat := tuPerNs * 5 / 2

/-- Samples of a picture area (R221): three to a word of the store; one on a granule with an uncorrectable error reads as fill (R239). -/
def storeRow (ue : List Nat) (m : Memory) (a n : Nat) : List Samp :=
  (List.range n).map fun i =>
    let w := a + i / 3 * 4
    if ue.any fun g => decide (g * 32 < w + 4) && decide (w < g * 32 + 32) then fillSamp i
    else BitVec.ofNat 10 (leNat (memReads storeFill m w 4) / 1024 ^ (i % 3))

namespace Dev

/-! ## Timing (R85, R86, R188) -/

/-- The instant, in cadence time, of a count of slot words, and the first slot word at or after an instant. -/
def instAt (d : Dev) (t : Nat) : Int := d.cadNow + ((t : Nat) - (d.slotNow : Nat) : Int) * slotTu
def slotAt (d : Dev) (x : Int) : Nat := ((d.slotNow : Nat) - (d.cadNow - x) / slotTu).toNat

/-- The next line of a made raster: the instant of its start in slot words, and its number. A start or a re-phase takes the first line
start of its timing that is not past. -/
def nextMade (d : Dev) (g : SrcGen) (f : Fmt) : Nat × Nat :=
  let p := if g.run then g.lineT + g.cur.length else d.slotNow
  match g.resume with
  | none => (p, if g.line ≥ f.lines then 1 else g.line + 1)
  | some t =>
    let x := d.instAt p
    if x ≤ t then (d.slotAt t, 1)
    else
      let l : Int := lineTu f
      let i := (x - t + l - 1) / l
      (d.slotAt (t + i * l), (i % (f.lines : Nat)).toNat + 1)

/-- The next line of a made raster begins (R85, R86): at a frame start that deviates from its target by more than a slot word one
correction becomes due. -/
def genBegin (d : Dev) (key : Nat) (f : Fmt) : Dev :=
  let g := d.genOf key
  let p := d.nextMade g f
  let c := accConst g.code
  let word : Int := slotTu
  let gen : Gen := if !g.run then Gen.start g.code
    else if g.resume.isSome then { g.gen with rest := [], crcs := [], acc := (g.gen.acc + (p.1 - (g.lineT + g.cur.length)) * c.1) % c.2 }
    else g.gen
  let t := d.instAt p.1
  let dev := t - g.target
  let frame := p.2 == 1
  let fix := if !frame then gen.fix else if dev > word then some true else if dev < -word then some false else gen.fix
  let start := match g.resume with
    | some r => if frame then t else r
    | none => if frame then t else g.frameT
  d.setGenOf key { g with
    run := true, resume := none, line := p.2, seq := g.seq + 1, lineT := p.1, gen := { gen with fix := fix }, frameT := start
    target := if frame then g.target + periodTu (f.num, f.den) else g.target
    pic := if (frame || g.resume.isSome) && !g.next.isEmpty then g.next else g.pic
    due := g.ticks, ticks := [] }

/-- A made line takes effect: its words, and the generator after it. -/
def genWords (d : Dev) (key : Nat) (r : List Word × Gen) : Dev := d.setGenOf key { d.genOf key with cur := r.1, gen := r.2 }

/-! ## Synchronisers (R230, R231) -/

/-- The frame whose buffer holds a line of the frame that plays: the frame before it where an incomplete one has not been written so far
(R227). -/
def lineFrame (u : SyncUnit) (n : Nat) : Option SyncFrame :=
  match u.playing with
  | none => none
  | some p => if p.complete || u.writing = some p.buf || decide (n ≤ p.lines) then some p else u.prev.orElse fun _ => some p

/-- The samples of a row of the picture area (R221): of both links for a dual link, and of two sub-images for 6G and 12G. -/
def areaWidth (code : Nat) (f : Fmt) : Nat := if f.s = 2 then 2 * (geometry code).1 else 7680

/-- What a line of a synchronised raster reads of the store: its rows of the picture area, and its ancillary packets (log 114). -/
def syncReads (d : Dev) (slot n : Nat) (f : Fmt) : List (Nat × Nat) :=
  let u := (d.syncAt slot).getD 0
  let code := (d.genOf (slot + 2048)).code
  match lineFrame (d.syncUnit u) n with
  | none => []
  | some x =>
    let rows := if f.vBlank n then [] else areaRows f (d.flag SLP.IN_STAT_DIV slot) n
    rows.map (fun r => (d.bufAddr u x.buf + r * linePitch code, packedLen (areaWidth code f))) ++
      [(d.ancAddr u x.buf + ancBytes (x.anc.takeWhile (·.line != n)), ancBytes (x.anc.filter (·.line == n)))]

/-- A line of a synchronised raster. -/
def syncMade (d : Dev) (m : Memory) (slot n : Nat) (f : Fmt) : List Word × Gen :=
  let g := d.genOf (slot + 2048)
  let u := (d.syncAt slot).getD 0
  let x := lineFrame (d.syncUnit u) g.line
  let gs := if d.flag FS.SYNC_CTL_AUD_EMB u then ((List.range 4).map fun k => (d.inGroup slot k, k)).filter (·.1 != 0) else []
  let a := lineAudio g.code gs g.due
  let af := d.audioNum g.code (d.get FS.SYNC_CTL_CAD u) g.frameT
  let anc := ((x.map (·.anc)).getD []).filter (·.line == g.line)
  let bl := (ownBlank false g.code f g.line af g.gen.dbn a).zipIdx.map fun b =>
    (anc.filter (·.stream == b.2)).foldl (fun (b : Stretch × Stretch) p =>
      if p.hanc then ((putPkt b.1 (some p.pos) p.words).getD b.1, b.2) else (b.1, (putPkt b.2 (some p.pos) p.words).getD b.2)) b.1
  let base := d.bufAddr u ((x.map (·.buf)).getD 0)
  let width := areaWidth g.code f
  let row (r : Nat) : List Samp := storeRow d.ueGran m (base + r * linePitch g.code) width
  let acts := linkActs f (linkSamps f (d.flag SLP.IN_STAT_DIV slot) row g.line)
  g.gen.made g.code f g.line a bl fun k => if f.vBlank n then none else acts[k]?

/-! ## Bundles (R95 to R97, R186 to R192) -/

/-- The packets of a context that belong to the frame that plays, and to a half of it. -/
def framePkts (d : Dev) (b c : Nat) (second : Bool) (f : Fmt) : List HeldPkt :=
  (d.flow c).pkts.filter fun p => (d.stampFrame b p.stamp (pktSecond (d.role c) p.data)).any fun q =>
    q.1 == 0 && (!f.interlaced || d.role c == 4 || q.2 == second)

/-- The rows of an active line as far as their samples have arrived (R187, R189). -/
def bdlRows (d : Dev) (b c : Nat) (f : Fmt) (n : Nat) : List (List (Option Samp)) :=
  let g := geometry (d.get (FLW.BDL_CTL_FMT b))
  let second := f.field2 n
  let xs := (d.framePkts b c second f).flatMap fun p => srdsOf (p.data.drop 2)
  (lineRows f n).map fun r => rowOf (d.get FLW.CTX_MEDIA_DEPTH c) g.1 r (g.2.2 && second) xs

/-- The SDI words of a line as far as their datagrams have arrived (R97, R191). -/
def sdiWords (d : Dev) (b c : Nat) (f : Fmt) (n : Nat) : List (Option Samp) :=
  let len := f.wpl * 5 / 4
  let o := (n - 1) * len
  let k := (d.bdl b).first.getD 0
  let lo := o / mediaOct
  let gram (j : Nat) : List (Option Byte) :=
    match (d.flow c).pkts.find? fun p => p.key == (k + j) % 2 ^ 32 with
    | some p => ((hbrmtOf p.data).2.2.map some ++ List.replicate mediaOct none).take mediaOct
    | none => List.replicate mediaOct none
  let bs := (List.range (len / mediaOct + 2)).flatMap fun j => gram (lo + j)
  partWords ((bs.drop (o - lo * mediaOct)).take len)

/-- The ancillary packets of the frame that plays, each with its RTP packet's key and its place in it (R96); payload IDs are left out
(Table 3.4). -/
def bdlAncs (d : Dev) (b : Nat) (f : Fmt) : List ((Nat × Nat) × NetAnc) :=
  match d.running.find? fun c => decide (c < 4096) && d.bundleOf c == b && d.role c == 4 with
  | none => []
  | some c =>
    let all := (d.framePkts b c false f).flatMap fun p => (ancPayload (p.data.drop 2)).zipIdx.map fun x => ((p.key, x.2), x.1)
    all.filter fun x => !(d.bdl b).anc.contains x.1 && !((x.2.words.getD 0 0).toNat % 256 == 0x41 && (x.2.words.getD 1 0).toNat % 256 == 1)

end Dev

/-- Does a packet fall on line `n` (R96)? One without a specific line tries each vertical-blanking line from line 9 on; one whose line lies
outside the format is dealt with at once. -/
def ancHere (f : Fmt) (n : Nat) (a : NetAnc) : Bool :=
  if a.line = 0x7FF then decide (9 ≤ n) && f.vBlank n else a.line == n || a.line == 0 || decide (f.lines < a.line)

/-- A packet of the network placed into the blanking of its line (R96); none where it does not fit. -/
def ancPlace (f : Fmt) (n : Nat) (bl : List (Stretch × Stretch)) (a : NetAnc) : Option (List (Stretch × Stretch)) :=
  let words : List Samp := [0, 0x3FF, 0x3FF] ++ a.words
  let k := ((List.range f.s).find? fun k => mainStream f.s k && isY f.s k != a.chroma).getD 0
  let b := bl.getD k ([], [])
  let act := activeOf f.perStream
  let r : Option (Stretch × Stretch) :=
    if a.line != 0x7FF && a.line != n then none
    else if a.ofs = 0xFFF then
      if f.vBlank n then (putPkt b.2 none words).map fun v => (b.1, v) else (putPkt b.1 none words).map fun h => (h, b.2)
    else if a.ofs < act then (if f.vBlank n then (putPkt b.2 (some a.ofs) words).map fun v => (b.1, v) else none)
    else if act + 8 ≤ a.ofs then (putPkt b.1 (some (a.ofs - act - 8)) words).map fun h => (h, b.2)
    else none
  r.map fun x => bl.set k x

/-- The packets of a line placed: the blanking after, the packets dealt with, and how many of them were discarded. -/
def ancLine (f : Fmt) (n : Nat) (bl : List (Stretch × Stretch)) :
    List ((Nat × Nat) × NetAnc) → List (Stretch × Stretch) × List (Nat × Nat) × Nat
  | [] => (bl, [], 0)
  | x :: r =>
    if !ancHere f n x.2 then ancLine f n bl r
    else
      match ancPlace f n bl x.2 with
      | some bl' => let q := ancLine f n bl' r; (q.1, x.1 :: q.2.1, q.2.2)
      | none =>
        let q := ancLine f n bl r
        if x.2.line = 0x7FF then q else (q.1, x.1 :: q.2.1, q.2.2 + 1)

namespace Dev

/-- Ancillary packets discarded at a bundle's slot (R96). -/
def bdlAncDrop (d : Dev) (b n : Nat) : Dev :=
  if n = 0 then d else (d.count SLP.CNT_ANC_DROP_COUNT n (1152 + b)).raise SLP.EVT_STAT_ANC_DROP (1152 + b)

/-- A frame of a bundle's raster begins: the one chosen, or the next reckoned on. Packets without a specific line that found no room in
the frame before are discarded (R96). -/
def bdlBegin (d : Dev) (b : Nat) (f : Fmt) : Dev :=
  let d := d.bdlAncDrop b ((d.bdlAncs b f).countP fun x => x.2.line == 0x7FF)
  let u := d.bdl b
  let sdi := u.first.isSome
  let u := match u.next with
    | some x => { u with stamp := some x.1, first := x.2 }
    | none => { u with stamp := u.stamp.map fun s => (s + periodTu (f.num, f.den) / clockTu sdi) % 2 ^ 32
                       first := u.first.map fun k => (k + frameGrams f) % 2 ^ 32 }
  d.setBdl b { u with next := none, anc := [] }

/-- The slot of a bundle becomes present at the first line start after a complete line (R192). -/
def bdlPresent (d : Dev) (b : Nat) : Dev :=
  if (d.bdl b).good && !d.flag (FLW.BDL_STAT_PRESENT b) then
    ((d.put (FLW.BDL_STAT_PRESENT b) true).raise (FLW.BDL_EVT_PRESENT b)).refreshPresence (1152 + b) true
  else d

/-- An active line of a bundle has been complete, or has been filled (R187, R192; Table 3.4). -/
def bdlJudge (d : Dev) (b : Nat) (active complete : Bool) : Dev :=
  let u := d.bdl b
  if active then
    if complete then (d.setBdl b { u with idle := 0, good := true }).logAdd (938 + b) 1
    else (d.setBdl b { u with idle := u.idle + 1, good := false }).count SLP.CNT_FILL_COUNT 1 (1152 + b)
  else if (d.videoCtx b).isNone then d.setBdl b { u with idle := u.idle + 1 }
  else d

/-- The words of a line of a bundle's raster (R95 to R97). -/
def bdlMade (d : Dev) (b : Nat) (f : Fmt) : Dev :=
  let key := 1152 + b
  let g := d.genOf key
  let n := g.line
  let active := !f.vBlank n
  let w := activeOf f.perStream
  match (d.videoCtx b).map fun c => (c, d.role c) with
  | some (c, 1) =>
    let ws := d.sdiWords b c f n
    let full := ws.zipIdx.map fun x => x.1.getD (blank f.s (x.2 % f.s))
    (d.genWords key (g.gen.carried g.code full)).bdlJudge b active ((ws.drop (f.s * (f.perStream - w))).all (·.isSome))
  | v =>
    let rows := match v with
      | some (c, _) => if active then d.bdlRows b c f n else []
      | none => if active then (lineRows f n).map fun _ => List.replicate (2 * (geometry g.code).1) none else []
    let a := lineAudio g.code [(1, 0), (2, 1), (3, 2), (4, 3)] g.due
    let af := d.audioNum g.code (d.get (FLW.BDL_CTL_CAD b)) g.frameT
    let r := ancLine f n (ownBlank true g.code f n af g.gen.dbn a) (d.bdlAncs b f)
    let acts := linkActs f (netLinks f (rows.map filled))
    let d := (d.setBdl b { d.bdl b with anc := r.2.1 ++ (d.bdl b).anc }).bdlAncDrop b r.2.2
    (d.genWords key (g.gen.made g.code f n a r.1 fun k => if active then acts[k]? else none)).bdlJudge b active
      (rows.all fun l => l.all (·.isSome))

/-- The next line of a bundle's raster begins, and its words reach the slot. Packets whose samples have left leave their cells (R194). -/
def bdlLine (d : Dev) (b : Nat) : Dev :=
  let key := 1152 + b
  let g := d.genOf key
  match fmtOf g.code with
  | none => d
  | some f =>
    if g.run || g.resume.isSome then
      let d := d.genBegin key f
      let d := if (d.genOf key).line = 1 || g.resume.isSome then d.bdlBegin b f else d
      let d := (d.bdlPresent b).bdlMade b f
      let d := d.slotWords key (d.genOf key).cur
      (d.running.filter fun c => decide (c < 4096) && d.bundleOf c == b && !(d.role c == 2 || d.role c == 3)).foldl leavePast d
    else d

/-! ## Plotter outputs (R243) -/

/-- A line of a Plotter output's raster: the composed picture, the payload ID, no audio. -/
def engMade (d : Dev) (src : Nat) (f : Fmt) : List Word × Gen :=
  let g := d.genOf src
  let acts := linkActs f (netLinks f ((lineRows f g.line).map fun r => g.pic.getD r []))
  let a : AudioLine := ⟨[], []⟩
  g.gen.made g.code f g.line a (ownBlank true g.code f g.line 1 g.gen.dbn a) fun k => if f.vBlank g.line then none else acts[k]?

/-! ## A source's next line -/

/-- The next line of a made raster begins, and its words cross to the outputs that carry the source. -/
def madeLine (d : Dev) (m : Memory) (src : Nat) : Dev :=
  let key := d.genKey src
  let g := d.genOf key
  if d.synced src || decide (1536 ≤ src) then
    match fmtOf g.code with
    | none => d
    | some f =>
      if g.run || g.resume.isSome then
        let d := d.genBegin key f
        let n := (d.genOf key).line
        let d := d.genWords key (if d.synced src then d.syncMade m src n f else d.engMade src f)
        let d := d.when (d.synced src) fun d => d.hbmMoves false (d.syncReads src n f)
        d.cross src (d.genOf key).cur
      else d
  else d.bdlLine (src - 1152)

/-- The line start of a source that an output has not yet taken note of: its instant in slot words, whether it is a frame start, the frame
start in cadence time, and the words delivered from there on. -/
def lineInfo (d : Dev) (src : Nat) : Nat × Bool × Int × List Word :=
  if d.made src then
    let g := d.genOf (d.genKey src)
    (g.lineT, g.line == 1, g.frameT, g.cur)
  else
    let x := d.insOf src
    (x.eavT, x.line == 1, x.frameT, x.buf)

/-- A source line start at an output (R91, R94, R121): a raster that the device makes runs on to its next line where the output has seen
all the others. A line that waits on the Processed Path leaves (R108, R124). -/
def sourceStart (d : Dev) (m : Memory) (o : Nat) (ins : List (List Byte)) : Dev :=
  let src := d.srcAct o
  let d := if src < 1664 && d.made src && d.srcSeq src == (d.outOf o).seen then d.madeLine m src else d
  let n := d.srcSeq src
  let d := if src < 1664 && n != (d.outOf o).seen then
      let x := d.lineInfo src
      (d.setOut o { d.outOf o with seen := n }).sourceLine o x.1 x.2.1 x.2.2.1 x.2.2.2
    else d
  if d.processed o then d.procLine o ins else d

end Dev

end Sys2Proof.Machine
end

