-- ==== Sys2Proof/Machine/Slp.lean ====
section
/-!
DEFINITION. Sys2Proof/Machine/Slp.lean: the input stages (R98 to R107): the TRS parser, the timing analyser, the payload-ID
reader, the quad link, de-embedding and ancillary capture; the lines that a synchroniser writes (R221, R225); and the start and stop of
an output stage (R90).
-/

namespace Sys2Proof.Machine

/-- Is a measured frame period within ±200 ppm of a format's (R100)? -/
def periodNear (f : Fmt) (frameNs : Nat) : Bool :=
  let p := f.den * 1000000000
  decide (((frameNs * f.num : Nat) - (p : Nat) : Int).natAbs * 1000000 ≤ 200 * p)

/-- Does a format have a measured line structure, interlace and frame period (Table 3.5, R100)? -/
def fmtMatches (wpl lines : Nat) (interlaced : Bool) (frameNs code : Nat) : Bool :=
  match fmtOf code with
  | none => false
  | some f => f.wpl == wpl && f.lines == lines && f.interlaced == interlaced && periodNear f frameNs

/-- Interface lines a quotient and a remainder of an offset span (R101): the floor of OFS over the line period, and the words
of what remains, both exact. -/
def offsetParts (f : Fmt) (ofs : Int) : Int × Int :=
  let line : Int := lineTu f
  let x := ofs * (tuPerNs * 5 / 2 : Nat)
  (x / line, (x % line) * f.wpl / line)

namespace Dev

def parse (d : Dev) (slot : Nat) : Nat := d.get SLP.IN_STAT_PARSE slot

/-- The parser is locked (R99). -/
def locked (d : Dev) (slot : Nat) : Bool := decide (2 ≤ d.parse slot)

/-- The four slots of a quad link are good (R103): their last frame starts lie within TOL × 10 ns of the lead's. -/
def quadOk (d : Dev) (lead : Nat) : Bool :=
  d.flag SLP.IN_CFG_QUAD lead &&
    (List.range 4).all fun i =>
      let s := lead + i
      let dist := (d.insOf s).frameT - (d.insOf lead).frameT
      d.locked s && d.get SLP.IN_STAT_DET_FMT s == d.get SLP.IN_STAT_DET_FMT lead && d.flag SLP.IN_STAT_PID_VALID s &&
        (d.insOf s).pidLink == i + 1 && d.flag SLP.TA_OFS_VALID s &&
        decide (dist.natAbs ≤ d.get SLP.TA_CFG_TOL lead * 10 * tuPerNs)

/-- LINK_OK of the quad link a slot belongs to follows its conditions, with LINK_FAIL on a fall (R103). -/
def refreshQuad (d : Dev) (slot : Nat) : Dev :=
  let lead := slot / 4 * 4
  let ok := d.quadOk lead
  (d.raiseIf (d.flag SLP.IN_STAT_LINK_OK lead && !ok) SLP.EVT_STAT_LINK_FAIL lead).put SLP.IN_STAT_LINK_OK ok lead

/-- FMT_MM: a valid payload ID names a format other than the detected one (R100). -/
def refreshFmtMm (d : Dev) (slot : Nat) : Dev :=
  let det := d.get SLP.IN_STAT_DET_FMT slot
  let pid := (d.insOf slot).pidFmt
  d.put SLP.IN_STAT_FMT_MM (d.flag SLP.IN_STAT_PID_VALID slot && pid != 0 && det != 0 && pid != det) slot

/-- The measurement of the timing analyser becomes void (R101). -/
def voidTiming (d : Dev) (slot : Nat) : Dev :=
  let was := d.flag SLP.IN_STAT_TIMED slot
  (d.clear [SLP.TA_OFS_VALID, SLP.TA_OFS_OFS_LINES, SLP.TA_OFS_OFS_WORDS, SLP.TA_OFS_NS_OFS_NS, SLP.IN_STAT_RATE_MM,
    SLP.IN_STAT_TIMED] slot).raiseIf was SLP.EVT_STAT_TIMED_CHG slot

/-- The parser enters a state (Table 3.5). Entering SEARCH from lock raises UNLOCK; leaving lock voids the measurement. -/
def setParse (d : Dev) (slot st : Nat) : Dev :=
  let was := d.locked slot
  let d := (d.set SLP.IN_STAT_PARSE st slot).raiseIf (was && st == 0) SLP.EVT_STAT_UNLOCK slot
  if was && st < 2 then (d.voidTiming slot).refreshQuad slot else d

/-- Entry into LOCKED from VERIFY with a detected format (R100). -/
def lock (d : Dev) (slot code : Nat) : Dev :=
  let d := d.raiseIf (d.get SLP.IN_STAT_DET_FMT slot != code) SLP.EVT_STAT_FMT_CHG slot
  ((((d.setParse slot 2).set SLP.IN_STAT_DET_FMT code slot).raise SLP.EVT_STAT_LOCK slot).refreshFmtMm slot).refreshQuad slot

/-- The parser enters VERIFY, tracking a spacing (0: not known yet). -/
def enterVerify (d : Dev) (slot wpl : Nat) : Dev :=
  (d.setParse slot 1).setIns slot
    { d.insOf slot with wpl := wpl, inFrame := false, lines := 0, missed := 0, away := 0, cand := none }

/-- The format the checked frame matches: any of Table 3.2, or EXP_FMT alone with AUTO_FMT = 0 (Table 3.5). -/
def frameFmt (d : Dev) (slot wpl lines : Nat) (interlaced : Bool) (frameNs : Nat) : Option Nat :=
  let codes := if d.flag SLP.IN_CFG_AUTO_FMT slot then fmtCodes else [d.get SLP.IN_CFG_EXP_FMT slot]
  codes.find? (fmtMatches wpl lines interlaced frameNs)

/-- A valid EAV in VERIFY (Table 3.5): equal spacing over one whole frame that matches a format leads to LOCKED. `gap` is the distance
from the valid EAV before; `first` a frame start; then what the frame that ends there showed. -/
def verifyEav (d : Dev) (slot gap : Nat) (first interlaced : Bool) (frameNs : Nat) : Dev :=
  let x := d.insOf slot
  if x.wpl != 0 && x.wpl != gap then d.setParse slot 0
  else if first && x.inFrame then
    match d.frameFmt slot gap x.lines interlaced frameNs with
    | some code => if 4 ≤ x.lines then (d.setIns slot { x with missed := 0, away := 0, cand := none }).lock slot code
                   else d.setParse slot 0
    | none => d.setParse slot 0
  else d.setIns slot { x with wpl := gap, inFrame := x.inFrame || first,
                              lines := if first then 1 else if x.inFrame then x.lines + 1 else 0 }

/-- A valid EAV while the parser is locked (Table 3.5), `g` words from the reference and `gap` words from the valid EAV before: on the
tracked grid it keeps or regains LOCKED, with the line's CRCs checked (R99); off the grid at one place in two lines it takes FLYWHEEL
to VERIFY. -/
def lockedEav (d : Dev) (slot g gap crcFail : Nat) : Dev :=
  let x := d.insOf slot
  let pos := (x.away + g) % max 1 x.wpl
  if pos = 0 then
    let d := if d.flag SLP.IN_CFG_CRC_CHK slot then d.count SLP.CNT_CRC_COUNT crcFail slot else d
    (d.setParse slot 2).setIns slot { x with missed := 0, away := 0, cand := none }
  else if d.parse slot = 3 && x.cand = some pos && gap = x.wpl then d.enterVerify slot x.wpl
  else d.setIns slot { x with away := pos, cand := some pos }

/-- The audio of a selected group in a line: its packets' samples in order, none for a group of another rate than 48 kHz synchronous
(R104). -/
def groupAudio (d : Dev) (slot g : Nat) (ps : List AncPkt) : List (List Int) :=
  if (d.insOf slot).grpBad.testBit g then []
  else (ps.filter fun p => g != 0 && dataGroup p.did == g && !p.csErr).map pktSamples

/-- The sample frames of a line for the slot's buffer (R104, R105): sample n of each channel from packet n of its group. -/
def deembed (d : Dev) (slot : Nat) (ps : List AncPkt) : List (List Int) :=
  let gs := (List.range 4).map fun k => d.groupAudio slot (d.inGroup slot k) ps
  (List.range ((gs.map (·.length)).foldl max 0)).map fun i => gs.flatMap fun g => g.getD i [0, 0, 0, 0]

/-- What the input stage finds in a complete line: packets for the capture filters (R107), payload IDs in vertical blanking on the Y
stream (R102), the audio of the selected groups and its rate (R104). -/
def takeLine (d : Dev) (slot : Nat) (l : LineIn) : Dev :=
  let ps := l.pkts
  let set (m g : Nat) (b : Bool) : Nat := if m.testBit g == b then m else if b then m + 2 ^ g else m - 2 ^ g
  let bad := ps.foldl (fun m p => if controlGroup p.did = 0 || p.csErr then m else set m (controlGroup p.did) (!rateOk p))
    (d.insOf slot).grpBad
  let seen := ps.foldl (fun m p => if dataGroup p.did = 0 then m else set m (dataGroup p.did) true) (d.insOf slot).grpSeen
  let x := d.insOf slot
  let pids := if l.v then (ps.filter fun p => !p.chroma).filterMap pidRead else []
  let d := d.setIns slot { x with pkts := x.pkts ++ ps, pids := x.pids ++ pids, grpBad := bad, grpSeen := seen }
  let d := d.put SLP.IN_STAT_AUD_RATE ((List.range 4).any fun k => d.inGroup slot k != 0 && bad.testBit (d.inGroup slot k)) slot
  let b := mapGet d.audBufs (slot, 0) AudBuf.init
  { d with audBufs := mapPut d.audBufs (slot, 0) AudBuf.init { b with frames := b.frames ++ d.deembed slot ps } }

/-- The next valid EAV in the words received behind the parser's reference (R98): its place, S, F and V. Its line number and CRC words
have arrived too. -/
def nextEav (d : Dev) (slot : Nat) : Option (Nat × Nat × Bool × Bool) :=
  let x := d.insOf slot
  let ss := ifWords x.buf
  match findEav (fun i => decide (x.pos + b2n (x.s != 0) ≤ i) && mAt x.buf i) 0 ss with
  | some (i, s, f, v) => if i + 8 * s ≤ ss.length then some (i, s, f, v) else none
  | none => none

/-- The expected position of the next EAV in the words received, where one is expected (R98). -/
def nextPlace (d : Dev) (slot : Nat) : Option Nat :=
  let x := d.insOf slot
  if d.parse slot = 0 || x.wpl = 0 then none else some (x.pos + (x.wpl - x.away))

/-- The reference moves to interface word `i`; the slot words before it are done with, and those whose M bit disagrees are counted
(R99). -/
def moveRef (d : Dev) (slot i : Nat) : Dev :=
  let x := d.insOf slot
  let r := dropTo x.buf i
  let gone := x.buf.length - r.1.length
  let d := d.count SLP.CNT_TRS_COUNT (mErrs (ifWords x.buf) 0 (x.buf.take gone)) slot
  d.setIns slot { x with buf := r.1, pos := r.2, words := x.words + gone, since := x.since + (i - x.pos) }

/-- The instant of the reference in cadence time: its slot word left the receiver that many slot words ago, and it stands behind the
interface words before it in that word (R101). -/
def refTime (d : Dev) (slot : Nat) : Int :=
  let x := d.insOf slot
  let word : Int := (tuPerNs * 5 / 2 : Nat)
  let c := accConst (d.get SLP.IN_STAT_DET_FMT slot)
  d.cadNow - (x.buf.length : Nat) * word + (x.pos : Nat) * word * c.2 / (3 * max 1 c.1 : Nat)

/-- A line start on the tracked grid: the line that ends there is taken in, the line number is noted. -/
def lineStart (d : Dev) (slot num : Nat) (first : Bool) (old : Option LineIn) : Dev :=
  let d := match old with
    | some l => d.takeLine slot l
    | none => d
  let x := d.insOf slot
  d.setIns slot { x with seq := x.seq + 1, eavT := d.slotNow - x.buf.length, line := num, fresh := x.fresh || first,
                         frameT := if first then d.refTime slot else x.frameT }

/-- A line start after a synchroniser has stopped: the crosspoint input carries the stream from there (R224). -/
def unmute (d : Dev) (slot : Nat) : Dev :=
  if (d.insOf slot).mute then
    let d := d.setIns slot { d.insOf slot with mute := false }
    if d.synced slot then d else d.cross slot (d.insOf slot).buf
  else d

/-- The next valid EAV in the words received (R98, R99). -/
def eav (d : Dev) (slot : Nat) : Dev :=
  match d.nextEav slot with
  | none => d
  | some (i, s, f, _) =>
    let x := d.insOf slot
    let ss := ifWords x.buf
    let g := i - x.pos
    let gap := x.since + g
    let head := lineIn s (ss.drop i)
    let first := head.num == 1
    let old := if x.s = s && x.away = 0 && g = x.wpl then some (lineIn s ((ss.drop x.pos).take g)) else none
    let fails := match old with
      | some l => crcFails s l (ss.drop i)
      | none => 0
    let d := d.moveRef slot i
    let ns := (d.insOf slot).words * 5 / 2
    let d := match d.parse slot with
      | 0 => d.enterVerify slot 0
      | 1 => if x.s = 0 then d.enterVerify slot 0 else d.verifyEav slot gap first (x.fSeen || f) ns
      | _ => d.lockedEav slot g gap fails
    let y := d.insOf slot
    let d := d.setIns slot { y with s := s, since := 0, words := if first then 0 else y.words, fSeen := if first then f else y.fSeen || f }
    let d := if d.locked slot && (d.insOf slot).away = 0 then d.lineStart slot head.num first old else d
    let d := d.unmute slot
    (d.fltCommit slot fltIn).refreshPresence slot true

/-- An expected position passes without a valid EAV (R99, Table 3.5): the words there have arrived, and the next valid EAV, where
there is one, lies behind it. In SEARCH no position is expected; the words without an EAV are done with. -/
def eavMissed (d : Dev) (slot : Nat) : Dev :=
  let x := d.insOf slot
  let ss := ifWords x.buf
  match d.nextPlace slot with
  | none =>
    if d.parse slot = 0 && (d.nextEav slot).isNone && decide (64 ≤ ss.length) then
      let d := d.moveRef slot (ss.length - 64)
      d.setIns slot { d.insOf slot with s := 0 }
    else d
  | some i =>
    let clear := match d.nextEav slot with
      | none => decide (i + 8 * x.s ≤ ss.length)
      | some e => decide (i < e.1)
    if clear then
      let d := (d.moveRef slot i).count SLP.CNT_TRS_COUNT 1 slot
      let y := d.insOf slot
      let d := d.setIns slot { y with away := 0, missed := y.missed + 1 }
      let d :=
        if d.parse slot = 1 then d.setParse slot 0
        else if (d.insOf slot).missed ≥ max 1 (d.get SLP.IN_CFG_LOSS_LINES slot) then d.setParse slot 0
        else d.setParse slot 3
      d.refreshPresence slot false
    else d

/-- The nearest ns of an offset in 2.5 ns units; of a tie, either (log 2). -/
def roundNs (d : Dev) (ofs : Int) : Int × Dev :=
  if ofs % 2 = 0 then (ofs * 5 / 2, d)
  else
    let r := d.draw
    (ofs * 5 / 2 + (r.1 % 2 : Nat), r.2)

/-- OFS of the last frame start in units of 2.5 ns (R101): against the nearest frame start of IN_CFG.CAD, in (−F/2, +F/2]; between two
units either is reported (log 2). -/
def frameOfs (d : Dev) (slot : Nat) : Int × Dev :=
  let c := d.get SLP.IN_CFG_CAD slot
  let t := (d.insOf slot).frameT
  let p : Int := periodTu (d.cadRate c)
  let r0 := t - d.nearestStart c t
  let r := if 2 * r0 ≤ -p then r0 + p else r0
  let word : Int := (tuPerNs * 5 / 2 : Nat)
  if r % word = 0 then (r / word, d)
  else
    let v := d.draw
    (r / word + (v.1 % 2 : Nat), v.2)

/-- The timing analyser at an input frame start (R101). -/
def analyse (d : Dev) (slot : Nat) : Dev :=
  match fmtOf (d.get SLP.IN_STAT_DET_FMT slot) with
  | none => d
  | some f =>
    let o := d.frameOfs slot
    let ofs := o.1
    let p := offsetParts f ofs
    let r := o.2.roundNs ofs
    let d := r.2
    let same := sameRate (f.num, f.den) (d.cadRate (d.get SLP.IN_CFG_CAD slot))
    let timed := same && decide (r.1.natAbs ≤ d.get SLP.TA_CFG_TOL slot * 10)
    let d := d.raiseIf (timed != d.flag SLP.IN_STAT_TIMED slot) SLP.EVT_STAT_TIMED_CHG slot
    let d := (d.put SLP.IN_STAT_TIMED timed slot).put SLP.IN_STAT_RATE_MM (!same) slot
    let d := (d.raise SLP.TA_OFS_VALID slot).set SLP.TA_OFS_OFS_LINES (ofSigned 12 p.1) slot
    (d.set SLP.TA_OFS_OFS_WORDS p.2.toNat slot).set SLP.TA_OFS_NS_OFS_NS (ofSigned 32 r.1) slot

/-- The payload-ID reader at a frame's end (R102): PID_VALID falls after two frames without a valid packet. -/
def pidFrame (d : Dev) (slot : Nat) : Dev :=
  let x := d.insOf slot
  let n := if x.pidSeen then 0 else x.pidMiss + 1
  let d := d.setIns slot { x with pidSeen := false, pidMiss := n }
  (if n ≥ 2 then d.put SLP.IN_STAT_PID_VALID false slot else d).refreshFmtMm slot

/-- The audio groups selected and missing in the whole of the frame that ends (R105). -/
def groupFrame (d : Dev) (slot : Nat) : Dev :=
  let x := d.insOf slot
  let miss := (List.range 4).foldl (fun m k =>
    let g := d.inGroup slot k
    if g != 0 && !x.grpSeen.testBit g && !m.testBit g then m + 2 ^ g else m) 0
  d.setIns slot { x with grpMiss := miss, grpSeen := 0 }

/-- An input frame start that the parser has found (R101, R102, R103, R109, R225). -/
def inputFrame (d : Dev) (slot : Nat) : Dev :=
  if d.flag SLP.IN_CFG_IN_EN slot && (d.insOf slot).fresh then
    let d := d.setIns slot { d.insOf slot with fresh := false }
    let d := ((d.groupFrame slot).commit 0x00300104 slot).pidFrame slot
    let d := if d.locked slot then d.analyse slot else d
    let d := d.refreshQuad slot
    match d.syncAt slot with
    | none => d
    | some n => d.syncInputFrame n (d.insOf slot).frameT
  else d

/-- Does a format, or a quad link, have a division into sub-images (R84, R102)? -/
def divided (d : Dev) (slot : Nat) : Bool :=
  decide (0x18 ≤ d.get SLP.IN_STAT_DET_FMT slot) || d.flag SLP.IN_CFG_QUAD (slot / 4 * 4)

/-- The next payload ID with a valid checksum (R102). The place of the division in it is ST 352's (DESIGN CHOICE, log 44). -/
def pidPacket (d : Dev) (slot : Nat) : Dev :=
  match (d.insOf slot).pids with
  | [] => d
  | pid :: ps =>
    let d := d.setIns slot { d.insOf slot with pids := ps }
    if d.flag SLP.IN_CFG_IN_EN slot then
      let d := d.raiseIf (d.get SLP.PID_PID slot != pid.toNat) SLP.EVT_STAT_PID_CHG slot
      let d := (d.set SLP.PID_PID pid.toNat slot).put SLP.IN_STAT_DIV (d.divided slot && Config.pidSquare pid) slot
      let d := d.setIns slot { d.insOf slot with pidSeen := true, pidMiss := 0, pidFmt := pidFormat pid, pidLink := pidLinkOf pid }
      ((d.raise SLP.IN_STAT_PID_VALID slot).refreshFmtMm slot).refreshQuad slot
    else d

/-- The next ancillary packet of the input (R107), captured once where a capturing filter matches. A record longer than the queue's
element is dropped as one that finds the queue full (R214). -/
def capture (d : Dev) (slot : Nat) : Dev :=
  match (d.insOf slot).pkts with
  | [] => d
  | p :: ps =>
    let d := d.setIns slot { d.insOf slot with pkts := ps }
    let hit := (List.range 8).any fun n => d.ancMatch slot fltIn n p && d.flag (SLP.ANC_FLT_CAP n) slot
    if d.flag SLP.IN_CFG_IN_EN slot && hit && d.flag SLP.ANC_Q_CAP_EN slot then
      let q := d.get SLP.ANC_Q_CAP_Q slot
      let bs := ancRecord slot p
      let r := if decide (12288 ≤ q) && d.flag QM.Q_STAT_RUN q && decide (2 ^ d.get QM.Q_CFG_ESZ q < bs.length) then (false, d)
        else d.qProduce q bs
      if r.1 then r.2 else (r.2.count SLP.CNT_ANC_DROP_COUNT 1 slot).raise SLP.EVT_STAT_ANC_DROP slot
    else d

end Dev

/-! ## The picture of a synchroniser (R221) -/

/-- The rows of a picture area that a line fills, each with its byte offset and its samples in the order Cb, Y, Cr, Y (R221): a level B
line holds link A and then link B; a 6G or 12G line holds the same line of four sub-images, in two-sample interleave or (`sqd`) in
quarters. -/
def pictureRows (code : Nat) (f : Fmt) (sqd : Bool) (l : LineIn) : List (Nat × List Samp) :=
  let s := l.streams.length
  let a := f.activeIdx l.num
  let row := a + (if f.field2 l.num then 540 else 0)
  let pitch := linePitch code
  if f.vBlank l.num then []
  else if s = 8 then
    if sqd then [(a * pitch, l.link 1), (a * pitch + 5120, l.link 2), ((a + 1080) * pitch, l.link 3), ((a + 1080) * pitch + 5120, l.link 4)]
    else [(2 * a * pitch, twoSample (l.link 1) (l.link 2)), ((2 * a + 1) * pitch, twoSample (l.link 3) (l.link 4))]
  else if s = 4 then [(row * pitch, l.link 1 ++ l.link 2)]
  else [(row * pitch, l.link 1)]

/-- Rows written to a buffer. -/
def putRows (m : Memory) (a : Nat) (rows : List (Nat × List Samp)) : Memory :=
  rows.foldl (fun m r => memWrites storeFill m (a + r.1) (packSamples r.2)) m

/-- The packets of a line that a synchroniser stores (R230): all but audio data and control packets. -/
def storedPkts (l : LineIn) : List StoredPkt :=
  l.streams.zipIdx.flatMap fun x =>
    let part (h : Bool) (ws : List Samp) : List StoredPkt :=
      ((scanPkts 0 0 ws).filter fun p => audioGroup (pktDid p.2) = 0).map fun p => ⟨l.num, x.2, h, p.1, p.2⟩
    part true (hancOf x.1) ++ (if l.v then part false (actOf x.1) else [])

/-- A packet stored where it leaves the ancillary area within its 245,760 bytes (R230), and otherwise counted by `n`. -/
def storePkt (acc : List StoredPkt × Nat) (p : StoredPkt) : List StoredPkt × Nat :=
  if ancBytes acc.1 + 2 * p.words.length ≤ 245760 then (acc.1 ++ [p], acc.2) else (acc.1, acc.2 + 1)

/-- A line that a synchroniser writes into the frame being written (R225, R230): its picture rows, its ancillary packets. -/
def State.syncLine (s : State) (slot : Nat) (l : LineIn) : State :=
  let d := s.dev
  match d.syncAt slot with
  | none => s
  | some n =>
    let u := d.syncUnit n
    let code := d.get FS.SYNC_CTL_FMT n
    match u.writing, fmtOf code with
    | some b, some f =>
      let old := ((u.frames ++ u.playing.toList).find? (·.buf == b)).map (·.anc)
      let r := (storedPkts l).foldl storePkt (old.getD [], 0)
      let put (x : SyncFrame) : SyncFrame := if x.buf = b then { x with anc := r.1, lines := max x.lines l.num } else x
      let d := d.setSync n { u with frames := u.frames.map put, playing := u.playing.map put }
      let d := if r.2 = 0 then d else (d.count FS.CNT_ANC_DROP_COUNT r.2 n).raise FS.SYNC_EVT_ANC_DROP n
      let rows := pictureRows code f (d.flag SLP.IN_STAT_DIV slot) l
      let had := ancBytes (old.getD [])
      let moves := rows.map (fun x => (d.bufAddr n b + x.1, packedLen x.2.length)) ++ [(d.ancAddr n b + had, ancBytes r.1 - had)]
      { s with dev := d.hbmMoves true moves, store := putRows s.store (d.bufAddr n b) rows }
    | _, _ => s

/-- The line that ends at the next valid EAV of a slot, where it is a whole line of the tracked format. -/
def Dev.endingLine (d : Dev) (slot : Nat) : Option LineIn :=
  let x := d.insOf slot
  match d.nextEav slot with
  | none => none
  | some (i, s, _, _) =>
    if d.locked slot && x.s = s && x.away = 0 && i - x.pos = x.wpl then some (lineIn s (((ifWords x.buf).drop x.pos).take (i - x.pos)))
    else none

/-! ## Meanings -/

/-- INPUT_ENABLE (R99, R100): a stopped stage is held in SEARCH with no detected format; a start takes its F fields. -/
def execInputEnable (slot : SlpSlot) (en : Bool) (s : State) := s.go fun d =>
  let d := d.put SLP.IN_CFG_IN_EN en slot
  let d :=
    if en then d.commit 0x00300104 slot
    else (((d.setParse slot 0).set SLP.IN_STAT_DET_FMT 0 slot).refreshFmtMm slot).setIns slot
      { InStage.init with seq := (d.insOf slot).seq }
  d.refreshPresence slot false

/-- EAV_FOUND (R98): the parser takes the next valid EAV of the words that the slot has received; a synchroniser writes the line that
ends there (R225). A bundle's raster runs on to its next line start where the slot has none left. -/
def execEavFound (slot : SlpSlot) (s : State) : Host.Outcome State Fault Refusal :=
  let s := if decide (1152 ≤ slot.val) && (s.dev.nextEav slot).isNone then { s with dev := s.dev.bdlLine (slot - 1152) } else s
  if s.dev.flag SLP.IN_CFG_IN_EN slot then
    let s := match s.dev.endingLine slot with
      | some l => s.syncLine slot l
      | none => s
    .next { s with dev := s.dev.eav slot }
  else .next s

/-- EAV_MISS (R98, R99). -/
def execEavMiss (slot : SlpSlot) (s : State) := s.go fun d =>
  if d.flag SLP.IN_CFG_IN_EN slot then d.eavMissed slot else d

/-- INPUT_FRAME_START (R101, R225): the frame start that the parser has found. -/
def execInputFrameStart (slot : SlpSlot) (s : State) := s.go fun d => d.inputFrame slot

/-- PAYLOAD_ID_PACKET (R102): the next payload ID that the parser has found. -/
def execPayloadIdPacket (slot : SlpSlot) (s : State) := s.go fun d => d.pidPacket slot

/-- ANC_PACKET_CAPTURE (R107): the next ancillary packet that the parser has found. -/
def execAncPacketCapture (slot : SlpSlot) (s : State) := s.go fun d => d.capture slot

/-- OUTPUT_ENABLE (R90, R126, R134): a start takes the F fields; a stop ends the pending takes. -/
def execOutputEnable (o : SlpSlot) (en : Bool) (s : State) := s.go fun d =>
  let was := d.flag SLP.OUT_CFG_OUT_EN o
  let d := d.put SLP.OUT_CFG_OUT_EN en o
  let d :=
    if en && !was then ((d.commit 0x00200104 o).commit 0x00300114 o).outStart o
    else if !en && was then (d.takesStop o).outStop o
    else d
  if 1152 ≤ o.val then d.refreshWait (o - 1152) else d

end Sys2Proof.Machine
end

