-- ==== Sys2Proof/Machine/Plt.lean ====
section
/-!
DEFINITION. Sys2Proof/Machine/Plt.lean: the Plotter engines (chapter 9): start and stop, commits and their checks, the line
buffer, absent layers, and the composition of a frame into the freeze buffer.
-/

namespace Sys2Proof.Machine

/-- How a field is read: from the shadow or from the active copy. -/
abbrev FieldOf := Fld → Nat → Nat

/-- A layer's configuration, read from the shadow or the active set; `ch` is engine × 16 + layer. -/
def layCfg (g : FieldOf) (ch dec : Nat) : LayCfg where
  kind := g PLT.LAY_SRC_KIND ch
  absShow := g PLT.LAY_SRC_ABS_SHOW ch != 0
  feed := g PLT.LAY_SRC_FEED ch
  out := g PLT.LAY_SRC_OUT ch
  sync := g PLT.LAY_SRC_SYNC ch
  pattern := g PLT.LAY_SRC_PATTERN ch
  premul := g PLT.LAY_SRC_PREMUL ch != 0
  srcX := g PLT.LAY_SRC_XY_SRC_X ch
  srcY := g PLT.LAY_SRC_XY_SRC_Y ch
  srcW := g PLT.LAY_SRC_WH_SRC_W ch
  srcH := g PLT.LAY_SRC_WH_SRC_H ch
  dstX := toSigned 13 (g PLT.LAY_DST_XY_DST_X ch)
  dstY := toSigned 13 (g PLT.LAY_DST_XY_DST_Y ch)
  dstW := g PLT.LAY_DST_WH_DST_W ch
  dstH := g PLT.LAY_DST_WH_DST_H ch
  opacity := g PLT.LAY_KEY_OPACITY ch
  keyMode := g PLT.LAY_KEY_KEY_MODE ch
  keyFeed := g PLT.LAY_KEY_KEY_FEED ch
  keyInv := g PLT.LAY_KEY_KEY_INV ch != 0
  keyClip := g PLT.LAY_KEY_KEY_CLIP ch
  keyGain := g PLT.LAY_KEYG_KEY_GAIN ch
  colour := ⟨g PLT.LAY_COLOUR_Y ch, g PLT.LAY_COLOUR_CB ch, g PLT.LAY_COLOUR_CR ch⟩
  addr := g PLT.LAY_SURF_ADDR ch
  otc := g PLT.LAY_SURF_OTC ch != 0
  width := g PLT.LAY_SURF_DIM_WIDTH ch
  height := g PLT.LAY_SURF_DIM_HEIGHT ch
  pitch := g PLT.LAY_SURF_PITCH_PITCH ch
  nbar := g PLT.LAY_MTR_NBAR ch
  gap := g PLT.LAY_MTR_GAP ch
  flr := g PLT.LAY_MTR_FLOOR ch
  amber := g PLT.LAY_MTR_AMBER ch
  red := g PLT.LAY_MTR_RED ch
  dec := dec

/-- Is the layer drawn? KIND 7 is treated as 0 (Table 9.3). -/
def layDrawn (c : LayCfg) : Bool := decide (1 ≤ c.kind) && decide (c.kind ≤ 6)

/-- Is the layer scaled from a picture (KIND 1 to 3)? -/
def scaled (c : LayCfg) : Bool := decide (1 ≤ c.kind) && decide (c.kind ≤ 3)

/-- Does the layer take a picture through a crop window: its own, or that of its key feed (R250, R258)? The second for KIND 4 to 6 is
DEDUCED (log 110). -/
def cropped (c : LayCfg) : Bool := scaled c || (layDrawn c && c.keyMode == 2)

/-- Picture dimensions of a format (R221, R250); a synchroniser's interlaced picture is read woven (R249). -/
def picDims (fmt : Nat) : Nat × Nat :=
  if !fmtValid fmt then (0, 0) else if fmt ≤ 3 then (1280, 720) else if fmt < 0x18 then (1920, 1080) else (3840, 2160)

/-- A layer's line-buffer need (R255). -/
def lbNeed (c : LayCfg) : Nat :=
  if scaled c && c.dstH != 0 then (boxLen c + 4) * c.dstW * (if c.keyMode = 2 then 2 else 1) else 0

/-- The line-buffer pool in cells (R255). -/
def lbPool : Nat := 245760

/-- One step of R255: of the layers with m > 1, the one of the largest need, the lowest number on a tie. -/
def lbPick (cs : List LayCfg) : Option Nat :=
  (cs.zipIdx.filter fun x => scaled x.1 && x.1.dstH != 0 && decide (1 < boxLen x.1)).foldl
    (fun best x => match best with
      | none => some x.2
      | some b => if lbNeed x.1 > ((cs[b]?).map lbNeed).getD 0 then some x.2 else some b) none

/-- The layers with their pre-decimation, D doubled until the sum fits or no layer qualifies (R255). -/
def lbFit : Nat → List LayCfg → List LayCfg
  | 0, cs => cs
  | n + 1, cs =>
    if (cs.map lbNeed).sum ≤ lbPool then cs
    else
      match lbPick cs with
      | none => cs
      | some l => lbFit n (cs.modify l fun c => { c with dec := 2 * c.dec })

/-- log2 of the pre-decimation. -/
def log2Dec : Nat → Nat → Nat
  | 0, _ => 0
  | n + 1, d => if d ≤ 1 then 0 else log2Dec n (d / 2) + 1

/-- The coefficient that a 10-bit code stands for (R253): the code 0x200 is 512 (DEDUCED, log 6). -/
def coefVal (n : Nat) : Int := if n = 512 then 512 else toSigned 10 n

namespace Dev

/-- The shadow set, and the active set (R267). -/
def shadowOf (d : Dev) : FieldOf := fun f c => d.get f c
def activeOf (d : Dev) : FieldOf := fun f c => d.getAct f c

/-- Outputs that the engine drives in MODE 1 (Table 9.10). -/
def engNout (d : Dev) (e : Nat) : Nat := max 1 (min 4 (d.get PLT.ENG_CFG_NOUT e))

/-- Is the engine's format accepted in its mode (Table 9.1)? -/
def engFmtOk (d : Dev) (e : Nat) : Bool :=
  let f := d.get PLT.ENG_CFG_FMT e
  if d.flag PLT.ENG_CFG_MODE e then [1, 2, 3, 7, 8, 9, 0xA, 0xB, 0x10, 0x11, 0x12].contains f
  else [0x18, 0x19, 0x1A, 0x20, 0x21, 0x22].contains f

/-- The coefficient at an index, from the shadow or the active set. -/
def coefAt (g : FieldOf) (e i : Nat) : Int := coefVal (g PLT.COEF_DATA_COEF (e * 1024 + i))

/-- The sixteen layers of an engine with the pre-decimation that the line buffer calls for (R255). -/
def layers (g : FieldOf) (e : Nat) : List LayCfg :=
  let cs := (List.range 16).map fun l => layCfg g (e * 16 + l) 1
  if g PLT.ENG_CFG_LB_SKIP e != 0 then lbFit 128 cs else cs

/-- Dimensions of a layer's source picture (R250), the engine picture for a layer that crops its key feed alone. -/
def srcDims (d : Dev) (e : Nat) (c : LayCfg) : Nat × Nat :=
  match c.kind with
  | 1 => picDims (d.get PLT.ENG_CFG_FMT e)
  | 2 => picDims (d.get FS.SYNC_CTL_FMT c.sync)
  | 3 => (c.width, c.height)
  | _ => picDims (d.get PLT.ENG_CFG_FMT e)

/-- The geometry check (R253; R265 for meters). -/
def geomOk (d : Dev) (e : Nat) (c : LayCfg) : Bool :=
  let p := picDims (d.get PLT.ENG_CFG_FMT e)
  let s := d.srcDims e c
  let dst := decide (1 ≤ c.dstW) && decide (c.dstW ≤ p.1) && decide (1 ≤ c.dstH) && decide (c.dstH ≤ p.2)
  let src := decide (1 ≤ c.srcW) && decide (1 ≤ c.srcH) && decide (c.srcX + c.srcW ≤ s.1) && decide (c.srcY + c.srcH ≤ s.2) &&
    decide (c.dstW ≤ 16 * c.srcW) && decide (c.srcW ≤ 16 * c.dstW) && decide (c.dstH ≤ 16 * c.srcH) &&
    decide (c.srcH ≤ 16 * c.dstH)
  !layDrawn c || (dst && (!cropped c || src) &&
    (c.kind != 5 || (decide (1 ≤ c.flr) && decide (c.red ≤ c.amber) && decide (c.amber ≤ c.flr))))

/-- The surface range check (R263). -/
def surfOk (d : Dev) (c : LayCfg) : Bool :=
  let base := surfBase + c.addr * 4096
  let bytes := if c.otc then 8 * ((c.width + 7) / 8) * ((c.height + 7) / 8)
    else (c.height - 1) * c.pitch * 64 + 8 * c.width
  c.kind != 3 || (decide (0x2C000000 ≤ c.addr * 4096) && decide (base + bytes ≤ surfEnd (d.get FS.RGN_CFG_SURF_MIB)))

/-- Does a layer read a feed, or a key feed (R270)? -/
def usesFeed (c : LayCfg) : Bool := layDrawn c && (c.kind == 1 || c.keyMode == 2)

/-- T_v of a layer (R252, R258); 0 for one without vertical scaling. -/
def layTv (c : LayCfg) : Nat := if cropped c && c.dstH != 0 then vTaps c else 0

/-- The checks of one layer in their order (R269): GEOM 3, SURF_RANGE 4, OUT_IDX 6, FEED_DLY 5; 0 where all pass. -/
def layCode (d : Dev) (e : Nat) (c : LayCfg) : Nat :=
  if !d.geomOk e c then 3
  else if !d.surfOk c then 4
  else if d.flag PLT.ENG_CFG_MODE e && layDrawn c && decide (d.engNout e ≤ c.out) then 6
  else if usesFeed c && decide (d.engDelay e < 2 + layTv c) then 5
  else 0

/-- Does every phase of the coefficient memory sum to 512 (R269)? -/
def coefOk (g : FieldOf) (e : Nat) : Bool :=
  ((List.range 64).all fun p => ((List.range 8).map fun t => coefAt g e (p * 8 + t)).sum == 512) &&
    (List.range 64).all fun p => ((List.range 4).map fun t => coefAt g e (512 + p * 4 + t)).sum == 512

/-- The checks of an engine's shadow set in their order (R269): the code of the first failure and the failing layer; code 1
where all pass. -/
def engCheck (d : Dev) (e : Nat) : Nat × Nat :=
  let cs := layers d.shadowOf e
  match cs.zipIdx.find? fun x => d.layCode e x.1 != 0 with
  | some x => (d.layCode e x.1, x.2)
  | none =>
    if !coefOk d.shadowOf e then (7, 0)
    else if (cs.map lbNeed).sum > lbPool then (2, 0)
    else (1, 0)

/-- The channel of a meter bar, with its side (Table 9.14). -/
def barChan (g : FieldOf) (ch b : Nat) : Nat × Nat :=
  if b % 2 = 0 then (g (PLT.LAY_MTR_CH_CH_2n (b / 2)) ch, g (PLT.LAY_MTR_CH_SIDE_2n (b / 2)) ch)
  else (g (PLT.LAY_MTR_CH_CH_2np1 (b / 2)) ch, g (PLT.LAY_MTR_CH_SIDE_2np1 (b / 2)) ch)

/-- A bar whose channel a commit changes starts again at 0 (R264). -/
def meterReset (d : Dev) (e : Nat) : Dev :=
  (List.range 256).foldl (fun d i =>
    let ch := e * 16 + i / 16
    if barChan d.shadowOf ch (i % 16) = barChan d.activeOf ch (i % 16) then d
    else { d with meters := mapPut d.meters (ch, i % 16) 0 0 }) d

/-- The shadow set becomes active (R267), with the line-buffer status it gives (Tables 9.11 and 9.14). -/
def engApply (d : Dev) (e : Nat) : Dev :=
  let d := (d.meterReset e).commit 0x00800104 e |>.commit 0x00800108 e
  let d := (List.range 768).foldl (fun d i => d.commit 0x00800134 (e * 1024 + i)) d
  let d := (List.range 20).foldl (fun d r =>
    (List.range 16).foldl (fun d l => d.commit (0x00800200 + 4 * r) (e * 16 + l)) d) d
  let cs := layers d.activeOf e
  let d := cs.zipIdx.foldl (fun d x =>
    let ch := e * 16 + x.2
    ((d.set PLT.LAY_STAT_LB_NEED (lbNeed x.1) ch).set PLT.LAY_STAT_SKIP (log2Dec 8 x.1.dec) ch).set PLT.LAY_STAT_T_V
      (layTv x.1) ch) d
  d.set PLT.ENG_LB_USED (cs.map lbNeed).sum e

/-- The engines that run with an engine in its commit group (R268), itself included. -/
def engGroup (d : Dev) (e : Nat) : List Nat :=
  let g := d.get PLT.ENG_CFG_GROUP e
  (List.range 32).filter fun x => x == e || (g != 0 && d.flag PLT.ENG_STAT_RUN x && d.get PLT.ENG_CFG_GROUP x == g)

/-- The code of the first start condition that fails (Table 9.2), or 0. -/
def engStartCode (d : Dev) (e : Nat) : Nat :=
  let rateOk := match fmtOf (d.get PLT.ENG_CFG_FMT e) with
    | none => false
    | some f => sameRate (f.num, f.den) (d.cadRate (d.get PLT.ENG_CFG_CAD e))
  if !(d.engFmtOk e && rateOk) then 1
  else if d.get FS.RGN_CFG_SURF_MIB < 704 then 2
  else if !d.flag FS.BLK_STAT_READY then 3
  else if (d.engGroup e).any fun x => d.get PLT.ENG_CFG_CAD x != d.get PLT.ENG_CFG_CAD e then 4
  else if (d.engCheck e).1 != 1 then 5
  else 0

/-- The four feeds of an engine (R245). -/
def engFeeds (e : Nat) : List Nat := (List.range 4).map fun k => 1536 + 4 * e + k

/-- A write of EN = 1 (R244): its first frame lies 100 µs or more after it; PCLK is requested where it is off (R475). -/
def engStart (d : Dev) (e : Nat) : Dev :=
  let d := d.put PLT.ENG_CTL_EN true e
  let d := d.when (!d.flag GLB.CLK_STAT_PCLK_ON) fun d => { d with pclkReq := true }
  if d.flag PLT.ENG_STAT_RUN e then d
  else
    let c := d.engStartCode e
    if c = 0 then
      let d := ((d.engApply e).set PLT.ENG_STAT_ERR 0 e).put PLT.ENG_STAT_RUN true e
      let d := (d.set PLT.ENG_FRAME_FRAME 0 e).put PLT.ENG_STAT_ARMED false e
      let d := (engFeeds e).foldl (fun d o => (d.commit 0x00200104 o).outStart o) d
      (engFeeds e).foldl (fun d o => d.setGenOf o { SrcGen.init with seq := (d.genOf o).seq, target := d.cadNow + nsTu 100000 }) d
    else
      let k := d.engCheck e
      let d := if c = 5 then (d.set PLT.ENG_STAT_RESULT k.1 e).set PLT.ENG_STAT_FAIL_LAY k.2 e else d
      (d.set PLT.ENG_STAT_ERR c e).raise PLT.ENG_EVT_START_ERR e

/-- A write of EN = 0 (R244, Table 9.8): the outputs become absent, and the feeds stop with their pending takes. -/
def engStop (d : Dev) (e : Nat) : Dev :=
  let d := (d.put PLT.ENG_CTL_EN false e).mark .pclk 0
  if d.flag PLT.ENG_STAT_RUN e then
    let d := d.clear [PLT.ENG_STAT_RUN, PLT.ENG_STAT_ARMED, PLT.ENG_STAT_SHED] e
    (engFeeds e).foldl (fun d o => ((d.takesStop o).outStop o).genStop o) d
  else d

/-- COMMIT (R267, R268): the engine and its group are armed, for a frame start 100 µs or more away. -/
def engArm (d : Dev) (e : Nat) : Dev :=
  if d.flag PLT.ENG_STAT_RUN e && !d.flag PLT.ENG_STAT_ARMED e then
    let g := d.engGroup e
    let at' := d.cadNow + nsTu 100000
    g.foldl (fun d x => { d.put PLT.ENG_STAT_ARMED true x with
      engArmed := mapPut d.engArmed (x, 0) [] g, commitAt := mapPut d.commitAt (0, x) none (some at') }) d
  else d

/-- One engine's outcome at a commit point: applied, or rejected with a code and layer (R267). -/
def engResult (d : Dev) (e code lay : Nat) : Dev :=
  let d := ((d.set PLT.ENG_STAT_RESULT code e).set PLT.ENG_STAT_FAIL_LAY lay e).put PLT.ENG_STAT_ARMED false e
  if code = 1 then (d.engApply e).raise PLT.ENG_EVT_COMMIT_OK e
  else ((d.raise PLT.ENG_EVT_COMMIT_REJ e).count PLT.ENG_CNT_REJ_COUNT 1 e).pulseFault ⟨158, 3, 0, e⟩

/-- The frame start F(k) of an engine's cadence that was delivered last. -/
def engFrameT (d : Dev) (e : Nat) : Int :=
  let c := d.get PLT.ENG_CFG_CAD e
  frameTu (d.cadRate c) (d.cadOfs c) (mapGet d.cadLast (c, 0) (-1))

/-- The commit point of an engine or of its group (R267 to R269): a frame start from the time on that the COMMIT set. -/
def engCommitPoint (d : Dev) (e : Nat) : Dev :=
  if d.flag PLT.ENG_STAT_ARMED e && (mapGet d.commitAt (0, e) none).all fun t => decide (t ≤ d.engFrameT e) then
    let g := mapGet d.engArmed (e, 0) []
    let live := g.filter fun x => d.flag PLT.ENG_STAT_RUN x && d.flag PLT.ENG_STAT_ARMED x
    let rs := live.map fun x => (x, d.engCheck x)
    if live.length = g.length && rs.all (fun r => r.2.1 == 1) then live.foldl (fun d x => d.engResult x 1 0) d
    else rs.foldl (fun d r => if r.2.1 = 1 then d.engResult r.1 8 0 else d.engResult r.1 r.2.1 r.2.2) d
  else d

/-! ## Absent layers (R245, R249, Table 9.4) -/

/-- Is a feed outside the window of R245 for a layer? -/
def feedOutside (d : Dev) (e o : Nat) (c : LayCfg) : Bool :=
  let line : Int := ((fmtOf (d.get PLT.ENG_CFG_FMT e)).map lineTu).getD 0
  let x := d.counterOfs o
  decide (x < Neg.neg (nsTu 1000)) || decide (((d.engDelay e : Int) - 2 - layTv c) * line + nsTu 1000 < x)

/-- Is a feed an absent source of a layer? -/
def feedAbsent (d : Dev) (e k : Nat) (c : LayCfg) : Bool :=
  let o := 1536 + 4 * e + k
  d.flag XP.SRC_STAT_GEN o || d.flag XP.SRC_STAT_FMT_MM o || d.feedOutside e o c

/-- Is a layer's source absent now? -/
def layAbsent (d : Dev) (e : Nat) (c : LayCfg) : Bool :=
  let n := c.sync
  let fmt := d.get FS.SYNC_CTL_FMT n
  layDrawn c && ((c.kind == 1 && d.feedAbsent e c.feed c) || (c.keyMode == 2 && d.feedAbsent e c.keyFeed c) ||
    (c.kind == 2 && (!d.flag FS.SYNC_STAT_RUN n || d.flag FS.SYNC_STAT_EMPTY n ||
      d.get FS.SYNC_CTL_CAD n != d.get PLT.ENG_CFG_CAD e || fmt == 0 || fmt == 0x13 || fmt == 0x14)))

/-- A feed line start (Table 9.4): the layers that read the feed are judged again, and FEED_TIMING is raised outside the
window. -/
def feedLine (d : Dev) (o : Nat) : Dev :=
  let e := engOf o
  let k := (o - 1536) % 4
  if 1536 ≤ o && d.flag PLT.ENG_STAT_RUN e then
    (layers d.activeOf e).zipIdx.foldl (fun d x =>
      let c := x.1
      if usesFeed c && ((c.kind == 1 && c.feed == k) || (c.keyMode == 2 && c.keyFeed == k)) then
        (d.raiseIf (d.feedOutside e o c) PLT.ENG_EVT_FEED_TIMING e).put PLT.LAY_STAT_ABSENT (d.layAbsent e c) (e * 16 + x.2)
      else d) d
  else d

/-! ## Composition -/

/-- The store address of line y of the picture of a synchroniser's frame that plays now (R221, R233, R249): a line of an incomplete frame that
has not been written is that of the frame before (R227). -/
def syncAddr (d : Dev) (n y : Nat) : Nat :=
  let fmt := d.get FS.SYNC_CTL_FMT n
  let f := (fmtOf fmt).getD ⟨2, 0, 0, 1, 1, false⟩
  let second := f.interlaced && decide (y % 2 = 1)
  let line := rowLine f (if f.interlaced then y / 2 else y) second
  let base := d.bufAddr n (((lineFrame (d.syncUnit n) line).map (·.buf)).getD (d.get FS.SYNC_STAT_BUF n))
  let row := if f.interlaced then (if second then (picDims fmt).2 / 2 + y / 2 else y / 2) else y
  base + row * linePitch fmt

/-- The planes of a synchroniser's frame that plays now (R221, R233, R249); granules that hold an uncorrectable error read as R239
states. -/
def syncPlanes (d : Dev) (m : Memory) (n : Nat) : Planes :=
  expand422 (picDims (d.get FS.SYNC_CTL_FMT n)).1 fun i y =>
    let a := d.syncAddr n y + i / 3 * 4
    if badRange d.ueGran a 4 then ((fillSamp i).toNat : Int)
    else (storeNat m a 4 / 1024 ^ (i % 3) % 1024 : Nat)

/-- The rows of the feeds, by feed and picture line; one that is absent, or has not come, is empty (R245, Table 9.4). -/
abbrev FeedRows := Nat → Nat → List Samp

/-- The rows that the feeds have delivered (R245). -/
def feedRows (d : Dev) (e : Nat) : FeedRows := fun k y =>
  (((d.egr (1536 + 4 * e + k)).rows.reverse.find? fun r => r.row == y).map (·.samps)).getD []

/-- The planes of a feed's picture. A sample that the crop window of a key takes from beyond the picture, or from a line that the feed has
not delivered, is a free value (log 110). -/
def feedPlanes (w : Nat) (f : Nat → List Samp) : Planes := expand422 w fun i y => ((f y).getD i (Config.unseenSample i y)).toNat

/-- The planes of a layer's source (Table 9.3). -/
def layPlanes (d : Dev) (m : Memory) (e : Nat) (feeds : FeedRows) (c : LayCfg) : Planes :=
  match c.kind with
  | 1 => feedPlanes (picDims (d.get PLT.ENG_CFG_FMT e)).1 (feeds c.feed)
  | 2 => d.syncPlanes m c.sync
  | _ => surfPlanes m d.ueGran (surfEnd (d.get FS.RGN_CFG_SURF_MIB)) c

/-- A layer over the composite at an output pixel (R248 to R258). `ch` and `cv` are the coefficients. -/
def layOver (d : Dev) (m : Memory) (e : Nat) (feeds : FeedRows) (late : List (Nat × Nat)) (ch cv : Nat → Nat → Int)
    (out x y : Nat) (b : Pix) (lc : LayCfg × Nat) : Pix :=
  let c := lc.1
  let i : Int := (x : Int) - c.dstX
  let j : Int := (y : Int) - c.dstY
  let inside := decide (0 ≤ i) && decide (i < c.dstW) && decide (0 ≤ j) && decide (j < c.dstH)
  let named := !d.flag PLT.ENG_CFG_MODE e || c.out == out
  let lost (k : Nat) : Bool := (feeds k y).isEmpty
  let absent := d.flag PLT.LAY_STAT_ABSENT (e * 16 + lc.2) || (c.kind == 1 && lost c.feed) || (c.keyMode == 2 && lost c.keyFeed)
  if !layDrawn c || !inside || !named || late.contains (lc.2, y) then b
  else if absent then (if c.absShow then pixOver c c.colour c.opacity none b else b)
  else
    let i := i.toNat
    let j := j.toNat
    let keyY (own : Int) : Int :=
      if c.keyMode = 2 then
        scaleAt ch cv c (feedPlanes (picDims (d.get PLT.ENG_CFG_FMT e)).1 (feeds c.keyFeed)).y i j
      else own
    if scaled c then
      let p := d.layPlanes m e feeds c
      let s (pl : Plane) : Int := scaleAt ch cv c pl i j
      let v : Pix := ⟨s p.y, s p.cb, s p.cr⟩
      pixOver c v (keyed c (keyY v.y)) (if c.kind = 3 then some (s p.a) else none) b
    else
      let v : Option Pix :=
        match c.kind with
        | 4 => some c.colour
        | 5 => meterPix c (fun k => mapGet d.meters (e * 16 + lc.2, k) 0) i j
        | _ => some (patternPix c (d.get PLT.ENG_FRAME_FRAME e) i j)
      match v with
      | none => b
      | some v => pixOver c v (keyed c (keyY v.y)) none b

/-- A line of an output's composite (R248, R260). -/
def composeLine (d : Dev) (m : Memory) (e : Nat) (feeds : FeedRows) (late : List (Nat × Nat)) (out y : Nat) :
    List (BitVec 10) :=
  let bg : Pix := ⟨d.getAct PLT.ENG_BG_Y e, d.getAct PLT.ENG_BG_CB e, d.getAct PLT.ENG_BG_CR e⟩
  let ch (p t : Nat) : Int := coefAt d.activeOf e (p * 8 + t)
  let cv (p t : Nat) : Int := coefAt d.activeOf e (512 + p * 4 + t)
  line422 (picDims (d.get PLT.ENG_CFG_FMT e)).1 fun x =>
    (layers d.activeOf e).zipIdx.foldl (d.layOver m e feeds late ch cv out x y) bg

/-- The outputs an engine drives (Table 9.1). -/
def engOuts (d : Dev) (e : Nat) : Nat := if d.flag PLT.ENG_CFG_MODE e then d.engNout e else 1

/-- The lines of an output's composite. -/
def composePic (d : Dev) (m : Memory) (e : Nat) (late : List (Nat × Nat)) (k : Nat) : List (List Samp) :=
  (List.range (picDims (d.get PLT.ENG_CFG_FMT e)).2).map fun y => d.composeLine m e (d.feedRows e) late k y

/-- The frame store once an engine's frame is in its freeze buffer (R246). -/
def freezeStore (d : Dev) (m : Memory) (e : Nat) (late : List (Nat × Nat)) : Memory :=
  (List.range (d.engOuts e)).foldl (fun m' k =>
    putRows m' (surfBase + e * 22364160 + k * 5591040)
      ((d.composePic m e late k).zipIdx.map fun r => (r.2 * linePitch (d.get PLT.ENG_CFG_FMT e), r.1))) m

/-- Frame k of an engine goes to its output rasters (R243): its pictures, or none where the rasters play the last one again (R273), with
F(k) + E lines as the target of their next frame start; and the feeds' rows are done with. -/
def engRasters (d : Dev) (e : Nat) (fk : Int) (pics : List (List (List Samp))) : Dev :=
  let code := d.get PLT.ENG_CFG_FMT e
  let t : Int := fk + (d.engDelay e * ((fmtOf code).map lineTu).getD 0 : Nat)
  let d := (List.range (d.engOuts e)).foldl (fun d k =>
    let o := 1536 + 4 * e + k
    let g := d.genOf o
    d.setGenOf o { g with code := code, target := t, resume := if g.run then g.resume else some t, next := pics.getD k g.next }) d
  (engFeeds e).foldl (fun d o => d.setEgr o { d.egr o with rows := [] }) d

/-- The invalid tiles that an engine's OTC layers touch (R263). -/
def otcErrors (d : Dev) (m : Memory) (e : Nat) : Nat :=
  ((layers d.activeOf e).map fun c =>
    if c.kind = 3 && c.otc then
      ((cropTiles c).filter (otcBad m (surfEnd (d.get FS.RGN_CFG_SURF_MIB)) (surfBase + c.addr * 4096))).length
    else 0).sum

/-! ## Store traffic (R235, R271, R485) -/

/-- What an engine's layer reads of the store for a frame (R261, R262, R271): each effective line of its crop window, or the directory entry
and the data of each tile that it touches. -/
def layReads (d : Dev) (m : Memory) (e lay : Nat) (c : LayCfg) : List (Nat × Nat) :=
  let base := surfBase + c.addr * 4096
  let lines := (List.range (effLines c)).map fun i => c.srcY + i * c.dec
  let tile (t : Nat) : List (Nat × Nat) :=
    let x := storeNat m (base + 8 * t) 8
    (base + 8 * t, 8) :: (if otcBad m (surfEnd (d.get FS.RGN_CFG_SURF_MIB)) base t then [] else [(base + x / 2 ^ 32 * 32, otcBytes (x % 16))])
  if !layDrawn c || d.flag PLT.LAY_STAT_ABSENT (e * 16 + lay) then []
  else if c.kind = 2 then lines.map fun y => (d.syncAddr c.sync y + 2 * c.srcX / 3 * 4, packedLen (2 * c.srcW))
  else if c.kind = 3 then
    if c.otc then (cropTiles c).flatMap tile else lines.map fun y => (base + y * c.pitch * 64 + 8 * c.srcX, 8 * c.srcW)
  else []

/-- The lines of an engine's freeze buffer (R246). -/
def freezeLines (d : Dev) (e : Nat) : List (Nat × Nat) :=
  let code := d.get PLT.ENG_CFG_FMT e
  (List.range (d.engOuts e)).flatMap fun k => (List.range (picDims code).2).map fun y =>
    (surfBase + e * 22364160 + k * 5591040 + y * linePitch code, packedLen (2 * (picDims code).1))

/-- What an engine's frame moves of the store: while it sheds its outputs read the freeze buffer (R273), else its layers are read and the
freeze buffer is written. -/
def engTraffic (d : Dev) (m : Memory) (e : Nat) (shed : Bool) : Dev :=
  if shed then d.hbmMoves false (d.freezeLines e)
  else (d.hbmMoves false ((layers d.activeOf e).zipIdx.flatMap fun x => d.layReads m e x.2 x.1)).hbmMoves true (d.freezeLines e)

/-! ## Planned store traffic (R235, R271), in bytes over 1,001 seconds -/

/-- A number of bytes in each period of a rate. -/
def perRate (r : Nat × Nat) (n : Nat) : Nat := n * r.1 * 1001 / r.2

/-- The picture bytes of a format (R221); a level B frame has two lines in each. -/
def picBytes (code : Nat) : Nat := linePitch code * ((picDims code).2 * (if code = 0x13 || code = 0x14 then 2 else 1))

/-- The planned traffic of a synchroniser (Table 8.4). -/
def syncPlan (d : Dev) (n : Nat) : Nat := perRate (d.syncRate n) (2 * (picBytes (d.get FS.SYNC_CTL_FMT n) + 245760))

/-- How many tiles a layer's crop window touches. -/
def tileCount (c : LayCfg) : Nat :=
  ((c.srcX + c.srcW + 7) / 8 - c.srcX / 8) * ((c.srcY + c.srcH + 7) / 8 - c.srcY / 8)

/-- What a layer fetches for a frame (R271). -/
def layPlan (c : LayCfg) : Nat :=
  if c.kind = 2 then effLines c * (64 * ((4 * ((2 * c.srcW + 2) / 3) + 63) / 64))
  else if c.kind = 3 then (if c.otc then tileCount c * 328 else effLines c * (c.srcW * 8))
  else 0

/-- The planned traffic of an engine (R271). -/
def engPlan (d : Dev) (e : Nat) : Nat :=
  perRate (d.cadRate (d.get PLT.ENG_CFG_CAD e))
    (((layers d.activeOf e).map layPlan).sum + d.engOuts e * picBytes (d.get PLT.ENG_CFG_FMT e))

/-- The planned traffic of all clients of the store (Table 8.4): synchronisers, pool, host and running engines. -/
def planTotal (d : Dev) : Nat :=
  ((d.flagSet FS.SYNC_STAT_RUN).map d.syncPlan).sum + d.pool.length * (8 * 48000 * 1001) + 16000000000 * 1001 +
    ((d.flagSet PLT.ENG_STAT_RUN).map d.engPlan).sum

/-- Can Plotter fetches be late: is the plan above 70% of the peak (R235, R272)? -/
def fetchLate (d : Dev) : Bool := decide (2457600000000 * 1001 * 7 < d.planTotal * 10)

/-- Status at the start of an engine's frame: the layers' absence, judged again for those that read a synchroniser. -/
def engAbsence (d : Dev) (e : Nat) : Dev :=
  (layers d.activeOf e).zipIdx.foldl (fun d x => d.put PLT.LAY_STAT_ABSENT (d.layAbsent e x.1) (e * 16 + x.2)) d

/-- The shedding ladder at a frame start (R273). -/
def engShed (d : Dev) (e : Nat) : Dev :=
  let was := d.flag PLT.ENG_STAT_SHED e
  let d := (d.raiseIf (d.shedding && !was) PLT.ENG_EVT_SHED_ON e).raiseIf (was && !d.shedding) PLT.ENG_EVT_SHED_OFF e
  d.put PLT.ENG_STAT_SHED d.shedding e

/-- The late lines and the OTC errors of a frame (R263, R272). -/
def engErrors (d : Dev) (m : Memory) (e : Nat) (late : List (Nat × Nat)) : Dev :=
  let d := (List.range 16).foldl (fun d l => d.put PLT.LAY_STAT_LATE (late.any fun x => x.1 == l) (e * 16 + l)) d
  let d := if late.isEmpty then d
    else (((d.logAdd (874 + e) late.length).count PLT.ENG_CNT_LATE_COUNT late.length e).raise PLT.ENG_EVT_LATE e).pulseFault ⟨156, 3, 0, e⟩
  let n := d.otcErrors m e
  if n = 0 then d else ((d.count PLT.ENG_CNT_OTC_COUNT n e).raise PLT.ENG_EVT_OTC_ERR e).pulseFault ⟨157, 3, 0, e⟩

end Dev

/-! ## Meanings -/

/-- ENGINE_START (R244). -/
def execEngineStart (e : Eng) (s : State) := s.go fun d => d.engStart e

/-- ENGINE_STOP (R244). -/
def execEngineStop (e : Eng) (s : State) := s.go fun d => d.engStop e

/-- ENGINE_FRAME (R243, R244, R246, R248, R272, R273): the engine composes its frame from the rows that its feeds have delivered and the
other sources, for its output rasters and its freeze buffer, unless it sheds; `late` names the layer lines whose data were late, which none
are while the planned traffic stays within its bound. A frame before the first that R244 admits is none. -/
def execEngineFrame (e : Eng) (late : List (Fin 16 × Nat)) (s : State) : Host.Outcome State Fault Refusal :=
  let d := s.dev
  let lt := if d.fetchLate then late.map fun x => (x.1.val, x.2) else []
  let fk := d.engFrameT e
  let g := d.genOf (1536 + 4 * e)
  if d.flag PLT.ENG_STAT_RUN e && (g.run || g.resume.isSome || decide (g.target ≤ fk)) then
    let d := d.engShed e
    let next (d : Dev) : Dev := d.set PLT.ENG_FRAME_FRAME (d.get PLT.ENG_FRAME_FRAME e + 1) e
    if d.flag PLT.ENG_STAT_SHED e then .next { s with dev := next ((d.engRasters e fk []).engTraffic s.store e true) }
    else
      let d := ((d.engAbsence e).engErrors s.store e lt).logAdd (842 + e) 1
      let pics := (List.range (d.engOuts e)).map fun k => d.composePic s.store e lt k
      .next { s with store := d.freezeStore s.store e lt, dev := next ((d.engRasters e fk pics).engTraffic s.store e false) }
  else .next s

/-- ENGINE_COMMIT (R267). -/
def execEngineCommit (e : Eng) (s : State) := s.go fun d => (d.engArm e).toggle 17 e 5

/-- ENGINE_COMMIT_POINT (R267). -/
def execEngineCommitPoint (e : Eng) (s : State) := s.go fun d => d.engCommitPoint e

/-- ENGINE_CNT_CLR (Table 9.11). -/
def execEngineCntClr (e : Eng) (s : State) := s.go fun d =>
  d.clear [PLT.ENG_CNT_LATE_COUNT, PLT.ENG_CNT_REJ_COUNT, PLT.ENG_CNT_OTC_COUNT] e

/-- COEF_DATA_ACCESS (Table 9.12): a write or a read of the coefficient at IDX of the master's engine; IDX rises by 1. Indices
768 to 1,023 ignore accesses. -/
def execCoefDataAccess (m : Master) (v : Option Word) (s : State) := s.go fun d =>
  match d.selOf m PLT.ENG_SEL_SEL 32 with
  | none => d
  | some e =>
    let i := d.get PLT.COEF_IDX_IDX e
    let ch := e * 1024 + i
    let d :=
      match v with
      | some w =>
        if i < 768 then
          let d := d.set PLT.COEF_DATA_COEF w.toNat ch
          if d.flag PLT.ENG_STAT_RUN e then d else d.commit 0x00800134 ch
        else d
      | none =>
        let r : Word := if i < 768 then BitVec.ofNat 32 (d.get PLT.COEF_DATA_COEF ch) else 0
        { d with answer := mapPut d.answer (m.code, 0) (0, false) (r, false) }
    d.set PLT.COEF_IDX_IDX (i + 1) e

/-- SOURCE_LINE_START (R91, R94, R108, R121; Table 9.4 for a feed); `ins` are the records at the head of the insertion queue. -/
def execSourceLineStart (o : Slot) (ins : List (List Byte)) (s : State) := s.go fun d => (d.sourceStart s.store o ins).feedLine o

end Sys2Proof.Machine
end

