-- ==== Sys2Proof/Machine/Aud.lean ====
section
/-!
DEFINITION. Sys2Proof/Machine/Aud.lean: the serial audio ports (chapter 11), the slots' audio buffers (R105), and the 48 kHz
tick of the whole audio plane.
-/

namespace Sys2Proof.Machine

/-- A sample frame of `n` channels: missing channels are 0. -/
def padFrame (n : Nat) (f : List Int) : List Int := (f ++ List.replicate n 0).take n

/-- The operand of a key in a list; none where it is not listed. -/
def operandOf {n : Nat} {β : Type} (xs : List (Fin n × β)) (k : Nat) : Option β := (xs.find? fun x => x.1.val == k).map (·.2)

/-- A list of samples as integers. -/
def sampleInts (xs : List Sample) : List Int := xs.map BitVec.toInt

/-- Sample i of an audio ring element (R309, R310): little-endian, after 16 bytes. -/
def elemSample (pack4 : Bool) (e : List Byte) (i : Nat) : Int :=
  toSigned 24 (leNat ((e.drop (16 + (if pack4 then 4 * i + 1 else 3 * i))).take 3))

/-- The frames of an audio ring element. -/
def elemFrames (pack4 : Bool) (e : List Byte) (frames nch : Nat) : List (List Int) :=
  (List.range frames).map fun f => (List.range nch).map fun c => elemSample pack4 e (f * nch + c)

/-- An audio ring element (Table 11.3, R310). -/
def elemBytes (tick : Nat) (gap conv pack4 : Bool) (frames : List (List Int)) : List Byte :=
  let enc (v : Int) : List Byte := if pack4 then leBytes 4 (ofSigned 24 v * 256) else leBytes 3 (ofSigned 24 v)
  leBytes 8 tick ++ leBytes 1 frames.length ++ leBytes 1 (b2n gap + 2 * b2n conv) ++ leBytes 6 0 ++ frames.flatMap (·.flatMap enc)

/-! ## Frames on the pins (R299, R300) -/

/-- The bits of a slot: the sample's 24, most significant first, and zeros. -/
def slotBits (w : Nat) (x : Int) : List Bool :=
  ((List.range 24).map fun i => (ofSigned 24 x).testBit (23 - i)) ++ List.replicate (w - 24) false

/-- The data pin through a frame; `idle` is its level outside the channels. -/
def dataBits (slots w nch : Nat) (idle : Option Bool) (f : List Int) : List (Option Bool) :=
  (List.range slots).flatMap fun c => if c < nch then (slotBits w (f.getD c 0)).map some else List.replicate w idle

/-- The frame sync in bit clock `i` of a frame of `slots` slots (Table 11.1). -/
def syncLevel (fmt slots w : Nat) (dly inv : Bool) (i : Nat) : Bool :=
  let n := slots * w
  let l := match fmt with
    | 0 => decide (w ≤ (i + 1) % n)
    | 1 => decide (i < w)
    | _ => if dly then i + 1 == n else i == 0
  l != inv

/-- The samples of a received frame, from the bits of its data pin counted from the frame sync's edge. -/
def rxSamples (late : Bool) (w nch : Nat) (bits : List Bool) : List Int :=
  let bs := bits.drop (b2n late)
  (List.range nch).map fun c => toSigned 24 (((bs.drop (c * w)).take 24).foldl (fun n b => 2 * n + b2n b) 0)

namespace Dev

def audPort (d : Dev) (p : Nat) : AudPort := mapGet d.aud (p, 0) AudPort.init
def setAud (d : Dev) (p : Nat) (a : AudPort) : Dev := { d with aud := mapPut d.aud (p, 0) AudPort.init a }

/-- A direction of a port. -/
def audDir (d : Dev) (p : Nat) (tx : Bool) : AudDir := if tx then (d.audPort p).tx else (d.audPort p).rx
def setDir (d : Dev) (p : Nat) (tx : Bool) (a : AudDir) : Dev :=
  let u := d.audPort p
  let d := d.setAud p (if tx then { u with tx := a } else { u with rx := a })
  d.set (if tx then AUD.STAT_TX_FILL else AUD.STAT_RX_FILL) a.fifo.length p

/-- The ports of a lead's gang, the lead first (R307). -/
def audGang (d : Dev) (l : Nat) : List Nat :=
  (List.range (if l % 4 = 0 then d.get AUD.PORT_CTL_GANG l + 1 else 1)).map (l + ·)

/-- The lead of a port's gang, or the port itself (R307). -/
def audLead (d : Dev) (p : Nat) : Nat := if (d.audGang (p - p % 4)).contains p then p - p % 4 else p

/-- MEMBER of the ports beside a lead (Table 11.9). -/
def audMembers (d : Dev) (l : Nat) : Dev :=
  [1, 2, 3].foldl (fun d k => d.put AUD.STAT_MEMBER ((d.audGang l).contains (l + k)) (l + k)) d

/-- Slots per frame of a direction (Table 11.1), read from the lead. -/
def audSlots (d : Dev) (l : Nat) (tx : Bool) : Nat :=
  if d.get (if tx then AUD.TX_FMT_FMT else AUD.RX_FMT_FMT) l < 2 then 2
  else max 1 (min 64 (d.get (if tx then AUD.TX_FMT_NSLOT else AUD.RX_FMT_NSLOT) l))

/-- Channels of a direction (Table 11.7). -/
def audNch (d : Dev) (l : Nat) (tx : Bool) : Nat := max 1 (d.get (if tx then AUD.TX_FMT_NCH else AUD.RX_FMT_NCH) l)

/-- Bits per slot of a direction. -/
def audWidth (d : Dev) (l : Nat) (tx : Bool) : Nat :=
  if d.flag (if tx then AUD.TX_FMT_SLOT32 else AUD.RX_FMT_SLOT32) l then 32 else 24

/-- Bit clocks per frame of a direction (R300). -/
def audClocks (d : Dev) (l : Nat) (tx : Bool) : Nat :=
  d.audSlots l tx * d.audWidth l tx

/-- The level of a transmitter's data pin in idle slots and while it is stopped (R298, R300). -/
def audIdle (d : Dev) (l : Nat) : Option Bool := if d.flag AUD.TX_FMT_TRI l then none else some false

/-- A transmitter's sample frame on the pins. -/
def txBits (d : Dev) (l : Nat) (f : List Int) : List (Option Bool × Option Bool) :=
  let slots := d.audSlots l true
  let w := d.audWidth l true
  (dataBits slots w (d.audNch l true) (d.audIdle l) f).zipIdx.map fun x =>
    (if d.flag AUD.TX_FMT_SLAVE l then none
      else some (syncLevel (d.get AUD.TX_FMT_FMT l) slots w (d.flag AUD.TX_FMT_DLY l) (d.flag AUD.TX_FMT_FS_INV l) x.2), x.1)

/-- A transmitter's sample frame leaves. -/
def audSend (d : Dev) (l p : Nat) (f : List Int) : Dev :=
  (d.logAdd (906 + p) 1).emit (.audio p (d.flag AUD.TX_FMT_BCK_INV l) (d.txBits l f))

/-- A receiver's sample frame from its pin: the first data bit lies one bit clock after the frame sync's edge in the I2S-like format, and
in TDM with DLY = 1. -/
def audRead (d : Dev) (l : Nat) (bits : List Bool) : List Int :=
  let fmt := d.get AUD.RX_FMT_FMT l
  rxSamples (fmt == 0 || (decide (2 ≤ fmt) && d.flag AUD.RX_FMT_DLY l)) (d.audWidth l false) (d.audNch l false) bits

/-- Is a direction a slave? -/
def audSlave (d : Dev) (l : Nat) (tx : Bool) : Bool := d.flag (if tx then AUD.TX_FMT_SLAVE else AUD.RX_FMT_SLAVE) l

/-- Does the receiver convert its rate (R303)? -/
def audConv (d : Dev) (l : Nat) : Bool := d.audSlave l false && d.flag AUD.RX_FMT_SRC_EN l

/-- Does a direction run? -/
def audRuns (d : Dev) (p : Nat) (tx : Bool) : Bool := d.flag (if tx then AUD.STAT_TX_RUN else AUD.STAT_RX_RUN) p

/-- Sample frames per ring element (Table 11.8). -/
def ringFrames (d : Dev) (p : Nat) : Nat := max 1 (d.get AUD.RING_FR_FRAMES p)

/-- A start that is refused shows its code (R314). -/
def audRefuse (d : Dev) (l : Nat) (tx : Bool) : Dev := (d.set AUD.STAT_ERR (if tx then 1 else 2) l).raise AUD.EVT_STAT_START_ERR l

/-- A direction starts (R314): the whole gang with its lead. -/
def audStart (d : Dev) (l : Nat) (tx : Bool) : Dev :=
  let d := d.setDir l tx { d.audDir l tx with due := false }
  if d.audRuns l tx then d
  else if d.audSlots l tx < d.audNch l tx then d.audRefuse l tx
  else
    let d := if d.get AUD.STAT_ERR l = (if tx then 1 else 2) then d.set AUD.STAT_ERR 0 l else d
    (d.audGang l).foldl (fun d p =>
      let u := d.audPort p
      let d := if tx then d.setAud p { u with line := [], play := [] }
        else d.setAud p { u with cap := [], capTick := 0, capGap := false, good := 0, errs := 0, ramp := 0, base := 0 }
      let d := (d.setDir p tx AudDir.init).put (if tx then AUD.STAT_TX_RUN else AUD.STAT_RX_RUN) true p
      if !tx && d.audConv l then d.set AUD.SRC_STAT_STATE 1 p else d) d

/-- A direction stops, with its gang (R298, R307). -/
def audStop (d : Dev) (l : Nat) (tx : Bool) : Dev :=
  (d.audGang l).foldl (fun d p =>
    let u := d.audPort p
    let d := if tx then d.setAud p { u with line := [], play := [] }
      else (d.setAud p { u with cap := [], capTick := 0, capGap := false, good := 0, errs := 0, ramp := 0, base := 0 }).clear
        [AUD.SRC_STAT_STATE, AUD.SRC_STAT_RATE] p
    (d.setDir p tx AudDir.init).put (if tx then AUD.STAT_TX_RUN else AUD.STAT_RX_RUN) false p) d

/-- A write of TX_EN or RX_EN (R314): a direction that passes its check starts at the next tick; ignored on a gang member (R307). -/
def audEnable (d : Dev) (p : Nat) (tx en : Bool) : Dev :=
  let d := d.put (if tx then AUD.PORT_CTL_TX_EN else AUD.PORT_CTL_RX_EN) en p
  if d.audLead p != p then d
  else if en then
    if d.audSlots p tx < d.audNch p tx && !d.audRuns p tx then d.audRefuse p tx else d.setDir p tx { d.audDir p tx with due := true }
  else d.audStop p tx

/-- The directions that are to start do so at a tick (R314). -/
def audStarts (d : Dev) : Dev :=
  (List.range 16).foldl (fun d p => [true, false].foldl (fun d tx => d.when (d.audDir p tx).due (·.audStart p tx)) d) d

/-- Every port of a gang counts a slip (R305, R308). -/
def audSlip (d : Dev) (ps : List Nat) (tx : Bool) : Dev :=
  ps.foldl (fun d p =>
    let d := if tx then (d.count AUD.CNT_TX_SLIP_COUNT 1 p).raise AUD.EVT_STAT_TX_SLIP p
      else (d.count AUD.CNT_RX_SLIP_COUNT 1 p).raise AUD.EVT_STAT_RX_SLIP p
    d.pulseFault ⟨173, 3, 0, p⟩) d

/-- A frame enters each FIFO of a gang; above 16 the oldest is dropped everywhere (R305, R308). -/
def audPush (d : Dev) (ps : List Nat) (tx : Bool) (frame : Nat → List Int) : Dev :=
  let d := ps.foldl (fun d p => d.setDir p tx { d.audDir p tx with fifo := (d.audDir p tx).fifo ++ [frame p] }) d
  if ps.any fun p => 16 < (d.audDir p tx).fifo.length then
    (ps.foldl (fun d p => d.setDir p tx { d.audDir p tx with fifo := (d.audDir p tx).fifo.tail }) d).audSlip ps tx
  else d

/-- A frame leaves each FIFO of a gang (R305, R308): below the operating fill after a start or an error, the last frame is
repeated uncounted; where a FIFO is empty, it is repeated and counted on every port. -/
def audPop (d : Dev) (ps : List Nat) (tx : Bool) : Dev :=
  let d := ps.foldl (fun d p =>
    let a := d.audDir p tx
    if !a.primed && decide (8 ≤ a.fifo.length) then d.setDir p tx { a with primed := true } else d) d
  if ps.any fun p => !(d.audDir p tx).primed then d
  else if ps.any fun p => (d.audDir p tx).fifo.isEmpty then d.audSlip ps tx
  else ps.foldl (fun d p =>
    let a := d.audDir p tx
    d.setDir p tx { a with fifo := a.fifo.tail, last := a.fifo.headD [] }) d

/-! ## Transmit -/

/-- The current element of a ring-fed port, taken from its queue where none is under way (R309, R311); none where the ring is
empty. -/
def playFrames (d : Dev) (l p : Nat) (elems : List (Port × List Byte)) : Option (List (List Int)) × Dev :=
  let u := d.audPort p
  if !u.play.isEmpty then (some u.play, d)
  else
    let q := d.get AUD.RING_PLAY_Q p
    let n := d.audNch l true
    let four := d.flag AUD.PORT_CTL_PACK4 p
    let size := 16 + d.ringFrames p * n * (if four then 4 else 3)
    if !d.qUsable q true size then (none, d.qRef)
    else if d.qFill q = 0 then (none, d)
    else (some (elemFrames four ((operandOf elems p).getD []) (d.ringFrames p) n), d)

/-- A ring-fed port takes its next frame; the element is consumed with its last frame (R311). -/
def playTake (d : Dev) (p : Nat) (fs : List (List Int)) : Dev :=
  let d := d.setAud p { d.audPort p with play := fs.tail }
  if fs.length ≤ 1 then (d.qConsume (d.get AUD.RING_PLAY_Q p) 16).2 else d

/-- A gang's transmitters at a tick (R302, R303, R308, R311): each takes a frame from its ring or its matrix outputs, or all
repeat. A master's frame leaves two ticks later. -/
def audTxTick (d : Dev) (l : Nat) (elems : List (Port × List Byte)) : Dev :=
  let ps := d.audGang l
  let n := d.audNch l true
  let r := ps.foldl (fun (r : List (Nat × Option (List (List Int))) × Dev) p =>
    if d.flag AUD.PORT_CTL_TX_RING p then
      let x := r.2.playFrames l p elems
      (r.1 ++ [(p, x.1)], x.2)
    else r) ([], d)
  let d := r.2
  let empty := (r.1.filter fun x => x.2.isNone).map (·.1)
  let again (p : Nat) : List Int :=
    let a := d.audDir p true
    padFrame n (if d.audSlave l true then a.fifo.getLastD a.last else a.last)
  let fresh (p : Nat) : List Int :=
    match r.1.find? fun x => x.1 == p with
    | some (_, some fs) => padFrame n (fs.headD [])
    | _ => (List.range n).map fun c => d.amxValue (26624 + p * 64 + c)
  let frame (p : Nat) : List Int := if empty.isEmpty then fresh p else again p
  let frames := ps.map fun p => (p, frame p)
  let d :=
    if empty.isEmpty then r.1.foldl (fun d x => d.playTake x.1 (x.2.getD [])) d
    else empty.foldl (fun d p => (d.count AUD.CNT_PLAY_UNDER_COUNT 1 p).raise AUD.EVT_STAT_PLAY_UNDER p) (d.audSlip ps true)
  if d.audSlave l true then d.audPush ps true fun p => ((frames.find? fun x => x.1 == p).map (·.2)).getD []
  else frames.foldl (fun d x =>
    let u := d.audPort x.1
    let d := d.audSend l x.1 (u.line.getD 1 [])
    d.setAud x.1 { u with line := [x.2, u.line.headD []], tx := { u.tx with last := x.2 } }) d

/-! ## Receive -/

/-- `n` converted samples: free values (log 2), since the spec gives the converter's filter by its limits alone (R304); over
the first 64 ticks they rise linearly. -/
def convSamples (d : Dev) (ramp : Nat) : Nat → List Int × Dev
  | 0 => ([], d)
  | n + 1 =>
    let x := d.draw
    let r := convSamples x.2 ramp n
    (Int.tdiv (toSigned 24 x.1 * (min 64 ramp : Nat)) 64 :: r.1, r.2)

/-- A captured frame (R309, R312): the element is written when it is full, or dropped where the queue has no room. -/
def audCapture (d : Dev) (p n : Nat) (conv : Bool) (frame : List Int) : Dev :=
  if d.flag AUD.PORT_CTL_CAP_EN p then
    let u := d.audPort p
    let cap := u.cap ++ [frame]
    let first := if u.cap.isEmpty then n else u.capTick
    if cap.length < d.ringFrames p then d.setAud p { u with cap := cap, capTick := first }
    else
      let q := d.get AUD.RING_CAP_Q p
      let e := elemBytes first u.capGap conv (d.flag AUD.PORT_CTL_PACK4 p) cap
      let full := d.qUsable q false e.length
      let r := d.qProduce q e
      let d := r.2.setAud p { u with cap := [], capTick := first, capGap := !r.1 }
      if full && !r.1 then (d.count AUD.CNT_CAP_DROP_COUNT 1 p).raise AUD.EVT_STAT_CAP_DROP p else d
  else d

/-- The samples that a receiver delivers at a tick, port by port of its gang (R302 to R305). -/
def audRxTick (d : Dev) (l n : Nat) (ports : List (Port × List Bool)) : Map Int × Dev :=
  let ps := d.audGang l
  let nch := d.audNch l false
  let conv := d.audConv l
  let d := if d.audSlave l false && !conv then d.audPop ps false else d
  ps.foldl (fun (r : Map Int × Dev) p =>
    let d := r.2
    let u := d.audPort p
    let x : List Int × Dev :=
      if conv then
        if d.get AUD.SRC_STAT_STATE p = 2 then
          (d.setAud p { u with ramp := min 64 (u.ramp + 1) }).convSamples (u.ramp + 1) nch
        else ([], d)
      else if d.audSlave l false then (u.rx.last, d)
      else (d.audRead l ((operandOf ports p).getD []), d)
    let f := padFrame nch x.1
    let xs := f.zipIdx.foldl (fun (m : Map Int) y => mapPut m (26624 + p * 64 + y.2, 0) 0 y.1) r.1
    (xs, (x.2.logAdd (922 + p) 1).audCapture p n conv f)) ([], d)

/-- The converter leaves LOCKED (R304). -/
def srcUnlock (d : Dev) (l : Nat) : Dev :=
  (d.audGang l).foldl (fun d p =>
    if d.get AUD.SRC_STAT_STATE p = 2 then
      ((d.set AUD.SRC_STAT_STATE 1 p).raise AUD.EVT_STAT_SRC_UNLOCK p).setAud p { d.audPort p with good := 0, ramp := 0 }
    else d) d

/-- A frame error of a slave direction (R301, R304): the frame is discarded or cut short, and slot 0 begins at the next frame
sync. -/
def frameError (d : Dev) (l : Nat) (tx : Bool) : Dev :=
  let d := d.toggle 23 l 26
  let d := (d.audGang l).foldl (fun d p =>
    let d := (d.count AUD.CNT_FRAME_ERR_COUNT 1 p).raise AUD.EVT_STAT_FRAME_ERR p
    let d := d.setDir p tx { d.audDir p tx with sync := false, primed := false }
    if tx then d else d.setAud p { d.audPort p with good := 0, errs := (d.audPort p).errs + 1 }) d
  if !tx && decide (3 ≤ (d.audPort l).errs) then d.srcUnlock l else d

/-- A slave direction begins a frame at slot 0: a transmitter sends the next one. -/
def frameBegin (d : Dev) (l : Nat) (tx : Bool) : Dev :=
  let ps := d.audGang l
  let d := ps.foldl (fun d p => d.setDir p tx { d.audDir p tx with sync := true }) d
  if tx then
    let d := d.audPop ps true
    ps.foldl (fun d p => d.audSend l p (d.audDir p true).last) d
  else d

/-- Two rates are within a number of ppm of the first. -/
def ratesNear (ppm a b : Nat) : Bool := decide (((a : Int) - b).natAbs * 1000000 ≤ ppm * a)

/-- A rate is measured (R304): one that has not held within ±50 ppm begins to, and a step of more than 1,000 ppm unlocks the converter. -/
def rateTake (d : Dev) (l rate : Nat) : Dev :=
  let d := d.when (d.get AUD.SRC_STAT_RATE l != 0 && !ratesNear 1000 (d.get AUD.SRC_STAT_RATE l) rate) (·.srcUnlock l)
  d.when (!ratesNear 50 (d.audPort l).base rate) fun d => (d.setAud l { d.audPort l with base := rate }).mark .srcRate l

/-- A complete received frame of a slave receiver: to the FIFO, or to the converter (R303, R304). -/
def frameTake (d : Dev) (l rate : Nat) (frames : List (List Bool)) : Dev :=
  let d := d.rateTake l rate
  let ps := d.audGang l
  let d := ps.foldl (fun d p => (d.set AUD.SRC_STAT_RATE rate p).setAud p { d.audPort p with good := (d.audPort p).good + 1, errs := 0 }) d
  if d.audConv l then d
  else d.audPush ps false fun p => d.audRead l (frames.getD (p - l) [])

/-- A frame sync of a slave direction (R301). -/
def frameSync (d : Dev) (l : Nat) (tx : Bool) (clocks rate : Nat) (frames : List (List Bool)) : Dev :=
  if d.audLead l = l && d.audRuns l tx && d.audSlave l tx then
    let d := d.when (!tx) (·.mark .frameSync l)
    if !(d.audDir l tx).sync then d.frameBegin l tx
    else if clocks = d.audClocks l tx then (if tx then d else d.frameTake l rate frames).frameBegin l tx
    else d.frameError l tx
  else d

/-! ## The slots' audio (R104, R105, R190) -/

/-- Is no audio to come for the groups that a slot selects: missing for a whole frame, or of another rate (R104, R105)? -/
def groupsGone (d : Dev) (slot : Nat) : Bool :=
  let x := d.insOf slot
  [0, 1, 2, 3].all fun k => let g := d.inGroup slot k; g = 0 || x.grpMiss.testBit g || x.grpBad.testBit g

/-- The channels that a slot delivers of a sample frame: zero in a group that it does not select, or whose rate is wrong (R104). -/
def selGroups (d : Dev) (slot : Nat) (f : List Int) : List Int :=
  (padFrame 16 f).zipIdx.map fun x =>
    let g := d.inGroup slot (x.2 / 4)
    if g = 0 || (d.insOf slot).grpBad.testBit g then 0 else x.1

/-- A slot's audio buffer at a tick: the sample frame it delivers, with slips counted (R105). It drains where the slot is absent or its
groups are gone. -/
def audBufTick (d : Dev) (slot : Nat) : List Int × Dev :=
  let b := mapGet d.audBufs (slot, 0) AudBuf.init
  let excess := b.frames.length - 32
  let slip (d : Dev) (n : Nat) : Dev :=
    d.when (decide (0 < n)) fun d =>
      ((d.count SLP.CNT_AUD_SLIP_COUNT n slot).raise SLP.EVT_STAT_AUD_SLIP slot).pulseFault ⟨173, 1, slot, 0⟩
  let d := slip d excess
  let fs := b.frames.drop excess
  let primed := b.primed || decide (16 ≤ fs.length)
  let put (d : Dev) (b : AudBuf) : Dev := { d with audBufs := mapPut d.audBufs (slot, 0) AudBuf.init b }
  if d.flag SLP.IN_STAT_PRESENT slot && !d.groupsGone slot then
    if !primed then ([], put d ⟨fs, b.last, false⟩)
    else
      match fs with
      | f :: g :: r => (f, put d ⟨g :: r, f, true⟩)
      | _ => (b.last, put (slip d 1) ⟨fs, b.last, true⟩)
  else
    match fs with
    | f :: r => (f, put d ⟨r, f, primed⟩)
    | [] => ([], put d AudBuf.init)

/-- Does a bundle deliver the channels of its slot: it runs, and its video is not ST 2022-6 (R190)? -/
def bdlAudible (d : Dev) (b : Nat) : Bool :=
  d.flag (FLW.BDL_STAT_RUN b) && !((d.videoCtx b).any fun c => d.role c == 1)

/-- The slots' input samples at tick n (R104, R105, R190). -/
def slotSamples (d : Dev) (n : Nat) : Map Int × Dev :=
  let put (m : Map Int) (slot : Nat) (f : List Int) : Map Int :=
    f.zipIdx.foldl (fun (m : Map Int) y => mapPut m (slot * 16 + y.2, 0) 0 y.1) m
  let r := (d.audBufs.map (·.1.1)).foldl (fun (r : Map Int × Dev) s =>
    let x := r.2.audBufTick s
    (if decide (1152 ≤ s) && r.2.bdlAudible (s - 1152) then r.1 else put r.1 s (r.2.selGroups s x.1), x.2)) ([], d)
  (((List.range 384).filter d.bdlAudible).foldl (fun m b => put m (1152 + b) ((d.bdlSubs b n).map subPcm)) r.1, r.2)

/-! ## What leaves at a tick: re-embedding, synchronised rasters, egress flows -/

/-- The sixteen output channels of a slot, as subframes. -/
def slotSubs (d : Dev) (o : Nat) : List Nat := (List.range 16).map fun c => pcmSub (d.amxValue (o * 16 + c))

/-- The samples of a synchroniser's delay line that its raster embeds at tick n: those of the D of the frame that plays, to the nearest
tick; 0 from a granule with an uncorrectable error (R231, R239). -/
def syncSubs (d : Dev) (u n : Nat) : List Nat :=
  let k := (d.get FS.SYNC_DLY_D_NS u * 48000 + 500000000) / 1000000000
  let f := padFrame 16 ((d.syncUnit u).hist.getD k [])
  f.zipIdx.map fun x => if d.poolBad (1, 16 * u + x.2) (n - k) then 0 else pcmSub x.1

/-- The running synchronisers take their slots' samples of tick n, and their rasters what their delay lines give (R231). -/
def syncTick (d : Dev) (n : Nat) (xs : Map Int) : Dev :=
  d.syncOf.foldl (fun d e =>
    let slot := e.1.1
    match d.syncAt slot with
    | none => d
    | some u =>
      if d.flag FS.SYNC_CTL_AUD_EMB u then
        let x := d.syncUnit u
        let f := (List.range 16).map fun c => sampleAt xs (slot * 16 + c)
        let d := d.setSync u { x with hist := (f :: x.hist).take (x.blocks / 16 * 4096) }
        let g := d.genOf (slot + 2048)
        if g.run then d.setGenOf (slot + 2048) { g with ticks := g.ticks ++ [(d.slotNow - g.lineT, d.syncSubs u n)] } else d
      else d) d

/-- The bundles' rasters take the subframes of tick n (R95, R190). -/
def bdlTick (d : Dev) (n : Nat) : Dev :=
  ((List.range 384).filter d.bdlAudible).foldl (fun d b =>
    let g := d.genOf (1152 + b)
    if g.run then d.setGenOf (1152 + b) { g with ticks := g.ticks ++ [(d.slotNow - g.lineT, d.bdlSubs b n)] } else d) d

/-- The output stages with a counter take the matrix output channels of a tick (R106). -/
def outTick (d : Dev) : Dev :=
  ((d.outs.map (·.1.1)).filter fun o => decide (o < 1536) && (d.outOf o).run).foldl (fun d o =>
    let x := d.outOf o
    d.setOut o { x with ticks := x.ticks ++ [(d.slotNow - x.lineT, d.slotSubs o)] }) d

/-- The egress audio flows take their channels' samples of tick n (R200). -/
def egTick (d : Dev) (n : Nat) : Dev :=
  ((d.running.filter (4096 ≤ ·)).map fun c => (c - 4096) / 2).eraseDups.foldl (fun d f =>
    match d.flowLegs f with
    | [] => d
    | c :: _ =>
      if d.role c == 2 || d.role c == 3 then
        let ch := (1152 + d.bundleOf c) * 16 + d.get FLW.CTX_MEDIA_CH_FIRST c
        let xs := (List.range (max 1 (d.get FLW.CTX_MEDIA_NCH c))).map fun i => pcmSub (d.amxValue (ch + i))
        { d with egAud := mapPut d.egAud (f, 0) [] (mapGet d.egAud (f, 0) [] ++ [(n, xs)]) }
      else d) d

/-- The audio packets whose last sample has left leave their cells (R194). -/
def audLeave (d : Dev) : Dev :=
  (d.running.filter fun c => decide (c < 4096) && (d.role c == 2 || d.role c == 3)).foldl leavePast d

/-- The store with the samples of tick n in the delay lines' blocks (R236), in two's complement (log 101). -/
def poolStore (d : Dev) (n : Nat) (m : Memory) : Memory :=
  d.pool.foldl (fun m e =>
    let v : Int := if e.1.1 = 0 then (d.amxOut e.1.2).hist.headD 0
      else ((d.syncUnit (e.1.2 / 16)).hist.headD []).getD (e.1.2 % 16) 0
    match d.poolAddr e.1 n with
    | some a => memWrites storeFill m a (leBytes 4 (ofSigned 32 v))
    | none => m) m

/-- What the delay lines move of the store at tick n. Table 8.4 plans 8 bytes for a sample, so a granule of eight samples is written with the
last of them, and read with the last of them that leaves (DESIGN CHOICE, log 114). -/
def poolTraffic (d : Dev) (n : Nat) : Dev :=
  let moved (key : Key) (t : Nat) : List (Nat × Nat) :=
    if t % 8 = 7 then ((d.poolAddr key t).map fun a => (a, 4)).toList else []
  let left (key : Key) : Nat :=
    if key.1 = 0 then n - 1 - (d.amxOut key.2).dly
    else n - (d.get FS.SYNC_DLY_D_NS (key.2 / 16) * 48000 + 500000000) / 1000000000
  (d.hbmMoves true (d.pool.flatMap fun e => moved e.1 n)).hbmMoves false (d.pool.flatMap fun e => moved e.1 (left e.1))

/-- The meters of the running engines at a tick (R264). -/
def metersTick (d : Dev) (n : Nat) (xs : Map Int) : Dev :=
  ((List.range 32).filter fun e => d.flag PLT.ENG_STAT_RUN e).foldl (fun d e =>
    (List.range 16).foldl (fun d lay =>
      let ch := e * 16 + lay
      if d.getAct PLT.LAY_SRC_KIND ch = 5 then
        (List.range (max 1 (min 16 (d.getAct PLT.LAY_MTR_NBAR ch)))).foldl (fun d b =>
          let c := barChan d.activeOf ch b
          let r := (if c.2 = 0 then sampleAt xs c.1 else d.amxValue c.1).natAbs
          { d with meters := mapPut d.meters (ch, b) 0 (meterStep (mapGet d.meters (ch, b) 0) r (n % 16 == 0)) }) d
      else d) d) d

end Dev

/-! ## Meanings -/

/-- The audio plane at tick n (R279 to R292, R105, R190, R264, R302 to R312). -/
def Dev.matrixTick (d : Dev) (n : Nat) (ports : List (Port × List Bool)) (elems : List (Port × List Byte)) : Dev :=
  let leads (d : Dev) (tx : Bool) : List Nat := (List.range 16).filter fun p => d.audLead p == p && d.audRuns p tx
  let r := d.audStarts.slotSamples n
  let r := (leads r.2 false).foldl (fun (r : Map Int × Dev) l =>
    let x := r.2.audRxTick l n ports
    (x.1.foldl (fun (m : Map Int) (y : Key × Int) => mapPut m y.1 0 y.2) r.1, x.2)) r
  let d := ((((((r.2.amxTick n r.1).metersTick n r.1).syncTick n r.1).bdlTick n).outTick).egTick n).audLeave
  ((leads d true).foldl (fun d l => d.audTxTick l elems) d).poolTraffic n

/-- MATRIX_TICK (R279): tick `n` of the audio clock. `ports` are the data pins of master receivers through the frame that started two
ticks ago, and `elems` the elements at the head of the playout rings; the rest is the device's own. -/
def execMatrixTick (n : Nat) (ports : List (Port × List Bool)) (elems : List (Port × List Byte)) (s : State) :
    Host.Outcome State Fault Refusal :=
  let d := s.dev.matrixTick n ports elems
  .next { s with dev := d, store := d.poolStore n s.store }

/-- AUDIO_DIRECTION_ENABLE (R314). -/
def execAudioDirectionEnable (p : Port) (tx en : Bool) (s : State) := s.go fun d => d.audEnable p tx en

/-- FRAME_SYNC_RX (R299 to R305): a frame sync `clocks` bit clocks after the one before; `frames` holds the data pin of each port of the
gang since that one, one bit clock past this one, and `rate` is the measured frame rate in Hz. -/
def execFrameSyncRx (p : Port) (tx : Bool) (clocks rate : Nat) (frames : List (List Bool)) (s : State) :=
  s.go fun d => d.frameSync p tx clocks rate frames

/-- FRAME_SYNC_MISSING (R301); a receiver's RATE is 0 without a frame sync (Table 11.9). -/
def execFrameSyncMissing (p : Port) (tx : Bool) (s : State) := s.go fun d =>
  if d.audLead p = p && d.audRuns p tx && d.audSlave p tx && (d.audDir p tx).sync then
    (d.frameError p tx).when (!tx) fun d => (d.audGang p).foldl (fun d q => d.set AUD.SRC_STAT_RATE 0 q) d
  else d

/-- SRC_LOCK (R304): the rate has held for 100 ms. -/
def execSrcLock (p : Port) (s : State) := s.go fun d =>
  let r := d.get AUD.SRC_STAT_RATE p
  if d.audLead p = p && d.get AUD.SRC_STAT_STATE p = 1 && 64 ≤ (d.audPort p).good && 30000 ≤ r && r ≤ 100000 &&
      d.lasted .srcRate p 100000000 then
    (d.audGang p).foldl (fun d x =>
      ((d.set AUD.SRC_STAT_STATE 2 x).raise AUD.EVT_STAT_SRC_LOCK x).setAud x { d.audPort x with ramp := 0 }) d
  else d

/-- SRC_UNLOCK (R304): 8 expected frame periods have passed without a frame sync. A rate step and frame errors are judged as they come. -/
def execSrcUnlock (p : Port) (s : State) := s.go fun d =>
  if d.audLead p = p && d.lasted .frameSync p (8000000000 / max 1 (d.audPort p).base) then d.srcUnlock p else d

/-- AUD_CNT_CLR (Table 11.11). -/
def execAudCntClr (p : Port) (s : State) := s.go fun d =>
  d.clear [AUD.CNT_TX_SLIP_COUNT, AUD.CNT_RX_SLIP_COUNT, AUD.CNT_FRAME_ERR_COUNT, AUD.CNT_PLAY_UNDER_COUNT,
    AUD.CNT_CAP_DROP_COUNT] p

end Sys2Proof.Machine
end

