-- ==== Sys2Proof/Machine/Tim.lean ====
section
/-!
DEFINITION. Sys2Proof/Machine/Tim.lean: the Chronometer (chapter 12): steps of the time counter, the slew residual, cadences and
triggers. The servo's processing stands with Lodestar in Ref.lean, since each steers the other.
-/

namespace Sys2Proof.Machine

/-- 2^40 ns-fractions in a second. -/
def secUnits : Nat := 1000000000 * 2 ^ 40

/-- Half-way rounding: the distance of `x` from the nearest multiple of `p`, within (−p/2, p/2]. -/
def nearOffset (x p : Int) : Int :=
  let r := x % p
  if 2 * r > p then r - p else r

namespace Dev

/-! ## The time counter (R315, R316) -/

/-- INCR, in 2^-40 ns per cc. -/
def incr (d : Dev) : Nat := d.get2 TIM.INCR_LO_INCR_L TIM.INCR_HI_INCR_H

/-- INCR_NOM. -/
def incrNom (d : Dev) : Nat := d.get2 TIM.INCR_NOM_LO_NOM_L TIM.INCR_NOM_HI_NOM_H

/-- INCR set to a value, clamped to 1,000 ppm around INCR_NOM (R316). -/
def setIncr (d : Dev) (v : Int) : Dev :=
  let n := d.incrNom
  let lo := (n * 999 + 999) / 1000
  let hi := n * 1001 / 1000
  d.set2 TIM.INCR_LO_INCR_L TIM.INCR_HI_INCR_H (if v < lo then lo else if v > hi then hi else v.toNat)

/-- One cc: the counter adds INCR (R315), and RES falls toward 0 at the Level 2 slope (R320). -/
def timeTick (d : Dev) : Dev :=
  let acc := d.resAcc + max 1 (d.get REF.L2_CFG_SLOPE) * 65536
  let n : Int := (acc / 800000000 : Nat)
  let res := if d.res > 0 then max 0 (d.res - n) else min 0 (d.res + n)
  { d with prevTime := d.time, stepped := false, time := (d.time + d.incr) % (2 ^ 48 * secUnits),
           res := res, resAcc := if d.res = 0 then 0 else acc % 800000000 }

/-! ## Cadences in use (R320, R333) -/

/-- Running bundles. -/
def bdlRunning (d : Dev) : List Nat :=
  (d.regs.filter fun e => decide (0x00508008 ≤ e.1.1) && decide (e.1.1 < 0x00508008 + 16 * 384) &&
    (e.1.1 - 0x00508008) % 16 == 0 && e.2.toNat % 2 == 1).map fun e => (e.1.1 - 0x00508008) / 16

/-- Does a running block bind the cadence (R333)? -/
def cadBound (d : Dev) (c : Nat) : Bool :=
  ((d.flagSet SLP.OUT_CFG_OUT_EN).any fun o => decide (o < 1536) && d.outCad o == c) ||
    ((d.flagSet PLT.ENG_STAT_RUN).any fun e => d.get PLT.ENG_CFG_CAD e == c) ||
    ((d.flagSet FS.SYNC_STAT_RUN).any fun n => d.get FS.SYNC_CTL_CAD n == c) ||
    (d.bdlRunning.any fun b => d.get (FLW.BDL_CTL_CAD b) == c) ||
    (d.flag AMX.BLK_STAT_RUN && d.get AMX.BLK_CTL_LVL_CAD == c)

/-- Is a cadence in use (R320)? -/
def cadInUse (d : Dev) : Bool :=
  (List.range 16).any d.cadBound || d.flag AMX.BLK_STAT_RUN || !(d.flagSet AUD.STAT_TX_RUN).isEmpty ||
    !(d.flagSet AUD.STAT_RX_RUN).isEmpty

/-! ## Steps (R318, R320) -/

/-- A step of the time counter to a new value: counted, and absorbed by RES where a cadence is in use and SLEW = 1. -/
def stepTo (d : Dev) (t : Int) : Dev :=
  let m : Int := (2 ^ 48 * secUnits : Nat)
  let slew := d.flag TIM.CTL_SLEW && d.cadInUse
  let res := if slew then d.res + (t - d.time) / 2 ^ 24 else d.res
  ({ d with time := (t % m).toNat, stepped := true, res := res }.count TIM.CNT_STEP_COUNT).raise TIM.EVT_STAT_STEP

/-- A step by a number of 2^-16 ns (R323, R347). -/
def stepBy (d : Dev) (e : Int) : Dev := d.stepTo (d.time + e * 2 ^ 24)

/-- SET (R318). -/
def timeSet (d : Dev) : Dev :=
  let ns := d.get TIM.SET_NS_NS
  if 1000000000 ≤ ns then d.raise TIM.EVT_STAT_STEP_ERR
  else
    let sec := d.get2 TIM.SET_SEC_LO_SEC_L TIM.SET_SEC_HI_SEC_H
    (d.stepTo ((sec * 1000000000 + ns) * 2 ^ 40 : Nat)).raise TIM.SRV_STAT_TIME_VALID

/-- ADJ (R318). -/
def timeAdj (d : Dev) : Dev := d.stepTo (d.time + toSigned 32 (d.get TIM.ADJ_NS) * 2 ^ 40)

/-! ## Samples (R321) -/

/-- A sample reaches the servo from a source (Table 12.1): discarded and counted where the source is not the selected one; it
waits for its processing, and a later one replaces it (R335). -/
def pushSample (d : Dev) (src : Nat) (e : Int) : Dev :=
  let ign (d : Dev) : Dev := (d.count TIM.CNT_SRV_IGN_COUNT).raise TIM.EVT_STAT_SRV_IGN
  if !d.flag TIM.SRV_CFG_EN then d
  else if src = 0 || d.get TIM.SRV_STAT_INPUT != src then ign d
  else { (if d.sample.isSome then ign d else d) with sample := some (src, toSigned 48 (ofSigned 48 e)) }

/-- A reference input's delay, in 2^-16 ns (R339). -/
def refDelay (d : Dev) (n : Nat) : Int := toSigned 16 (d.get (REF.REFIN_CFG_DELAY n)) * 65536

/-- The hardware sample of a selected input (R321): `t` is the Chronometer time of the edge at the ball, in 2^-16 ns. -/
def pinSample (d : Dev) (n : Nat) (kind : Nat) (t : Nat) : Dev :=
  let mine := d.get REF.STAT_SEL == n && d.get (REF.REFIN_CFG_KIND n) == kind
  let src := if mine then (if kind = 1 then 3 else 2) else 0
  let pulse : Int := t - d.refDelay n
  let e : Int :=
    if kind = 1 then
      let c := d.get (REF.REFIN_CFG_CAD n)
      let u : Int := 6750 * 2 ^ 24
      nearOffset (pulse * u - nsTu (d.cadOfs c)) (periodTu (d.cadRate c)) / u
    else nearOffset t (1000000000 * 65536) - d.refDelay n
  d.pushSample src e

/-! ## Cadence frame starts and triggers (R331, R334) -/

/-- The index of the latest frame start of a cadence that cadence time has reached. -/
def cadIndex (d : Dev) (c : Nat) : Int :=
  firstFrame (d.cadRate c) (d.cadOfs c) 0 (d.timeTu - d.resTu + 1) - 1

/-- The frame start that cadence time has reached is delivered, once (R331). -/
def cadFrame (d : Dev) (c : Nat) : Dev :=
  let k := d.cadIndex c
  if mapGet d.cadLast (c, 0) (-1) < k then
    let d := { d with cadLast := mapPut d.cadLast (c, 0) (-1) k }.logAdd (1706 + c) 1
    ((d.flagSet PLT.ENG_STAT_RUN).filter fun e => d.get PLT.ENG_CFG_CAD e == c).foldl (fun d e => d.toggle 17 e 5) d
  else d

/-- A trigger's instant T_n, in 2^-40 ns. -/
def trigTime (d : Dev) (n : Nat) : Nat :=
  (d.get2 (TIM.TRIG_SEC_LO_SEC_L n) (TIM.TRIG_SEC_HI_SEC_H n) * 1000000000 + d.get (TIM.TRIG_NS_NS n)) * 2 ^ 40

/-- A general trigger fires once time has reached T_n (R334); it may take a snapshot of the Logbook or freeze it (R488,
R489). -/
def trigFire (d : Dev) (n : Nat) : Dev :=
  let t := d.trigTime n
  if d.flag (TIM.TRIG_SEC_HI_EN n) && decide (t ≤ d.time) then
    let late := d.stepped || decide (t ≤ d.prevTime)
    let d := (d.putBit TIM.EVT_STAT_TRIG n true).put (TIM.TRIG_SEC_HI_LATE n) late
    let p := d.get (TIM.TRIG_PER_PERIOD n) * 2 ^ 40
    let d :=
      if p = 0 then d.put (TIM.TRIG_SEC_HI_EN n) false
      else
        let ns := (t + ((d.time - t) / p + 1) * p) / 2 ^ 40
        (d.set (TIM.TRIG_NS_NS n) (ns % 1000000000)).set2 (TIM.TRIG_SEC_LO_SEC_L n) (TIM.TRIG_SEC_HI_SEC_H n)
          (ns / 1000000000 % 2 ^ 48)
    d.logTrigger n
  else d

end Dev

/-! ## Meanings -/

/-- TIME_SET (R318). -/
def execTimeSet (s : State) := s.go fun d => d.timeSet

/-- TIME_ADJ (R318). -/
def execTimeAdj (s : State) := s.go fun d => d.timeAdj

/-- SRV_PUSH (Table 12.1). -/
def execSrvPush (s : State) := s.go fun d =>
  d.pushSample 1 (toSigned 48 (d.get2 TIM.SRV_OFS_LO_E_L TIM.SRV_OFS_HI_E_H))

/-- CAD_SNAP (R320). -/
def execCadSnap (s : State) := s.go fun d => { d with res := 0, resAcc := 0 }.raise TIM.EVT_STAT_SNAP

/-- SRV_RESET (R322). -/
def execSrvReset (s : State) := s.go fun d => d.set TIM.SRV_I_I 0

/-- TIM_CNT_CLR (Table 12.4). -/
def execTimCntClr (s : State) := s.go fun d =>
  d.clear [TIM.CNT_STEP_COUNT, TIM.CNT_SRV_IGN_COUNT, TIM.CNT_TSQ_OVF_COUNT]

/-- INCR_WRITE (R316): a write of the low or the high register of INCR; the value it gives is clamped. -/
def execIncrWrite (hi : Bool) (v : Word) (s : State) := s.go fun d =>
  let d := if hi then d.set TIM.INCR_HI_INCR_H v.toNat else d.set TIM.INCR_LO_INCR_L v.toNat
  d.setIncr d.incr

/-- PPS_EDGE (Table 12.1): a 1PPS edge of the pair of REFIN_n at Chronometer time `t`, in 2^-16 ns. -/
def execPpsEdge (n : Refin) (t : Nat) (s : State) := s.go fun d => d.pinSample n 2 t

/-- FRAME_PULSE (Table 12.1): a frame pulse on REFIN_n at Chronometer time `t`, in 2^-16 ns. -/
def execFramePulse (n : Refin) (t : Nat) (s : State) := s.go fun d => d.pinSample n 1 t

/-- CADENCE_FRAME_START (R331). -/
def execCadenceFrameStart (c : Cad) (s : State) := s.go fun d => d.cadFrame c

/-- TRIGGER_FIRE (R334). -/
def execTriggerFire (n : Fin 8) (s : State) := s.go fun d => d.trigFire n

end Sys2Proof.Machine
end

