-- ==== Sys2Proof/Machine/Clk.lean ====
section
/-!
DEFINITION. Sys2Proof/Machine/Clk.lean: clock monitoring (R473), the PCLK PLL (R475), the crossings (R478 to R483), and the
commands of the Logbook (chapter 20).
-/

namespace Sys2Proof.Machine

/-- The fault class that owns a clock, and its instance (R473). Table 19.1 names no owner: the class of the block that the clock
serves (PRESUMED, log 46). -/
def clockOwner : Clock → Nat × Nat
  | .aclk => (0, 0)
  | .sysclk => (2, 0)
  | .fclk => (2, 1)
  | .cclk => (2, 2)
  | .pclk => (9, 0)
  | .hclk s => (8, s)
  | .laneTx g => (4, g)
  | .ether p => (7, p)
  | .audioBit p => (10, p)

/-- The clocks that the monitor covers. -/
def allClocks : List Clock :=
  [.sysclk, .fclk, .cclk, .pclk, .hclk 0, .hclk 1] ++ (List.finRange 37).map .laneTx ++ (List.finRange 16).map .ether ++
    (List.finRange 16).map .audioBit

/-- The fault class of each crossing (Table 19.4). -/
def xingClass (x : Nat) : Nat :=
  [0, 0, 0, 12, 0, 3, 1, 4, 4, 4, 12, 7, 7, 7, 11, 9, 9, 9, 8, 8, 15, 15, 10, 10, 11, 14].getD x 0

namespace Dev

/-- A condition follows what a monitor sees. -/
def follows (d : Dev) (bad : Bool) (f : FaultAt) : Dev := if bad then d.raiseFault f else d.dropFault f

/-- Does a clock run (Table 19.1)? The audio bit clock of a slave direction is external, and not checked (R473). -/
def clockRuns (d : Dev) (c : Clock) : Bool :=
  match c with
  | .aclk | .sysclk | .fclk | .cclk => true
  | .pclk => d.flag GLB.CLK_STAT_PCLK_ON
  | .hclk s => (d.get GLB.CLK_STAT_HCLK_LOCK).testBit s
  | .laneTx g => d.get LNG.GRP_STAT_TX_STATE g != 0
  | .ether p => d.get MAC.PORT_CFG_SPLIT p != 3
  | .audioBit p => (d.flag AUD.STAT_TX_RUN p && !d.flag AUD.TX_FMT_SLAVE p) || (d.flag AUD.STAT_RX_RUN p && !d.flag AUD.RX_FMT_SLAVE p)

/-- The running clocks outside ±2% in one window, and whether SYSCLK has stopped (R473). -/
def clockWindow (d : Dev) (bad : List Clock) (stopped : Bool) : Dev :=
  let d := allClocks.foldl (fun (d : Dev) c =>
    let o := clockOwner c
    d.follows (bad.contains c && d.clockRuns c) ⟨16 * o.1 + 6, 3, 0, o.2⟩) d
  let a := bad.contains .aclk
  let d := (d.put GLB.CLK_STAT_ACLK_OK (!a)).follows a (devFault 12)
  (d.put GLB.CLK_STAT_SYS_LOCK (!stopped)).follows stopped (devFault 47)

/-- The bit of a crossing shows whether any instance is absent (R480). -/
def showAbsent (d : Dev) (x : Nat) : Dev :=
  d.putBit GLB.XING_ABSENT_ABSENT x (d.absent.any fun (e : Key × Bool) => e.1.1 == x && e.2)

/-- One side of a crossing's instance resets (R480, R481): what was in flight is discarded; an unexpected reset counts what was
lost and raises XING. -/
def xingReset (d : Dev) (x unit : Nat) (orderly : Bool) (lost : Nat) : Dev :=
  let d := { d with absent := mapPut d.absent (x, unit) false true, toggles := mapDel (x, unit) d.toggles }.showAbsent x
  if orderly then d
  else
    let d := if lost = 0 then d else ((d.count GLB.XING_LOST_COUNT lost).set GLB.XING_LAST_IDX x).raise GLB.XING_LAST_VALID
    d.pulseFault ⟨16 * xingClass x + 7, 3, 0, unit⟩

/-- A crossing's instance restarts from zero (R482). -/
def xingRestart (d : Dev) (x unit : Nat) : Dev :=
  { d with absent := mapPut d.absent (x, unit) false false, toggles := mapDel (x, unit) d.toggles }.showAbsent x

end Dev

/-! ## Meanings -/

/-- CLOCK_MONITOR_WINDOW (R473). -/
def execClockMonitorWindow (bad : List Clock) (sysStopped : Bool) (s : State) := s.go fun d => d.clockWindow bad sysStopped

/-- PCLK_LOCK (R475). -/
def execPclkLock (s : State) := s.go fun d =>
  if d.pclkReq then { d with pclkReq := false }.put GLB.CLK_STAT_PCLK_ON true else d

/-- PCLK_IDLE_TIMEOUT (R475): 10 ms after the last engine stopped. -/
def execPclkIdleTimeout (s : State) := s.go fun d =>
  if (d.flagSet PLT.ENG_CTL_EN).isEmpty && d.lasted .pclk 0 10000000 then { d with pclkReq := false }.put GLB.CLK_STAT_PCLK_ON false else d

/-- CROSSING_SIDE_RESET (R480, R481). -/
def execCrossingSideReset (x : Fin 26) (unit : Nat) (orderly : Bool) (lost : Nat) (s : State) := s.go fun d =>
  d.xingReset x unit orderly lost

/-- CROSSING_RESTART (R482). -/
def execCrossingRestart (x : Fin 26) (unit : Nat) (s : State) := s.go fun d => d.xingRestart x unit

/-- XING_CNT_CLR (Table 19.8). -/
def execXingCntClr (s : State) := s.go fun d =>
  d.clear [GLB.XING_LOST_COUNT, GLB.XING_LAST_IDX, GLB.XING_LAST_VALID]

/-- CLR_ALL (R486). -/
def execClrAll (s : State) := s.go fun d => d.logClear

/-- SNAPSHOT (R489). -/
def execSnapshot (s : State) := s.go fun d => d.logSnap

/-- PEAK_CLR (R487). -/
def execPeakClr (s : State) := s.go fun d => d.peakClear

/-- FREEZE (R488). -/
def execFreeze (v : Bool) (s : State) := s.go fun d => d.logFreeze v

/-- BW_WINDOW_END (R487). -/
def execBwWindowEnd (s : State) := s.go fun d => d.windowEnd

end Sys2Proof.Machine
end

