-- ==== Sys2Proof/Machine/Evt.lean ====
section
/-!
DEFINITION. Sys2Proof/Machine/Evt.lean: the event router (R435 to R439): sources and their members, vectors, pins and the event
ring; the soft sources; and the captures of the control interconnect (R432).
-/

namespace Sys2Proof.Machine

/-- The members of an event source that covers registers (Table 17.3): where they start, how the instances run, how many
there are, and how many lie in a span of SRC_MAP. -/
structure EvtCover where
  off : Nat
  first : Nat
  stride : Nat
  count : Nat
  span : Nat
  deriving DecidableEq, Repr

/-- The registers a source covers (Table 17.3); none for the fault classes, the soft sources and the reserved ones. The
bundles' registers are told apart by offset, every other one by instance. -/
def evtCover (s : Nat) : Option EvtCover :=
  let one (off : Nat) : Option EvtCover := some ⟨off, 0, 0, 1, 1⟩
  let inst (off i : Nat) : Option EvtCover := some ⟨off, i, 0, 1, 1⟩
  let many (off i n : Nat) : Option EvtCover := some ⟨off, i, 0, n, n / 32⟩
  if s < 16 then none
  else if s < 53 then inst 0x0010011C (s - 16)
  else if s = 53 then one 0x00100004
  else if s < 102 then many 0x00300194 (32 * (s - 54)) 32
  else if s = 102 then one 0x00300004
  else if s < 155 then many 0x0020010C (32 * (s - 103)) 32
  else if s = 155 then one 0x00200004
  else if s = 156 then one 0x00C01030
  else if s < 221 then inst 0x00400184 (s - 157)
  else if s = 221 then one 0x00400004
  else if s < 234 then some ⟨0x0050800C + 16 * (32 * (s - 222)), 0, 16, 32, 1⟩
  else if s < 282 then many 0x005001A4 (256 * (s - 234)) 256
  else if s = 282 then one 0x00500004
  else if s = 283 then one 0x00600004
  else if s < 300 then many 0x00700110 (32 * (s - 284)) 32
  else if s = 300 then one 0x00700004
  else if s < 333 then inst 0x00800114 (s - 301)
  else if s = 333 then one 0x00800008
  else if s = 334 then one 0x00900004
  else if s < 351 then inst 0x00A0011C (s - 335)
  else if s = 351 then one 0x00A00004
  else if s < 361 then one 0x00020004
  else ([one 0x00030044, one 0x00B0000C, one 0x00010004, one 0x00040004, one 0x00050004, one 0x00060004, one 0x00070000,
    one 0x00080004, one 0x00C00004, one 0x00090004].getD (s - 361) none)

/-- The bits of its register that a source covers: all, but for the sources that share TIM.EVT_STAT (Table 17.3). -/
def evtBits (s : Nat) : Nat :=
  if s = 352 then 0x1FF else if 353 ≤ s && s < 361 then 2 ^ (16 + (s - 353)) else 0xFFFFFFFF

namespace Dev

/-- Is member i of a source pending (R435)? -/
def memberPending (d : Dev) (s i : Nat) (c : EvtCover) : Bool :=
  let r := d.reg (c.off + c.stride * i) (if c.stride = 0 then c.first + i else c.first)
  (r.toNat &&& d.get EVT.SRC_MASK_MASK s &&& evtBits s) != 0

/-- SRC_MAP of a source: the spans with a pending member (R435). -/
def srcMap (d : Dev) (s : Nat) : Nat :=
  if s < 16 then
    b2n ((List.range 16).any fun k => d.flag FLT.SRC_STAT_REC (16 * s + k) && !d.flag FLT.SRC_STAT_ACKED (16 * s + k))
  else if 384 ≤ s then b2n (d.soft.testBit (s - 384))
  else
    match evtCover s with
    | none => 0
    | some c => (List.range (c.count / c.span)).foldl (fun n j =>
        if (List.range c.span).any fun i => d.memberPending s (j * c.span + i) c then n + 2 ^ j else n) 0

/-- Is a source pending (R435)? -/
def srcPending (d : Dev) (s : Nat) : Bool := d.srcMap s != 0

/-- The armed flag of a vector (R436). -/
def vecArmed (d : Dev) (v : Nat) : Bool :=
  (d.get (if v < 32 then EVT.VEC_ARM_0_ARMED else EVT.VEC_ARM_1_ARMED)).testBit (v % 32)

def setArmed (d : Dev) (v : Nat) (b : Bool) : Dev :=
  d.putBit (if v < 32 then EVT.VEC_ARM_0_ARMED else EVT.VEC_ARM_1_ARMED) (v % 32) b

/-- An armed vector triggers one message and is disarmed (R436). -/
def vecTrigger (d : Dev) (v : Nat) : Dev := if d.vecArmed v then (d.setArmed v false).triggerVec v else d

/-- The pins follow the pending sources as last judged (R437). -/
def refreshPins (d : Dev) : Dev :=
  let on (k : Nat) : Bool := (d.get EVT.PIN_EN_EN).testBit k &&
    d.evtWas.any fun (e : Key × Bool) => e.2 && (d.get EVT.SRC_CFG_PINS e.1.1).testBit k
  { d with evtPins := ([0, 1, 2, 3].filter on).map (2 ^ ·) |>.sum }

/-- The element of a rise goes to the event ring (R438). -/
def ringRise (d : Dev) (s : Nat) : Dev :=
  if d.flag EVT.RING_EN && d.flag EVT.SRC_CFG_RING s then
    let q := d.get EVT.RING_Q
    let usable := d.qUsable q false 16
    let r := d.qProduce q (leBytes 2 s ++ [0, 0] ++ leBytes 4 (d.srcMap s) ++ leBytes 4 d.timeNs ++ leBytes 4 d.timeSec)
    if r.1 then r.2.logAdd 1756 1 else r.2.raiseIf usable EVT.BLK_EVT_RING_DROP
  else d

/-- A source is judged (R435 to R438): a rise writes its ring element, a pending source drives its vector, and the pins
follow. -/
def judgeSource (d : Dev) (s : Nat) : Dev :=
  let p := d.srcPending s
  let was := mapGet d.evtWas (s, 0) false
  let d := { d with evtWas := mapPut d.evtWas (s, 0) false p }
  let d := if p && !was then d.ringRise s else d
  let d := if p && d.flag EVT.SRC_CFG_VEC_EN s then d.vecTrigger (d.get EVT.SRC_CFG_VEC s) else d
  d.refreshPins

/-- A write to VEC_ACK (R436): vectors re-arm, and a new message follows where a routed source is still pending. -/
def ackVecs (d : Dev) (k v : Nat) : Dev :=
  ((List.range 32).filter fun i => v.testBit i).foldl (fun d i =>
    let vec := 32 * k + i
    let d := d.setArmed vec true
    if (flagSet' d EVT.SRC_CFG_VEC_EN).any fun s => d.get EVT.SRC_CFG_VEC s == vec && d.srcPending s then d.vecTrigger vec else d) d
where
  /-- The instances at which a flag is listed as set. -/
  flagSet' (d : Dev) (f : Fld) : List Nat := (d.regs.filter fun e => e.1.1 == f.off && bitsOf e.2 f.lo f.w != 0).map (·.1.2)

/-- A held message leaves where its vector and the function are no longer masked (R436). -/
def sendHeld (d : Dev) (v : Nat) : Dev :=
  let pba : Fld := ⟨0x00C08800 + 4 * (v / 32), 0, 32⟩
  if (d.get pba).testBit (v % 32) && !d.funcMask && (d.reg (0x00C0800C + 16 * v) 0).toNat % 2 == 0 then
    (d.putBit pba (v % 32) false).sendMsix v
  else d

/-- A soft bit (R439). -/
def softBit (d : Dev) (i : Nat) (b : Bool) : Dev :=
  { d with soft := if d.soft.testBit i == b then d.soft else if b then d.soft + 2 ^ i else d.soft - 2 ^ i }

/-- BUS.CMD.CLR (Table 17.13): both captures and counts. -/
def busClear (d : Dev) : Dev :=
  [0x00070004, 0x00070008, 0x0007000C, 0x00070010].foldl (fun (d : Dev) o => d.setReg o 0 0) d

end Dev

/-! ## Meanings -/

/-- EVENT_SOURCE_PENDING (R435 to R438): the source is judged, for a rise or for a fall. -/
def execEventSourcePending (src : EvtSrc) (s : State) := s.go fun d => d.judgeSource src

/-- VEC_ACK (R436). -/
def execVecAck (k : Fin 2) (v : Word) (s : State) := s.go fun d => d.ackVecs k v.toNat

/-- MSIX_UNMASK (R436, R440): the Mask bit of the vector falls. -/
def execMsixUnmask (v : Vec) (s : State) := s.go fun d => (d.set ⟨0x00C0800C + 16 * v.val, 0, 1⟩ 0).sendHeld v

/-- SOFT_SET (R439). -/
def execSoftSet (idx : Fin 128) (s : State) := s.go fun d => (d.set EVT.SOFT_IDX idx).softBit idx true

/-- SOFT_CLR (R439). -/
def execSoftClr (idx : Fin 128) (s : State) := s.go fun d => (d.set EVT.SOFT_IDX idx).softBit idx false

/-- BUS_CLR (R432). -/
def execBusClr (s : State) := s.go fun d => d.busClear

end Sys2Proof.Machine
end

