-- ==== Sys2Proof/Machine/Lng.lean ====
section
/-!
DEFINITION. Sys2Proof/Machine/Lng.lean: the lane groups (chapter 2): descrambling and delivery of blocks, the receive and
transmit state machines (Tables 2.5 and 2.8), alignment and marker failures, training, role words.
-/

namespace Sys2Proof.Machine

/-! ## Blocks -/

/-- The payload after the self-synchronising descrambler 1 + x^39 + x^58 (R43), from the 58 scrambled bits before it; bit
57 of `prev` arrived last. -/
def descramble (prev : BitVec 58) (raw : BitVec 128) : BitVec 128 :=
  let full : BitVec 186 := raw ++ prev
  full.extractLsb' 58 128 ^^^ full.extractLsb' 19 128 ^^^ full.extractLsb' 0 128

/-- The descrambler's bits after a payload. -/
def nextPrev (raw : BitVec 128) : BitVec 58 := raw.extractLsb' 70 58

/-- Byte k of a payload (R41). -/
def payloadByte (p : BitVec 128) (k : Nat) : Byte := p.extractLsb' (8 * k) 8

/-- The CRC-16 of a control payload over bytes 0 to 13 (R48). -/
def controlCrc (bs : List Byte) : Nat :=
  crcMsb 16 0x1021 0xFFFF (bs.flatMap fun b => msbBits 8 b.toNat)

/-- Does a control payload carry a good CRC, high byte in byte 14 (R48)? -/
def controlOk (p : BitVec 128) : Bool :=
  controlCrc ((List.range 14).map (payloadByte p)) == (payloadByte p 14).toNat * 256 + (payloadByte p 15).toNat

/-- The block types of Table 2.3. -/
def controlTypes : List Nat := [0x1E, 0x2D, 0x4B, 0x66, 0x78, 0x99]

/-- A control payload of 16 bytes with its CRC (R48): type, and bytes 1 to 5. -/
def controlPayload (type : Nat) (bs : List Nat) : List Byte :=
  let body := ((type :: bs).map (BitVec.ofNat 8)) ++ List.replicate (13 - bs.length) (0 : Byte)
  body ++ beBytes 2 (controlCrc body)

/-- A fault of a lane group: level 2, and of the twin link the device's level (R26, R386). -/
def groupFault (src g : Nat) : FaultAt := if g = 36 then ⟨src, 3, 0, 36⟩ else ⟨src, 2, g, 0⟩

/-- GROUP and MODE of a marker as a receiver of group g checks them (R55). -/
def markerAddrOk (p : BitVec 128) (g : Nat) (mode : Bool) : Bool :=
  (payloadByte p 1).toNat % 64 == g && ((payloadByte p 2).toNat ≥ 128) == mode

namespace Dev

def rxOf (d : Dev) (g : Nat) : RxGrp := mapGet d.rx (g, 0) RxGrp.init
def setRx (d : Dev) (g : Nat) (r : RxGrp) : Dev := { d with rx := mapPut d.rx (g, 0) RxGrp.init r }
def txOf (d : Dev) (g : Nat) : TxGrp := mapGet d.tx (g, 0) TxGrp.init
def setTx (d : Dev) (g : Nat) (t : TxGrp) : Dev := { d with tx := mapPut d.tx (g, 0) TxGrp.init t }

/-- Compatibility mode; group 36 is always native (R39). -/
def compat (d : Dev) (g : Nat) : Bool := d.flag LNG.GRP_CTL_MODE g

/-- The receive and transmit states (Tables 2.5 and 2.8). -/
def rxState (d : Dev) (g : Nat) : Nat := d.get LNG.GRP_STAT_RX_STATE g
def txState (d : Dev) (g : Nat) : Nat := d.get LNG.GRP_STAT_TX_STATE g

/-- One lane's receiver record changed. -/
def setLane (d : Dev) (g l : Nat) (f : RxLane → RxLane) : Dev :=
  let r := d.rxOf g
  d.setRx g { r with lanes := r.lanes.modify l f }

/-- One lane's payload descrambled; the descrambler runs on every block (R43). -/
def takePayload (d : Dev) (g l : Nat) (raw : BitVec 128) : BitVec 128 × Dev :=
  let lane := (d.rxOf g).lanes.getD l ⟨0, 0, 0, 0, false⟩
  (descramble lane.prev raw, d.setLane g l fun x => { x with prev := nextPrev raw })

/-- The eight payloads of a group-wide block, in lane order. -/
def takePayloads (d : Dev) (g : Nat) (bs : List LaneBlk) : List (BitVec 128) × Dev :=
  (bs.zipIdx).foldl (fun (acc : List (BitVec 128) × Dev) b =>
    let r := acc.2.takePayload g b.2 b.1.raw
    (acc.1 ++ [r.1], r.2)) ([], d)

/-- Every slot of a group delivers words with V = 0 and M = 0 (R59), and is absent at once (R24). -/
def groupSilent (d : Dev) (g : Nat) : Dev :=
  if g < 36 then
    (List.range 32).foldl (fun d i =>
      let slot := g * 32 + i
      let d := { d with inWords := mapPut d.inWords (slot, 0) [] [] }
      d.refreshPresence slot false) d
  else d

/-- GRP_STAT.SHED is 1 while either direction is held (R72). -/
def refreshShed (d : Dev) (g : Nat) : Dev := d.put LNG.GRP_STAT_SHED ((d.rxOf g).held || (d.txOf g).held) g

/-- The group's transmitted role word has changed and waits to be sent (R52). -/
def roleChanged (d : Dev) (g : Nat) : Dev := d.setTx g { d.txOf g with changed := true }

/-- The bit of RX_UP_0 or RX_UP_1 of a group. -/
def putUp (d : Dev) (g : Nat) (b : Bool) : Dev :=
  if g < 32 then d.putBit LNG.RX_UP_0_UP g b else d.putBit LNG.RX_UP_1_UP (g - 32) b

/-- The receive direction enters a state: the status that leaving UP or DOWN and entering a state changes (Tables 2.11, 2.13,
2.17, 2.18), and RXUP and TRQ of the role words it sends (R66, R73). TRQ falls as the receiver leaves ACQ, LOCK and ALIGN, and not
before (DESIGN CHOICE, log 87). -/
def enterRx (d : Dev) (g st : Nat) : Dev :=
  let old := d.rxState g
  let d := d.set LNG.GRP_STAT_RX_STATE st g
  let d := d.when (st == 6) (·.mark .rxDown g)
  let d := d.when ([2, 3, 4].contains st && !([2, 3, 4].contains old)) (·.mark .rxAcquire g)
  let d := d.when (st == 2 && old != 2) (·.mark .rxClock g)
  let d := d.when (old == 5 && st != 5) fun d =>
    (((d.put LNG.ROLE_RX_VALID false g).put LNG.SKEW_STAT_SKEW_VALID false g).putUp g false).groupSilent g |>.roleChanged g
  let d := d.when (old == 6 && st != 6) fun d => d.dropFault (groupFault 64 g)
  let d := d.when (st == 5 && old != 5) fun d => ((d.raise LNG.EVT_STAT_UP g).putUp g true).roleChanged g
  let d := d.when (st == 0 || st == 1 || st == 2 || st == 6) fun d => d.set LNG.GRP_STAT_LANE_LOCK 0 g
  let d := d.when (st != 3 && st != 4 && st != 7) fun d => d.setRx g { d.rxOf g with retained := false }
  d.when ((d.txOf g).trq && !(st == 2 || st == 3 || st == 4)) fun d =>
    d.setTx g { d.txOf g with trq := false, changed := true }

/-- The receive direction moves to a state; while the 110 °C step holds, a direction requested on that is not in UP or REST
is held in SLEEP (R72). -/
def moveRx (d : Dev) (g st : Nat) : Dev :=
  if d.shedding && d.get LNG.GRP_CTL_RX_REQ g == 2 && (st == 2 || st == 3 || st == 4 || st == 6) then
    ((d.enterRx g 1).setRx g { (d.enterRx g 1).rxOf g with held := true }).refreshShed g
  else d.enterRx g st

/-- Entry into DOWN (R63): counted once, the DOWN event, the group's loss fault. -/
def groupDown (d : Dev) (g : Nat) : Dev :=
  let d := ((d.enterRx g 6).count LNG.CNT_DOWN_COUNT 1 g).raise LNG.EVT_STAT_DOWN g
  let d := d.setRx g { d.rxOf g with aged := false }
  let d := d.raiseFault (groupFault 64 g)
  if d.shedding && d.get LNG.GRP_CTL_RX_REQ g == 2 then d.moveRx g 6 else d

/-- A receiver that reads headers: in LOCK, ALIGN or UP (Table 2.5, log 83). -/
def readsHeaders (d : Dev) (g : Nat) : Bool := [3, 4, 5].contains (d.rxState g)

/-- A control block delivered on one lane: a bad CRC or an unlisted type is counted and treated as IDLE (R49). -/
def controlRx (d : Dev) (g l : Nat) (raw : BitVec 128) : Dev :=
  let r := d.takePayload g l raw
  if controlOk r.1 && controlTypes.contains (payloadByte r.1 0).toNat || !d.readsHeaders g then r.2
  else r.2.count LNG.CNT_CTL_COUNT 1 g

/-- A header error on a lane (R47, Table 2.6): counted, and above HDR_THR in one marker period it takes the group DOWN. -/
def headerError (d : Dev) (g l : Nat) : Dev :=
  let d := (d.count LNG.CNT_HDR_COUNT 1 g).setLane g l fun x => { x with hdrErr := x.hdrErr + 1 }
  let n := ((d.rxOf g).lanes.getD l ⟨0, 0, 0, 0, false⟩).hdrErr
  if d.rxState g = 5 && n > d.get LNG.ERR_CFG_HDR_THR g then d.groupDown g else d

/-- The words of a data block go to the group's input slots (R44, R45); a block with a header error delivers V = 0 words
(R47). -/
def deliver (d : Dev) (g l : Nat) (p : BitVec 128) (bad : Bool) : Dev :=
  let w (i : Nat) : Word := if bad then 0 else p.extractLsb' (32 * i) 32
  let put (d : Dev) (ph : Nat) (ws : List Word) : Dev := d.laneWords (g * 32 + l * 4 + ph) ws
  if g < 36 then
    if d.compat g then put (put d 0 [w 0, w 2]) 1 [w 1, w 3]
    else put (put (put (put d 0 [w 0]) 1 [w 1]) 2 [w 2]) 3 [w 3]
  else d

/-- A compatibility lane resumes in REST with something other than an EXIT block: with fewer than 5 lanes left for EXIT the
receiver acquires afresh (R59). -/
def resumeOther (d : Dev) (g l : Nat) : Dev :=
  let d := d.setLane g l fun x => { x with other := true }
  if ((d.rxOf g).lanes.countP (·.other)) ≥ 4 then d.moveRx g 2 else d

/-- A data block received on a lane of a group in UP is counted (Tables 20.1 and 20.2) and delivered; `bad` says that its header is in
error. -/
def takeData (d : Dev) (g l : Nat) (p : BitVec 128) (bad : Bool) : Dev := ((d.logAdd g 1).bwAdd g 16).deliver g l p bad

/-- A block with a data or unlisted header received on one lane. -/
def dataBlock (d : Dev) (g l : Nat) (b : LaneBlk) : Dev :=
  let r := d.takePayload g l b.raw
  let d := r.2
  if d.rxState g = 7 && d.compat g then d.resumeOther g l
  else if b.hdr == 0xA then d
  else
    let bad := b.hdr != 0x5
    let d := if bad && d.readsHeaders g then d.headerError g l else d
    if d.rxState g = 5 then d.takeData g l r.1 bad else d

/-- What the header of each lane brings at an index at which the group sends a control block (R42, R47): a data block is delivered, an
unlisted code is a header error. -/
def judgeHeaders (d : Dev) (g : Nat) (bs : List LaneBlk) (ps : List (BitVec 128)) : Dev :=
  (bs.zip ps).zipIdx.foldl (fun d x =>
    if x.1.1.hdr == 0xA || !d.readsHeaders g then d
    else if x.1.1.hdr == 0x5 then (if d.rxState g = 5 then d.takeData g x.2 x.1.2 false else d)
    else d.headerError g x.2) d

/-- The control blocks with a bad CRC or an unlisted type, on the lanes that deliver one, are counted (R49). -/
def judgeControls (d : Dev) (g : Nat) (bs : List LaneBlk) (ps : List (BitVec 128)) : Dev :=
  if d.readsHeaders g then
    d.count LNG.CNT_CTL_COUNT ((bs.zip ps).countP fun x =>
      x.1.hdr == 0xA && !(controlOk x.2 && controlTypes.contains (payloadByte x.2 0).toNat)) g
  else d

/-- The eight lanes' blocks at an index of a ROLE, REST or EXIT block: descrambled and judged (R42, R43, R47, R49). -/
def takeBlocks (d : Dev) (g : Nat) (bs : List LaneBlk) : List (BitVec 128) × Dev :=
  let r := d.takePayloads g bs
  (r.1, (r.2.judgeControls g bs r.1).judgeHeaders g bs r.1)

/-! ## Alignment -/

/-- A CRC-valid ALIGN payload on a control block. -/
def isAlign (b : LaneBlk) (p : BitVec 128) : Bool :=
  b.hdr == 0xA && controlOk p && (payloadByte p 0).toNat == 0x4B

/-- MSEQ of an ALIGN payload. -/
def mseqOf (p : BitVec 128) : Nat := (payloadByte p 3).toNat + 256 * (payloadByte p 4).toNat

/-- Marker failures judged (R55): the lanes that failed are counted, and MRK_THR consecutive failures on any lane take the
group DOWN (Table 2.6; 0 is treated as 1). -/
def markers (d : Dev) (g : Nat) (failed : List Bool) : Dev :=
  let r := d.rxOf g
  let lanes := r.lanes.zipIdx.map fun x =>
    if failed.getD x.2 false then { x.1 with mrkFail := x.1.mrkFail + 1, hdrErr := 0 }
    else { x.1 with mrkFail := 0, hdrErr := 0 }
  let d := (d.setRx g { r with lanes := lanes }).count LNG.CNT_MRK_COUNT (failed.countP id) g
  if lanes.any fun x => x.mrkFail ≥ max 1 (d.get LNG.ERR_CFG_MRK_THR g) then d.groupDown g else d

/-- The ALIGN index of an UP group: each lane's marker is judged (R55). The predecessor of the next marker is the MSEQ that every valid
ALIGN here carries, and otherwise the one expected here (DESIGN CHOICE, log 88). -/
def judgeMarkers (d : Dev) (g : Nat) (bs : List LaneBlk) (ps : List (BitVec 128)) : Dev :=
  let r := d.rxOf g
  let want := (r.mseq + 1) % 65536
  let first := (bs.map (·.at_ui)).foldl min ((bs.head?.map (·.at_ui)).getD 0)
  let seqs := (bs.zip ps).filterMap fun x => if isAlign x.1 x.2 then some (mseqOf x.2) else none
  let failed := (bs.zip ps).zipIdx.map fun x =>
    let skew := x.1.1.at_ui - first
    let was := (r.lanes.getD x.2 ⟨0, 0, 0, 0, false⟩).skew
    !(isAlign x.1.1 x.1.2 && markerAddrOk x.1.2 g (d.compat g) && mseqOf x.1.2 == want &&
      decide (skew ≤ was + 8) && decide (was ≤ skew + 8))
  let agreed := match seqs with
    | [] => want
    | m :: ms => if ms.all (· == m) then m else want
  (d.setRx g { r with mseq := agreed }).markers g failed

/-- The ALIGN index of a group that seeks markers: alignment (R53), or its refusal (R54). -/
def tryAlign (d : Dev) (g : Nat) (bs : List LaneBlk) (ps : List (BitVec 128)) : Dev :=
  let pairs := bs.zip ps
  let valid := pairs.all fun x => isAlign x.1 x.2
  let m := mseqOf (ps.headD 0)
  let modeOk := pairs.all fun x => decide ((payloadByte x.2 2).toNat ≥ 128) == d.compat g
  let sameSeq := ps.all fun p => mseqOf p == m
  let wrongGroup := pairs.any fun x => isAlign x.1 x.2 && (payloadByte x.2 1).toNat % 64 != g
  let first := (bs.map (·.at_ui)).foldl min ((bs.head?.map (·.at_ui)).getD 0)
  let last := (bs.map (·.at_ui)).foldl max 0
  let skew := last - first
  if bs.length = 8 && valid && modeOk && sameSeq && !wrongGroup && decide (skew ≤ 53) then
    let r := d.rxOf g
    let lanes := r.lanes.zipIdx.map fun x =>
      { x.1 with skew := ((bs.getD x.2 ⟨0, 0, first⟩).at_ui - first), mrkFail := 0, hdrErr := 0, other := false }
    let late := if skew = 0 then 0 else (bs.findIdx? (·.at_ui == last)).getD 0
    let d := d.setRx g { r with lanes := lanes, mseq := m }
    let d := ((d.set LNG.SKEW_STAT_SKEW skew g).set LNG.SKEW_STAT_LATE_LANE late g).put LNG.SKEW_STAT_SKEW_VALID true g
    d.enterRx g 5
  else if wrongGroup || (valid && modeOk && sameSeq && decide (skew > 53)) then
    (d.raise LNG.EVT_STAT_SKEW_FAIL g).pulseFault (groupFault 66 g)
  else d

/-- ALIGN at the eight lanes. In UP, a lane whose marker has a bad CRC counts it in CNT_CTL too (R49); a header error counts in the
marker period that begins here (Table 2.6). -/
def alignBlock (d : Dev) (g : Nat) (bs : List LaneBlk) : Dev :=
  let r := d.takePayloads g bs
  let d := r.2.judgeControls g bs r.1
  if d.rxState g = 5 then (d.judgeMarkers g bs r.1).judgeHeaders g bs r.1
  else
    let d := d.judgeHeaders g bs r.1
    if d.rxState g = 4 then d.tryAlign g bs r.1 else d

/-! ## Role words -/

/-- The lanes that deliver a CRC-valid block of a type, and its payload. -/
def validOf (type : Nat) (bs : List LaneBlk) (ps : List (BitVec 128)) : List (BitVec 128) :=
  (bs.zip ps).filterMap fun x =>
    if x.1.hdr == 0xA && controlOk x.2 && (payloadByte x.2 0).toNat == type then some x.2 else none

/-- Bytes 1 to 4 of a ROLE payload: flags, ROLE_SEQ and SYSID. -/
def roleKey (p : BitVec 128) : Nat := (p.extractLsb' 8 32).toNat

/-- The payload that at least 5 of the 8 lanes agree on, where there is one (R74). -/
def agreed (ps : List (BitVec 128)) : Option (BitVec 128) :=
  ps.find? fun p => (ps.countP fun q => roleKey q == roleKey p) ≥ 5

/-- ROLE 0b11 counts as NONE (R73, R74). -/
def roleCounts (r : Nat) : Nat := if r = 3 then 0 else r

/-- The role word this device sends on a group (Table 2.4, R73): flags, ROLE_SEQ, SYSID low and high byte. For 10 µs after a
yield groups 0 to 35 still carry ACTIVE (R373). -/
def roleWord (d : Dev) (g : Nat) : List Nat :=
  [(if d.roleHold && decide (g < 36) then 1 else d.get CON.STAT_ROLE) + 4 * d.get FLT.STAT_HEALTHY + 8 * d.get NVM.BOOT_STAT_TWIN_ID +
      16 * b2n (d.rxState g == 5) + 32 * b2n (d.txOf g).trq + 64 * b2n d.shedding,
    d.roleSeq, d.get GLB.SYSID_SYSID % 256, d.get GLB.SYSID_SYSID / 256]

/-- The current role word goes out on every data lane of a group. -/
def sendRole (d : Dev) (g : Nat) : Dev := d.emit (.lanes g (List.replicate 8 (controlPayload 0x66 (d.roleWord g))))

/-! ## Transmit -/

/-- Step `k` of a sequence begins (Table 2.7): the pattern or blocks it sends. -/
def seqSend (d : Dev) (g : Nat) (q : TxSeq) (k : Nat) : Dev :=
  match q, k with
  | .full, 2 => d.emit (.prbs g ((List.range 8).map (0x1FFF - ·)))
  | .full, 3 => d.emit (.countdown g 0x2D 4096)
  | .wake, 3 => d.emit (.countdown g 0x2D 400)
  | .exit, _ => d.emit (.countdown g 0x99 32)
  | _, _ => d

/-- What waits for the lane transmitters of a group is lost as its data blocks end (R50). -/
def txDrop (d : Dev) (g : Nat) : Dev := { d with outQ := d.outQ.filter fun e => g == 36 || e.1.1 / 32 != g }

/-- A training sequence or EXIT burst starts at its first step. An entry into SLEEP that waits for its REST is given up (DESIGN CHOICE,
log 86). -/
def startSeq (d : Dev) (g : Nat) (q : TxSeq) : Dev :=
  let d := (d.txDrop g).set LNG.GRP_STAT_TX_STATE 2 g
  let k := if q = .exit then 3 else 1
  ((d.setTx g { d.txOf g with seqStep := some (q, k), restWait := false }).mark .txStep g).seqSend g q k

/-- The transmit direction stops in OFF (0) or SLEEP (1); a training in progress is abandoned (R67). -/
def stopTx (d : Dev) (g st : Nat) : Dev :=
  ((d.txDrop g).set LNG.GRP_STAT_TX_STATE st g).setTx g { d.txOf g with seqStep := none, restWait := false }

/-- The transmit direction proceeds from OFF or SLEEP as TX_REQ asks (Table 2.8), unless it is held. -/
def proceedTx (d : Dev) (g : Nat) : Dev :=
  let req := d.get LNG.GRP_CTL_TX_REQ g
  if req = 2 then
    if d.txHeldOff g then d
    else if d.shedding then (d.setTx g { d.txOf g with held := true }).refreshShed g
    else if d.txState g = 0 then d.startSeq g .full
    else if d.txState g = 1 then d.startSeq g (if d.compat g then .exit else .wake)
    else d
  else if req = 0 && d.txState g = 1 then d.stopTx g 0
  else d

/-- A full training starts, on request or on FORCE_TRAIN: the RETRAIN event. While the 110 °C step holds, a direction that would leave
RUN for it is held in SLEEP (R72). -/
def retrain (d : Dev) (g : Nat) : Dev :=
  if d.shedding && d.get LNG.GRP_CTL_TX_REQ g == 2 then
    ((d.stopTx g 1).setTx g { (d.stopTx g 1).txOf g with held := true }).refreshShed g
  else (d.startSeq g .full).raise LNG.EVT_STAT_RETRAIN g

/-- An accepted TRQ = 1 (R66): in RUN, or during a wake or an EXIT burst, with TX_REQ = 0b10, the full training starts; at
most once per 1 ms (800,000 cc). -/
def answerTrq (d : Dev) (g : Nat) : Dev :=
  let d := d.raise LNG.EVT_STAT_TRQ_RX g
  let t := d.txOf g
  let open_ := match t.answered with
    | none => true
    | some c => decide (d.cc ≥ c + 800000)
  let may := d.txState g == 3 ||
    (d.txState g == 2 && (match t.seqStep with | some (.wake, _) => true | some (.exit, _) => true | _ => false))
  if open_ && may && d.get LNG.GRP_CTL_TX_REQ g == 2 then
    (d.setTx g { t with answered := some d.cc }).retrain g
  else if open_ && d.txState g == 2 then d.setTx g { t with answered := some d.cc }
  else d

/-- A role word is accepted (R74): LNG.ROLE_RX takes it, ROLE_CHG is set on a change, a TRQ is answered. -/
def acceptRole (d : Dev) (g : Nat) (p : BitVec 128) : Dev :=
  let k := roleKey p
  let chg := roleCounts (k % 4) != roleCounts (d.get LNG.ROLE_RX_ROLE g) || k / 4 % 2 != d.get LNG.ROLE_RX_HEALTHY g
  let d := d.setReg 0x00100114 g (BitVec.ofNat 32 (k % 128 + 128 + k / 256 % 256 * 256 + k / 65536 * 65536))
  let d := d.raiseIf chg LNG.EVT_STAT_ROLE_CHG g
  if k / 32 % 2 = 1 then d.answerTrq g else d

/-- ALIGN on every data lane of a group, with the current MSEQ (R50, Table 2.4). -/
def sendAlign (d : Dev) (g : Nat) : Dev :=
  let m := (d.txOf g).mseq
  d.emit (.lanes g ((List.range 8).map fun l =>
    controlPayload 0x4B [g, l + 128 * b2n (d.compat g), m % 256, m / 256, 1]))

/-- The transmit direction enters RUN after the ALIGN that ends its sequence; MSEQ starts from any value after training
(R51), and the current role word counts as changed (R52). -/
def enterRun (d : Dev) (g : Nat) : Dev :=
  let r := d.draw
  let d := r.2.setTx g { r.2.txOf g with seqStep := none, mseq := r.1 % 65536, idx := 0, fill := 0, changed := true }
  (d.sendAlign g).set LNG.GRP_STAT_TX_STATE 3 g

/-- The step of a sequence under way ends: the next step, or RUN after the ALIGN (Table 2.7, R71). -/
def seqNext (d : Dev) (g : Nat) : Dev :=
  match (d.txOf g).seqStep with
  | none => d
  | some (q, k) =>
    let k' := if q = .wake && k = 1 then 3 else k + 1
    if k' > 3 then d.enterRun g
    else ((d.setTx g { d.txOf g with seqStep := some (q, k') }).mark .txStep g).seqSend g q k'

/-- Has the step of a sequence under way lasted its time (Table 2.7, R71)? A block is 132 bits at 53.125 Gb/s, or at
half of it in compatibility mode (R41, R43). -/
def stepOver (d : Dev) (g : Nat) : Bool :=
  let blocks (n : Nat) : Nat := n * 132000 / 53125 * (if d.compat g then 2 else 1)
  match (d.txOf g).seqStep with
  | none => false
  | some (q, k) =>
    d.lasted .txStep g (match q, k with
      | .full, 1 => 1000
      | .full, 2 => 40000
      | .full, _ => blocks 4096
      | .wake, 1 => 400
      | .wake, _ => blocks 400
      | .exit, _ => blocks 32)

/-- `k` data blocks go out on every data lane of a group, with the words that its output slots have queued; a V = 0 word is sent as 0
(R79, log 96). The Logbook counts them (Tables 20.1 and 20.2). -/
def sendData (d : Dev) (g k : Nat) : Dev :=
  if decide (g < 36) && decide (0 < k) then
    let m := if d.compat g then 2 * k else k
    let slots := (List.range 32).map (g * 32 + ·)
    let q (o : Nat) := mapGet d.outQ (o, 0) []
    let words := (slots.filter fun o => !(q o).isEmpty).map fun o =>
      (o, ((q o).take m).map fun w => if wordV w then w else 0)
    let d := slots.foldl (fun d o => { d with outQ := mapPut d.outQ (o, 0) [] ((mapGet d.outQ (o, 0) []).drop m) }) d
    ((d.logAdd (37 + g) (8 * k)).bwAdd (37 + g) (128 * k)).emit (.data g k words)
  else d

/-- `n` indices pass that take a data block where the transmit buffer holds one, and IDLE otherwise (R50): 2112/2125 of a block comes
in at each (R43). -/
def runIndices (d : Dev) (g n : Nat) : Dev :=
  let t := d.txOf g
  let k := min n ((t.fill + 2112 * n) / 2125)
  (d.setTx g { t with fill := t.fill + 2112 * n - 2125 * k }).sendData g k

/-- The transmitter reaches a fixed index (R50); the indices between have passed (log 95). -/
def toIndex (d : Dev) (g i : Nat) : Dev :=
  let d := d.runIndices g ((i + 16383 - (d.txOf g).idx) % 16384)
  let t := d.txOf g
  d.setTx g { t with idx := i, fill := t.fill + 2112 }

/-- The transmitter reaches the next index that would otherwise carry IDLE (R52, R69), unless a fixed index comes first. -/
def toIdle (d : Dev) (g : Nat) : Option Dev :=
  let t := d.txOf g
  let m := if g < 36 then t.fill / 13 + 1 else 1
  if t.idx % 4096 + m < 4096 then
    let d := d.setTx g { t with idx := t.idx + m, fill := if g < 36 then t.fill + 2112 * m - 2125 * (m - 1) else 0 }
    some (d.sendData g (m - 1))
  else none

/-- A write of TX_REQ (Table 2.8, R67, R69); 0b11 is treated as 0b01. Back at 0b10 while REST still waits, the transmitter stays in RUN
(DESIGN CHOICE, log 86). -/
def txReq (d : Dev) (g v : Nat) : Dev :=
  let d := d.set LNG.GRP_CTL_TX_REQ v g
  let d := d.when (v != 2) fun d => (d.setTx g { d.txOf g with held := false }).refreshShed g
  let st := d.txState g
  if st = 2 then (if v = 2 then d else d.stopTx g (if v = 0 then 0 else 1))
  else if st = 3 then
    if v = 2 then d.setTx g { d.txOf g with restWait := false }
    else if v = 0 then d.stopTx g 0
    else d.setTx g { d.txOf g with restWait := true }
  else d.proceedTx g

/-- A write of RX_REQ (Table 2.5, R59); 0b11 is treated as 0b01. -/
def rxReq (d : Dev) (g v : Nat) : Dev :=
  let d := d.set LNG.GRP_CTL_RX_REQ v g
  let d := d.setRx g { d.rxOf g with held := false }
  let d := d.refreshShed g
  if v = 0 then d.enterRx g 0
  else if v = 2 then
    let st := d.rxState g
    if st = 0 && d.shedding then (d.setRx g { d.rxOf g with held := true }).refreshShed g
    else if st = 0 || st = 1 then d.moveRx g 2
    else d
  else d.enterRx g 1

/-- REST goes out at the next IDLE index, and the transmitter stops its lanes as its mode requires: SLEEP (R69). -/
def restOut (d : Dev) (g : Nat) : Dev :=
  if (d.txOf g).restWait && d.txState g == 3 then
    match d.toIdle g with
    | none => d
    | some d => (d.emit (.lanes g ((List.range 8).map fun l => controlPayload 0x78 [g, l + 128 * b2n (d.compat g)]))).stopTx g 1
  else d

/-- Clock loss (LOS or LOL) by receive state (R58, R59, R61): `evt` is the event a group in UP sets. -/
def clockLost (d : Dev) (g : Nat) (evt : Fld) : Dev :=
  let st := d.rxState g
  if st = 5 then (d.raise evt g).groupDown g
  else if st = 2 || st = 3 || st = 4 then d.moveRx g 2
  else if st = 7 && d.compat g then d.groupDown g
  else d

/-- FORCE_RETRAIN by receive state (Table 2.21). -/
def forceRetrain (d : Dev) (g : Nat) : Dev :=
  let st := d.rxState g
  if st = 5 then d.groupDown g
  else if st = 6 || st = 2 || st = 3 || st = 4 then d.moveRx g 2
  else d

/-- REST from at least 5 lanes takes an UP receiver to REST; the alignment is retained (R58, R71). -/
def restRx (d : Dev) (g : Nat) : Dev :=
  let d := (d.raise LNG.EVT_STAT_REST_RX g).enterRx g 7
  let r := d.rxOf g
  d.setRx g { r with retained := true, lanes := r.lanes.map fun l => { l with other := false } }

/-- The first EXIT blocks at the eight lanes of a compatibility receiver in REST (R59, R71): each lane's first header at its retained
position locks it where it is valid; another lane seeks lock afresh. -/
def exitRx (d : Dev) (g : Nat) (bs : List LaneBlk) (ps : List (BitVec 128)) : Dev :=
  let headers := bs.map fun b => b.hdr == 0xA || b.hdr == 0x5
  let lockMask := (headers.zipIdx.map fun x => if x.1 then 2 ^ x.2 else 0).foldl (· + ·) 0
  if d.rxState g = 7 && d.compat g then
    if (validOf 0x99 bs ps).length ≥ 5 then
      let d := d.moveRx g 3
      if d.rxState g = 3 then
        let d := d.set LNG.GRP_STAT_LANE_LOCK lockMask g
        if lockMask = 255 then d.moveRx g 4 else d
      else d
    else d.moveRx g 2
  else d

/-- ROLE_SEQ counts a change of ROLE or HEALTHY, and every group's role word waits to be sent (R52). After a yield it counts the change
at Y and, as the words of groups 0 to 35 follow, the one 10 µs later (R373; DESIGN CHOICE, log 89). -/
def roleWordChange (d : Dev) : Dev :=
  let now := (d.get CON.STAT_ROLE + 4 * b2n d.roleHold, d.flag FLT.STAT_HEALTHY)
  let d := if d.roleSent = now then d else { d with roleSent := now, roleSeq := (d.roleSeq + 1) % 256 }
  (List.range 37).foldl (fun d g => d.roleChanged g) d

/-- Entry into the 110 °C step: every direction requested on and not settled is held (R72). -/
def shedHold (d : Dev) : Dev :=
  (List.range 37).foldl (fun d g =>
    let rs := d.rxState g
    let d := d.when (d.get LNG.GRP_CTL_RX_REQ g == 2 && rs != 5 && rs != 7) fun d =>
      let d := if rs = 0 then d else d.enterRx g 1
      d.setRx g { d.rxOf g with held := true }
    let d := d.when (d.get LNG.GRP_CTL_TX_REQ g == 2 && d.txState g != 3) fun d =>
      let d := if d.txState g = 0 then d else d.stopTx g 1
      d.setTx g { d.txOf g with held := true }
    (d.refreshShed g).roleChanged g) d

/-- The step clears: every held direction goes to its requested state (R72). -/
def shedRelease (d : Dev) : Dev :=
  (List.range 37).foldl (fun d g =>
    let d := d.when (d.rxOf g).held fun d =>
      (d.setRx g { d.rxOf g with held := false }).when (d.get LNG.GRP_CTL_RX_REQ g == 2) (·.enterRx g 2)
    let d := d.when (d.txOf g).held fun d => (d.setTx g { d.txOf g with held := false }).proceedTx g
    (d.refreshShed g).roleChanged g) d

/-- Safe-idle: every lane transmitter to OFF, TX_REQ kept (R382). -/
def stopAllTx (d : Dev) : Dev := (List.range 37).foldl (fun d g => d.stopTx g 0) d

/-- Safe-idle ends, or RUNNING rises: each direction proceeds from OFF as its TX_REQ asks (R382, R406). -/
def releaseTx (d : Dev) : Dev := (List.range 37).foldl (fun d g => d.proceedTx g) d

end Dev

/-! ## Meanings -/

/-- DATA_BLOCK_RX (R44). -/
def execDataBlockRx (g : Grp) (l : Lane) (b : LaneBlk) (s : State) := s.go fun d => d.dataBlock g l b

/-- IDLE_BLOCK_RX (R48): discarded; in compatibility REST it is a resumption with other than EXIT (R59). -/
def execIdleBlockRx (g : Grp) (l : Lane) (raw : BitVec 128) (s : State) := s.go fun d =>
  let d := d.controlRx g l raw
  if d.rxState g = 7 && d.compat g then d.resumeOther g l else d

/-- BAD_CONTROL_BLOCK (R49): counted, and treated as IDLE. -/
def execBadControlBlock (g : Grp) (l : Lane) (raw : BitVec 128) (s : State) := s.go fun d =>
  let d := d.controlRx g l raw
  if d.rxState g = 7 && d.compat g then d.resumeOther g l else d

/-- TRAIN_BLOCK_RX (Table 2.4): COUNT runs down toward the ALIGN; the receiver's state is moved by its own events. -/
def execTrainBlockRx (g : Grp) (l : Lane) (raw : BitVec 128) (s : State) := s.go fun d =>
  let d := d.controlRx g l raw
  if d.rxState g = 7 && d.compat g then d.resumeOther g l else d

/-- ALIGN_BLOCK_RX (R53, R54, R55); in compatibility REST it is a resumption with other than EXIT (R59). -/
def execAlignBlockRx (g : Grp) (bs : List LaneBlk) (s : State) := s.go fun d =>
  let d' := d.alignBlock g bs
  if d.rxState g = 7 then d'.exitRx g bs (d.takePayloads g bs).1 else d'

/-- MARKER_MISSING (R55): the expected index passed without an ALIGN on these lanes; the MSEQ expected there counts as the predecessor
of the next (DESIGN CHOICE, log 88). -/
def execMarkerMissing (g : Grp) (lanes : List Lane) (s : State) := s.go fun d =>
  if d.rxState g = 5 then
    let d := d.setRx g { d.rxOf g with mseq := ((d.rxOf g).mseq + 1) % 65536 }
    d.markers g ((List.finRange 8).map fun l => lanes.contains l)
  else d

/-- ROLE_BLOCK_RX (R74); in compatibility REST it is a resumption with other than EXIT (R59). -/
def execRoleBlockRx (g : Grp) (bs : List LaneBlk) (s : State) := s.go fun d =>
  let r := d.takeBlocks g bs
  if r.2.rxState g = 5 then
    match Dev.agreed (Dev.validOf 0x66 bs r.1) with
    | some p => r.2.acceptRole g p
    | none => r.2
  else if r.2.rxState g = 7 then r.2.exitRx g bs r.1
  else r.2

/-- REST_BLOCK_RX (R58, R60): a loss condition in the same block takes effect; ignored unless the group is UP; in compatibility REST it is a resumption with other than EXIT (R59). -/
def execRestBlockRx (g : Grp) (bs : List LaneBlk) (s : State) := s.go fun d =>
  let r := d.takeBlocks g bs
  if r.2.rxState g = 5 && (Dev.validOf 0x78 bs r.1).length ≥ 5 then r.2.restRx g
  else if r.2.rxState g = 7 then r.2.exitRx g bs r.1
  else r.2

/-- EXIT_BLOCK_RX (R71). -/
def execExitBlockRx (g : Grp) (bs : List LaneBlk) (s : State) := s.go fun d =>
  let r := d.takeBlocks g bs
  r.2.exitRx g bs r.1

/-- CLOCK_LOS (R59, R61). The detector is powered down in OFF. -/
def execClockLos (g : Grp) (s : State) := s.go fun d =>
  if d.rxState g = 0 then d else ((d.put LNG.GRP_STAT_CLK_LOS true g).mark .rxClock g).clockLost g LNG.EVT_STAT_LOS

/-- CLOCK_LOL (R59, R61). Only the LOS detector runs in SLEEP. -/
def execClockLol (g : Grp) (s : State) := s.go fun d =>
  if d.rxState g ≤ 1 then d else ((d.put LNG.GRP_STAT_CLK_LOL true g).mark .rxClock g).clockLost g LNG.EVT_STAT_LOL

/-- CLOCK_LOS_CLEAR (R70): a native receiver in REST goes to ACQ. -/
def execClockLosClear (g : Grp) (s : State) := s.go fun d =>
  let d := (d.put LNG.GRP_STAT_CLK_LOS false g).mark .rxClock g
  if d.rxState g = 7 && !d.compat g then d.moveRx g 2 else d

/-- CLOCK_VALID (R58): LOS and LOL clear for 200 ns; a receiver for which either is newer waits. -/
def execClockValid (g : Grp) (s : State) := s.go fun d =>
  if d.lasted .rxClock g 200 then
    let d := (d.put LNG.GRP_STAT_CLK_LOS false g).put LNG.GRP_STAT_CLK_LOL false g
    if d.rxState g = 2 then d.moveRx g 3 else d
  else d

/-- BLOCK_LOCK (R58): lanes that have seen 64 consecutive valid headers; with all eight, ALIGN. -/
def execBlockLock (g : Grp) (lanes : BitVec 8) (s : State) := s.go fun d =>
  if d.rxState g = 3 then
    let d := d.set LNG.GRP_STAT_LANE_LOCK (d.get LNG.GRP_STAT_LANE_LOCK g ||| lanes.toNat) g
    if d.get LNG.GRP_STAT_LANE_LOCK g = 255 then d.moveRx g 4 else d
  else d

/-- RETRAIN_TIMER (R58): once 1 µs has passed since entry into DOWN. -/
def execRetrainTimer (g : Grp) (s : State) := s.go fun d =>
  if d.rxState g = 6 && d.lasted .rxDown g 1000 then
    if d.flag LNG.GRP_CTL_RETRAIN_AUTO g then d.moveRx g 2
    else d.setRx g { d.rxOf g with aged := true }
  else d

/-- RETRAIN_AUTO_WRITE (R58): read continuously while in DOWN. -/
def execRetrainAutoWrite (g : Grp) (v : Bool) (s : State) := s.go fun d =>
  let d := d.put LNG.GRP_CTL_RETRAIN_AUTO v g
  if v && d.rxState g == 6 && (d.rxOf g).aged then d.moveRx g 2 else d

/-- ELASTIC_SLIP (R57): counted in the slot's group; a V = 0 word is inserted, or the next one is deleted (log 94). -/
def execElasticSlip (slot : Slot) (ins : Bool) (s : State) := s.go fun d =>
  if slot.val < 1152 then
    let d := d.count LNG.CNT_SLIP_COUNT 1 (slot / 32)
    if ins then { d with inWords := mapPut d.inWords (slot.val, 0) [] [0] }.slotWords slot [0]
    else { d with slips := mapPut d.slips (slot.val, 0) 0 (mapGet d.slips (slot.val, 0) 0 + 1) }
  else d

/-- TRQ_TIMER (R66): after more than 100 µs in ACQ, LOCK and ALIGN. -/
def execTrqTimer (g : Grp) (s : State) := s.go fun d =>
  let st := d.rxState g
  if (st = 2 || st = 3 || st = 4) && d.lasted .rxAcquire g 100001 && d.flag LNG.GRP_CTL_TRQ_EN g then
    d.setTx g { d.txOf g with trq := true, changed := true }
  else d

/-- RX_REQ_WRITE (R59). -/
def execRxReqWrite (g : Grp) (v : BitVec 2) (s : State) := s.go fun d => d.rxReq g v.toNat

/-- TX_REQ_WRITE (R68). -/
def execTxReqWrite (g : Grp) (v : BitVec 2) (s : State) := s.go fun d => d.txReq g v.toNat

/-- TRAINING_STEP_END (R65), once the step has lasted its time. -/
def execTrainingStepEnd (g : Grp) (s : State) := s.go fun d => if d.txState g = 2 && d.stepOver g then d.seqNext g else d

/-- MARKER_PERIOD_START (R50, R51). -/
def execMarkerPeriodStart (g : Grp) (s : State) := s.go fun d =>
  if d.txState g = 3 then
    let d := d.toIndex g 0
    let t := d.txOf g
    (d.setTx g { t with mseq := (t.mseq + 1) % 65536 }).sendAlign g
  else d

/-- ROLE_INDEX (R50): indices 4,096, 8,192 and 12,288. -/
def execRoleIndex (g : Grp) (k : Fin 3) (s : State) := s.go fun d =>
  if d.txState g = 3 then (d.toIndex g (4096 * (k.val + 1))).sendRole g else d

/-- ROLE_WORD_CHANGE (R52). -/
def execRoleWordChange (s : State) := s.go fun d => d.roleWordChange

/-- ROLE_WORD_SEND (R52): at the next index that would otherwise carry IDLE. -/
def execRoleWordSend (g : Grp) (s : State) := s.go fun d =>
  if d.txState g = 3 && (d.txOf g).changed then
    match d.toIdle g with
    | none => d
    | some d => (d.setTx g { d.txOf g with changed := false }).sendRole g
  else d

/-- REST_SEND (R69). -/
def execRestSend (g : Grp) (s : State) := s.go fun d => d.restOut g

/-- LNG_CNT_CLR (Table 2.21). -/
def execLngCntClr (g : Grp) (s : State) := s.go fun d =>
  d.clear [LNG.CNT_HDR_COUNT, LNG.CNT_MRK_COUNT, LNG.CNT_CTL_COUNT, LNG.CNT_SLIP_COUNT, LNG.CNT_DOWN_COUNT] g

/-- FORCE_RETRAIN (Table 2.21). -/
def execForceRetrain (g : Grp) (s : State) := s.go fun d => d.forceRetrain g

/-- FORCE_TRAIN (Table 2.21): no effect but in RUN. -/
def execForceTrain (g : Grp) (s : State) := s.go fun d => if d.txState g = 3 then d.retrain g else d

end Sys2Proof.Machine
end

