-- ==== Sys2Proof/Machine/Ref.lean ====
section
/-!
DEFINITION. Sys2Proof/Machine/Ref.lean: Lodestar (chapter 13): candidates, measurement, qualification and selection, the Level 1
word, the state machine, the holdover model and the learn table; and the servo of the Chronometer (R321 to R324).
-/

namespace Sys2Proof.Machine

/-- The middle of a list of values, doubled: the median, or the sum of the two middle values (R341). -/
def median2 (vs : List Int) : Int :=
  let s := sortBy (fun a b => decide (a < b)) vs
  s.getD ((s.length - 1) / 2) 0 + s.getD (s.length / 2) 0

namespace Dev

def cand (d : Dev) (n : Nat) : CandUnit := mapGet d.cands (n, 0) CandUnit.init
def setCand (d : Dev) (n : Nat) (c : CandUnit) : Dev := { d with cands := mapPut d.cands (n, 0) CandUnit.init c }

/-- The KIND of an input; 3 is treated as 0 (R338). -/
def refKind (d : Dev) (n : Nat) : Nat := d.get (REF.REFIN_CFG_KIND n) % 3

/-- The other input of a pair. -/
def refPair (n : Nat) : Nat := if n % 2 = 0 then n + 1 else n - 1

/-- Is the pair of an input wrongly configured (R338)? -/
def pairBad (d : Dev) (n : Nat) : Bool :=
  (d.refKind n == 2 && d.refKind (refPair n) != 0) || (d.refKind (refPair n) == 2 && d.refKind n != 0)

/-- Is a candidate present, or qualified? -/
def candPresent (d : Dev) (n : Nat) : Bool := (d.get REF.STAT_PRESENT).testBit n
def candQual (d : Dev) (n : Nat) : Bool := (d.get REF.STAT_QUAL).testBit n

/-- The priority of a candidate (R344). -/
def candPri (d : Dev) (n : Nat) : Nat :=
  d.get ([REF.PRI_PRI_0, REF.PRI_PRI_1, REF.PRI_PRI_2, REF.PRI_PRI_3, REF.PRI_PRI_4, REF.PRI_PRI_5].getD n REF.PRI_PRI_0)

/-- A candidate is disqualified, with DISQ where it was qualified (R343). -/
def disqualify (d : Dev) (n : Nat) : Dev :=
  let was := d.candQual n
  let d := (d.putBit REF.STAT_QUAL n false).raiseIf was REF.EVT_STAT_DISQ
  d.setCand n { d.cand n with good := 0, since := 0 }

/-- A candidate becomes absent, and with that is never qualified (R337, R343). -/
def candLost (d : Dev) (n : Nat) : Dev :=
  let d := (d.putBit REF.STAT_PRESENT n false).disqualify n
  (d.setCand n { d.cand n with run := 0, bad := 0, hist := [] }).put (REF.MEAS_VALID n) false

/-- CFG_ERR follows the configuration; neither candidate of a bad pair is present (R338). -/
def refCfg (d : Dev) : Dev :=
  let bad := [0, 1, 2, 3].filter d.pairBad
  bad.foldl candLost (d.put REF.STAT_CFG_ERR (!bad.isEmpty))

/-- An edge of the pulse or PPS of a candidate (R337): it came on time, or not. -/
def candEdge (d : Dev) (n : Nat) (ok : Bool) (need : Nat) (t : Nat) : Dev :=
  let c := d.cand n
  if ok then
    let d := (d.setCand n { c with last := some t, run := min need (c.run + 1) }).mark .cand n
    if need ≤ c.run + 1 then d.putBit REF.STAT_PRESENT n true else d
  else
    let d := if c.last.isNone then d else d.candLost n
    (d.setCand n { d.cand n with last := some t, run := 0 }).mark .cand n

/-- An edge on REFIN_n (R337, R339): `t` is its instant at the ball in 2^-16 ns, and `cycles` the 10 MHz cycles since the PPS
edge before, where the input carries the PPS of its pair. -/
def refEdge (d : Dev) (n t cycles : Nat) : Dev :=
  let d := d.toggle 24 n 6
  if d.pairBad n then d
  else if d.refKind n = 1 then
    let p : Int := periodTu (d.cadRate (d.get (REF.REFIN_CFG_CAD n)))
    let ok := match (d.cand n).last with
      | none => false
      | some x => decide ((((t : Int) - x) * (6750 * 2 ^ 24) - p).natAbs ≤ 1000 * tuPerNs)
    d.candEdge n ok 16 t
  else if d.refKind (refPair n) = 2 then
    d.candEdge (refPair n) (decide (9999999 ≤ cycles) && decide (cycles ≤ 10000001)) 4 t
  else d

/-! ## The Level 1 word (R345) -/

/-- F clamped to ±100 ppm. -/
def clampF (f : Int) : Int := if f > 25600000 then 25600000 else if f < Neg.neg 25600000 then Neg.neg 25600000 else f

/-- M, in 2^-8 ppb. -/
def mdlM (d : Dev) : Int := toSigned 32 (d.get REF.MDL_M_M)

/-- The Level 1 word, where Lodestar computes it (Table 13.2); under a REFIN selection it is the PLL's. -/
def refF (d : Dev) : Dev :=
  let st := d.get REF.STAT_STATE
  let put (f : Int) : Dev := d.set REF.L1_F_F (ofSigned 32 (clampF f))
  if st = 3 then put (toSigned 32 (d.get REF.HOLD_F_F_AVG) - (d.mdlM - d.mEntry))
  else if st = 0 || 4 ≤ d.get REF.STAT_SEL then put (Neg.neg d.mdlM)
  else d

/-! ## States (R348, R349) -/

/-- PIN_STATE (Table 13.4). -/
def refPins (d : Dev) : Dev :=
  let st := d.get REF.STAT_STATE
  let hist := d.flag REF.STAT_HIST_OK
  d.set REF.STAT_PIN_STATE (if st = 2 then 1 else if st = 3 || (st = 1 && hist) then 2 else 0)

/-- The mean of F over the HIST seconds that end 1 s ago (Table 13.2). -/
def fAvg (d : Dev) : Int :=
  let fs := (d.fHist.drop 1).take (max 1 (d.get REF.TIME_CFG_HIST))
  if fs.isEmpty then toSigned 32 (d.get REF.L1_F_F) else fs.sum / fs.length

/-- Lodestar enters a state: its event, its fault sources, and what entry to HOLD or FREE changes (R345, R349). -/
def refState (d : Dev) (st : Nat) : Dev :=
  let old := d.get REF.STAT_STATE
  if old = st then d.refPins
  else
    let d := (d.set REF.STAT_STATE st).raise REF.EVT_STAT_STATE_CHG
    let d := (d.when (st == 2) (·.mark .lock 0)).when (st == 3) (·.mark .hold 0)
    let d := if old = 3 then d.dropFault (devFault 188) else d
    let d := if old = 0 then d.dropFault (devFault 189) else d
    let d :=
      if st = 3 then
        { d.set REF.HOLD_F_F_AVG (ofSigned 32 d.fAvg) with mEntry := d.mdlM }.raiseFault (devFault 188)
      else if st = 0 then
        (d.put REF.STAT_HIST_OK false).when (old == 3) fun d => d.raiseFault (devFault 189)
      else d
    let d := if st = 2 then d else { d with xSum := (0, 0) }
    d.refPins.refF

/-- ACQ goes to LOCK when the servo is LOCKED and, for a REFIN selection, L1_LOCK = 1 (Table 13.3). -/
def refEval (d : Dev) : Dev :=
  let s := d.get REF.STAT_SEL
  if d.get REF.STAT_STATE = 1 && s < 6 && d.flag TIM.SRV_STAT_LOCKED && (4 ≤ s || d.flag REF.STAT_L1_LOCK) then d.refState 2 else d

/-! ## The servo (R321 to R324) -/

/-- LOCKED falls, with SRV_UNLOCK where it held (R324). -/
def srvUnlock (d : Dev) : Dev :=
  ({ d with lockRun := 0 }.raiseIf (d.flag TIM.SRV_STAT_LOCKED) TIM.EVT_STAT_SRV_UNLOCK).put TIM.SRV_STAT_LOCKED false

/-- CLAMP follows y, with its event and fault (R322). -/
def srvClamp (d : Dev) (c : Bool) : Dev :=
  let was := d.flag TIM.SRV_STAT_CLAMP
  let d := (d.put TIM.SRV_STAT_CLAMP c).raiseIf (c && !was) TIM.EVT_STAT_SRV_CLAMP
  if c then d.raiseFault (devFault 191) else d.dropFault (devFault 191)

/-- A sample processed by R322, and LOCKED judged on it (R324). -/
def srvProcess (d : Dev) (e : Int) : Dev :=
  let lim : Int := (min 1000000 (d.get TIM.SRV_LIM_LIM) * 256 : Nat)
  let cl (v : Int) : Int := if v > lim then lim else if v < Neg.neg lim then Neg.neg lim else v
  let p := d.get TIM.SRV_GAIN_KP * e / 2 ^ 16
  let i := cl (toSigned 32 (d.get TIM.SRV_I_I) + d.get TIM.SRV_GAIN_KI * e / 2 ^ 24)
  let y := cl (p + i)
  let d := (d.set TIM.SRV_I_I (ofSigned 32 i)).set TIM.SRV_Y_Y (ofSigned 32 y)
  let d := (d.srvClamp (y.natAbs == lim.natAbs)).setIncr (d.incrNom - d.incrNom * y / (1000000000 * 256))
  let d := d.logAdd 1743 1
  if e.natAbs ≤ d.get TIM.SRV_LOCK_THR_THR * 65536 then
    let n := d.lockRun + 1
    let rise := decide (max 1 (d.get TIM.SRV_CFG_LOCK_N) ≤ n) && !d.flag TIM.SRV_STAT_LOCKED
    { (d.raiseIf rise TIM.EVT_STAT_SRV_LOCK).put TIM.SRV_STAT_LOCKED (rise || d.flag TIM.SRV_STAT_LOCKED) with
      lockRun := min 15 n }
  else d.srvUnlock

/-- The waiting sample is processed (R322, R323, R347): a switch step, a servo step, or the loop. -/
def srvSample (d : Dev) : Dev :=
  match d.sample with
  | none => d
  | some (src, e) =>
    let d := { d with sample := none }
    if src != d.get TIM.SRV_STAT_INPUT then (d.count TIM.CNT_SRV_IGN_COUNT).raise TIM.EVT_STAT_SRV_IGN
    else if d.swPend then ({ d with swPend := false }.stepBy (Neg.neg e)).raise REF.EVT_STAT_SW_STEP
    else if d.flag TIM.SRV_CFG_STEP_EN && decide (d.get TIM.SRV_STEP_THR_THR * 65536 < e.natAbs) then
      (d.stepBy (Neg.neg e)).srvUnlock
    else (d.srvProcess e).refEval

/-! ## Selection (R344) -/

/-- Does candidate `a` come before `b`: a higher priority, or the lower index between equals? -/
def candBefore (d : Dev) (a b : Nat) : Bool :=
  decide (d.candPri a < d.candPri b) || (d.candPri a == d.candPri b && decide (a < b))

/-- The first of a list of candidates by priority. -/
def candBest (d : Dev) (cs : List Nat) : Option Nat :=
  cs.foldl (fun b c => match b with | none => some c | some x => if d.candBefore c x then some c else some x) none

/-- The candidate to select (R344). -/
def refPick (d : Dev) : Option Nat :=
  let cur := d.get REF.STAT_SEL
  let ok := [0, 1, 2, 3, 4, 5].filter fun n => d.candQual n && d.candPri n != 0
  if !d.flag REF.CTL_EN then none
  else if d.flag REF.CTL_FORCE_EN then (if ok.contains (d.get REF.CTL_FORCE_SEL) then some (d.get REF.CTL_FORCE_SEL) else none)
  else if ok.contains cur then
    if d.flag REF.CTL_REVERT then
      let better := ok.filter fun n => decide (d.candPri n < d.candPri cur) && decide (d.get REF.TIME_CFG_WTR ≤ (d.cand n).since)
      some ((d.candBest better).getD cur)
    else some cur
  else d.candBest ok

/-- The servo input that a selection gives (Table 12.1). -/
def refInput (d : Dev) : Option Nat → Nat
  | none => 0
  | some n => if n = 4 then 1 else if n = 5 then 4 else if d.refKind n = 2 then 2 else 3

/-- The selection is evaluated again; a change steps the state machine and the servo's input (R344, R346 to R348). -/
def refSelect (d : Dev) : Dev :=
  let new := d.refPick
  let code := new.getD 7
  if code = d.get REF.STAT_SEL then (if d.flag REF.CTL_EN then d else d.refState 0)
  else
    let d := (((d.set REF.STAT_SEL code).raise REF.EVT_STAT_SEL_CHG).put REF.STAT_L1_LOCK false).mark .select 0
    let moved := d.refInput new != d.get TIM.SRV_STAT_INPUT
    let d := { (d.set TIM.SRV_STAT_INPUT (d.refInput new)).when moved srvUnlock with swPend := new.isSome }
    let st := d.get REF.STAT_STATE
    match new with
    | some _ => (d.refState 1).refF
    | none =>
      if !d.flag REF.CTL_EN then d.refState 0
      else if st = 2 then d.refState 3
      else if st = 1 then d.refState (if d.flag REF.STAT_HIST_OK then 3 else 0)
      else d

/-! ## Measurement (R340 to R343) -/

/-- v of a candidate at this measurement, in 2^-8 ppb (R340): `y` gives what the least-squares fit yields for an input. -/
def candV (d : Dev) (y : List (Refin × Int)) (n : Nat) : Option Int :=
  if !d.candPresent n then none
  else if n < 4 then ((y.find? fun x => x.1.val == n).map fun x => x.2 + d.mdlM)
  else if d.get REF.STAT_SEL = n then some (d.mdlM + toSigned 32 (d.get REF.L1_F_F) - toSigned 32 (d.get TIM.SRV_Y_Y))
  else none

/-- Qualification after a measurement (R343). -/
def qualify (d : Dev) (n : Nat) (viol : Bool) : Dev :=
  let c := d.cand n
  if viol then
    let d := d.setCand n { c with good := 0, bad := c.bad + 1 }
    if d.candQual n && decide (d.get REF.TIME_CFG_PERSIST ≤ c.bad * 10) then d.disqualify n else d
  else
    let good := c.good + 1
    if d.candQual n then d.setCand n { c with good := good, bad := 0, since := c.since + 1 }
    else if d.get REF.TIME_CFG_QUAL_T < good then
      ((d.putBit REF.STAT_QUAL n true).raise REF.EVT_STAT_QUAL).setCand n { c with good := good, bad := 0, since := 0 }
    else d.setCand n { c with good := good, bad := 0 }

/-- One candidate measured against the others' values (R340 to R343). -/
def measure (d : Dev) (vs : List (Nat × Int)) (n : Nat) : Dev :=
  match vs.find? fun x => x.1 == n with
  | none =>
    let d := (d.put (REF.MEAS_VALID n) false).clear [REF.MEAS_WIN_VIOL n, REF.MEAS_DRIFT_VIOL n]
    if d.candPresent n then d.qualify n false else d
  | some (_, v) =>
    let ppb := (v + 128) / 256
    let c := d.cand n
    let c2 : Int := if n < 4 then median2 (0 :: ((vs.filter fun x => x.1 != n && decide (x.1 < 4)).map (·.2))) else 0
    let win := decide ((2 * v - c2).natAbs > max 1 (d.get REF.QUAL_CFG_WINDOW) * 10 * 512)
    let dr : Int := match c.hist[9]? with | none => 0 | some o => (v - o) / 2560
    let drift := match c.hist[9]? with
      | none => false
      | some o => decide ((v - o).natAbs > max 1 (d.get REF.QUAL_CFG_DRIFT) * 10 * 2560)
    let d := ((d.set (REF.MEAS_V n) (ofSigned 24 (satSigned 24 (10 * ppb)))).put (REF.MEAS_VALID n) true).set (REF.DRIFT_D n)
      (ofSigned 16 (satSigned 16 dr))
    let d := (d.put (REF.MEAS_WIN_VIOL n) win).put (REF.MEAS_DRIFT_VIOL n) drift
    (d.setCand n { c with hist := (v :: c.hist).take 10 }).qualify n (win || drift)

/-- A measurement, once per second (R340 to R345): the PLL's output under a REFIN selection, each candidate, the history of F
and the oscillator's offset for the learn table. -/
def refMeasure (d : Dev) (y : List (Refin × Int)) (pll : Int) : Dev :=
  if d.flag REF.CTL_EN then
    let st := d.get REF.STAT_STATE
    let d := if (st = 1 || st = 2) && d.get REF.STAT_SEL < 4 then d.set REF.L1_F_F (ofSigned 32 (clampF pll)) else d
    let f := toSigned 32 (d.get REF.L1_F_F)
    let x := toSigned 32 (d.get TIM.SRV_Y_Y) - f
    let d := { d with fHist := (f :: d.fHist).take 257, xSum := if st = 2 then (d.xSum.1 + x, d.xSum.2 + 1) else (0, 0) }
    let vs := [0, 1, 2, 3, 4, 5].filterMap fun n => (d.candV y n).map fun v => (n, v)
    [0, 1, 2, 3, 4, 5].foldl (fun d n => d.measure vs n) d
  else d

/-! ## The holdover model (R350, R351) -/

/-- The prediction M, in 2^-8 ppb, at a temperature. -/
def mdlAt (d : Dev) (t : Int) : Int :=
  let g (f : Fld) : Int := toSigned 32 (d.get f)
  let dt := t - toSigned 16 (d.get REF.MDL_T0_T0)
  let sum := g REF.MDL_C0_C0 * 2 ^ 40 + g REF.MDL_C1_C1 * dt * 2 ^ 24 + g REF.MDL_C2_C2 * (dt * dt) * 2 ^ 12 +
    g REF.MDL_C3_C3 * (dt * dt * dt) + g REF.MDL_AGE_AGE * d.get REF.AGE_DAYS_DAYS * 2 ^ 32
  satSigned 32 (sum / 2 ^ 40)

/-- The model is computed from a temperature, or from the last good one (R350). -/
def mdlUpdate (d : Dev) (temp : BitVec 16) : Dev :=
  let t := temp.toInt
  let ok := decide (Neg.neg 5120 ≤ t) && decide (t ≤ 26880)
  let d := (d.set REF.TH_STAT_T temp.toNat).put REF.STAT_TH_OK ok
  let d := if ok then { d with goodT := t }.dropFault (devFault 190)
    else (d.raise REF.EVT_STAT_TH_FAULT).raiseFault (devFault 190)
  (d.set REF.MDL_M_M (if d.flag REF.CTL_COMP_EN then ofSigned 32 (d.mdlAt d.goodT) else 0)).refF

/-- COUNT of LRN_IDX follows the selected bin. -/
def showLrn (d : Dev) : Dev := d.set REF.LRN_IDX_COUNT (mapGet d.learn (d.get REF.LRN_IDX_IDX, 0) (0, 0)).1

/-- The offset of a minute is recorded in its temperature's bin (R351). -/
def learnRecord (d : Dev) : Dev :=
  if d.flag REF.STAT_TH_OK && d.flag REF.STAT_HIST_OK && d.get REF.STAT_STATE = 2 && 0 < d.xSum.2 then
    let x := d.xSum.1 / d.xSum.2
    let bin := (toSigned 16 (d.get REF.TH_STAT_T) / 256 + 20).toNat
    let b := mapGet d.learn (bin, 0) (0, 0)
    let b := if b.1 < 65535 then (b.1 + 1, b.2 + x) else b
    { d with xSum := (0, 0), learn := mapPut d.learn (bin, 0) (0, 0) b }.showLrn
  else { d with xSum := (0, 0) }

/-- MEAN of the selected bin (R351). -/
def lrnMean (d : Dev) : Int :=
  let b := mapGet d.learn (d.get REF.LRN_IDX_IDX, 0) (0, 0)
  if b.1 = 0 then 0 else b.2 / b.1

/-- A read of LRN_DATA answers the bin's mean and advances IDX (Table 13.10). -/
def lrnRead (d : Dev) (m : Master) : Dev :=
  let v : Word := BitVec.ofInt 32 d.lrnMean
  let d := { d with answer := mapPut d.answer (m.code, 0) (0, false) (v, false) }
  (d.set REF.LRN_IDX_IDX (d.get REF.LRN_IDX_IDX + 1)).showLrn

end Dev

/-! ## Meanings -/

/-- SERVO_SAMPLE (R322, R323, R347). -/
def execServoSample (s : State) := s.go fun d => d.srvSample

/-- LODESTAR_ENABLE (R349). -/
def execLodestarEnable (en : Bool) (s : State) := s.go fun d => (d.put REF.CTL_EN en).refSelect

/-- REFIN_EDGE (R337, R339). -/
def execRefinEdge (n : Refin) (t : Nat) (cycles : Nat) (s : State) := s.go fun d => d.refEdge n t cycles

/-- REFIN_LOSS (R337): pulses or edges of candidate n are missing; a frame pulse once two periods have passed since the last. -/
def execRefinLoss (n : Refin) (s : State) := s.go fun d =>
  if d.refKind n = 1 && !d.lasted .cand n (2 * periodTu (d.cadRate (d.get (REF.REFIN_CFG_CAD n))) / tuPerNs) then d
  else (d.candLost n).setCand n CandUnit.init

/-- PTP_KEEP (Table 13.1). -/
def execPtpKeep (s : State) := s.go fun d => (d.putBit REF.STAT_PRESENT 4 true).mark .cand 4

/-- PTP_KEEP_TIMEOUT (Table 13.1): 1.5 s without PTP_KEEP. -/
def execPtpKeepTimeout (s : State) := s.go fun d => if d.lasted .cand 4 1500000000 then d.candLost 4 else d

/-- REQUAL (R343): qualification starts again for every candidate; the selected one stays qualified. -/
def execRequal (s : State) := s.go fun d =>
  [0, 1, 2, 3, 4, 5].foldl (fun d n =>
    if d.get REF.STAT_SEL = n then d.setCand n { d.cand n with good := 0 } else d.disqualify n) d

/-- LRN_CLR (R351). -/
def execLrnClr (s : State) := s.go fun d => { d with learn := [] }.showLrn

/-- LRN_DATA_READ (R351). -/
def execLrnDataRead (m : Master) (s : State) := s.go fun d => d.lrnRead m

/-- LODESTAR_MEASUREMENT (R340 to R343): `y` holds the fractional frequency of each input against XO_IN, in 2^-8 ppb, and
`pll` the output of the Level 1 PLL. -/
def execLodestarMeasurement (y : List (Refin × Int)) (pll : Int) (s : State) := s.go fun d => d.refMeasure y pll

/-- WAIT_TO_RESTORE (R344): a candidate of higher priority has been qualified for WTR seconds; the selection is evaluated
again. -/
def execWaitToRestore (n : Cand) (s : State) := s.go fun d => if d.candQual n then d.refSelect else d

/-- REFERENCE_SELECTION (R344). -/
def execReferenceSelection (s : State) := s.go fun d => d.refSelect

/-- L1_LOCK (R346): the PLL's phase error has stayed within 10 ns for 1 s. -/
def execL1Lock (s : State) := s.go fun d =>
  if d.flag REF.CTL_EN && d.get REF.STAT_SEL < 4 && d.lasted .select 0 1000000000 then (d.put REF.STAT_L1_LOCK true).refEval else d

/-- HIST_OK (R349): HIST seconds of LOCK without interruption have passed. -/
def execHistOk (s : State) := s.go fun d =>
  if d.get REF.STAT_STATE = 2 && d.lasted .lock 0 (d.get REF.TIME_CFG_HIST * 1000000000) then (d.put REF.STAT_HIST_OK true).refPins
  else d

/-- HOLD_EXPIRE (Table 13.3): after HOLD_MAX hours in HOLD. -/
def execHoldExpire (s : State) := s.go fun d =>
  let max := d.get REF.L2_CFG_HOLD_MAX
  if d.get REF.STAT_STATE = 3 && max != 0 && d.lasted .hold 0 (max * 3600000000000) then (d.raise REF.EVT_STAT_HOLD_EXPIRE).refState 0 else d

/-- HOLDOVER_MODEL_UPDATE (R350), at the temperature of TH_IN in 1/256 °C. -/
def execHoldoverModelUpdate (temp : BitVec 16) (s : State) := s.go fun d => d.mdlUpdate temp

/-- LEARN_RECORD (R351). -/
def execLearnRecord (s : State) := s.go fun d => d.learnRecord

/-- AGE_DAY (R350): 86,400 s after the last count. -/
def execAgeDay (s : State) := s.go fun d =>
  if d.lasted .age 0 86400000000000 then (d.set REF.AGE_DAYS_DAYS (d.get REF.AGE_DAYS_DAYS + 1)).mark .age 0 else d

end Sys2Proof.Machine
end

