-- ==== Sys2Proof/Machine/Consort.lean ====
section
/-!
DEFINITION. Sys2Proof/Machine/Consort.lean: Consort (chapter 14): units and heartbeats, pairing and roles, partner loss, the
journal, digests, readiness, the copy of regions, and handover.
-/

namespace Sys2Proof.Machine

/-- A field of a unit's payload, little-endian. -/
def payNat (p : List Byte) (a n : Nat) : Nat := leNat ((p.drop a).take n)

/-- A unit of 128 bytes (Table 14.1). -/
def unitBytes (type : Nat) (p : List Byte) : List Byte :=
  let body := [BitVec.ofNat 8 type, BitVec.ofNat 8 p.length, 0, 0] ++ p ++ List.replicate (120 - p.length) 0
  body ++ leBytes 4 (crc32 body)

/-- Does a LEN suit its type (Table 14.2)? -/
def lenOk (type len : Nat) : Bool :=
  match type with
  | 0x01 => len == 52
  | 0x02 => len == 40 || len == 80 || len == 120
  | 0x03 => len % 16 == 0 && decide (16 ≤ len) && decide (len ≤ 112)
  | 0x10 => len == 1
  | 0x11 => len == 20
  | 0x12 => len == 10
  | 0x13 => len == 1
  | 0x20 => decide (12 ≤ len) && decide (len ≤ 120)
  | _ => false

/-- The type and payload of a received unit; none where it is discarded (R357). -/
def unitParse (bs : List Byte) : Option (Nat × List Byte) :=
  let type := payNat bs 0 1
  let len := payNat bs 1 1
  if bs.length = 128 && crc32 (bs.take 124) == payNat bs 124 4 && lenOk type len then some (type, (bs.drop 4).take len) else none

/-- A Chronometer time in 2^-16 ns as SEC, NS and FRAC (Table 14.3), and back. -/
def stampBytes (t : Nat) : List Byte := leBytes 6 (t / 65536 / 1000000000) ++ leBytes 4 (t / 65536 % 1000000000) ++ leBytes 2 t
def stampOf (p : List Byte) (a : Nat) : Nat := (payNat p a 6 * 1000000000 + payNat p (a + 6) 4) * 65536 + payNat p (a + 10) 2

/-- The order in which waiting units are sent (R356). -/
def unitRank (type : Nat) : Nat := if type ≤ 3 then type else if type < 0x20 then 4 else 5

/-- The first waiting unit in sending order, with the units that stay. -/
def unitNext (us : List (Nat × List Byte)) : Option ((Nat × List Byte) × List (Nat × List Byte)) :=
  match ([1, 2, 3, 4, 5].filterMap fun r => us.find? fun u => unitRank u.1 == r).head? with
  | none => none
  | some u => some (u, us.erase u)

/-- The bytes of a region's image from the pieces received; none while one is missing (R370). -/
def imageOf (data : List (Nat × List Byte)) (size : Nat) : Option (List Byte) :=
  let img := data.foldl (fun (m : Memory) x => memWrites 0 m x.1 x.2) []
  let covered := data.foldl (fun (n : Nat) x => if x.1 ≤ n then max n (x.1 + x.2.length) else n) 0
  if size ≤ covered then some (memReads 0 img 0 size) else none

namespace Dev

def setCon (d : Dev) (c : ConUnit) : Dev := { d with con := c }

/-- A unit waits to be sent. -/
def unitQueue (d : Dev) (type : Nat) (p : List Byte) : Dev := { d with units := d.units ++ [(type, p)] }

/-- The device's TWIN_ID strap. -/
def twinId (d : Dev) : Nat := d.get NVM.BOOT_STAT_TWIN_ID

/-- Is the Consort state one of a list? -/
def conIn (d : Dev) (l : List Nat) : Bool := l.contains (d.get CON.STAT_STATE)

/-- ROLE follows the state (Table 14.8): 0 NONE, 1 ACTIVE, 2 STANDBY (R73). -/
def conRole (d : Dev) : Dev :=
  let st := d.get CON.STAT_STATE
  d.set CON.STAT_ROLE (if st = 4 || st = 5 || (st = 0 && d.flag CON.CTL_SOLO) then 1 else if st = 2 || st = 3 then 2 else 0)

/-- The device pulls TWIN_ROLE low (R354). -/
def rolePull (d : Dev) : Bool := d.conIn [4, 5] || (d.get CON.STAT_STATE == 0 && d.flag CON.CTL_SOLO)

/-- The levels at the twin pins (R354): whether the partner pulls TWIN_ROLE, and its HEALTHY. -/
def twinPins (d : Dev) (pulled healthy : Bool) : Dev :=
  (d.put CON.STAT_TWIN_ROLE_IN (!(pulled || d.rolePull))).put CON.STAT_TWIN_HEALTHY_IN healthy

/-! ## Readiness (R368) -/

/-- The (UNIT, CAD) of a running output slot that its unit's digest includes (R366). -/
def digPair (d : Dev) (o : Nat) : Option (Nat × Nat) :=
  let u := if o < 1152 then o / 32 else 36 + (o - 1152) / 32
  if (d.get (CON.DIG_EXCL_EXCL u)).testBit (o % 32) then none else some (u, d.outCad o)

/-- The output slots that run. -/
def outsRunning (d : Dev) : List Nat :=
  ((d.flagSet SLP.OUT_CFG_OUT_EN).filter (· < 1536)) ++
    (d.flagSet PLT.ENG_STAT_RUN).flatMap fun e => (List.range 4).map fun k => 1536 + 4 * e + k

/-- Do the conditions of READY hold (R368; after the device's own yield, R373)? -/
def conIsReady (d : Dev) : Bool :=
  let pairs := d.outsRunning.filterMap d.digPair
  let run (p : Nat × Nat) : DigRun := mapGet d.digRuns p DigRun.init
  d.get CON.STAT_STATE == 3 && !d.con.gap && pairs.all (fun p => !(run p).bad) &&
    (d.con.keep || (d.get CON.STAT_REG_DONE &&& d.get CON.COPY_REGIONS == d.get CON.COPY_REGIONS &&
      pairs.all (fun p => (run p).good)))

/-- READY follows its conditions, with its events (R368). -/
def conReady (d : Dev) : Dev :=
  let was := d.flag CON.STAT_READY
  let is := d.conIsReady
  ((d.put CON.STAT_READY is).raiseIf (is && !was) CON.EVT_STAT_READY_UP).raiseIf (was && !is) CON.EVT_STAT_READY_DOWN

/-- A state is entered (Table 14.7), with its role and readiness. -/
def conState (d : Dev) (st : Nat) : Dev :=
  let d := (d.set CON.STAT_STATE st).conRole
  let d := d.when (st == 1) (·.mark .pair 0)
  let d := if st = 3 then d else d.setCon { d.con with keep := false }
  let d := if st = 5 then d.setCon { d.con with entered := d.timeTu } else d
  d.conReady

/-- The handover interval begins or ends (R372). -/
def setHandover (d : Dev) (h : Option Int) : Dev := { d with handover := h }.put CON.STAT_DEFER h.isSome

/-- The uncommitted shadow is discarded and no region is being copied (R370, R371). -/
def copyDrop (d : Dev) : Dev :=
  (d.setCon { d.con with shadow := CopyShadow.init, heldRecs := [] }).set CON.COPY_CUR 15

/-- A copy in progress is aborted (R371). -/
def copyAbort (d : Dev) : Dev :=
  if d.get CON.COPY_CUR = 15 then d else ((d.copyDrop).count CON.CNT_COPY_ABORT_COUNT).raise CON.EVT_STAT_COPY_ABORT

/-- Consort goes to OFF (R360). -/
def conOff (d : Dev) : Dev :=
  let d := (d.copyDrop.setHandover none).clear [CON.STAT_PAIRED, CON.STAT_HB_OK, CON.STAT_REG_DONE]
  ({ d with con := { ConUnit.init with hseqTx := d.con.hseqTx, snapSeq := d.con.snapSeq }, units := [], digRuns := [], crcs := [],
            roleHold := false }).conState 0

/-- Entry into TAKEOVER at an instant t_e (R372). -/
def takeover (d : Dev) (te : Int) : Dev :=
  let d := (d.copyAbort.conState 4).setHandover (some (te + nsTu 500000))
  let d := d.setCon { d.con with entered := te, yieldRx := none }
  (d.count CON.CNT_TAKEOVER_COUNT).raise CON.EVT_STAT_TAKEOVER

/-! ## The copy of regions (R369 to R371) -/

/-- The next region of COPY.REGIONS is requested; once all are committed, JOIN ends in STANDBY (R360, R370). -/
def copyNext (d : Dev) : Dev :=
  let todo := (List.range 9).filter fun r => (d.get CON.COPY_REGIONS).testBit r && !(d.get CON.STAT_REG_DONE).testBit r
  match todo with
  | [] => (d.copyDrop).conState 3
  | r :: _ => ((d.copyDrop).set CON.COPY_CUR r).unitQueue 0x10 [BitVec.ofNat 8 r]

/-- The region being copied is requested again (R370). -/
def copyAgain (d : Dev) : Dev :=
  let r := d.get CON.COPY_CUR
  ((d.copyDrop).set CON.COPY_CUR r).unitQueue 0x10 [BitVec.ofNat 8 r]

/-- Entry into JOIN. -/
def joinStart (d : Dev) : Dev := ((d.conState 2).set CON.STAT_REG_DONE 0).conReady.copyNext

/-! ## Units -/

/-- Group 36 transmits in RUN. -/
def twinRuns (d : Dev) : Bool := d.txState 36 == 3

/-- CTRL of a heartbeat (Table 14.3). -/
def conCtrl (d : Dev) : Nat := if d.flag CON.STAT_CTRL then 1 else if d.actRestart then 2 else 0

/-- A heartbeat is formed (R358, Table 14.3); TX is filled in as it is sent. -/
def heartbeat (d : Dev) : Dev :=
  if d.flag CON.CTL_EN && d.twinRuns then
    let n := (d.con.hseqTx + 1) % 2 ^ 32
    let p := leBytes 4 n ++
      [BitVec.ofNat 8 (d.get CON.STAT_STATE + 8 * d.get CON.STAT_READY + 16 * d.conCtrl + 64 * d.get FLT.STAT_HEALTHY +
        128 * d.twinId), BitVec.ofNat 8 (d.get CON.STAT_ROLE + 4 * d.get REF.STAT_STATE)] ++
      leBytes 2 (d.get GLB.SYSID_SYSID) ++ leBytes 4 (d.get CON.CHART_ID_ID) ++ leBytes 4 (d.get CON.JSEQ_TX_JSEQ) ++
      stampBytes 0 ++ stampBytes d.con.echo.1 ++ stampBytes d.con.echo.2
    (d.setCon { d.con with hseqTx := n }).unitQueue 0x01 p
  else d

/-- One waiting unit is sent at a data index of group 36, with what the Logbook counts (R356, Tables 20.1 and 20.2). -/
def unitSend (d : Dev) : Dev :=
  if d.twinRuns then
    match unitNext d.units with
    | none => d
    | some (u, rest) =>
      let now := d.time / 2 ^ 24
      let p := if u.1 = 1 then u.2.take 16 ++ stampBytes now ++ u.2.drop 28 else u.2
      let d := { d with units := rest }.emit (.unit (unitBytes u.1 p))
      let d := (((d.logAdd 1751 1).logAdd 73 8).bwAdd 73 128).bwAdd 269 128
      let d := if u.1 = 2 then d.logAdd 1754 (p.length / 40) else if u.1 = 3 then d.logAdd 1755 (p.length / 16) else d
      if u.1 = 0x11 then d.setCon { d.con with serving := none } else d
  else d

/-- A unit arrives: its payload where it is of the type and Consort runs; a bad one is counted (R357). -/
def unitTake (d : Dev) (type : Nat) (bs : List Byte) : Option (List Byte) × Dev :=
  let d := d.bwAdd 268 128
  if !d.flag CON.CTL_EN then (none, d)
  else
    match unitParse bs with
    | none => (none, d.count CON.CNT_UNIT_ERR_COUNT)
    | some (t, p) => (if t = type then some p else none, d.logAdd 1752 1)

/-- Is the partner that a heartbeat describes compatible (R355)? -/
def hbCompat (d : Dev) (p : List Byte) : Bool :=
  payNat p 6 2 == d.get GLB.SYSID_SYSID && payNat p 4 1 / 128 != d.twinId && payNat p 8 4 == d.get CON.CHART_ID_ID

/-- Heartbeat periods of 10 µs since a timed condition began, to the nearest (R358). -/
def beatsSince (d : Dev) (t : Timer) : Nat := (d.cc - mapGet d.marks (t.code, 0) 0 + 4000) / 8000

/-- A valid heartbeat starts the times that wait for one afresh, and counts the periods missed before it (R360, R362, R363). -/
def hbTimes (d : Dev) (ctrl : Nat) : Dev :=
  let d := d.when (d.flag CON.STAT_HB_OK) (·.count CON.CNT_HB_MISS_COUNT (d.beatsSince .beat - 1))
  let d := d.when (!d.flag CON.STAT_HB_OK || d.get CON.STAT_PTR_CTRL != ctrl) (·.mark .ctrl 0)
  (d.mark .beat 0).mark .pair 0

/-- A valid heartbeat updates the partner's status and the time offset (R358, R359). -/
def hbStatus (d : Dev) (p : List Byte) (t4 : Nat) : Dev :=
  let flags := payNat p 4 1
  let d := d.hbTimes (flags / 16 % 4)
  let d := (((d.logAdd 1753 1).set CON.PTR_ID_SYSID (payNat p 6 2)).set CON.PTR_ID_TWIN_ID (flags / 128)).set CON.PTR_ID_STATE flags
  let d := ((d.set CON.PTR_CHART_ID_ID (payNat p 8 4)).set CON.STAT_PTR_CTRL (flags / 16)).put CON.STAT_PTR_READY (flags.testBit 3)
  let d := (d.set CON.STAT_PTR_ROLE (payNat p 5 1)).put CON.STAT_HB_OK true
  let c := d.con
  let t1 := stampOf p 28
  let e : Int := (((t4 : Int) - stampOf p 16) - ((stampOf p 40 : Int) - t1)) / 2
  d.setCon { c with lstate := payNat p 5 1 / 4 % 4, echo := (stampOf p 16, t4),
                    offsets := if t1 = 0 then c.offsets else (c.offsets.1 + e, c.offsets.2 + 1) }

/-- The device goes to STANDBY with READY = 0 (R374, R375): READY waits until region SWITCH has been copied again, as after a
journal gap. -/
def conStale (d : Dev) : Dev := (d.setCon { d.con with gap := true }).conState 3

/-- What a valid heartbeat does to the state (Table 14.7, R374, R375). -/
def hbJudge (d : Dev) (p : List Byte) : Dev :=
  let st := payNat p 4 1 % 8
  let active := payNat p 5 1 % 4 == 1
  if d.conIn [1] then
    let d := d.put CON.STAT_PAIRED true
    if st = 1 then (if d.twinId = 0 then d.conState 5 else d.joinStart)
    else if st = 4 || st = 5 then d.joinStart
    else d
  else if d.conIn [5] && active && d.conCtrl != 1 then d.conStale.raise CON.EVT_STAT_DEMOTED
  else if d.conIn [4, 5] && active && decide (d.con.entered ≤ nsTu (stampOf p 16) / 65536) then
    let d := (d.raise CON.EVT_STAT_DUAL_ACT).pulseFault (devFault 206)
    if d.twinId = 1 then (d.setHandover none).conStale else d
  else d

/-- A heartbeat arrives at Chronometer time `t4`, in 2^-16 ns (R358 to R361, R374, R375). -/
def hbRx (d : Dev) (bs : List Byte) (t4 : Nat) : Dev :=
  let r := d.unitTake 1 bs
  let d := r.2
  match r.1 with
  | none => d
  | some p =>
    let n := payNat p 0 4
    let newer := match d.con.hseqRx with
      | none => true
      | some q => decide (1 ≤ (n + 2 ^ 32 - q) % 2 ^ 32) && decide ((n + 2 ^ 32 - q) % 2 ^ 32 < 2 ^ 31)
    if !newer then d
    else
      let d := d.setCon { d.con with hseqRx := some n }
      if d.hbCompat p then (d.hbStatus p t4).hbJudge p
      else d.raiseIf (d.conIn [1]) CON.EVT_STAT_PAIR_ERR

/-- The mean offset of the interval goes to the servo; the candidate TWIN is present while samples arrive and the partner is
in LOCK (R359, Table 13.1). -/
def twinSample (d : Dev) : Dev :=
  let d := d.mark .twinTime 0
  let o := d.con.offsets
  let here := decide (0 < o.2) && d.con.lstate == 2
  let d := d.setCon { d.con with offsets := (0, 0) }
  let d := if here then d.putBit REF.STAT_PRESENT 5 true else if d.candPresent 5 then d.candLost 5 else d
  if 0 < o.2 then d.pushSample 4 (o.1 / o.2) else d

/-! ## Loss of the partner (R360 to R363) -/

/-- No valid heartbeat for PAIR_TMO: the device waits twice as long with TWIN_ID 1 to become ACTIVE (R360), and PAIR_TMO to find the link
at fault (R361). -/
def conPairTimeout (d : Dev) : Dev :=
  let t := max 1 (d.get CON.CTL_PAIR_TMO) * 10000000
  if d.conIn [1] then
    if d.flag CON.STAT_TWIN_ROLE_IN then d.when (d.lasted .pair 0 (t * (1 + d.twinId))) (·.conState 5)
    else d.raiseIf (d.flag CON.STAT_TWIN_HEALTHY_IN && d.lasted .pair 0 t) CON.EVT_STAT_LINK_FAULT
  else d

/-- No valid heartbeat has arrived for 40 µs (R362). -/
def beatLost (d : Dev) : Bool := d.lasted .beat 0 40000

/-- The group 36 receiver is not in UP, and the partner is not healthy (R362). -/
def linkLost (d : Dev) : Bool := d.rxState 36 != 5 && !d.flag CON.STAT_TWIN_HEALTHY_IN

/-- HB_OK falls, and the heartbeat periods missed so far are counted (R362, Table 14.13). -/
def beatMissed (d : Dev) : Dev :=
  if d.beatLost then
    (((d.put CON.STAT_HB_OK false).count CON.CNT_HB_MISS_COUNT (min (d.beatsSince .beat) (d.beatsSince .missed)))).mark .missed 0
  else d

/-- Heartbeats are missing, or the twin link is down (R362, R363, R371). The loss is reported once: where the partner has been paired or
heard since the last one (DEDUCED, log 111). -/
def conLoss (d : Dev) : Dev :=
  let lost := (d.beatLost && (d.flag CON.STAT_TWIN_ROLE_IN || !d.flag CON.STAT_TWIN_HEALTHY_IN || d.conIn [4, 5])) || d.linkLost
  let heard := d.flag CON.STAT_PAIRED || d.flag CON.STAT_HB_OK
  let d := d.beatMissed
  if d.conIn [0, 1] then d
  else if lost then
    let d := (d.put CON.STAT_PAIRED false).when heard fun d => (d.raise CON.EVT_STAT_PTR_LOST).pulseFault (devFault 204)
    let auto := d.flag CON.CTL_AUTO_TAKE
    if d.conIn [2] then
      if auto && d.flag CON.CTL_AUTO_UNREADY then d.takeover d.timeTu else d.copyAbort.conState 3
    else if d.conIn [3] && auto && (d.flag CON.STAT_READY || d.flag CON.CTL_AUTO_UNREADY) && d.con.yieldRx.isNone then
      d.takeover d.timeTu
    else d
  else d.raiseIf (d.beatLost && d.conIn [2, 3]) CON.EVT_STAT_LINK_FAULT

/-- Valid heartbeats have carried CTRL = 0 for CTRL_TMO, or CTRL = 2 for RST_TMO (R363). -/
def ctrlOut (d : Dev) : Bool :=
  let c := d.get CON.STAT_PTR_CTRL
  (c == 0 && d.lasted .ctrl 0 (max 1 (d.get CON.CTL_CTRL_TMO) * 1000000)) ||
    (c == 2 && d.lasted .ctrl 0 (max 1 (d.get CON.CFG_RST_TMO) * 100000000))

/-! ## Handover (R372, R373) -/

/-- CMD.YIELD (R373): Y is the first whole microsecond at least 100 µs away. -/
def yieldStart (d : Dev) : Dev :=
  if d.conIn [5] && d.get CON.PTR_ID_STATE = 3 && d.flag CON.STAT_PTR_READY && d.con.yieldTx.isNone then
    let us : Int := nsTu 1000
    let y := Neg.neg (Neg.neg (d.timeTu + nsTu 100000) / us)
    let ns := (y * 1000).toNat
    (d.setCon { d.con with yieldTx := some (y * us) }).unitQueue 0x12 (leBytes 6 (ns / 1000000000) ++ leBytes 4 (ns % 1000000000))
  else d

/-- The instant Y has come, of the device's own YIELD or else of one received (R373). -/
def yieldDue (d : Dev) : Bool := decide (((d.con.yieldTx.orElse fun _ => d.con.yieldRx).getD d.timeTu) ≤ d.timeTu)

/-- The instant Y + 10 µs has come (R373): H lies 500 µs after Y (R372). -/
def roleSwitchDue (d : Dev) : Bool := decide ((d.handover.getD d.timeTu) - nsTu 490000 ≤ d.timeTu)

/-- The instant H has come (R372). -/
def handoverDue (d : Dev) : Bool := decide (d.handover.getD d.timeTu ≤ d.timeTu)

/-- The instant Y (R373): the yielding device enters STANDBY and keeps READY; its ready partner enters TAKEOVER. -/
def yieldNow (d : Dev) : Dev :=
  match d.con.yieldTx, d.con.yieldRx with
  | some y, _ =>
    let d := d.setCon { d.con with yieldTx := none }
    if d.conIn [5] then
      let d := (d.setCon { d.con with keep := true, gap := false }).setHandover (some (y + nsTu 500000))
      ({ d with roleHold := true, digRuns := [] }).conState 3
    else d
  | none, some y =>
    let d := d.setCon { d.con with yieldRx := none }
    if d.conIn [3] && d.flag CON.STAT_READY then d.takeover y else d
  | none, none => d

/-- The instant H (R372): TAKEOVER becomes ACTIVE, and takes are no longer deferred. -/
def handoverEnd (d : Dev) : Dev :=
  if d.handover.isSome then
    let d := d.setHandover none
    if d.conIn [4] then
      let te := d.con.entered
      let d := d.conState 5
      d.setCon { d.con with entered := max te d.con.entered }
    else d
  else d

/-! ## The journal (R364, R365) -/

/-- A journal record is applied as an entry accepted at the active's time A. While the control side is down, the take engine accepts none
(R135). -/
def recApply (d : Dev) (r : List Byte) : Dev :=
  let j := payNat r 36 4
  let gap := j != (d.get CON.JSEQ_RX_JSEQ + 1) % 2 ^ 32
  let d := if gap then
      (((d.raise CON.EVT_STAT_JRNL_GAP).count CON.CNT_JRNL_GAP_COUNT).pulseFault (devFault 207)).setCon { d.con with gap := true }
    else d
  if gap && !d.conIn [2, 3] then d
  else
    let acc := nsTu (payNat r 16 6 * 1000000000 + payNat r 22 4 : Nat)
    let flags := payNat r 26 1
    let key := payNat r 27 1
    let d := (d.set CON.JSEQ_RX_JSEQ j).conReady
    let d := if key.testBit 7 then { d with lastSeq := mapPut d.lastSeq (key % 32, 0) none (some (payNat r 28 8)) } else d
    let e := takeParse r
    if d.restarting then d
    else if flags.testBit 2 then d.takeFlush e.out acc else d.takeProc (.journal (flags % 4)) e acc none

/-- The records of a JOURNAL unit, held while region SWITCH is being copied (R370). -/
def journalTake (d : Dev) (p : List Byte) : Dev :=
  let recs := (List.range (p.length / 40)).map fun i => (p.drop (40 * i)).take 40
  if d.conIn [0, 1] then d
  else if d.get CON.COPY_CUR = 8 then
    let held := d.con.heldRecs ++ recs
    if 4096 < held.length then d.copyAgain else d.setCon { d.con with heldRecs := held }
  else recs.foldl recApply d

/-! ## Digests (R366, R367) -/

/-- A pair's digests match or mismatch for a frame (R367). -/
def digJudge (d : Dev) (u c k : Nat) (ok : Bool) : Dev :=
  let thr := max 1 (d.get CON.CTL_MM_THR)
  let r := mapGet d.digRuns (u, c) DigRun.init
  let put (d : Dev) (r : DigRun) : Dev := { d with digRuns := mapPut d.digRuns (u, c) DigRun.init r }
  if ok then (put d { r with mm := 0, ok := min 15 (r.ok + 1), good := r.good || decide (thr ≤ r.ok + 1) }).conReady
  else
    let d := ((d.count CON.CNT_DIG_MM_COUNT).raise CON.EVT_STAT_DIG_MM).set CON.MM_STAT_UNIT u
    let d := ((d.set CON.MM_STAT_CAD c).raise CON.MM_STAT_VALID).set CON.MM_STAT_K_LO k
    let hit := r.mm + 1 == thr
    let d := d.when hit fun d => d.pulseFault (devFault 205)
    (put d { r with mm := min 16 (r.mm + 1), ok := 0, bad := r.bad || hit }).conReady

/-- A digest of one side meets its counterpart on the other, or waits for it. -/
def digMeet (d : Dev) (mine : Bool) (x : Digest) : Dev :=
  let other := if mine then d.con.peer else d.con.own
  match other.find? fun y => y.unit == x.unit && y.cad == x.cad && y.k == x.k with
  | some y =>
    let rest := other.erase y
    let d := d.setCon (if mine then { d.con with peer := rest } else { d.con with own := rest })
    d.digJudge x.unit x.cad x.k (x.mask == y.mask && x.crc == y.crc)
  | none => d.setCon (if mine then { d.con with own := d.con.own ++ [x] } else { d.con with peer := d.con.peer ++ [x] })

/-- The slot CRC of an output for frame k, while the output runs bound to the cadence and is not excluded (R366). -/
def digCrc (d : Dev) (u c : Nat) (k : Int) (o : Nat) : Option Nat :=
  if d.outRuns o && d.digPair o == some (u, c) then ((d.crcOf o).done.find? (·.1 == k)).map (·.2) else none

/-- A unit digest of frame k (R366): over the slot CRCs of the unit's running outputs bound to the cadence and not excluded, as far as
they have one for the frame (DEDUCED, log 106). An ACTIVE device sends it; a STANDBY compares it. -/
def digForm (d : Dev) (u c : Nat) (k : Int) : Dev :=
  if d.flag CON.CTL_DIG_EN then
    let base := if u < 36 then 32 * u else 1152 + 32 * (u - 36)
    let js := (List.range 32).filterMap fun j => (d.digCrc u c k (base + j)).map fun x => (j, x)
    let mask := (js.map fun j => 2 ^ j.1).sum
    let crc := crc32 (js.flatMap fun j => leBytes 4 j.2)
    let kk := (k % 2 ^ 32).toNat
    if js.isEmpty then d
    else if d.conIn [5] then
      d.unitQueue 0x03 ([BitVec.ofNat 8 u, BitVec.ofNat 8 c, 0, 0] ++ leBytes 4 kk ++ leBytes 4 mask ++ leBytes 4 crc)
    else if d.conIn [3] then d.digMeet true ⟨u, c, kk, mask, crc⟩
    else d
  else d

/-- The records of a DIGEST unit on a STANDBY (R367). -/
def digTake (d : Dev) (p : List Byte) : Dev :=
  if d.conIn [3] && d.flag CON.CTL_DIG_EN then
    (List.range (p.length / 16)).foldl (fun d i =>
      let r := p.drop (16 * i)
      d.digMeet false ⟨payNat r 0 1 % 64, payNat r 1 1 % 16, payNat r 4 4, payNat r 8 4, payNat r 12 4⟩) d
  else d

/-- Two frame periods of a cadence have gone by since the end of the frame with an index modulo 2^32 (R367). -/
def digOver (d : Dev) (c k : Nat) : Bool :=
  let n := ((mapGet d.cadLast (c, 0) (-1) - (k : Int)) % 2 ^ 32).toNat
  decide (3 ≤ n) && decide (n < 2 ^ 31)

/-- A digest that found no counterpart within 2 frame periods counts as a mismatch (R367). -/
def digLate (d : Dev) (u c k : Nat) : Dev :=
  let is (x : Digest) : Bool := x.unit == u && x.cad == c && x.k == k
  if d.digOver c k && (d.con.own.any is || d.con.peer.any is) then
    (d.setCon { d.con with own := d.con.own.filter (!is ·), peer := d.con.peer.filter (!is ·) }).digJudge u c k false
  else d

/-! ## The copy on the active side, and what the standby receives -/

/-- Image bytes in STATE units from an offset on. -/
def stateUnits (d : Dev) (r snap : Nat) : Nat → Nat → List Byte → Dev
  | 0, _, _ => d
  | n + 1, off, img =>
    if img.isEmpty then d
    else
      let part := img.take 108
      stateUnits (d.unitQueue 0x20 ([BitVec.ofNat 8 r, 0] ++ leBytes 2 snap ++ leBytes 8 off ++ part)) r snap n (off + part.length)
        (img.drop 108)

/-- A request is served (R370): `img` is the region's image at this instant, whose layout the spec leaves to the device. -/
def serve (d : Dev) (r : Nat) (img : List Byte) : Dev :=
  if d.conIn [5] && decide (r < 9) then
    let snap := (d.con.snapSeq + 1) % 65536
    let j := d.get CON.JSEQ_TX_JSEQ
    let d := (d.setCon { d.con with snapSeq := snap, serving := some r }).stateUnits r snap (img.length / 108 + 1) 0 img
    d.unitQueue 0x11 ([BitVec.ofNat 8 r, 0] ++ leBytes 2 snap ++ leBytes 8 img.length ++ leBytes 4 j ++ leBytes 4 (crc32 img))
  else d

/-- Region data reach the shadow (R370); data of another snapshot start it afresh. -/
def stateTake (d : Dev) (p : List Byte) : Dev :=
  let snap := payNat p 2 2
  if d.conIn [2] && d.get CON.COPY_CUR = payNat p 0 1 then
    let sh := if d.con.shadow.snap = some snap then d.con.shadow else { CopyShadow.init with snap := some snap }
    d.setCon { d.con with shadow := { sh with data := sh.data ++ [(payNat p 4 8, p.drop 12)] } }
  else d

/-- The end of a snapshot: the shadow is whole, or the region is requested again (R370). -/
def snapTake (d : Dev) (p : List Byte) : Dev :=
  if d.conIn [2] && d.get CON.COPY_CUR = payNat p 0 1 then
    let size := payNat p 4 8
    let sh := d.con.shadow
    let good := match imageOf sh.data size with
      | some img => (sh.snap == some (payNat p 2 2) || size == 0) && crc32 img == payNat p 16 4
      | none => false
    if good then d.setCon { d.con with shadow := { sh with whole := some (size, payNat p 12 4) } } else d.copyAgain
  else d

/-- A committed region (R370): for SWITCH the journal goes on from the snapshot; REG_DONE, and the next region. -/
def copyDone (d : Dev) (r jseq : Nat) : Dev :=
  let recs := d.con.heldRecs
  let d := { d with digRuns := [] }
  let d :=
    if r = 8 then
      let d := (d.setCon { d.con with gap := false, heldRecs := [] }).set CON.JSEQ_RX_JSEQ jseq
      let later (x : List Byte) : Bool := let n := (payNat x 36 4 + 2 ^ 32 - jseq) % 2 ^ 32; decide (1 ≤ n) && decide (n < 2 ^ 31)
      (recs.filter later).foldl recApply d
    else d
  let d := (d.putBit CON.STAT_REG_DONE r true).raise CON.EVT_STAT_COPY_DONE
  if d.conIn [2] then d.copyNext else (d.copyDrop).conReady

/-- An ABORT (R371). -/
def abortTake (d : Dev) (r : Nat) : Dev :=
  if d.conIn [2] && d.get CON.COPY_CUR = r then d.copyAbort.conState 3 else d

end Dev

/-! ## Meanings -/

/-- CONSORT_ENABLE (R360). -/
def execConsortEnable (en : Bool) (s : State) := s.go fun d =>
  let d := d.put CON.CTL_EN en
  if en then (if d.conIn [0] && d.get FLT.STAT_SEV_MAX < 5 then d.conState 1 else d) else d.conOff

/-- HEARTBEAT_TX (R358). -/
def execHeartbeatTx (s : State) := s.go fun d => d.heartbeat

/-- CONSORT_UNIT_TX (R356). -/
def execConsortUnitTx (s : State) := s.go fun d => d.unitSend

/-- HEARTBEAT_RX (R358 to R361, R374, R375). -/
def execHeartbeatRx (bytes : List Byte) (t4 : Nat) (s : State) := s.go fun d => d.hbRx bytes t4

/-- TWIN_TIME_SAMPLE (R359), every TIME_SMP ms. -/
def execTwinTimeSample (s : State) := s.go fun d =>
  d.when (d.lasted .twinTime 0 (max 1 (d.get CON.CFG_TIME_SMP) * 1000000)) (·.twinSample)

/-- PAIR_TIMEOUT (R360, R361), with the levels at the twin pins. -/
def execPairTimeout (pulled healthy : Bool) (s : State) := s.go fun d => (d.twinPins pulled healthy).conPairTimeout

/-- PARTNER_LOSS (R362, R363), with the levels at the twin pins. -/
def execPartnerLoss (pulled healthy : Bool) (s : State) := s.go fun d => (d.twinPins pulled healthy).conLoss

/-- CTRL_TIMEOUT (R363). -/
def execCtrlTimeout (s : State) := s.go fun d =>
  if d.conIn [3] && d.ctrlOut && (d.flag CON.STAT_READY || d.flag CON.CTL_AUTO_UNREADY) then
    d.takeover d.timeTu
  else d

/-- HANDOVER_COMPLETE (R372). -/
def execHandoverComplete (s : State) := s.go fun d => d.when d.handoverDue (·.handoverEnd)

/-- FORCE_ACTIVE (R363). -/
def execForceActive (s : State) := s.go fun d => if d.conIn [1, 2, 3] then d.takeover d.timeTu else d

/-- JOIN (R360, R371). -/
def execJoin (s : State) := s.go fun d => if d.conIn [3] && d.get CON.PTR_ID_STATE = 5 then d.joinStart else d

/-- YIELD (R373). -/
def execYieldCmd (s : State) := s.go fun d => d.yieldStart

/-- YIELD_INSTANT (R373). -/
def execYieldInstant (s : State) := s.go fun d => d.when d.yieldDue (·.yieldNow)

/-- YIELD_ROLE_SWITCH (R373). -/
def execYieldRoleSwitch (s : State) := s.go fun d => d.when d.roleSwitchDue fun d => { d with roleHold := false }

/-- YIELD_RX (R373). -/
def execYieldRx (bytes : List Byte) (s : State) := s.go fun d =>
  let r := d.unitTake 0x12 bytes
  match r.1 with
  | some p =>
    if r.2.conIn [3] then r.2.setCon { r.2.con with yieldRx := some (nsTu (payNat p 0 6 * 1000000000 + payNat p 6 4 : Nat)) }
    else r.2
  | none => r.2

/-- CON_CNT_CLR (Table 14.14). -/
def execConCntClr (s : State) := s.go fun d =>
  d.clear [CON.CNT_HB_MISS_COUNT, CON.CNT_DIG_MM_COUNT, CON.CNT_JRNL_GAP_COUNT, CON.CNT_TAKEOVER_COUNT,
    CON.CNT_COPY_ABORT_COUNT, CON.CNT_UNIT_ERR_COUNT]

/-- JOURNAL_RX (R364, R365, R370). -/
def execJournalRx (bytes : List Byte) (s : State) := s.go fun d =>
  let r := d.unitTake 0x02 bytes
  match r.1 with | some p => r.2.journalTake p | none => r.2

/-- DIGEST_SEND (R366, R367): the digest of a unit's output slots for frame k. -/
def execDigestSend (u : DigUnit) (c : Cad) (k : Int) (s : State) := s.go fun d => d.digForm u c k

/-- DIGEST_RX (R367). -/
def execDigestRx (bytes : List Byte) (s : State) := s.go fun d =>
  let r := d.unitTake 0x03 bytes
  match r.1 with | some p => r.2.digTake p | none => r.2

/-- DIGEST_TIMEOUT (R367). -/
def execDigestTimeout (u : DigUnit) (c : Cad) (k : Word) (s : State) := s.go fun d => d.digLate u c k.toNat

/-- REQ_RX (R370). -/
def execReqRx (bytes img : List Byte) (s : State) := s.go fun d =>
  let r := d.unitTake 0x10 bytes
  match r.1 with | some p => r.2.serve (payNat p 0 1) img | none => r.2

/-- STATE_RX (R370). -/
def execStateRx (bytes : List Byte) (s : State) := s.go fun d =>
  let r := d.unitTake 0x20 bytes
  match r.1 with | some p => r.2.stateTake p | none => r.2

/-- SNAP_RX (R370). -/
def execSnapRx (bytes : List Byte) (s : State) := s.go fun d =>
  let r := d.unitTake 0x11 bytes
  match r.1 with | some p => r.2.snapTake p | none => r.2

/-- ABORT_RX (R371). -/
def execAbortRx (bytes : List Byte) (s : State) := s.go fun d =>
  let r := d.unitTake 0x13 bytes
  match r.1 with | some p => r.2.abortTake (payNat p 0 1) | none => r.2

end Sys2Proof.Machine
end

