-- ==== Sys2Proof/Machine/Ctl.lean ====
section
/-!
DEFINITION. Sys2Proof/Machine/Ctl.lean: the kinds of reset (R497, Table 21.6): a bus master's copies, the control side, the
host interface, the device and the always-on domain; and the end of device reset (R401, R403).
-/

namespace Sys2Proof.Machine

/-- The select registers (Table 0.6), by offset. -/
def selOffsets : List Nat :=
  [0x00010000, 0x00050000, 0x00080000, 0x00090000, 0x00100000, 0x00200000, 0x00300000, 0x00400000, 0x00500000, 0x00600000,
    0x00700000, 0x00800000, 0x00800004, 0x00900000, 0x00A00000]

/-- The always-on registers that a device reset keeps (R378, R457): FLT but for SRC_CFG and SRC_STAT, and KEY.DBG_CTL; the
NVM_OWN pin and the shed threshold show live values. -/
def aonKept (off : Nat) : Bool :=
  (0x00010000 ≤ off && off < 0x00020000 && off != 0x00010100 && off != 0x00010104 && off != 0x00010024) || off == 0x0005000C

namespace Dev

/-- A register's instance and its active copy at the reset word. -/
def resetReg (d : Dev) (off : Nat) (ch : Nat := 0) : Dev :=
  { d with regs := mapDel (off, ch) d.regs, act := mapDel (off, ch) d.act }

/-- Registers at their reset words. -/
def resetRegs (d : Dev) (offs : List Nat) (ch : Nat := 0) : Dev := offs.foldl (fun d o => d.resetReg o ch) d

/-- A bus master resets (R433, Table 21.6): its select copies, its take registers and its holding registers. -/
def masterReset (d : Dev) (m : Master) : Dev :=
  let d := d.resetRegs (selOffsets ++ [0x00C01010, 0x00C01014, 0x00C01018, 0x00C0101C, 0x00C01024]) m.code
  { d with hold := d.hold.filter fun e => e.1.1 != m.code }

/-- The DMA engine resets: the descriptors in flight are abandoned (R447). -/
def dmaReset (d : Dev) : Dev := { d.resetRegs [0x00C02000, 0x00C02004] with dmaFly := [] }

/-! ## The control side (R36, R135, R434, R444, Table 21.6) -/

/-- Every pending take and every entry not yet accepted is discarded without a result (R135); the masters' BUSY falls. -/
def takesDiscard (d : Dev) : Dev :=
  let d := { d with takesLost := d.takesLost + d.takesCount fun _ _ => true }
  let d := d.takeOuts.foldl (fun d o => d.setTakes o []) d
  let d := [0, 1, 2, 3, 4, 5].foldl (fun d m => d.set HIF.TK_RES_BUSY 0 m) d
  { d with salvos := [], submitted := [], takeMsgs := [] }

/-- A scheduled activation ends with ACT_LOST where the control side goes down before I (R464); staging starts over (R461). -/
def stageReset (d : Dev) : Dev :=
  let d := d.when (d.get KEY.STAT_STAGE == 3) fun d => (d.set KEY.STAT_ACT_RESULT 3).raise KEY.EVT_STAT_ACT_LOST
  { (d.set KEY.STAT_STAGE 1).resetRegs [0x00050014, 0x00050018, 0x0005001C, 0x00050020] with stageLast := none, stageType := 0 }

/-- The control side goes down (R36, R135, R444, Table 21.6). -/
def ctlDown (d : Dev) : Dev :=
  let d := (d.takesDiscard.stageReset.dmaReset).resetRegs ([0x00060000, 0x0006000C, 0x00060010] ++
    (List.range 16).map fun k => 0x00060140 + 4 * k)
  let d := ((d.masterReset .core).masterReset .dma).masterReset .consort
  let d := (d.put HIF.STAT_CTRL_UP false).put CON.STAT_CTRL false
  { d with restarting := true, mbxLost := d.mbxLost || !d.mbxReqs.isEmpty || !d.mbxRsps.isEmpty, mbxReqs := [], mbxRsps := [],
           loader := none, restoring := false }

/-- The messages that waited for CTRL_UP leave (R434). -/
def deferredVecs (d : Dev) : Dev :=
  let v := d.msixDefer
  ((List.range 64).filter fun i => v.testBit i).foldl (fun d i => d.sendMsix i) { d with msixDefer := 0 }

/-- The control side runs again (R135, R434, R444), unless it is held in reset. -/
def ctlUp (d : Dev) : Dev :=
  if d.flag FLT.WDOG_STAT_HELD || d.haltHold || d.inReset || d.bootHalt then d
  else
    let d := (({ d with restarting := false, actRestart := false }.put HIF.STAT_CTRL_UP true).put CON.STAT_CTRL true).raise
      MGT.EVT_STAT_CTRL_UP
    let d := (d.put MGT.STAT_BOOTROM false).put MGT.STAT_FW_RUN true
    let n := d.takesLost
    let d := ({ d with takesLost := 0 }.count HIF.TK_CNT_LOST_COUNT n).raiseIf (n != 0) HIF.TK_EVT_LOST
    ({ d with mbxLost := false }.raiseIf d.mbxLost MGT.EVT_STAT_MBX_LOST).deferredVecs

/-! ## The host interface (R428, Table 21.6) -/

/-- The events of R428 reset the host interface: the host's copies, the MSI-X table and PBA, the DMA engine, the armed
flags. -/
def hostReset (d : Dev) : Dev :=
  let d := (d.masterReset .host).dmaReset
  let d := d.resetRegs ((List.range 256).map fun i => 0x00C08000 + 4 * i)
  let d := d.resetRegs [0x00C08800, 0x00C08804, 0x00080060, 0x00080064]
  { d with funcMask := false, msixDefer := 0 }

/-- The identification in the PCIe configuration space (Table 21.5). -/
structure PcieIds where
  vendor : Nat
  device : Nat
  revision : Nat
  classCode : Nat
  subVendor : Nat
  subDevice : Nat
  deriving DecidableEq, Repr

/-- What the configuration space carries (R496), whatever was reset; the rest of it is left out (log 109). -/
def pcieIds (d : Dev) : PcieIds := ⟨0x1F2A, 0x1664, d.get GLB.STEP_STEP, 0x048000, 0x1F2A, 0x0001⟩

/-! ## The device (R378, R400 to R402) -/

/-- The key slot that the die itself holds (R449, R457). -/
def rootSlot (d : Dev) : Dev :=
  let fp := if d.flag KEY.STAT_DEBUG then Config.testRoot else Config.prodRoot
  { d with keys := [((0, 0), fp)] }.set KEY.SLOT_FP_FP (leNat (fp.take 4)) 0

/-- A device reset (R378, R497): every register outside the always-on domain; in FLT the source records, SRC_CFG, RST_CNT and
HELD. Conditions of the always-on domain (classes 0 to 2) and forced ones stay present. -/
def deviceReset (d : Dev) : Dev :=
  let bad := d.get FLT.WDOG_STAT_BAD_KICK
  let h := d.get XP.BLK_STAT_SHED_H
  let own := d.flag NVM.BOOT_STAT_NVM_OWN
  let r : Dev := { Dev.reset with
    regs := d.regs.filter fun e => aonKept e.1.1
    conds := d.conds.filter fun f => decide (f.src < 48)
    injArmed := d.injArmed, kickSeq := d.kickSeq, fltLog := d.fltLog, fltSeq := d.fltSeq, logCopied := d.logCopied, aclk := d.aclk, ladder := d.ladder
    spData := d.spData, spNack := d.spNack, pg := d.pg, railLost := d.railLost
    ueGran := d.ueGran, cc := d.cc, marks := d.marks, drawn := d.drawn, sent := d.sent }
  let r := ((r.set FLT.WDOG_STAT_BAD_KICK bad).set XP.BLK_STAT_SHED_H h).put NVM.BOOT_STAT_NVM_OWN own
  let r := (r.conds.map (·.src) ++ r.flagSet FLT.SRC_CMD_FORCE).foldl (fun d s => d.refreshCond s) r
  let r := r.clear [FLT.STAT_SEV_MAX, FLT.STAT_HEALTHY, FLT.STAT_FAULT, FLT.STAT_TRIP, FLT.STAT_RUNNING, FLT.STAT_CLS_ANY]
  let r := (List.range 16).foldl (fun d c => d.setReg (0x00010040 + 4 * c) 0 0) r
  (r.put FLT.STAT_SAFE_IDLE (r.flag FLT.SP_CTL_SAFE_IDLE)).set FLT.STAT_STEP r.ladder

/-- Device reset ends (R400, R401, R403): the straps are sampled, the clocks of step 2 start, the boot ROM starts, and debug
mode holds where it was requested (R457). -/
def deviceRelease (d : Dev) (bootSrc twinId nvmOwn : Bool) : Dev :=
  let d := { d with inReset := false }
  let d := ((d.put NVM.BOOT_STAT_BOOT_SRC bootSrc).put NVM.BOOT_STAT_TWIN_ID twinId).put NVM.BOOT_STAT_NVM_OWN nvmOwn
  let d := ((d.put NVM.BOOT_STAT_OWN_WAIT nvmOwn).put MGT.STAT_BOOTROM true).set NVM.BOOT_STAT_STEP 2
  let d := (d.put GLB.CLK_STAT_SYS_LOCK true).put GLB.CLK_STAT_ACLK_OK true
  let dbg := d.flag KEY.DBG_CTL_REQ
  ((d.put KEY.STAT_DEBUG dbg).when dbg fun d => d.raiseFault (devFault 222)).rootSlot

/-- A device reset that ends at once where RST_N and every power-good input are high, the straps reading as before; where device
reset is in force already, it stays so (R400). -/
def deviceRestart (d : Dev) : Dev :=
  if d.inReset then d.deviceReset
  else d.deviceReset.deviceRelease (d.flag NVM.BOOT_STAT_BOOT_SRC) (d.flag NVM.BOOT_STAT_TWIN_ID) (d.flag NVM.BOOT_STAT_NVM_OWN)

/-- The always-on rail rises (R378, Table 21.6): everything but the model's own records; a rail lost out of order is recorded
now (Table 22.6). -/
def aonReset (d : Dev) : Dev :=
  let r : Dev := { Dev.reset with cc := d.cc, marks := d.marks, drawn := d.drawn, sent := d.sent, ueGran := d.ueGran }
  if d.railLost then r.pulseFault (devFault 44) else r

/-- A reset of the control side: before RUNNING it is a device reset (R408). -/
def ctlReset (d : Dev) : Dev :=
  if d.flag NVM.BOOT_STAT_RUNNING then
    let d := { d.ctlDown with bootHalt := false }
    d.put MGT.STAT_BOOTROM (!(d.flag FLT.WDOG_STAT_HELD))
  else d.deviceRestart

end Dev

/-! ## Meanings -/

/-- CONTROL_SIDE_DOWN (R36, R135): whatever took it down. -/
def execControlSideDown (s : State) := s.go fun d => d.ctlDown

/-- CONTROL_SIDE_UP (R434). -/
def execControlSideUp (s : State) := s.go fun d => d.ctlUp

/-- HOST_RESET (R428): LINK_RST, and PCIE_DOWN, which stays present while the link is down. -/
def execHostReset (down : Bool) (s : State) := s.go fun d =>
  let d := d.hostReset.raise HIF.EVT_STAT_LINK_RST
  if down then (d.clear [HIF.STAT_LINK_UP, HIF.STAT_SPEED, HIF.STAT_WIDTH]).raiseFault (Dev.devFault 252)
  else d.pulseFault (Dev.devFault 252)

/-- PCIE_LINK_UP (R426, Table 17.9). -/
def execPcieLinkUp (speed width : Fin 8) (s : State) := s.go fun d =>
  (((d.put HIF.STAT_LINK_UP true).set HIF.STAT_SPEED speed).set HIF.STAT_WIDTH width).dropFault (Dev.devFault 252)

/-- AON_POWER_UP (R378, R512): the always-on domain leaves its power-on reset; device reset is in force. -/
def execAonPowerUp (s : State) := s.go fun d => d.aonReset

/-- ALWAYS_ON_RAIL_LOSS (Table 22.6): device reset is held; PG_LOSS is recorded once the domain returns. -/
def execAlwaysOnRailLoss (s : State) := s.go fun d => { d.deviceReset with railLost := true }

/-- DEVICE_RESET_ASSERT (R400, R402). -/
def execDeviceResetAssert (s : State) := s.go fun d => d.deviceReset

/-- POWER_GOOD_FALL (R400): a device reset at once, and PG_LOSS. -/
def execPowerGoodFall (k : Fin 4) (s : State) := s.go fun d =>
  let d := d.deviceReset
  { d with pg := d.pg &&& ~~~(1#4 <<< k.val) }.raiseFault ⟨44, 3, 0, k⟩

/-- DEVICE_RESET_RELEASE (R400, R401): RST_N rises with these levels at the power-good inputs. -/
def execDeviceResetRelease (pg : BitVec 4) (bootSrc twinId nvmOwn : Bool) (s : State) := s.go fun d =>
  let d := (List.range 4).foldl (fun d k => if pg.getLsbD k then d.dropFault ⟨44, 3, 0, k⟩ else d) { d with pg := pg }
  if pg = 0xF && d.inReset then d.deviceRelease bootSrc twinId nvmOwn else d

end Sys2Proof.Machine
end

