-- ==== Sys2Proof/Machine/Flt.lean ====
section
/-!
DEFINITION. Sys2Proof/Machine/Flt.lean: Binnacle (chapter 15): records, escalation, actions, injection, the first-fault log, the
watchdog, and thermal supervision.
-/

namespace Sys2Proof.Machine

/-- The kicks of R392. -/
def kickFirst : Nat := 0x0000A55A
def kickSecond : Nat := 0x00005AA5

/-- An entry of the first-fault log as its 32 bytes (Table 15.5). -/
def LogEnt.bytes (e : LogEnt) : List Byte :=
  leBytes 4 e.seq ++ [BitVec.ofNat 8 e.src, BitVec.ofNat 8 (e.sev + 8 * e.eff + 64 * b2n e.esc + 128 * b2n e.inj), BitVec.ofNat 8 e.lvl, 0] ++
    leBytes 2 e.unit ++ leBytes 2 e.aux ++ leBytes 6 e.aclk ++ leBytes 6 e.sec ++ leBytes 4 e.ns ++ [BitVec.ofNat 8 (b2n e.tvalid)] ++
    leBytes 2 e.tj ++ [0]

/-- The middle of a list of readings, doubled: the sum of the two middle ones. -/
def medianTwice (ts : List Int) : Int :=
  let s := sortBy (fun a b => decide (a < b)) ts
  s.getD (s.length / 2 - 1) 0 + s.getD (s.length / 2) 0

/-- The thresholds of steps 1 to 3 of the ladder (Table 15.6), in 0.25 °C. -/
def stepAt : Nat → Int
  | 1 => 420
  | 2 => 440
  | _ => 460

/-- The step of the ladder that holds at a Tj after a step held (R394). -/
def ladderNext (was : Nat) (tj : Int) : Nat :=
  [1, 2, 3].foldl (fun n s => if decide (stepAt s ≤ tj) || (decide (s ≤ was) && decide (stepAt s - 12 < tj)) then s else n) 0

namespace Dev

/-! ## Severities and actions (R380 to R383, R387, R390) -/

/-- The programmed severity V of a source (R385, Table 15.11). -/
def sevOf (d : Dev) (src : Nat) : Nat :=
  if fixedHalt src then 5 else max 1 (min 5 (d.get FLT.SRC_CFG_SEV src))

/-- The severity whose actions a record takes (R390). -/
def recAction (d : Dev) (r : FltRec) : Nat := max r.real (if d.flag FLT.CTL_INJ_SAFE then min r.inj 2 else r.inj)

/-- The highest severity whose actions hold. -/
def actionSev (d : Dev) : Nat := (d.fltRecs.map fun e => d.recAction e.2).foldl max 0

/-- CLS_c and CLS_ANY of a class follow its records (Tables 15.8, 15.10). -/
def refreshClass (d : Dev) (c : Nat) : Dev :=
  let ks := (List.range 16).filter fun k => d.flag FLT.SRC_STAT_REC (16 * c + k)
  let d := d.set (FLT.CLS_REC c) (ks.map (2 ^ ·)).sum
  let d := d.set (FLT.CLS_LEVEL c) ((ks.map fun k => d.get FLT.SRC_STAT_EFF (16 * c + k)).foldl max 0)
  let un := ks.any fun k => decide (2 ≤ d.get FLT.SRC_STAT_EFF (16 * c + k)) && !d.flag FLT.SRC_STAT_ACKED (16 * c + k)
  (d.put (FLT.CLS_UNACK c) un).putBit FLT.STAT_CLS_ANY c (!ks.isEmpty)

/-- Every Ethernet transmitter stops (R382): the frame on its way does not end. -/
def etherStop (d : Dev) : Dev :=
  (List.range 64).foldl (fun d m => if (d.mac m).flight.isSome then d.setMac m { d.mac m with flight := none } else d) d

/-- Each running MAC restarts its link (R382, R161). -/
def etherRestart (d : Dev) : Dev :=
  (d.flagSet MAC.STAT_RUN).foldl (fun d m => (d.put MAC.STAT_AN_DONE false m).put MAC.STAT_TRAIN_DONE false m) d

/-- Safe-idle begins or ends (R382). -/
def safeIdle (d : Dev) (on : Bool) : Dev :=
  let was := d.flag FLT.STAT_SAFE_IDLE
  let d := d.put FLT.STAT_SAFE_IDLE on
  if on && !was then d.stopAllTx.etherStop else if was && !on then d.etherRestart.releaseTx else d

/-- A HALT holds the control side in reset and takes Consort to OFF (Table 15.2). -/
def haltAct (d : Dev) (on : Bool) : Dev :=
  if on && !d.haltHold then ({ d with haltHold := true }.ctlDown).conOff
  else if d.haltHold && !on then { d with haltHold := false }
  else d

/-- The actions of the records, the trip and the side port's request (R380 to R382). -/
def refreshActions (d : Dev) : Dev :=
  let a := d.actionSev
  let forced := d.flag FLT.STAT_TRIP || d.flag FLT.SP_CTL_SAFE_IDLE
  let d := d.set FLT.STAT_SEV_MAX ((d.fltRecs.map fun e => max e.2.real e.2.inj).foldl max 0)
  let d := { d with faultN := decide (2 ≤ a) }.put FLT.STAT_FAULT (decide (2 ≤ a))
  let d := d.put FLT.STAT_HEALTHY (d.flag FLT.STAT_RUNNING && decide (a < 4) && !forced)
  (d.safeIdle (decide (5 ≤ a) || forced)).haltAct (decide (5 ≤ a))

/-! ## Records (R384 to R387, R391) -/

/-- L: the highest E among the unacknowledged records of a class (R387). -/
def classUnacked (d : Dev) (c : Nat) : Nat :=
  (((List.range 16).filter fun k => d.flag FLT.SRC_STAT_REC (16 * c + k) && !d.flag FLT.SRC_STAT_ACKED (16 * c + k)).map fun k =>
    d.get FLT.SRC_STAT_EFF (16 * c + k)).foldl max 0

/-- The effective severity E of a fault with severity V, and whether it escalated (R387). -/
def effective (v l : Nat) : Nat × Bool := if 2 ≤ v && 2 ≤ l then (min 5 (max v l + 1), true) else (v, false)

/-- The instance of LOG_IDX that a master reaches: the side port has its own (R397). -/
def logCh (m : Master) : Nat := if m = .sidePort then 6 else 0

/-- LOG_DATA_w of the entry at a master's IDX (Table 15.10); 0 where the log holds none there. -/
def logWord (d : Dev) (m : Master) (w : Nat) : Word :=
  match d.fltLog[d.get FLT.LOG_IDX_IDX (logCh m)]? with
  | some e => BitVec.ofNat 32 (leNat ((e.bytes.drop (4 * w)).take 4))
  | none => 0

/-- COUNT follows the log (Table 15.9). -/
def showLog (d : Dev) : Dev :=
  (d.set FLT.LOG_IDX_COUNT d.fltLog.length 0).set FLT.LOG_IDX_COUNT d.fltLog.length 6

/-- The fault writes its log entry, numbered from the power-up on (Table 15.5), or raises LOG_FULL (R391). SEQ numbers the entries, so a fault
that is not logged takes no number (log 112: DEDUCED). -/
def logFault (d : Dev) (f : FaultAt) (v e : Nat) (esc inj : Bool) : Dev :=
  if d.fltLog.length < 64 then
    let x : LogEnt := ⟨d.fltSeq, f.src, v, e, esc, inj, f.lvl, f.unit, f.aux, d.aclk, d.timeSec, d.timeNs,
      d.flag TIM.SRV_STAT_TIME_VALID && d.flag GLB.CLK_STAT_SYS_LOCK, d.get FLT.TJ_TJ⟩
    { d with fltLog := d.fltLog ++ [x], fltSeq := d.fltSeq + 1 }.showLog
  else d.raise FLT.BLK_EVT_LOG_FULL

/-- The yield of R383, for a fault whose actions reach it (Table 15.2). -/
def faultYield (d : Dev) (a : Nat) : Dev :=
  if 4 ≤ a || (3 ≤ a && d.flag FLT.CTL_DEG_YIELD) then
    let was := d.con.yieldTx
    let d := d.yieldStart
    if d.con.yieldTx = was then d else d.toggle 3 0 99
  else d

/-- A fault is recorded with its effective severity and takes its actions (R380, R386, R387, R389 to R391). -/
def recordOne (d : Dev) (f : FaultAt) : Dev :=
  let src := f.src % 256
  let inj := mapGet d.injArmed (src, 0) false || d.flag FLT.SRC_CMD_FORCE src
  let v := d.sevOf src
  let e := effective v (d.classUnacked (src / 16))
  let old := mapGet d.fltRecs (src, 0) ⟨0, 0⟩
  let new : FltRec := if inj then { old with inj := max old.inj e.1 } else { old with real := max old.real e.1 }
  let d := { d with fltRecs := mapPut d.fltRecs (src, 0) ⟨0, 0⟩ new, injArmed := mapPut d.injArmed (src, 0) false false }
  let d := ((d.raise FLT.SRC_STAT_REC src).put FLT.SRC_STAT_ACKED false src).set FLT.SRC_STAT_EFF (max new.real new.inj) src
  let d := ((d.set FLT.SRC_STAT_LVL f.lvl src).set FLT.SRC_STAT_UNIT f.unit src).count FLT.SRC_CNT_COUNT 1 src
  let d := ((d.logAdd (1722 + src / 16) 1).logFault f v e.1 e.2 inj).refreshClass (src / 16)
  let d := d.when (decide (src = 31) && inj && !d.flag FLT.CTL_INJ_SAFE) fun d =>
    (d.raise FLT.STAT_TRIP).set FLT.STAT_STEP 4
  (d.faultYield (if inj && d.flag FLT.CTL_INJ_SAFE then min e.1 2 else e.1)).refreshActions

/-- Every fault that waits is recorded, in the order in which it rose. -/
def recordAll (d : Dev) : Dev :=
  d.rising.foldl (fun d f => d.recordOne f) { d with rising := [] }

/-- A record is removed (R387), with the actions it held. -/
def recordClear (d : Dev) (src : Nat) : Dev :=
  let d := { d with fltRecs := mapDel (src, 0) d.fltRecs }.clear
    [FLT.SRC_STAT_REC, FLT.SRC_STAT_ACKED, FLT.SRC_STAT_EFF] src
  (d.refreshClass (src / 16)).refreshActions

/-- SRC_CMD.ACK (R387). -/
def ackSrc (d : Dev) (src : Nat) : Dev :=
  if d.flag FLT.SRC_STAT_REC src then (d.put FLT.SRC_STAT_ACKED true src).refreshClass (src / 16) else d

/-- SRC_CMD.CLR (R387, R388): refused while the condition is present; without effect on a HALT record, or where there is none. -/
def clrSrc (d : Dev) (src : Nat) : Dev :=
  if !d.flag FLT.SRC_STAT_REC src then d
  else if d.flag FLT.SRC_STAT_COND src then d.raise FLT.BLK_EVT_CLR_REFUSED
  else if d.get FLT.SRC_STAT_EFF src = 5 then d
  else d.recordClear src

/-! ## Injection (R389, R521) -/

/-- The source that an injection on a source yields (R389, Table 15.13): an ECC checker yields its class's correctable source
for one inverted bit and its uncorrectable source for two; every other checker its own. -/
def injTarget (d : Dev) (src : Nat) : Nat :=
  let two := decide (2 ≤ d.get FLT.SRC_CFG_INJ_BITS src)
  if src = 126 then (if two then 126 else 112)
  else if src = 140 || src = 141 then (if two then 141 else 140)
  else if src % 16 = 0 || src % 16 = 1 then (if two then src / 16 * 16 + 1 else src / 16 * 16)
  else src

/-- SRC_CMD.INJ: armed once, on a source with a checker. -/
def injArm (d : Dev) (src : Nat) : Dev :=
  if hasChecker src then { d with injArmed := mapPut d.injArmed (d.injTarget src, 0) false true }.mark .inject (d.injTarget src) else d

/-- SRC_CMD.FORCE (R389, R390): the condition is present while FORCE = 1; its rise is a fault. -/
def forceSrc (d : Dev) (src : Nat) (v : Bool) : Dev :=
  if hasChecker src then d
  else
    let was := d.flag FLT.SRC_CMD_FORCE src
    let d := (d.put FLT.SRC_CMD_FORCE v src).refreshCond src
    if v && !was then d.pulseFault ⟨src, 3, 0, 0⟩ else d

/-! ## The watchdog (R392) -/

/-- A write of WDOG_KICK (R392). -/
def wdogKick (d : Dev) (v : Nat) : Dev :=
  let bad := if v = kickFirst then d.kickSeq else if v = kickSecond then !d.kickSeq else true
  let done := v = kickSecond && d.kickSeq
  let d := if bad then d.count FLT.WDOG_STAT_BAD_KICK else d
  let d := if done then (d.set FLT.WDOG_STAT_RST_CNT 0).mark .kick 0 else d
  { d with kickSeq := decide (v = kickFirst) }

/-- The boot ROM kicks the watchdog: while it copies an image (R465), and while it waits for the NVM (R468); its kicks
keep the count from running out (DEDUCED, log 108). -/
def romKicks (d : Dev) : Bool := d.flag MGT.STAT_BOOTROM && (d.get KEY.STAT_STAGE == 4 || d.flag NVM.BOOT_STAT_NVM_OWN)

/-- TMO has passed since the watchdog began to count (R392). -/
def wdogDue (d : Dev) : Bool :=
  d.flag FLT.WDOG_CFG_EN && !d.romKicks && d.lasted .kick 0 (max 1 (d.get FLT.WDOG_CFG_TMO) * 10000000)

/-- TMO runs out (R392, R408): the control side restarts, or is held; a sector write in progress comes first. -/
def wdogExpire (d : Dev) (writing : Bool) : Dev :=
  if d.wdogDue then
    let d := ((d.mark .kick 0).pulseFault (devFault 60)).recordAll
    let d := d.count FLT.WDOG_STAT_RST_CNT
    let d := d.when (decide (max 1 (d.get FLT.WDOG_CFG_MAX_RST) ≤ d.get FLT.WDOG_STAT_RST_CNT)) (·.raise FLT.WDOG_STAT_HELD)
    if writing then { d with wdogWait := true } else d.ctlReset
  else d

/-! ## Thermal supervision (R393 to R396) -/

/-- T of every output follows the shed threshold (R122). -/
def shedOutputs (d : Dev) : Dev := (List.range 1664).foldl (fun d o => d.evalTrig o) d

/-- The shed threshold H changes. -/
def setH (d : Dev) (h : Nat) : Dev :=
  if d.get XP.BLK_STAT_SHED_H = h then d else (d.set XP.BLK_STAT_SHED_H h).shedOutputs

/-- The trip fires (R382, R396). -/
def trip (d : Dev) : Dev :=
  (((d.raise FLT.STAT_TRIP).set FLT.STAT_STEP 4).raiseFault (devFault 31)).refreshActions

/-- The ladder moves to a step (R394, Table 15.6): each step entered is a fault and begins its action; each step left ends it. -/
def ladderTo (d : Dev) (n : Nat) : Dev :=
  let was := d.ladder
  let d := { d with ladder := n }
  let d := if d.flag FLT.STAT_TRIP then d else d.set FLT.STAT_STEP n
  let up (s : Nat) : Bool := decide (was < s) && decide (s ≤ n)
  let down (s : Nat) : Bool := decide (n < s) && decide (s ≤ was)
  let d := (d.when (up 1) (·.raiseFault (devFault 28))).when (down 1) (·.dropFault (devFault 28))
  let d := (d.when (up 2) fun d => (d.raiseFault ⟨29, 3, 0, 110⟩).shedHold).when (down 2) fun d =>
    (d.dropFault ⟨29, 3, 0, 110⟩).shedRelease
  let d := d.when (up 3 || down 3) (·.mark .shed 0)
  (d.when (up 3) fun d => (d.raiseFault ⟨29, 3, 0, 115⟩).setH (max 1 (d.get XP.BLK_STAT_SHED_H))).when (down 3) (·.dropFault ⟨29, 3, 0, 115⟩)

/-- A reading is valid (R393). -/
def sensorOk (ts : List Int) (t : Int) : Bool :=
  decide (-160 ≤ t) && decide (t ≤ 600) && decide ((2 * t - medianTwice ts).natAbs ≤ 120)

/-- The 24 sensors are sampled (R393, R394, R396). -/
def thermal (d : Dev) (ts : List Int) : Dev :=
  let d := ts.zipIdx.foldl (fun (d : Dev) (x : Int × Nat) =>
    let ok := sensorOk ts x.1
    let d := (d.set (FLT.SENS_T x.2) (ofSigned 12 x.1)).put (FLT.SENS_VALID x.2) ok
    if ok then d.dropFault ⟨30, 3, 0, x.2⟩ else d.raiseFault ⟨30, 3, 0, x.2⟩) d
  let good := ts.zipIdx.filter fun x => sensorOk ts x.1
  let hot := good.foldl (fun (b : Int × Nat) x => if b.1 < x.1 then x else b) (-2048, 0)
  let tj : Int := if good.length < 4 then 480 else hot.1
  let d := (d.set FLT.TJ_TJ (ofSigned 12 tj)).set FLT.TJ_VALID_CNT good.length
  let d := if good.length < 4 then d else d.set FLT.TJ_HOT hot.2
  let d := d.ladderTo (ladderNext d.ladder tj)
  if 480 ≤ tj then d.trip else d.when (decide (tj ≤ 468)) (·.dropFault (devFault 31))

/-- SHED_STEP seconds have passed since the entry into step 3, its end, or the last change (R395). -/
def shedDue (d : Dev) : Bool := d.lasted .shed 0 (max 1 (d.get FLT.CTL_SHED_STEP) * 1000000000)

/-- The shed threshold steps (R395). -/
def shedTimer (d : Dev) : Dev :=
  let d := d.mark .shed 0
  let h := d.get XP.BLK_STAT_SHED_H
  d.setH (if 3 ≤ d.ladder then min 7 (h + 1) else h - 1)

/-! ## The side port's commands (R388, R397) -/

/-- SP_CTL.SAFE_IDLE (R382). -/
def spSafe (d : Dev) (v : Bool) : Dev := (d.put FLT.SP_CTL_SAFE_IDLE v).refreshActions

/-- SP_CTL.DEV_RESET (R388): refused while a HALT source has its condition present. -/
def spReset (d : Dev) : Dev :=
  if d.fltRecs.any fun e => decide (5 ≤ max e.2.real e.2.inj) && d.flag FLT.SRC_STAT_COND e.1.1 then d
  else d.deviceRestart.refreshActions

/-- LOG_CLR (R391). -/
def logEmpty (d : Dev) : Dev := { d with fltLog := [] }.showLog

/-- A read of LOG_DATA_7 (Table 15.9): IDX rises by 1. -/
def logAdvance (d : Dev) (m : Master) : Dev := d.set FLT.LOG_IDX_IDX (d.get FLT.LOG_IDX_IDX (logCh m) + 1) (logCh m)

/-- ACK_ALL (R387). -/
def ackEvery (d : Dev) : Dev := (d.flagSet FLT.SRC_STAT_REC).foldl (fun d s => d.ackSrc s) d

/-- CMD.CNT_CLR (Table 15.8). -/
def fltCntClear (d : Dev) : Dev := (d.flagSet FLT.SRC_CNT_COUNT).foldl (fun d s => d.set FLT.SRC_CNT_COUNT 0 s) d

end Dev

/-! ## Meanings -/

/-- FAULT_RECORD (R384 to R391): the faults that wait are recorded, and those that rise now, in ascending source order (Table
15.7); `rise`, `pulse` and `fall` name conditions that checkers without a command of their own report. -/
def execFaultRecord (rise pulse fall : List FaultAt) (s : State) := s.go fun d =>
  let d := d.recordAll
  let d := fall.foldl (fun (d : Dev) f => d.dropFault f) d
  let d := rise.foldl (fun (d : Dev) f => d.raiseFault f) d
  let d := pulse.foldl (fun (d : Dev) f => d.pulseFault f) d
  { d with rising := sortBy (fun a b => decide (a.src < b.src)) d.rising }.recordAll

/-- SRC_ACK (R387); faults of the same ac are judged first (Table 15.7). -/
def execSrcAck (src : Src) (s : State) := s.go fun d => d.recordAll.ackSrc src

/-- SRC_CLR (R387, R388). -/
def execSrcClr (src : Src) (s : State) := s.go fun d => d.recordAll.clrSrc src

/-- SRC_INJ (R389). -/
def execSrcInj (src : Src) (s : State) := s.go fun d => d.injArm src

/-- SRC_FORCE (R389). -/
def execSrcForce (src : Src) (v : Bool) (s : State) := s.go fun d => d.forceSrc src v

/-- INJ_STUCK (R389): 100 ms have passed since the injection that would yield a source. -/
def execInjStuck (src : Src) (s : State) := s.go fun d =>
  if mapGet d.injArmed (src.val, 0) false && d.lasted .inject src 100000000 then
    { d with injArmed := mapPut d.injArmed (src.val, 0) false false }.pulseFault ⟨15, 3, 0, src⟩
  else d

/-- LOG_CLR (R391). -/
def execLogClr (s : State) := s.go fun d => d.logEmpty

/-- ACK_ALL (R387). -/
def execAckAll (s : State) := s.go fun d => d.recordAll.ackEvery

/-- FLT_CNT_CLR (Table 15.8). -/
def execFltCntClr (s : State) := s.go fun d => d.fltCntClear

/-- LOG_DATA_READ (Table 15.9): a read of LOG_DATA_7 through the master's own LOG_IDX. -/
def execLogDataRead (m : Master) (s : State) := s.go fun d =>
  let d := { d with answer := mapPut d.answer (m.code, 0) (0, false) (d.logWord m 7, false) }
  d.logAdvance m

/-- SP_SAFE_IDLE (R382). -/
def execSpSafeIdle (v : Bool) (s : State) := s.go fun d => d.spSafe v

/-- DEV_RESET (R388). -/
def execDevReset (s : State) := s.go fun d => d.spReset

/-- WDOG_KICK (R392). -/
def execWdogKick (v : Word) (s : State) := s.go fun d => d.wdogKick v.toNat

/-- WATCHDOG_EXPIRY (R392, R408). -/
def execWatchdogExpiry (writing : Bool) (s : State) := s.go fun d => d.wdogExpire writing

/-- THERMAL_SAMPLE (R393 to R395): the readings of the 24 sensors in 0.25 °C. -/
def execThermalSample (ts : List (BitVec 12)) (s : State) := s.go fun d => d.thermal (ts.take 24 |>.map BitVec.toInt)

/-- THERMAL_TRIP (R396). -/
def execThermalTrip (s : State) := s.go fun d => d.trip

/-- SHED_STEP_TIMER (R395). -/
def execShedStepTimer (s : State) := s.go fun d => d.when d.shedDue (·.shedTimer)

end Sys2Proof.Machine
end

