-- ==== Sys2Proof/Machine/Mail.lean ====
section
/-!
DEFINITION. Sys2Proof/Machine/Mail.lean: what the write of a command field of the control plane does where the field is reached
through the registers: the mailbox's doorbell (R441), the debug request (R457), and the NVM commands (R417, R423).
-/

namespace Sys2Proof.Machine

namespace Dev

/-- The 64 bytes of the request registers (Table 17.12). -/
def mbxRequest (d : Dev) : List Byte := (List.range 16).flatMap fun k => leBytes 4 (d.get (MGT.MBX_REQ_DATA k))

/-- MBX_DB.GO (R441): the request is submitted and BUSY rises; while BUSY = 1 it is ignored, with MBX_BUSY. -/
def mbxGo (d : Dev) : Dev :=
  if d.flag MGT.MBX_STAT_BUSY then d.raise MGT.EVT_STAT_MBX_BUSY
  else ({ d with mbxReqs := d.mbxReqs ++ [MbxMsg.mk false d.mbxRequest] }.put MGT.MBX_STAT_BUSY true).logAdd 1750 1

/-- STEP shows the last step completed; it does not go back. -/
def bootStep (d : Dev) (n : Nat) : Dev := d.set NVM.BOOT_STAT_STEP (max n (d.get NVM.BOOT_STAT_STEP))

/-- The loader is applying phase B. -/
def inPhaseB (d : Dev) : Bool :=
  match d.loader with
  | some l => l.phaseB
  | none => false

/-- NVM.CMD.PHASE_B (R417, R424): ignored when it is written again, after RUNNING, or where the Chart has failed. -/
def phaseHold (d : Dev) : Dev :=
  if d.flag NVM.BOOT_STAT_RUNNING || d.inPhaseB || decide (4 ≤ d.get NVM.BOOT_STAT_CHART_RES) then d
  else { d with chartHeld := true }

/-- NVM.CMD.RESTORE_FACTORY (R423): refused while another NVM write is in progress. -/
def restoreStart (d : Dev) (writing : Bool) : Dev :=
  if writing || d.restoring || d.get KEY.STAT_STAGE == 4 then d.raise NVM.EVT_STAT_RESTORE_FAIL
  else { d with restoring := true }

end Dev

/-- Does the mailbox serve this master now (R434, R441)? -/
def mbxServes (d : Dev) (m : Master) : Bool := m == .core || (m == .host && !d.restarting)

/-! ## Meanings -/

/-- MAILBOX_GO (R441). -/
def execMailboxGo (m : Master) (s : State) := s.go fun d => if mbxServes d m then d.mbxGo else d

/-- DEBUG_REQUEST (R457): held in the always-on domain, for the next device reset. -/
def execDebugRequest (s : State) := s.go fun d => d.raise KEY.DBG_CTL_REQ

/-- DEBUG_CLEAR (R457). -/
def execDebugClear (s : State) := s.go fun d => d.put KEY.DBG_CTL_REQ false

end Sys2Proof.Machine
end

