-- ==== Sys2Proof/Machine/Bus.lean ====
section
/-!
DEFINITION. Sys2Proof/Machine/Bus.lean: an access of a bus master to a register (R2 to R18): the windows, the instance that the
master's select registers name, the access codes and classes, what a field with a command of its own does, and the holding
registers; the side port's transactions (R397); and the commit of a copied region (R370).
-/

namespace Sys2Proof.Machine

/-! ## Windows and classes -/

/-- The windows of Table 17.1. -/
def inWindow (off : Nat) : Bool :=
  decide (off < 0x000A0000) || (decide (0x00100000 ≤ off) && decide (off < 0x00D00000)) ||
    (decide (0x00F00000 ≤ off) && decide (off < 0x01000000))

/-- An access that reaches a window (R2, R3). -/
def onBus (off : Nat) : Bool := off % 4 == 0 && inWindow off

/-- The fault class of a window's block, where Table 15.4 names its kinds after that block; the windows of the control plane
belong to class 3 (DEDUCED, log 47). -/
def busClass (off : Nat) : Nat :=
  match off / 0x100000 with
  | 0 => [3, 0, 11, 11, 14, 13, 3, 3, 3, 3].getD (off / 0x10000) 3
  | 1 => 4
  | 2 => 6
  | 3 => 5
  | 4 => 7
  | 5 => 7
  | 6 => 7
  | 7 => 8
  | 8 => 9
  | 9 => 10
  | 10 => 10
  | 11 => 12
  | 12 => 15
  | _ => 3

/-- The class-violation event of a register's owning block (R8). -/
def violField (off : Nat) : Option Fld :=
  match off / 0x100000 with
  | 0 =>
    match off / 0x10000 with
    | 1 => some FLT.BLK_EVT_CLASS_VIOL
    | 2 => some TIM.EVT_STAT_CLASS_VIOL
    | 3 => some REF.EVT_STAT_CLASS_VIOL
    | 6 => some MGT.EVT_STAT_CLASS_VIOL
    | 8 => some EVT.BLK_EVT_CLASS_VIOL
    | 9 => some LOG.BLK_EVT_CLASS_VIOL
    | _ => none
  | 1 => some LNG.BLK_EVT_CLASS_VIOL
  | 2 => some XP.BLK_EVT_CLASS_VIOL
  | 3 => some SLP.BLK_EVT_CLASS_VIOL
  | 4 => some MAC.BLK_EVT_CLASS_VIOL
  | 5 => some FLW.BLK_EVT_CLASS_VIOL
  | 6 => some QM.BLK_EVT_CLASS_VIOL
  | 7 => some FS.BLK_EVT_CLASS_VIOL
  | 8 => some PLT.BLK_EVT_CLASS_VIOL
  | 9 => some AMX.BLK_EVT_CLASS_VIOL
  | 10 => some AUD.BLK_EVT_CLASS_VIOL
  | 11 => some CON.EVT_STAT_CLASS_VIOL
  | 12 => some (if off < 0x00C02000 then HIF.TK_EVT_CLASS_VIOL else HIF.EVT_STAT_CLASS_VIOL)
  | _ => none

/-- The range of a select register and its select-range event (Table 0.6, R17). -/
def selRange (off : Nat) : Option (Nat × Fld) :=
  match off with
  | 0x00010000 => some (256, FLT.BLK_EVT_SEL_RANGE)
  | 0x00050000 => some (32, KEY.EVT_STAT_SEL_RANGE)
  | 0x00080000 => some (512, EVT.BLK_EVT_SEL_RANGE)
  | 0x00090000 => some (2048, LOG.BLK_EVT_SEL_RANGE)
  | 0x00100000 => some (37, LNG.BLK_EVT_SEL_RANGE)
  | 0x00200000 => some (1664, XP.BLK_EVT_SEL_RANGE)
  | 0x00300000 => some (1536, SLP.BLK_EVT_SEL_RANGE)
  | 0x00400000 => some (64, MAC.BLK_EVT_SEL_RANGE)
  | 0x00500000 => some (12288, FLW.BLK_EVT_SEL_RANGE)
  | 0x00600000 => some (16384, QM.BLK_EVT_SEL_RANGE)
  | 0x00700000 => some (512, FS.BLK_EVT_SEL_RANGE)
  | 0x00800000 => some (32, PLT.BLK_EVT_SEL_RANGE)
  | 0x00800004 => some (16, PLT.BLK_EVT_SEL_RANGE)
  | 0x00900000 => some (27648, AMX.BLK_EVT_SEL_RANGE)
  | 0x00A00000 => some (16, AUD.BLK_EVT_SEL_RANGE)
  | _ => none

/-- The MSI-X table and the PBA (R440). -/
def inMsix (off : Nat) : Bool := decide (0x00C08000 ≤ off) && decide (off < 0x00C08400)
def inPba (off : Nat) : Bool := off == 0x00C08800 || off == 0x00C08804

/-- Does the field exist in this instance? Egress and ingress fields of a context (R216, Tables 7.11 to 7.13), general and flow
queues (Tables 7.17 to 7.19), and MODE of group 36 (Table 2.13). -/
def fieldHere (off ch lo : Nat) : Bool :=
  if 0x00500100 ≤ off && off < 0x005001A0 then
    let eg := decide (4096 ≤ ch)
    if off = 0x00500100 then !(eg && (lo == 2 || lo == 11))
    else if off = 0x00500104 then (if eg then lo != 23 else lo != 2 && lo != 12)
    else if off = 0x0050010C then eg
    else if 0x00500160 ≤ off && eg then false
    else
      let o := (off - 0x00500120) % 64
      if o = 0 then !(eg && (lo == 30 || lo == 31))
      else if o = 0x24 then eg || lo != 16
      else if o = 0x28 then eg
      else true
  else if 0x00600100 ≤ off && off < 0x00600120 then decide (12288 ≤ ch)
  else if off = 0x00600128 then decide (ch < 4096)
  else if off = 0x00100100 then !(ch == 36 && lo == 4)
  else true

/-- Fields that a command of their own stores (ROUTE_WRITE, INPUT_ENABLE and the like), and those that ignore writes in this
instance: the severity of a fixed source (R385). -/
def ownField (off ch lo : Nat) : Bool :=
  if off < 0x00100000 then
    (off == 0x00010100 && lo == 0 && fixedHalt ch) || (off == 0x00010108 && lo == 3) || (off == 0x00010014 && lo == 0) ||
      off == 0x00020030 || off == 0x00020034 || (off == 0x00030000 && lo == 0) || (off == 0x00090008 && decide (lo < 2))
  else if 0x00508000 ≤ off && off < 0x00509800 then off % 16 == 0 && lo == 0
  else
    (off == 0x00100100 && (lo == 0 || lo == 2 || lo == 5)) || off == 0x00200100 || (off == 0x00300100 && lo == 0) ||
      (off == 0x00300110 && lo == 0) || (off == 0x00400104 && lo == 0) || (off == 0x00500100 && lo == 0) ||
      (off == 0x00600100 && lo == 0) || off == 0x0060010C || off == 0x00600110 ||
      (off == 0x00700100 && (lo == 0 || lo == 4)) || off == 0x00800100 || off == 0x00800134 ||
      (off == 0x00900008 && lo == 0) || (off == 0x00A00100 && decide (lo < 2)) || (off == 0x00B00000 && lo == 0) ||
      (off == 0x00C01000 && lo == 0)

/-- The registers whose read latches the next one, the high word of a 64-bit value or a 48-bit counter (R6), or of a pair that the spec
names as read so. That the other _LO and _HI pairs, 48-bit values that are no counters, are read live is the model's reading (DEDUCED,
log 90). -/
def isLowWord (off : Nat) : Bool :=
  [0x0000000C, 0x0001002C, 0x00020030, 0x00020038, 0x00020068, 0x00090100, 0x00090108, 0x00600104, 0x00600118,
    0x00900018].contains off ||
    (decide (0x00091000 ≤ off) && decide (off < 0x00091000 + 16 * 270) && off % 8 == 0) ||
    (decide (0x00400200 ≤ off) && decide (off < 0x00400278) && off % 8 == 0)

namespace Dev

/-- The block after a meaning that concerns the block alone. -/
def doing (d : Dev) (f : State → Host.Outcome State Fault Refusal) : Dev :=
  match f ⟨d, [], [], []⟩ with
  | .next t => t.dev
  | _ => d

/-- The response that a master sees: data, and whether it is an error (R3). -/
def respond (d : Dev) (m : Master) (v : Word) (err : Bool) : Dev :=
  { d with answer := mapPut d.answer (m.code, 0) (0, false) (v, err) }

/-- The default target completes an access (R3). -/
def respondMiss (d : Dev) (m : Master) : Dev := d.respond m 0xFFFFFFFF true

/-- A decode miss (R3, R432); the side port has no code in Table 17.2 and is not captured. -/
def miss (d : Dev) (m : Master) (off : Nat) (wr : Bool) : Dev :=
  (if m = .sidePort then d else d.busMiss m.code off wr).respondMiss m

/-- Does the owning block of an S or F field run (R8, R18; the owners are those of R77, R109, R125, R158, R178, R216, R217, R241,
R275, R293, R314, R333, R336, R353, R377, R399, R448 and R491)? -/
def ownerRuns (d : Dev) (off ch lo : Nat) : Bool :=
  match off / 0x100000 with
  | 0 =>
    if off < 0x00020000 then d.flag FLT.WDOG_CFG_EN
    else if off < 0x00020100 then d.flag TIM.SRV_CFG_EN
    else if off < 0x00020180 then d.cadBound ((off - 0x00020100) % 64 / 4)
    else if off < 0x00030000 then d.flag (TIM.TRIG_SEC_HI_EN ((off - 0x00020200) / 16))
    else if off < 0x00030020 then d.flag REF.CTL_EN
    else if off < 0x00040000 then d.candPri ((off - 0x00030020) / 4) != 0
    else if off < 0x00070000 then d.flag MGT.MBX_CFG_RING_EN
    else d.flag LOG.CTL_BW_EN
  | 1 => d.rxState ch != 0 || d.txState ch != 0
  | 2 => d.outRuns ch
  | 3 =>
    if off = 0x00300110 || off = 0x00300114 || (off = 0x00300118 && 16 ≤ lo) then d.flag SLP.OUT_CFG_OUT_EN ch
    else d.flag SLP.IN_CFG_IN_EN ch
  | 4 =>
    if off = 0x00400100 then [0, 1, 2, 3].any fun k => d.flag MAC.STAT_RUN (4 * ch + k) else d.flag MAC.STAT_RUN ch
  | 5 => if off < 0x00508000 then d.ctxRuns ch else d.flag (FLW.BDL_STAT_RUN ((off - 0x00508000) / 16))
  | 6 => if ch < 12288 then d.ctxRuns ch else d.flag QM.Q_CFG_EN ch
  | 7 => if off < 0x00700100 then !(d.flagSet PLT.ENG_STAT_RUN).isEmpty else d.flag FS.SYNC_STAT_RUN ch
  | 8 => d.flag PLT.ENG_STAT_RUN (if off < 0x00800200 then ch else ch / 16)
  | 9 => d.flag AMX.BLK_STAT_RUN
  | 10 =>
    let tx := off == 0x00A00104 || (off == 0x00A00100 && lo == 4) || (off == 0x00A0010C && lo == 0)
    let rx := off == 0x00A00108 || (off == 0x00A00100 && lo == 5) || (off == 0x00A0010C && lo == 16)
    (!rx && d.audRuns ch true) || (!tx && d.audRuns ch false)
  | 11 => d.flag CON.CTL_EN
  | _ => if off < 0x00C02000 then d.flag HIF.TK_CTL_EN else d.flag HIF.DMA_CTL_EN

/-- The instance of a register that a master reaches (R15, R17): none while its window is closed. A port's four MACs see one
PORT_CFG (R178); COEF_DATA and GCL_DATA reach the entry that an index register names. -/
def busCh (d : Dev) (m : Master) (r : RegRow) : Option Nat :=
  match r.sel with
  | .none => some (if r.off = 0x00010028 then logCh m else 0)
  | .master => some m.code
  | .grp => d.selOf m LNG.GRP_SEL_SEL 37
  | .slot => d.selOf m SLP.SLOT_SEL_SEL 1536
  | .out => d.selOf m XP.OUT_SEL_SEL 1664
  | .mac => (d.selOf m MAC.PORT_SEL_SEL 64).map fun c =>
      if r.off = 0x00400100 then c / 4 else if r.off = 0x00400178 then c * 64 + d.get MAC.GCL_IDX_IDX c else c
  | .flow => d.selOf m FLW.FLOW_SEL_SEL 12288
  | .queue => d.selOf m QM.Q_SEL_SEL 16384
  | .sync => d.selOf m FS.SYNC_SEL_SEL 512
  | .eng =>
    match d.selOf m PLT.ENG_SEL_SEL 32, d.selOf m PLT.LAY_SEL_SEL 16 with
    | some e, some _ => some (if r.off = 0x00800134 then e * 1024 + d.get PLT.COEF_IDX_IDX e else e)
    | _, _ => none
  | .lay =>
    match d.selOf m PLT.ENG_SEL_SEL 32, d.selOf m PLT.LAY_SEL_SEL 16 with
    | some e, some l => some (e * 16 + l)
    | _, _ => none
  | .amx => d.selOf m AMX.CH_SEL_SEL 27648
  | .aud => d.selOf m AUD.PORT_SEL_SEL 16
  | .evt => d.selOf m EVT.SRC_SEL_SEL 512
  | .flt => d.selOf m FLT.SRC_SEL_SEL 256
  | .key => d.selOf m KEY.SLOT_SEL_SEL 32
  | .ctr => d.selOf m LOG.CTR_SEL_SEL 2048

/-! ## Writes -/

/-- One field of a written register is stored by its access code and its class (R7, R8), judged against the owner's state before
the write; the flag says whether an S field's change was ignored. -/
def storeField (was : Dev) (off ch : Nat) (v : Word) (x : Dev × Bool) (f : FieldRow) : Dev × Bool :=
  let fld : Fld := ⟨off, f.lo, f.w⟩
  let n := bitsOf v f.lo f.w
  let d := x.1
  match f.acc with
  | .ro | .rs | .wx => x
  | .wc => (d.set fld (d.get fld ch - (d.get fld ch &&& n)) ch, x.2)
  | .ws => (d.set fld (d.get fld ch ||| n) ch, x.2)
  | .rw | .rwp =>
    if ownField off ch f.lo || !fieldHere off ch f.lo then x
    else
      match f.cls with
      | .static => if was.ownerRuns off ch f.lo then (d, x.2 || n != d.get fld ch) else (d.set fld n ch, x.2)
      | .shadow => ((d.set fld n ch).when (!was.ownerRuns off ch f.lo) fun d => d.commit off ch, x.2)
      | .live | .none => (d.set fld n ch, x.2)

/-- Every field of a written register (R8): one class-violation event for the write, captured by BUS (R432). -/
def storeReg (d : Dev) (m : Master) (r : RegRow) (off ch : Nat) (v : Word) : Dev :=
  let x := r.fields.foldl (d.storeField off ch v) (d, false)
  if x.2 then
    let e := match violField off with
      | some f => x.1.raise f
      | none => x.1
    if m = .sidePort then e else e.busViol m.code off
  else x.1

/-- What follows a write of the always-on, time, reference, store and control windows (offsets below 0x0010_0000): the commands
that its fields carry, with `was` the block before the write. -/
def followLow (d was : Dev) (m : Master) (off ch : Nat) (v : Word) : Dev :=
  let b (i : Nat) : Bool := v.toNat.testBit i
  match off with
  | 0x00000120 => d.when (b 0) (·.doing execXingCntClr)
  | 0x00010008 => d.refreshActions
  | 0x00010010 =>
    let d := d.when (b 0) (·.doing execLogClr)
    (d.when (b 1) (·.doing execAckAll)).when (b 2) (·.doing execFltCntClr)
  | 0x00010014 =>
    if m = .sidePort then (d.doing (execSpSafeIdle (b 0))).when (b 1) (·.doing execDevReset) else d
  | 0x0001001C => d.when (d.flag FLT.WDOG_CFG_EN && !was.flag FLT.WDOG_CFG_EN) (·.mark .kick 0)
  | 0x00010020 => d.doing (execWdogKick v)
  | 0x00010108 =>
    let s := Fin.ofNat 256 ch
    let d := (d.when (b 0) (·.doing (execSrcAck s))).when (b 1) (·.doing (execSrcClr s))
    (d.when (b 2) (·.doing (execSrcInj s))).doing (execSrcForce s (b 3))
  | 0x00020030 => d.doing (execIncrWrite false v)
  | 0x00020034 => d.doing (execIncrWrite true v)
  | 0x00020070 =>
    let d := if b 0 then d.doing execTimeSet else d.when (b 1) (·.doing execTimeAdj)
    let d := (d.when (b 2) (·.doing execSrvPush)).when (b 3) (·.doing execCadSnap)
    (d.when (b 4) (·.doing execSrvReset)).when (b 5) (·.doing execTimCntClr)
  | 0x00020088 => ((List.range 32).filter b).foldl (fun d i => d.doing (execTsqPop (Fin.ofNat 64 i))) d
  | 0x0002008C => ((List.range 32).filter b).foldl (fun d i => d.doing (execTsqPop (Fin.ofNat 64 (32 + i)))) d
  | 0x00030000 => if b 0 == was.flag REF.CTL_EN then d else d.doing (execLodestarEnable (b 0))
  | 0x00030048 =>
    let d := (d.when (b 0) (·.doing execPtpKeep)).when (b 1) (·.doing execRequal)
    d.when (b 2) (·.doing execLrnClr)
  | 0x000300AC => d.showLrn
  | 0x00040008 => (d.when (b 0) (·.phaseHold)).when (b 1) fun d => d.restoreStart false
  | 0x0005000C => d.when (b 1) (·.doing execDebugClear)
  | 0x0006000C => d.when (b 0) (·.doing (execMailboxGo m))
  | 0x00070014 => d.when (b 0) (·.doing execBusClr)
  | 0x00080008 =>
    let i := Fin.ofNat 128 (d.get EVT.SOFT_IDX)
    if b 8 then d.doing (execSoftSet i) else d.when (b 9) (·.doing (execSoftClr i))
  | 0x00080050 => d.refreshPins
  | 0x00080058 => d.doing (execVecAck 0 v)
  | 0x0008005C => d.doing (execVecAck 1 v)
  | 0x00080100 => d.refreshPins
  | 0x00090008 =>
    (if b 0 == was.flag LOG.CTL_FREEZE then d else d.doing (execFreeze (b 0))).put LOG.CTL_BW_EN (b 1) |>.bwEnable (b 1)
  | 0x00090010 =>
    let d := (d.when (b 0) (·.doing execSnapshot)).when (b 1) (·.doing execClrAll)
    d.when (b 2) (·.doing execPeakClr)
  | _ =>
    if 0x00020100 ≤ off && off < 0x00020180 then
      let c := (off - 0x00020100) % 64 / 4
      if d.reg off 0 = was.reg off 0 then d else { d with cadLast := mapPut d.cadLast (c, 0) (-1) (d.cadIndex c) }
    else if 0x00030020 ≤ off && off < 0x00030030 then d.refCfg
    else d

/-- What follows a write of the windows of the lanes, the crosspoint, the slots and the MACs. -/
def followSignal (d was : Dev) (m : Master) (off ch : Nat) (v : Word) : Dev :=
  let b (i : Nat) : Bool := v.toNat.testBit i
  match off with
  | 0x00100100 =>
    let g := Fin.ofNat 37 ch
    let rx := v.toNat % 4
    let tx := v.toNat / 4 % 4
    let d := if rx = was.get LNG.GRP_CTL_RX_REQ ch then d else d.doing (execRxReqWrite g (BitVec.ofNat 2 rx))
    let d := if tx = was.get LNG.GRP_CTL_TX_REQ ch then d else d.doing (execTxReqWrite g (BitVec.ofNat 2 tx))
    d.doing (execRetrainAutoWrite g (b 5))
  | 0x00100140 =>
    let g := Fin.ofNat 37 ch
    let d := (d.when (b 0) (·.doing (execLngCntClr g))).when (b 1) (·.doing (execForceRetrain g))
    d.when (b 2) (·.doing (execForceTrain g))
  | 0x00200100 => d.doing (execRouteWrite m v)
  | 0x00200104 => d.when (!d.outRuns ch) (·.evalTrig ch)
  | 0x00200114 => d.when (b 0) (·.doing (execXpCntClr (Fin.ofNat 1664 ch)))
  | 0x00300100 =>
    let s := Fin.ofNat 1536 ch
    if b 0 == was.flag SLP.IN_CFG_IN_EN ch then d else d.doing (execInputEnable s (b 0))
  | 0x00300110 =>
    let d := d.doing (execOutputEnable (Fin.ofNat 1536 ch) (b 0))
    if d.outRuns ch then d.refreshSrc ch else d.evalTrig ch
  | 0x003001C0 => d.when (b 0) fun d =>
      d.clear [SLP.CNT_CRC_COUNT, SLP.CNT_TRS_COUNT, SLP.CNT_AUD_SLIP_COUNT, SLP.CNT_ANC_DROP_COUNT, SLP.CNT_FILL_COUNT] ch
  | 0x00400100 => d.refreshActive ch
  | 0x00400104 => d.doing (execMacEnable (Fin.ofNat 64 ch) (b 0))
  | 0x00400160 => (d.gateShow ch).when (b 1) (·.doing (execGateCfgChange (Fin.ofNat 64 ch)))
  | 0x00400190 =>
    let k := Fin.ofNat 64 ch
    (d.when (b 0) (·.doing (execMacCntClr k))).when (b 1) (·.doing (execLinkRestart k))
  | _ => d

/-- What follows a write of the windows of the flows, the queues and the frame store. -/
def followPacket (d was : Dev) (m : Master) (off ch : Nat) (v : Word) : Dev :=
  let b (i : Nat) : Bool := v.toNat.testBit i
  match off with
  | 0x0050001C => d.when (b 0) (·.doing execFlwBlkCntClr)
  | 0x00500100 => d.doing (execContextEnable (Fin.ofNat 12288 ch) (b 0))
  | 0x005001D0 => d.when (b 0) (·.doing (execFlwCntClr (Fin.ofNat 12288 ch)))
  | 0x00600100 => if ch < 12288 then d else (d.doing (execQueueEnable (Fin.ofNat 4096 (ch - 12288)) (b 0))).qDue ch
  | 0x00600114 => if ch < 12288 then d else d.qDue ch
  | 0x0060010C => d.doing (execQueueIndexWrite m true v)
  | 0x00600110 => d.doing (execQueueIndexWrite m false v)
  | 0x00600130 =>
    let q := Fin.ofNat 16384 ch
    let d := (d.when (b 0) (·.doing (execQCntClr q))).when (b 1) (·.doing (execHwmClr q))
    d.when (b 2 && decide (12288 ≤ ch)) (·.doing (execIdxClr (Fin.ofNat 4096 (ch - 12288))))
  | 0x00700024 => (d.when (b 0) (·.doing execFsCntClr)).when (b 1) (·.doing execEccAddrClr)
  | 0x00700100 =>
    let n := Fin.ofNat 512 ch
    let d := if b 4 == was.flag FS.SYNC_CTL_FRZ ch then d else d.doing (execSyncFreeze n (b 4))
    d.doing (if b 0 then execSyncStart n else execSyncStop n)
  | 0x00700130 => d.when (b 0) (·.doing (execSyncCntClr (Fin.ofNat 512 ch)))
  | _ =>
    if 0x00508000 ≤ off && off < 0x00509800 && off % 16 = 0 then
      d.doing (execBundleEnable (Fin.ofNat 384 ((off - 0x00508000) / 16)) (b 0))
    else d

/-- What follows a write of the windows of the Plotters, the audio blocks, Consort and the host interface. -/
def followHigh (d was : Dev) (m : Master) (off ch : Nat) (v : Word) : Dev :=
  let b (i : Nat) : Bool := v.toNat.testBit i
  match off with
  | 0x00800100 => d.doing (if b 0 then execEngineStart (Fin.ofNat 32 ch) else execEngineStop (Fin.ofNat 32 ch))
  | 0x0080010C =>
    let e := Fin.ofNat 32 ch
    (d.when (b 0) (·.doing (execEngineCommit e))).when (b 1) (·.doing (execEngineCntClr e))
  | 0x00800134 => d.doing (execCoefDataAccess m (some v))
  | 0x00900008 => d.doing (execMatrixEnable (b 0))
  | 0x0090000C => (d.when (b 0) (·.doing execAmxCommit)).when (b 1) (·.doing execAmxCntClr)
  | 0x00A00100 =>
    let p := Fin.ofNat 16 ch
    ((d.audMembers ch).doing (execAudioDirectionEnable p true (b 0))).doing (execAudioDirectionEnable p false (b 1))
  | 0x00A00140 => d.when (b 0) (·.doing (execAudCntClr (Fin.ofNat 16 ch)))
  | 0x00B00000 =>
    (if b 0 == was.flag CON.CTL_EN then d else d.doing (execConsortEnable (b 0))).conRole
  | 0x00B00010 =>
    let d := (d.when (b 0) (·.doing execForceActive)).when (b 1) (·.doing execJoin)
    (d.when (b 2) (·.doing execYieldCmd)).when (b 3) (·.doing execConCntClr)
  | 0x00C01000 => d.doing (execTakeEngineEnable (b 0))
  | 0x00C01020 => (d.when (b 1) (·.doing (execTakeFlush m))).when (b 0) (·.doing (execTakeGo m))
  | 0x00C01060 => d.when (b 0) (·.doing execTkCntClr)
  | _ => d

/-- What follows a write, by window. -/
def followWrite (d was : Dev) (m : Master) (off ch : Nat) (v : Word) : Dev :=
  if off < 0x00100000 then d.followLow was m off ch v
  else if off < 0x00500000 then d.followSignal was m off ch v
  else if off < 0x00800000 then d.followPacket was m off ch v
  else d.followHigh was m off ch v

/-- A select register (R15 to R17): the master's own copy stores the value; one out of range raises the block's event. -/
def selWrite (d : Dev) (m : Master) (r : RegRow) (v : Word) : Dev :=
  match selRange r.off, r.fields with
  | some (n, evt), f :: _ =>
    let x := bitsOf v f.lo f.w
    (d.set ⟨r.off, f.lo, f.w⟩ x m.code).raiseIf (decide (n ≤ x)) evt
  | _, _ => d

/-- A word of the MSI-X table (R436, R440); unmasking sends a held message. -/
def msixWrite (d : Dev) (off : Nat) (v : Word) : Dev :=
  match off % 16 with
  | 12 => (d.setReg off 0 (BitVec.ofNat 32 (v.toNat % 2))).when (v.toNat % 2 == 0)
      (·.doing (execMsixUnmask (Fin.ofNat 64 ((off - 0x00C08000) / 16))))
  | 0 => d.setReg off 0 (BitVec.ofNat 32 (v.toNat / 4 * 4))
  | _ => d.setReg off 0 v

/-- Do the mailbox registers turn a master's write away (R441)? -/
def mbxShut (d : Dev) (m : Master) (off : Nat) (wr : Bool) : Bool :=
  let box := decide (0x00060008 ≤ off) && decide (off < 0x00070000)
  box && ((m != .core && m != .host) ||
    (wr && m == .host && decide (0x00060100 ≤ off) && decide (off < 0x00060140) && d.flag MGT.MBX_STAT_BUSY))

/-- A write that reaches a window of the interconnect (R4, R8, R17). -/
def regWrite (d : Dev) (m : Master) (off : Nat) (v : Word) : Dev :=
  if inMsix off then d.msixWrite off v
  else if d.mbxShut m off true then d
  else
    match findReg off with
    | none => d
    | some r =>
      if (selRange off).isSome then d.selWrite m r v
      else
        match d.busCh m r with
        | none => d
        | some ch => (d.storeReg m r off ch v).followWrite d m off ch v

/-- Is a host access answered by the default target, because the control side restarts (R434)? -/
def shutOut (d : Dev) (m : Master) (off : Nat) : Bool :=
  m == .host && d.restarting && !(0x00010000 ≤ off && off < 0x00020000) && off != 0x00C00000 && off != 0x00C00004

/-- Does the master reach registers at all: not the DMA engine (Table 17.2), nor the debug port outside debug mode (R457)? -/
def busMaster (d : Dev) (m : Master) : Bool := m != .dma && (m != .debug || d.flag KEY.STAT_DEBUG)

/-- The host's accesses count in the Logbook (Table 20.1, Table 20.2). -/
def hostCount (d : Dev) (m : Master) (wr : Bool) : Dev :=
  if m = .host then (d.logAdd (if wr then 1745 else 1744) 1).bwAdd (if wr then 266 else 267) 4 else d

/-- A write by a bus master (R2 to R18). A write of the debug port is a fault of kind DBG of the block's class (Table 15.3). -/
def busWrite (d : Dev) (m : Master) (off : Nat) (v : Word) : Dev :=
  if !d.busMaster m then d
  else
    let d := d.hostCount m true
    if !onBus off then d.miss m off true
    else if d.shutOut m off then d.respondMiss m
    else
      let d := (d.respond m 0 false).regWrite m off v
      if m = .debug && off < 0x00F00000 then d.pulseFault ⟨16 * busClass off + 11, 3, 0, 0⟩ else d

/-! ## Reads -/

/-- The value of a register's instance as it stands (R10, R315, R317, R319, R333, R435). -/
def liveWord (d : Dev) (m : Master) (off ch : Nat) : Word :=
  match off with
  | 0x00020010 => BitVec.ofNat 32 (d.time / 2 ^ 24 % 65536)
  | 0x00020014 => BitVec.ofNat 32 d.timeNs
  | 0x00020018 => BitVec.ofNat 32 d.timeSec
  | 0x0002001C => BitVec.ofNat 32 (d.timeSec / 2 ^ 32 % 65536)
  | 0x00020068 => BitVec.ofInt 32 (d.res / 65536)
  | 0x0002006C => BitVec.ofInt 32 (d.res / 65536 / 2 ^ 32)
  | 0x0001002C => BitVec.ofNat 32 d.aclk
  | 0x00010030 => BitVec.ofNat 32 (d.aclk / 2 ^ 32 % 65536)
  | 0x000300B0 => BitVec.ofInt 32 d.lrnMean
  | 0x00080108 => BitVec.ofNat 32 (d.srcMap ch)
  | _ =>
    if 0x00010200 ≤ off && off < 0x00010220 then d.logWord m ((off - 0x00010200) / 4)
    else if 0x00020100 ≤ off && off < 0x00020140 then
      putBits (d.reg off ch) 8 1 (b2n (d.cadBound ((off - 0x00020100) / 4)))
    else if 0x00080010 ≤ off && off < 0x00080050 then
      let i := (off - 0x00080010) / 4
      BitVec.ofNat 32 (((List.range 32).filter fun j => d.srcPending (32 * i + j)).map (2 ^ ·)).sum
    else if 0x00900120 ≤ off && off < 0x00900130 then d.actReg (off - 0x20) ch
    else d.reg off ch

/-- A register as a master reads it: reserved bits, wx fields and the fields that the instance lacks read 0 (R5, R7, R216, R217). -/
def readWord (d : Dev) (m : Master) (r : RegRow) (off ch : Nat) : Word :=
  let v := d.liveWord m off ch
  r.fields.foldl (fun w f =>
    if f.acc == .wx || !fieldHere off ch f.lo then w else putBits w f.lo f.w (bitsOf v f.lo f.w)) 0

/-- The live value of a register at an offset, through the master's window. -/
def peek (d : Dev) (m : Master) (off : Nat) : Word :=
  match findReg off with
  | none => 0
  | some r =>
    match d.busCh m r with
    | none => 0
    | some ch => d.readWord m r off ch

/-- A holding register is filled with what stands at an offset now (R6, R317). -/
def latch (d : Dev) (m : Master) (off : Nat) : Dev :=
  { d with hold := mapPut d.hold (m.code, off) none (some (d.peek m off)) }

/-- What a read does beside answering (R6, R253, R317, R351, R399). -/
def readEffect (d : Dev) (m : Master) (off : Nat) : Dev :=
  if off = 0x00020010 then ((d.latch m 0x00020014).latch m 0x00020018).latch m 0x0002001C
  else if isLowWord off then d.latch m (off + 4)
  else if off = 0x000300B0 then d.doing (execLrnDataRead m)
  else if off = 0x0001021C then d.doing (execLogDataRead m)
  else if off = 0x00800134 then d.doing (execCoefDataAccess m none)
  else d

/-- The data of a read of a window's register, and the block after it. A high word that is held is returned once, also where the
master's select has gone out of range since (R6 against R17: DESIGN CHOICE, log 91). -/
def regRead (d : Dev) (m : Master) (off : Nat) : Word × Dev :=
  if inMsix off || inPba off then (d.reg off 0, d)
  else if d.mbxShut m off false then (0, d)
  else
    match mapGet d.hold (m.code, off) none with
    | some v => (v, { d with hold := mapPut d.hold (m.code, off) none none })
    | none => (d.peek m off, d.readEffect m off)

/-- A read by a bus master (R2 to R18): its data, and the block after it. -/
def busRead (d : Dev) (m : Master) (off : Nat) : Word × Dev :=
  if !d.busMaster m then (0, d)
  else
    let d := d.hostCount m false
    if !onBus off then (0xFFFFFFFF, d.miss m off false)
    else if d.shutOut m off then (0xFFFFFFFF, d.respondMiss m)
    else
      let r := d.regRead m off
      (r.1, r.2.respond m r.1 false)

/-! ## The side port (R397) -/

/-- Groups of four bytes are written to registers at rising offsets; a trailing part is discarded, and the FLT window bounds
them. -/
def spWrites (d : Dev) (off : Nat) : List Byte → Dev
  | a :: b :: c :: e :: bs =>
    let d := if off < 0x10000 then d.busWrite .sidePort (0x00010000 + off) (BitVec.ofNat 32 (leNat [a, b, c, e])) else d
    spWrites d (off + 4) bs
  | _ => d

/-- Registers are read at rising offsets. -/
def spReads (d : Dev) (off : Nat) : Nat → List Byte × Dev
  | 0 => ([], d)
  | n + 1 =>
    let r := if off < 0x10000 then d.busRead .sidePort (0x00010000 + off) else (0, d)
    let t := spReads r.2 (off + 4) n
    (leBytes 4 r.1.toNat ++ t.1, t.2)

/-! ## The commit of a copied region (R370) -/

/-- A shadow that SNAP has completed is committed: the Consort agent writes the region's registers through its own select copies,
and the region is done. -/
def regionDone (d : Dev) (jseq r : Nat) (writes : List (Nat × Word)) : Dev :=
  (writes.foldl (fun d w => d.busWrite .consort w.1 w.2) d).copyDone r jseq

end Dev

/-- The bytes of a committed region that lie in the frame store: those of region 5, SURF. -/
def surfImage (d : Dev) : List Byte :=
  match d.con.shadow.whole with
  | some (size, _) => if d.get CON.COPY_CUR = 5 then (imageOf d.con.shadow.data size).getD [] else []
  | none => []

namespace State

/-- A write of the device to SURF and HOST (R238): bytes elsewhere are not written; a granule written whole is good again (R240). -/
def writeStore (s : State) (a : Nat) (bs : List Byte) : State :=
  if bs.isEmpty then s
  else
    let some' := bs.map some
    let good := (fullGranules a some').filter fun g => decide (surfStart ≤ g * 32)
    let d := s.dev.hbmAccess true a bs.length
    { s with store := bar2Put s.store a some', dev := { d with ueGran := d.ueGran.filter fun g => !good.contains g } }

end State

/-! ## Meanings -/

/-- DECODE_MISS (R2, R3, R432): an access outside every window, or of a width or an alignment that R2 rejects. -/
def execDecodeMiss (m : Master) (off : Nat) (wr : Bool) (s : State) := s.go fun d =>
  if d.busMaster m then (d.hostCount m wr).miss m off wr else d

/-- SELECT_WRITE (R15 to R17): a write to a select register. -/
def execSelectWrite (m : Master) (off : Nat) (v : Word) (s : State) := s.go fun d =>
  if (selRange off).isSome then d.busWrite m off v else d

/-- LOW_WORD_READ (R6): the high word is latched for the reading master. -/
def execLowWordRead (m : Master) (off : Nat) (s : State) := s.go fun d => (d.busRead m off).2

/-- TIME_FRAC_READ (R317): TIME_NS and TIME_SEC are latched for the reading master. -/
def execTimeFracRead (m : Master) (s : State) := s.go fun d => (d.busRead m 0x00020010).2

/-- TARGET_TIMEOUT (R431): completed as the default target completes it, HS_TMO of the target's class, and TMO; while the control
side restarts the host's access raises no HS_TMO (R434). -/
def execTargetTimeout (m : Master) (off : Nat) (wr : Bool) (s : State) := s.go fun d =>
  if d.busMaster m then
    let d := (d.hostCount m wr).respondMiss m
    if d.shutOut m off then d
    else (d.raise BUS.EVT_STAT_TMO).pulseFault ⟨16 * busClass off + 8, 3, 0, 0⟩
  else d

/-- SIDE_PORT_WRITE (R397): an offset that is not a multiple of 4 is not acknowledged. -/
def execSidePortWrite (off : BitVec 16) (data : List Byte) (s : State) := s.go fun d =>
  if off.toNat % 4 = 0 then { d with spNack := false }.spWrites off.toNat data else { d with spNack := true }

/-- SIDE_PORT_READ (R397). -/
def execSidePortRead (off : BitVec 16) (regs : Nat) (s : State) := s.go fun d =>
  if off.toNat % 4 = 0 then
    let r := { d with spNack := false }.spReads off.toNat regs
    { r.2 with spData := r.1 }
  else { d with spNack := true }

/-- REGION_COMMIT (R370): a shadow that SNAP has completed is committed; `writes` are the registers that the image holds, whose
layout the spec leaves to the device. SURF goes to the frame store. -/
def execRegionCommit (writes : List (Nat × Word)) (s : State) : Host.Outcome State Fault Refusal :=
  match s.dev.con.shadow.whole with
  | some w =>
    let t := s.writeStore surfStart (surfImage s.dev)
    .next { t with dev := t.dev.regionDone w.2 (s.dev.get CON.COPY_CUR) writes }
  | none => .next s

end Sys2Proof.Machine
end

