-- ==== Sys2Proof/Machine/Crypt.lean ====
section
/-!
DEFINITION. Sys2Proof/Machine/Crypt.lean: the published algorithms that the key store names: AES-256 in Galois/Counter Mode with a
96-bit IV (Tables 18.2 and 18.3, R460), and the verification of an ECDSA signature on P-384 (R459).
-/

namespace Sys2Proof.Machine

/-! ## AES-256 -/

/-- Multiplication by x in GF(2^8). -/
def gfTwice (a : Nat) : Nat := if a < 128 then 2 * a else (2 * a) % 256 ^^^ 0x1B

/-- Multiplication in GF(2^8), over `k` bits of the second factor from the top. -/
def gfMul (a b : Nat) : Nat → Nat
  | 0 => 0
  | k + 1 => (if b.testBit (7 - k) then a else 0) ^^^ gfTwice (gfMul a b k)

/-- The product of two bytes in GF(2^8). -/
def gfProd (a b : Nat) : Nat := gfMul a b 8

/-- The inverse in GF(2^8) as the 254th power; 0 for 0. -/
def gfInv (a : Nat) : Nat :=
  let a2 := gfProd a a
  let a4 := gfProd a2 a2
  let a8 := gfProd a4 a4
  let a16 := gfProd a8 a8
  let a32 := gfProd a16 a16
  let a64 := gfProd a32 a32
  let a128 := gfProd a64 a64
  gfProd a128 (gfProd a64 (gfProd a32 (gfProd a16 (gfProd a8 (gfProd a4 a2)))))

/-- A byte rotated left. -/
def rotl8 (n x : Nat) : Nat := (x * 2 ^ n) % 256 ||| x / 2 ^ (8 - n)

/-- The S-box. -/
def aesSub (b : Nat) : Nat :=
  let i := gfInv b
  i ^^^ rotl8 1 i ^^^ rotl8 2 i ^^^ rotl8 3 i ^^^ rotl8 4 i ^^^ 0x63

/-- The exclusive or of two lists, byte by byte. -/
def xorList (a b : List Nat) : List Nat := List.zipWith (· ^^^ ·) a b

/-- The round constants. -/
def aesRcon (i : Nat) : Nat := [1, 2, 4, 8, 16, 32, 64].getD i 0

/-- The key schedule: words of four bytes, newest first; word number `i` is formed from the last and the eighth last. -/
def aesExpand (ws : List (List Nat)) (i : Nat) : Nat → List (List Nat)
  | 0 => ws
  | k + 1 =>
    let t := ws.headD []
    let t' :=
      if i % 8 = 0 then xorList ((t.drop 1 ++ t.take 1).map aesSub) [aesRcon (i / 8 - 1), 0, 0, 0]
      else if i % 8 = 4 then t.map aesSub
      else t
    aesExpand (xorList t' (ws.getD 7 []) :: ws) (i + 1) k

/-- The words of a list of bytes, four by four. -/
def quads : Nat → List Nat → List (List Nat)
  | 0, _ => []
  | k + 1, bs => bs.take 4 :: quads k (bs.drop 4)

/-- The fifteen round keys of a 32-byte key. -/
def aesKeys (key : List Nat) : List (List Nat) :=
  let ws := (aesExpand (quads 8 key).reverse 8 52).reverse
  (List.range 15).map fun r => ((ws.drop (4 * r)).take 4).flatten

/-- ShiftRows on the sixteen bytes, column by column. -/
def aesShift (s : List Nat) : List Nat := (List.range 16).map fun i => s.getD ((i + 4 * (i % 4)) % 16) 0

/-- MixColumns. -/
def aesMix (s : List Nat) : List Nat :=
  (List.range 16).map fun i =>
    let b (k : Nat) : Nat := s.getD (i / 4 * 4 + (i + k) % 4) 0
    gfTwice (b 0) ^^^ gfTwice (b 1) ^^^ b 1 ^^^ b 2 ^^^ b 3

/-- The rounds, given the round keys that follow. -/
def aesRounds (s : List Nat) : List (List Nat) → List Nat
  | [] => s
  | [k] => xorList (aesShift (s.map aesSub)) k
  | k :: ks => aesRounds (xorList (aesMix (aesShift (s.map aesSub))) k) ks

/-- The encryption of one block under round keys. -/
def aesBlock (ks : List (List Nat)) (b : List Nat) : List Nat := aesRounds (xorList b (ks.headD [])) ks.tail

/-! ## Galois/Counter Mode -/

/-- The product in GF(2^128) with the bit order of the mode, over `k` bits of the first factor; `v` is the second factor, shifted. -/
def gcmMul (x : Nat) : Nat → Nat → Nat → Nat
  | 0, _, z => z
  | k + 1, v, z =>
    gcmMul x k (if v % 2 = 1 then v / 2 ^^^ 0xE1 * 2 ^ 120 else v / 2) (if x.testBit k then z ^^^ v else z)

/-- The blocks of 16 bytes of a list, the last filled with zeros, at most `k` of them, as numbers. -/
def gcmBlocks : Nat → List Byte → List Nat
  | 0, _ => []
  | k + 1, bs => if bs.isEmpty then [] else
      let b := bs.take 16
      beNat (b ++ List.replicate (16 - b.length) 0) :: gcmBlocks k (bs.drop 16)

/-- GHASH under H of the additional data and the ciphertext. -/
def ghash (h : Nat) (aad ct : List Byte) : Nat :=
  (gcmBlocks (aad.length / 16 + 1) aad ++ gcmBlocks (ct.length / 16 + 1) ct ++ [aad.length * 8 * 2 ^ 64 + ct.length * 8]).foldl
    (fun y x => gcmMul (y ^^^ x) 128 h 0) 0

/-- A block of bytes from a number, encrypted. -/
def gcmStream (ks : List (List Nat)) (n : Nat) : List Nat := aesBlock ks ((beBytes 16 n).map BitVec.toNat)

/-- The key stream applied to data, from a counter on. -/
def gcmCrypt (ks : List (List Nat)) (iv : Nat) : Nat → Nat → List Byte → List Byte
  | 0, _, _ => []
  | k + 1, c, bs => if bs.isEmpty then [] else
      let s := gcmStream ks (iv * 2 ^ 32 + c % 2 ^ 32)
      List.zipWith (fun b x => b ^^^ BitVec.ofNat 8 x) (bs.take 16) s ++ gcmCrypt ks iv k (c + 1) (bs.drop 16)

/-- The tag of additional data and ciphertext. -/
def gcmTag (ks : List (List Nat)) (iv : Nat) (aad ct : List Byte) : List Byte :=
  let h := beNat ((gcmStream ks 0).map (BitVec.ofNat 8 ·))
  let e := beNat ((gcmStream ks (iv * 2 ^ 32 + 1)).map (BitVec.ofNat 8 ·))
  beBytes 16 (ghash h aad ct ^^^ e)

/-- AES-256-GCM encryption under a 32-byte key and a 12-byte IV: the ciphertext and the tag. -/
def gcmSeal (key iv aad pt : List Byte) : List Byte × List Byte :=
  let ks := aesKeys (key.map BitVec.toNat)
  let ct := gcmCrypt ks (beNat iv) (pt.length / 16 + 1) 2 pt
  (ct, gcmTag ks (beNat iv) aad ct)

/-- AES-256-GCM decryption: the plaintext, where the tag verifies. -/
def gcmOpen (key iv aad ct tag : List Byte) : Option (List Byte) :=
  let ks := aesKeys (key.map BitVec.toNat)
  if gcmTag ks (beNat iv) aad ct = tag then some (gcmCrypt ks (beNat iv) (ct.length / 16 + 1) 2 ct) else none

/-! ## ECDSA on P-384 -/

/-- The field, the order of the base point, and the coefficient b of the curve. -/
def p384P : Nat := 2 ^ 384 - 2 ^ 128 - 2 ^ 96 + 2 ^ 32 - 1
def p384N : Nat := 0xffffffffffffffffffffffffffffffffffffffffffffffffc7634d81f4372ddf581a0db248b0a77aecec196accc52973
def p384B : Nat := 0xb3312fa7e23ee7e4988e056be3f82d19181d9c6efe8141120314088f5013875ac656398d8a2ed19d2a85c8edd3ec2aef

/-- A point of the curve as (X, Y, Z) with x = X / Z^2 and y = Y / Z^3; Z = 0 is the point at infinity. -/
structure EcPoint where
  x : Nat
  y : Nat
  z : Nat
  deriving DecidableEq, Repr

/-- The base point. -/
def p384G : EcPoint :=
  ⟨0xaa87ca22be8b05378eb1c71ef320ad746e1d3b628ba79b9859f741e082542a385502f25dbf55296c3a545e3872760ab7,
    0x3617de4a96262c6f5d9e98bf9292dc29f8f41dbd289a147ce9da3113b5f0b8c00a60b1ce1d7e819d7a431d7c90ea0e5f, 1⟩

/-- A power modulo m; the exponent's bits come most significant first. -/
def powMod (m a : Nat) (bits : List Bool) : Nat :=
  bits.foldl (fun r b => let s := r * r % m; if b then s * a % m else s) 1

/-- The inverse modulo a prime of 384 bits. -/
def invMod (m a : Nat) : Nat := powMod m (a % m) (msbBits 384 (m - 2))

/-- A difference modulo p. -/
def subP (a b : Nat) : Nat := (a % p384P + p384P - b % p384P) % p384P

/-- Twice a point. -/
def ecDouble (a : EcPoint) : EcPoint :=
  let g := a.y * a.y % p384P
  let b := a.x * g % p384P
  let m := subP (3 * a.x * a.x) (3 * (a.z * a.z % p384P) * (a.z * a.z % p384P))
  let x := subP (m * m) (8 * b)
  ⟨x, subP (m * subP (4 * b) x) (8 * g * g), 2 * a.y * a.z % p384P⟩

/-- The sum of two points. -/
def ecAdd (a b : EcPoint) : EcPoint :=
  if a.z = 0 then b
  else if b.z = 0 then a
  else
    let u := a.x * b.z * b.z % p384P
    let v := a.y * b.z * b.z * b.z % p384P
    let h := subP (b.x * a.z * a.z) u
    let r := subP (b.y * a.z * a.z * a.z) v
    if h = 0 then if r = 0 then ecDouble a else ⟨1, 1, 0⟩
    else
      let hh := h * h % p384P
      let x := subP (subP (r * r) (hh * h)) (2 * u * hh)
      ⟨x, subP (r * subP (u * hh) x) (v * hh * h), h * a.z * b.z % p384P⟩

/-- A multiple of a point. -/
def ecMul (k : Nat) (a : EcPoint) : EcPoint :=
  (msbBits 384 k).foldl (fun q b => let d := ecDouble q; if b then ecAdd d a else d) ⟨1, 1, 0⟩

/-- The point that 97 bytes in uncompressed SEC1 form name, where it lies on the curve. -/
def ecPoint (pub : List Byte) : Option EcPoint :=
  let x := beNat ((pub.drop 1).take 48)
  let y := beNat ((pub.drop 49).take 48)
  if pub.length = 97 ∧ pub.head? = some 0x04 ∧ x < p384P ∧ y < p384P ∧ y * y % p384P = (subP (x * x * x) (3 * x) + p384B) % p384P
  then some ⟨x, y, 1⟩ else none

/-- An ECDSA P-384 signature with SHA-384 verifies (FIPS 186-5). -/
def ecdsaOk (pub msg : List Byte) (r s : Nat) : Bool :=
  match ecPoint pub with
  | none => false
  | some q =>
    if 0 < r ∧ r < p384N ∧ 0 < s ∧ s < p384N then
      let w := invMod p384N s
      let x := ecAdd (ecMul (beNat (sha384 msg) * w % p384N) p384G) (ecMul (r * w % p384N) q)
      x.z != 0 && x.x * invMod p384P (x.z * x.z) % p384P % p384N == r
    else false

end Sys2Proof.Machine
end

