-- ==== Sys2Proof/Machine/Boot.lean ====
section
/-!
DEFINITION. Sys2Proof/Machine/Boot.lean: the start sequence (chapter 16): the NVM and who owns its bus, the boot headers and the
key copies, the signature envelope, the calibration sets, the Chart loader, phase B and RUNNING, and RESTORE_FACTORY.
-/

namespace Sys2Proof.Machine

/-! ## The NVM (Table 16.5) -/

/-- The places of Table 16.5. -/
def bootBase (k : Nat) : Nat := 0x10000 * k
def factoryCal : Nat := 0x20000
def userCal : Nat := 0x60000
def calSize : Nat := 0x40000
def keysBase (k : Nat) : Nat := 0xA0000 + 0x10000 * k
def fwBase : Nat := 0x200000
def stagingBase : Nat := 0x1200000
def imageRegion : Nat := 0x1000000
def chartBase : Nat := 0x2200000
def cardBase : Nat := 0x6200000

/-- The memory without the bytes of a range: erased, where an unlisted byte reads erased. -/
def memErase (m : Memory) (a n : Nat) : Memory := m.filter fun c => decide (c.1 < a) || decide (a + n ≤ c.1)

namespace State

/-- Bytes of the NVM. -/
def nvmRead (s : State) (a n : Nat) : List Byte := memReads nvmFill s.nvm a n

/-- Bytes programmed into the NVM. -/
def nvmProgram (s : State) (a : Nat) (bs : List Byte) : State := { s with nvm := memWrites nvmFill s.nvm a bs }

/-- A range of the NVM erased. -/
def nvmErase (s : State) (a n : Nat) : State := { s with nvm := memErase s.nvm a n }

/-- The state with the block changed. -/
def onDev (s : State) (f : Dev → Dev) : State := { s with dev := f s.dev }

/-! ### The fault log (R414) -/

/-- Sector k of the FAULT_LOG region, and its header. -/
def logSector (k : Nat) : Nat := 0xC0000 + 0x10000 * k
def logHead (s : State) (k : Nat) : List Byte := s.nvmRead (logSector k) 32
def logValid (s : State) (k : Nat) : Bool := leNat ((s.logHead k).take 4) == 0x474C464F
def logGen (s : State) (k : Nat) : Nat := leNat (((s.logHead k).drop 4).take 4)

/-- The sector of the latest generation. -/
def logCurrent (s : State) : Option Nat :=
  ((List.range 4).filter s.logValid).find? fun k =>
    (List.range 4).all fun j => !s.logValid j || decide (0 ≤ toSigned 32 (s.logGen k + 2 ^ 32 - s.logGen j))

/-- The first free entry of a sector, of 2,047. -/
def logFree (s : State) (k : Nat) : Option Nat :=
  (List.range 2047).find? fun i => (s.nvmRead (logSector k + 32 + 32 * i) 32).all (· == 0xFF)

/-- A log entry is programmed, behind a header where it begins a sector. -/
def logProgram (s : State) (a : Nat) (head : List Byte) (e : LogEnt) : State :=
  { s.nvmProgram a (head ++ e.bytes) with dev := { s.dev with logCopied := e.seq + 1 } }

/-- A sector of the ring is begun. One that still holds entries, as the oldest of four full ones does, is erased first (R414), by a write of
its own (DESIGN CHOICE, log 107). -/
def logBegin (s : State) (k gen : Nat) (e : LogEnt) : State :=
  if s.nvm.any fun c => decide (logSector k ≤ c.1) && decide (c.1 < logSector (k + 1)) then s.nvmErase (logSector k) 0x10000
  else s.logProgram (logSector k) (leBytes 4 0x474C464F ++ leBytes 4 gen ++ leBytes 4 e.seq ++ List.replicate 20 0) e

/-- The firmware's next write of the fault log: the first entry of the first-fault log that it has not copied (R391, R414), one entry a
write (DESIGN CHOICE, log 107). -/
def logCopy (s : State) : State :=
  match s.dev.fltLog.find? fun e => decide (s.dev.logCopied ≤ e.seq) with
  | none => s
  | some e =>
    match s.logCurrent with
    | none => s.logBegin 0 Config.logGeneration e
    | some k =>
      match s.logFree k with
      | some i => s.logProgram (logSector k + 32 + 32 * i) [] e
      | none => s.logBegin ((k + 1) % 4) (s.logGen k + 1) e

end State

/-! ### The rewrite of USER_CAL (R420, R422) -/

/-- The body of the set that firmware writes: the holdover model and its age, and the stored adaptation (R422). The order
of its records is the model's (DESIGN CHOICE, log 107). -/
def Dev.calBody (d : Dev) (adapt : List (Nat × List Byte)) : List Byte :=
  [2, 0] ++ leBytes 2 36 ++ leBytes 4 0x00030080 ++ ((List.range 7).flatMap fun i => leBytes 4 (d.reg (0x00030080 + 4 * i) 0).toNat) ++
    adapt.flatMap fun x => [10, 0] ++ leBytes 2 (8 + x.2.length) ++ leBytes 2 x.1 ++ [0, 0] ++ x.2

/-- The whole set (R420). -/
def Dev.calImage (d : Dev) (adapt : List (Nat × List Byte)) : List Byte :=
  let b := d.calBody adapt
  leBytes 4 0x4C41434F ++ leBytes 2 1 ++ [0, 0] ++ leBytes 4 b.length ++ leBytes 4 (crc32 b) ++ b

namespace State

/-- Firmware rewrites USER_CAL as a whole, at most once a day (R422). -/
def calRewrite (s : State) (adapt : List (Nat × List Byte)) : State :=
  let img := s.dev.calImage adapt
  if img.length ≤ calSize ∧ s.dev.lasted .userCal 0 86400000000000 = true ∧ s.dev.restoring = false then
    { (s.nvmErase userCal calSize).nvmProgram userCal img with dev := s.dev.mark .userCal 0 }
  else s

/-- Does firmware run with the xSPI bus its own (R412, R434)? -/
def firmwareRuns (s : State) : Bool :=
  s.dev.flag MGT.STAT_FW_RUN && !s.dev.restarting && !s.dev.flag NVM.BOOT_STAT_NVM_OWN

/-- A sector write: refused in FACTORY_CAL and in the card's space (R410). -/
def sectorWrite (s : State) (w : NvmWrite) : State :=
  let barred (a : Nat) : Bool := (decide (factoryCal ≤ a) && decide (a < userCal)) || decide (cardBase ≤ a)
  match w with
  | .program page bs => if barred (0x1000 * page) then s else s.nvmProgram (0x1000 * page) (bs.take 0x1000)
  | .erase sector => if barred (0x10000 * sector) then s else s.nvmErase (0x10000 * sector) 0x10000
  | .faultLog => if s.firmwareRuns then s.logCopy else s
  | .userCal adapt => if s.firmwareRuns then s.calRewrite adapt else s

end State

/-- A restart that waited for the end of a sector write proceeds (R392, R413). -/
def Dev.sectorDone (d : Dev) : Dev := if d.wdogWait then { d with wdogWait := false }.ctlReset else d

/-! ## Headers and envelopes -/

/-- A little-endian number of `n` bytes at an offset. -/
def leAt (bs : List Byte) (o n : Nat) : Nat := leNat ((bs.drop o).take n)

/-- A 64-byte header whose MAGIC and CRC are correct (R411, R451). -/
def headerOk (magic : Nat) (h : List Byte) : Bool :=
  decide (h.length = 64) && leAt h 0 4 == magic && leAt h 60 4 == crc32 (h.take 60)

/-- Generation `a` is at least `b`, compared as R411 compares them. -/
def genGe (a b : Nat) : Bool := decide (0 ≤ toSigned 32 (a + 2 ^ 32 - b))

/-- Which of two headers with a generation at bytes 4 to 7 is in use: the valid one of the greater generation, the first on a
tie (R411, R452). -/
def pickHeader (magic : Nat) (a b : List Byte) : Option Nat :=
  if headerOk magic a then
    if headerOk magic b && !genGe (leAt a 4 4) (leAt b 4 4) then some 1 else some 0
  else if headerOk magic b then some 1
  else none

/-- An envelope verifies (R459); the flag, and the store after the slot's use (R450). -/
def envelopeOk (d : Dev) (type : Nat) (img : List Byte) : Bool × Dev :=
  let n := img.length - 256
  let e := img.drop n
  let slot := leAt e 5 1
  let pub := (e.drop 32).take 97
  if decide (256 ≤ img.length) && leAt e 0 4 == 0x4C564E45 && leAt e 4 1 == type && leAt e 8 4 == n && decide (slot < 32) &&
      (type != 1 || slot == 0) then
    let u := d.keyUse slot 1 true
    (u.1 && (sha384 pub).take 32 == d.keyBytes slot &&
      ecdsaOk pub (img.take n ++ e.take 132) (beNat ((e.drop 132).take 48)) (beNat ((e.drop 180).take 48)), u.2)
  else (false, d)

/-! ## The owner of the NVM's bus (R412) -/

namespace Dev

/-- NVM_OWN rises: the bus is released, with OWN_CONFLICT where a sector write had begun; OWN_WAIT shows whether something waits
for it. -/
def ownRises (d : Dev) (writing : Bool) : Dev :=
  let waits := d.flag MGT.STAT_BOOTROM || d.restoring || d.get KEY.STAT_STAGE == 4 ||
    (d.loader.isSome && !d.flag NVM.BOOT_STAT_BOOT_SRC)
  let d := (d.put NVM.BOOT_STAT_NVM_OWN true).raise NVM.EVT_STAT_OWN_CHG
  (d.put NVM.BOOT_STAT_OWN_WAIT waits).when writing (·.pulseFault (devFault 239))

/-- NVM_OWN falls: the device has the bus again; a boot ROM that waited has kicked the watchdog until now
(R468; DEDUCED, log 108). -/
def ownFalls (d : Dev) : Dev :=
  let d := d.when (d.flag MGT.STAT_BOOTROM) fun d => (d.mark .kick 0).set FLT.WDOG_STAT_RST_CNT 0
  ((d.put NVM.BOOT_STAT_NVM_OWN false).raise NVM.EVT_STAT_OWN_CHG).put NVM.BOOT_STAT_OWN_WAIT false

end Dev

/-! ## Records (Table 16.8) -/

/-- A listed OP with a LEN that it may have. -/
def recLenOk (op len : Nat) : Bool :=
  len % 4 == 0 &&
    match op with
    | 0 | 8 => len == 4
    | 1 | 7 => if op = 1 then len == 12 else decide (12 ≤ len)
    | 2 | 3 | 10 => decide (8 ≤ len)
    | 4 => len == 16
    | 5 => len == 20
    | 6 => len == 8
    | _ => false

/-- A TARGET that exists (Table 16.8). -/
def tuneTarget (t : Nat) : Bool := decide (t ≤ 665) || (decide (1000 ≤ t) && decide (t ≤ 1063))

/-- A record's own checks (R416, R418). -/
def recOk (r : List Byte) : Bool :=
  leAt r 1 1 % 4 != 3 && recLenOk (leAt r 0 1) (leAt r 2 2) && (leAt r 0 1 != 10 || tuneTarget (leAt r 4 2))

/-- The register writes of a WRITE, WRITE_SEQ or WRITE_FIFO record. -/
def recWrites (r : List Byte) : List (Nat × Word) :=
  let o := leAt r 4 4
  (List.range ((r.length - 8) / 4)).map fun i =>
    (if leAt r 0 1 = 2 then o + 4 * i else o, BitVec.ofNat 32 (leAt r (8 + 4 * i) 4))

namespace Dev

/-- Registers written one after the other as a bus master, up to the first decode miss; the flag says whether there was one. -/
def writeAll (m : Master) : List (Nat × Word) → Dev → Bool × Dev
  | [], d => (false, d)
  | w :: ws, d => let d := d.busWrite m w.1 w.2; if onBus w.1 then writeAll m ws d else (true, d)

/-- TUNE: the data reach the serdes target's calibration. -/
def tune (d : Dev) (r : List Byte) : Dev := { d with tunes := mapPut d.tunes (leAt r 4 2, 0) [] (r.drop 8) }

/-- MODIFY (Table 16.8); the flag says whether the write missed. -/
def recModify (d : Dev) (m : Master) (r : List Byte) : Bool × Dev :=
  let o := leAt r 4 4
  let x := d.busRead m o
  let mask := BitVec.ofNat 32 (leAt r 8 4)
  writeAll m [(o, (x.1 &&& ~~~mask) ||| (BitVec.ofNat 32 (leAt r 12 4) &&& mask))] x.2

/-- Does a COND of a record match the strap (R416)? -/
def condMet (d : Dev) (cond : Nat) : Bool := cond % 4 == 0 || cond % 4 == b2n (d.flag NVM.BOOT_STAT_TWIN_ID) + 1

end Dev

/-! ## Calibration sets (R420, R421) -/

/-- The registers that a calibration set may write (R420). -/
def calReg (o : Nat) : Bool :=
  o == 0x0010010C || o == 0x00100000 || (decide (0x00030080 ≤ o) && decide (o ≤ 0x00030098) && o % 4 == 0)

/-- The records of a calibration body, up to `k` of them, where every one meets R420; an END must be last (Table 16.8), and none is
asked for (R420: END may appear). -/
def calRecords : Nat → List Byte → Option (List (List Byte))
  | 0, _ => none
  | k + 1, bs =>
    let n := leAt bs 2 2
    let r := bs.take n
    let op := leAt bs 0 1
    if bs.isEmpty then some []
    else if decide (4 ≤ bs.length) && decide (n ≤ bs.length) && recOk r && [0, 1, 2, 3, 10].contains op &&
        (op == 0 || op == 10 || (recWrites r).all fun w => calReg w.1) then
      if op = 0 then (if bs.length = 4 then some [] else none)
      else (calRecords k (bs.drop n)).map (r :: ·)
    else none

/-- The records of a calibration set in its region, where it is valid (R420). -/
def calSet (region : List Byte) : Option (List (List Byte)) :=
  let len := leAt region 8 4
  let body := (region.drop 16).take len
  if leAt region 0 4 == 0x4C41434F && leAt region 4 2 == 1 && decide (body.length = len) && leAt region 12 4 == crc32 body
  then calRecords (len / 4 + 1) body
  else none

namespace Dev

/-- A calibration set is applied by firmware (R421). -/
def calApply (d : Dev) (rs : List (List Byte)) : Dev :=
  rs.foldl (fun d r =>
    if !d.condMet (leAt r 1 1) then d
    else if leAt r 0 1 = 10 then d.tune r
    else (writeAll .core (recWrites r) d).2) d

/-- A firmware image is verified (R403, R459): firmware starts, with the satellites (R407), or the boot ROM halts (Table 16.3). -/
def firmwareStart (d : Dev) (img : List Byte) : Dev :=
  let x := envelopeOk d 1 img
  if x.1 then ((({ x.2 with fwImage := img }).put MGT.STAT_BOOTROM false).put MGT.STAT_FW_RUN true).bootStep 5
  else { x.2 with bootHalt := true }.raiseFault (Dev.devFault 221)

/-- The calibration sets of the two regions are judged and one is applied (R421); the AVS bus gives VDD_CORE its set point (R511). -/
def calibrate (d : Dev) (mv : Nat) (user factory : List Byte) : Dev :=
  let d := { d with vcore := min 800 (max 700 mv) }.when (decide (mv < 700) || decide (800 < mv)) (·.pulseFault (Dev.devFault 45))
  let d := match calSet user, calSet factory with
    | some rs, _ => ((d.calApply rs).put NVM.BOOT_STAT_CAL_USER true).put NVM.BOOT_STAT_CAL_NONE false
    | none, some rs => (((d.calApply rs).put NVM.BOOT_STAT_CAL_USER false).put NVM.BOOT_STAT_CAL_NONE false).raise
        NVM.EVT_STAT_CAL_FALLBACK
    | none, none => ((d.put NVM.BOOT_STAT_CAL_USER false).put NVM.BOOT_STAT_CAL_NONE true).raise NVM.EVT_STAT_CAL_NONE
  d.bootStep 7

/-! ## RUNNING (R404, R406) -/

/-- Phase B is complete: RUNNING rises, HEALTHY follows (R381), and the transmit gate opens. -/
def startRunning (d : Dev) : Dev :=
  let d := { d with loader := none, chartHeld := false }
  let d := ((d.set NVM.BOOT_STAT_CHART_RES 3).put NVM.BOOT_STAT_PHASE_B true).put NVM.BOOT_STAT_RUNNING true
  let d := ((d.put FLT.STAT_RUNNING true).raise NVM.EVT_STAT_RUNNING).bootStep 12
  d.refreshActions.releaseTx

/-! ## The Chart loader (R415 to R419) -/

/-- The loader stops at a failure (R409, R418). -/
def chartFail (d : Dev) (code pos : Nat) : Dev :=
  let d := { d with loader := none, chartHeld := false }
  (((d.set NVM.BOOT_STAT_CHART_RES code).set NVM.CHART_POS_POS pos).raise NVM.EVT_STAT_CHART_FAIL).raiseFault (devFault 238)

/-- The loader stands elsewhere, unless what it wrote reset it. -/
def loaderAt (d : Dev) (l : Loader) : Dev := if d.loader.isSome then { d with loader := some l } else d

/-- Phase A is complete (R417); a PHASE_B that was held starts phase B (R424). -/
def phaseAEnd (d : Dev) (l : Loader) : Dev :=
  let d := d.mark .refWait 0
  let d := { d with chartDone := true, chartHeld := false, loader := some { l with phaseB := d.chartHeld } }
  let d := ((d.set NVM.BOOT_STAT_CHART_RES 2).raise NVM.EVT_STAT_CHART_DONE).bootStep (if d.inPhaseB then 10 else 8)
  if l.ended && d.inPhaseB then d.startRunning else d

end Dev

/-- The section headers walked (R415, R418): none where they agree with LEN, else the offset of the header found wrong. -/
def sectionsBad (image : List Byte) : Nat → Nat → Option Nat
  | 0, o => if o = image.length then none else some 0
  | k + 1, o =>
    let kind := leAt image o 2
    let e := o + 16 + leAt image (o + 4) 4
    if image.length < o + 16 then some 0
    else if kind ≠ 1 ∧ kind ≠ 2 then some o
    else if image.length < e then some o
    else sectionsBad image k e

/-- The header or section header that makes a Chart's FORMAT wrong (R418), where one does. -/
def chartFormatBad (image : List Byte) : Option Nat :=
  if image.length < 64 ∨ leAt image 0 4 ≠ 0x5448434F ∨ leAt image 4 2 ≠ 1 ∨ leAt image 16 4 ≠ image.length then some 0
  else sectionsBad image (leAt image 6 2) 64

/-- How many plain record bytes the sections from an offset on hold. -/
def plainLeft (image : List Byte) : Nat → Nat → Nat
  | 0, _ => 0
  | k + 1, o =>
    let n := leAt image (o + 4) 4
    (if leAt image o 2 = 2 then n - 32 else n) + plainLeft image k (o + 16 + n)

/-- Bytes with their offsets. -/
def withOffsets (o : Nat) : List Byte → List (Nat × Byte)
  | [] => []
  | b :: bs => (o, b) :: withOffsets (o + 1) bs

/-- Sections are reached until `n` plain bytes stand ready or none is left (R415, R460), `k` bounding the sections; a section that
does not decrypt gives its position. -/
def loadSections (n : Nat) : Nat → Dev → Loader → Option Nat × Dev × Loader
  | 0, d, l => (none, d, l)
  | k + 1, d, l =>
    if n ≤ l.buf.length ∨ l.secs = 0 then (none, d, l)
    else
      let h := (l.image.drop l.next).take 16
      let body := (l.image.drop (l.next + 16)).take (leAt h 4 4)
      let l' := { l with next := l.next + 16 + body.length, secs := l.secs - 1 }
      if leAt h 0 2 = 1 then loadSections n k d { l' with buf := l.buf ++ withOffsets (l.next + 16) body }
      else
        let slot := leAt body 0 1
        let ct := (body.drop 16).take (body.length - 32)
        let u := if slot < 32 then d.keyUse slot 2 true else (false, d)
        let pos := match l.buf with
          | b :: _ => b.1
          | [] => l.next + 32
        if u.1 && decide (32 ≤ body.length) then
          match gcmOpen (d.keyBytes slot) ((body.drop 4).take 12) (l.image.take 64 ++ h) ct (body.drop (body.length - 16)) with
          | some pt => loadSections n k u.2 { l' with buf := l.buf ++ withOffsets (l.next + 32) pt }
          | none => (some pos, u.2, l')
        else (some pos, u.2, l')

/-- How a record ends: applied, not yet over (a POLL that has not matched, a WAIT), or failed with a code of R418. -/
inductive RecordEnd where
  | applied | waits | failed (code : Nat)
  deriving DecidableEq, Repr

/-- What the loader does next: nothing; a change of the block, with whether it got past a record; or a record that is applied,
with where the loader stands before and after it. -/
inductive LoadPlan where
  | idle
  | block (past : Bool) (d : Dev)
  | record (d : Dev) (here next : Loader) (pos : Nat) (r : List Byte)

namespace Dev

/-- A record's effect on the block (Table 16.8), END, PHASE and STORE apart; `again` says that a POLL or a WAIT has begun. A POLL counts
the reads that are issued within TMO of its first (R417). -/
def recEffect (d : Dev) (r : List Byte) (again : Bool) : RecordEnd × Dev :=
  let hit (x : Bool × Dev) : RecordEnd × Dev := (if x.1 then .failed 8 else .applied, x.2)
  match leAt r 0 1 with
  | 4 => hit (d.recModify .loader r)
  | 5 =>
    let x := d.busRead .loader (leAt r 4 4)
    let mask := BitVec.ofNat 32 (leAt r 8 4)
    if again && d.lasted .chart 0 (leAt r 16 4 * 1000 + 1) then (.failed 9, d)
    else if x.1 &&& mask = BitVec.ofNat 32 (leAt r 12 4) &&& mask then (.applied, x.2)
    else if leAt r 16 4 = 0 then (.failed 9, x.2)
    else (.waits, x.2)
  | 6 => (if again && d.lasted .chart 0 (leAt r 4 4 * 1000) then .applied else .waits, d)
  | 10 => (.applied, d.tune r)
  | _ => hit (writeAll .loader (recWrites r) d)

/-- Is the loader able to go on: active, not between the phases, and with the bus where it reads the NVM (R401, R412)? -/
def loaderFree (d : Dev) (l : Loader) : Bool :=
  !(d.chartDone && !l.phaseB) && (d.flag NVM.BOOT_STAT_BOOT_SRC || !d.flag NVM.BOOT_STAT_NVM_OWN)

/-- The place of the record at the front. -/
def loaderPos (l : Loader) : Nat :=
  match l.buf with
  | x :: _ => x.1
  | [] => l.next

/-- END is met: it must be last (Table 16.8, R417, R418). -/
def endMet (d : Dev) (l : Loader) (pos : Nat) : LoadPlan :=
  if l.buf.isEmpty && plainLeft l.image l.secs l.next == 0 then
    .block true (if l.phaseB then d.startRunning else d.phaseAEnd { l with ended := true })
  else .block false (d.chartFail 7 pos)

/-- PHASE is met: a second one fails, skipped or not (R416, R417). -/
def phaseMet (d : Dev) (l : Loader) (applies : Bool) (pos : Nat) : LoadPlan :=
  if l.phased then .block false (d.chartFail 7 pos)
  else if applies && !l.phaseB then .block true (d.phaseAEnd { l with phased := true })
  else .block true { d with loader := some { l with phased := true } }

/-- The record at the front is whole and passes its checks (R416, R418): what becomes of it. -/
def recordPlan (d : Dev) (l : Loader) (len : Nat) (want : Nat → Bool) : LoadPlan :=
  let pos := loaderPos l
  let r := (l.buf.take len).map (·.2)
  let next := { l with buf := l.buf.drop len, polled := false }
  if !want (leAt r 0 1) then .idle
  else
    let d := { d with loader := some l }.set NVM.CHART_POS_POS pos
    if leAt r 0 1 = 0 then d.endMet next pos
    else if leAt r 0 1 = 8 then d.phaseMet next (d.condMet (leAt r 1 1)) pos
    else if !d.condMet (leAt r 1 1) then .block true { d with loader := some next }
    else .record d l next pos r

/-- The loader's next record (R416 to R418), where it is of the wanted OP. -/
def loadPlan (d : Dev) (l : Loader) (want : Nat → Bool) : LoadPlan :=
  if !d.loaderFree l then .idle
  else
    let a := loadSections 4 l.secs d l
    let len := leAt (a.2.2.buf.map (·.2)) 2 2
    let b := if a.1.isSome then a else loadSections len a.2.2.secs a.2.1 a.2.2
    match b.1 with
    | some p => .block false (b.2.1.chartFail 5 p)
    | none =>
      if b.2.2.buf.length < max 4 len || !recOk ((b.2.2.buf.take (max 4 len)).map (·.2)) then
        .block false (b.2.1.chartFail 7 (loaderPos b.2.2))
      else b.2.1.recordPlan b.2.2 len want

/-- The loader after a record. -/
def recordDone (d : Dev) (e : RecordEnd) (here next : Loader) (pos : Nat) : Dev :=
  match e with
  | .applied => d.loaderAt next
  | .waits => (d.when (!here.polled) (·.mark .chart 0)).loaderAt { here with polled := true }
  | .failed c => if d.loader.isSome then d.chartFail c pos else d

/-- The Chart in an image starts to load (R417 to R419): its envelope first, then its header and section headers. -/
def chartOpen (d : Dev) (img : List Byte) : Dev :=
  let x := envelopeOk ((d.masterReset .loader).set NVM.BOOT_STAT_CHART_RES 1) 2 img
  let c := img.take (img.length - 256)
  if !x.1 then x.2.chartFail 4 0
  else
    match chartFormatBad c with
    | some p => x.2.chartFail 6 p
    | none =>
      let d := (x.2.set GLB.SYSID_SYSID (leAt c 12 2)).set CON.CHART_ID_ID (leAt c 8 4)
      { d with refWait := leAt c 14 2, loader := some ⟨c, [], 64, leAt c 6 2, false, false, false, false⟩ }

/-- A held PHASE_B takes effect once phase A is complete (R417, R424). -/
def phaseBStart (d : Dev) : Dev :=
  match d.loader with
  | some l =>
    if d.chartDone && d.chartHeld && !l.phaseB then
      let d := { d with chartHeld := false, loader := some { l with phaseB := true } }.bootStep 10
      if l.ended then d.startRunning else d
    else d
  | none => d

end Dev

namespace State

/-! ## RESTORE_FACTORY (R423) -/

/-- RESTORE_FACTORY is written: USER_CAL is erased, once the bus is the device's (R412). -/
def restoreBegin (s : State) (writing : Bool) : State :=
  if s.dev.restoring || !(s.dev.restoreStart writing).restoring then s.onDev (·.restoreStart writing)
  else if s.dev.flag NVM.BOOT_STAT_NVM_OWN then s.onDev fun d => (d.restoreStart writing).put NVM.BOOT_STAT_OWN_WAIT true
  else (s.onDev (·.restoreStart writing)).nvmErase userCal calSize

/-- After register writes: a restore newly started erases USER_CAL; `was` says whether a restore was in progress before. -/
def afterRestore (s : State) (was : Bool) : State :=
  if !was && s.dev.restoring then (s.onDev fun d => { d with restoring := false }).restoreBegin false else s

/-- A record's effect (Table 16.8): STORE writes the frame store in SURF and HOST, every other one the block. -/
def recApply (s : State) (r : List Byte) (again : Bool) : RecordEnd × State :=
  if leAt r 0 1 = 7 then
    if surfStart ≤ leAt r 4 8 ∧ leAt r 4 8 + (r.length - 12) ≤ storeEnd then (.applied, s.writeStore (leAt r 4 8) (r.drop 12))
    else (.failed 8, s)
  else ((s.dev.recEffect r again).1, { s with dev := (s.dev.recEffect r again).2 }.afterRestore s.dev.restoring)

/-- The loader's next record is taken, where it is of the wanted OP. The flag says whether the loader got past a record. -/
def loadRecord (s : State) (want : Nat → Bool) : Bool × State :=
  match s.dev.loader with
  | none => (false, s)
  | some l =>
    match s.dev.loadPlan l want with
    | .idle => (false, s)
    | .block past d => (past, { s with dev := d })
    | .record d here next pos r =>
      ((recApply { s with dev := d } r here.polled).1 == .applied,
        (recApply { s with dev := d } r here.polled).2.onDev
          (·.recordDone (recApply { s with dev := d } r here.polled).1 here next pos))

/-- The loader takes up to `n` records, until it waits, ends a phase without a held PHASE_B, or fails. -/
def loadRun : Nat → State → State
  | 0, s => s
  | n + 1, s => let x := s.loadRecord (fun _ => true); if x.1 then loadRun n x.2 else x.2

/-- As many records as the Chart can hold. -/
def loadAll (s : State) : State :=
  match s.dev.loader with
  | some l => loadRun (l.image.length / 4 + 1) s
  | none => s

/-- The Chart starts to load, from the NVM or from what a host boot has loaded (R401, R417). -/
def chartStart (s : State) : State :=
  if s.dev.flag NVM.BOOT_STAT_BOOT_SRC then s.onDev (·.chartOpen s.dev.bootChart)
  else if s.dev.flag NVM.BOOT_STAT_NVM_OWN then s.onDev (·.put NVM.BOOT_STAT_OWN_WAIT true)
  else s.onDev (·.chartOpen (s.nvmRead chartBase s.dev.bootHdr.2.2))

/-- What a register write leaves to be done in the NVM and by the loader: a restore newly started erases USER_CAL, and a held
PHASE_B starts phase B; `was` says whether a restore was in progress before. -/
def afterWrite (s : State) (was : Bool) : State :=
  let t := s.afterRestore was
  if t.dev.chartHeld && t.dev.chartDone then (t.onDev (·.phaseBStart)).loadAll else t

end State

/-! ## The key copies (R451, R452) -/

/-- A slot record loads: EMPTY, VALID or BAD (R452). -/
def loadSlot (d : Dev) (slot : Nat) (r : List Byte) : Dev :=
  let usage := leAt r 32 1
  let gen := leAt r 36 4
  if usage = 0 ∨ usage = 0xFF then
    { d with keys := mapPut d.keys (slot, 0) [] [] }.clear
      [KEY.SLOT_ATTR_USAGE, KEY.SLOT_ATTR_OWNER, KEY.SLOT_ATTR_REPL, KEY.SLOT_ATTR_STATE, KEY.SLOT_GEN_GEN, KEY.SLOT_FP_FP] slot
  else
    let d := ((d.set KEY.SLOT_ATTR_USAGE usage slot).set KEY.SLOT_ATTR_OWNER (leAt r 33 1) slot).set KEY.SLOT_ATTR_REPL (leAt r 34 1) slot
    let d := d.set KEY.SLOT_GEN_GEN gen slot
    match gcmOpen Config.deviceKey (leBytes 4 slot ++ leBytes 4 gen ++ leBytes 4 0) ((r.drop 32).take 16) (r.take 32) (r.drop 48) with
    | some key =>
      let d := { d with keys := mapPut d.keys (slot, 0) [] key }.set KEY.SLOT_ATTR_STATE 1 slot
      d.set KEY.SLOT_FP_FP (if usage = 1 then leNat (key.take 4) else 0) slot
    | none =>
      let d := { d with keys := mapPut d.keys (slot, 0) [] [] }.set KEY.SLOT_ATTR_STATE 2 slot
      ((d.set KEY.SLOT_FP_FP 0 slot).raise KEY.EVT_STAT_SLOT_BAD).pulseFault ⟨220, 3, 0, slot⟩

/-- Slots 1 to 31 load from the copy in force, of the two copies' bytes (R452); in debug mode they are not loaded (R457). `used`
says that a copy's sector is not erased. -/
def loadKeys (d : Dev) (a b : List Byte) (used : Bool) : Dev :=
  if d.flag KEY.STAT_DEBUG then d
  else
    match pickHeader 0x53594B4F (a.take 64) (b.take 64) with
    | some k =>
      let c := if k = 0 then a else b
      let d := ((d.set KEY.STAT_COPY k).put KEY.STAT_COPY_NONE false).set KEY.COPY_GEN_GEN (leAt c 4 4)
      (List.range 31).foldl (fun d i => loadSlot d (i + 1) ((c.drop (64 * (i + 1))).take 64)) d
    | none =>
      let d := (List.range 31).foldl (fun d i => loadSlot d (i + 1) []) d
      let d := ((d.set KEY.STAT_COPY 0).put KEY.STAT_COPY_NONE true).set KEY.COPY_GEN_GEN 0
      if used then d.pulseFault ⟨220, 3, 0, 0xFF⟩ else d

namespace State

/-- The boot ROM reads both boot headers and both key copies (R411, R452). -/
def headerSelect (s : State) : State :=
  let a := s.nvmRead (bootBase 0) 64
  let b := s.nvmRead (bootBase 1) 64
  let used := s.nvm.any fun c => decide (keysBase 0 ≤ c.1) && decide (c.1 < keysBase 2)
  s.onDev fun d =>
    let d := d.put NVM.BOOT_STAT_OWN_WAIT false
    match pickHeader 0x4448424F a b with
    | none => { d with bootHalt := true }.raiseFault (Dev.devFault 221)
    | some k =>
      let h := if k = 0 then a else b
      let d := { d with bootHdr := (leAt h 4 4, leAt h 8 4, leAt h 12 4) }
      loadKeys ((d.set NVM.BOOT_STAT_HDR k).bootStep 3) (s.nvmRead (keysBase 0) 2048) (s.nvmRead (keysBase 1) 2048) used

end State

/-! ## Meanings -/

/-- REGISTER_WRITE (R2 to R18): a write by a bus master, with the command that its fields carry; PHASE_B and RESTORE_FACTORY of
NVM.CMD reach the NVM and the Chart loader. -/
def execRegisterWrite (m : Master) (off : Nat) (v : Word) (s : State) : Host.Outcome State Fault Refusal :=
  .next ((s.onDev (·.busWrite m off v)).afterWrite s.dev.restoring)

/-- NVM_OWN_CHANGE (R401, R412): `card` is what the card controller wrote while it owned the bus, which the device sees when
the level falls. A sector write that has begun is completed first. -/
def execNvmOwnChange (level writing : Bool) (card : List (Nat × List Byte)) (s : State) : Host.Outcome State Fault Refusal :=
  .next (
    if level == s.dev.flag NVM.BOOT_STAT_NVM_OWN then s
    else if level then s.onDev (·.ownRises writing)
    else card.foldl (fun t w => t.nvmProgram w.1 w.2) (s.onDev (·.ownFalls)))

/-- SECTOR_WRITE_DONE (R410, R412 to R414, R422): a sector write is complete; FACTORY_CAL and the card's space are never written. A
restart that waited for it proceeds (R392). -/
def execSectorWriteDone (w : NvmWrite) (s : State) : Host.Outcome State Fault Refusal :=
  .next ((s.sectorWrite w).onDev (·.sectorDone))

/-- BOOT_HEADER_SELECT (R411, R452): step 3; while NVM_OWN = 1 the boot ROM waits. -/
def execBootHeaderSelect (s : State) : Host.Outcome State Fault Refusal :=
  .next (if s.dev.flag NVM.BOOT_STAT_NVM_OWN then s.onDev (·.put NVM.BOOT_STAT_OWN_WAIT true) else s.headerSelect)

/-- FIRMWARE_VERIFY_DONE (R403, R407, R459): steps 4 and 5. A host boot runs them on the image it has started (R401). -/
def execFirmwareVerifyDone (s : State) : Host.Outcome State Fault Refusal :=
  .next (
    if s.dev.bootHalt then s
    else if s.dev.flag NVM.BOOT_STAT_BOOT_SRC then (if s.dev.bootGo then s.onDev (·.firmwareStart s.dev.bootFw) else s)
    else if s.dev.flag NVM.BOOT_STAT_NVM_OWN then s.onDev (·.put NVM.BOOT_STAT_OWN_WAIT true)
    else s.onDev (·.firmwareStart (s.nvmRead fwBase s.dev.bootHdr.2.1)))

/-- HBM_TRAINING_DONE (R403, Table 16.3): step 6; a stack that fails raises HBM_FAIL with its number in AUX. Both HCLKs run from
this step on (Table 19.1; log 71). -/
def execHbmTrainingDone (failed : BitVec 2) (s : State) := s.go fun d =>
  let d := d.set GLB.CLK_STAT_HCLK_LOCK 3
  if failed = 0 then ((d.put FS.BLK_STAT_READY true).dropFault ⟨142, 3, 0, 0⟩).dropFault ⟨142, 3, 0, 1⟩ |>.bootStep 6
  else [0, 1].foldl (fun d k => if failed.getLsbD k then d.raiseFault ⟨142, 3, 0, k⟩ else d) d

/-- CALIBRATION_APPLY (R408, R420, R421, R511): step 7, which a restart after RUNNING skips, with the set point that the AVS bus
gives VDD_CORE. -/
def execCalibrationApply (mv : Nat) (s : State) : Host.Outcome State Fault Refusal :=
  .next (
    if s.dev.flag NVM.BOOT_STAT_RUNNING then s
    else if s.dev.flag NVM.BOOT_STAT_NVM_OWN then s.onDev (·.put NVM.BOOT_STAT_OWN_WAIT true)
    else s.onDev (·.calibrate mv (s.nvmRead userCal calSize) (s.nvmRead factoryCal calSize)))

/-- CHART_PHASE_A (R417 to R419): the Chart starts to load where none has, and the loader takes up to `n` records before the next
command. -/
def execChartPhaseA (n : Nat) (s : State) : Host.Outcome State Fault Refusal :=
  .next (
    if s.dev.bootHalt || s.dev.chartDone then s
    else if s.dev.loader.isSome then s.loadRun n
    else if s.dev.get NVM.BOOT_STAT_CHART_RES = 0 then s.chartStart.loadRun n
    else s)

/-- CHART_WRITE (Table 16.8): the loader's next record, a WRITE. -/
def execChartWrite (s : State) : Host.Outcome State Fault Refusal := .next (s.loadRecord (· == 1)).2

/-- CHART_WRITE_SEQ (Table 16.8). -/
def execChartWriteSeq (s : State) : Host.Outcome State Fault Refusal := .next (s.loadRecord (· == 2)).2

/-- CHART_WRITE_FIFO (Table 16.8). -/
def execChartWriteFifo (s : State) : Host.Outcome State Fault Refusal := .next (s.loadRecord (· == 3)).2

/-- CHART_MODIFY (Table 16.8). -/
def execChartModify (s : State) : Host.Outcome State Fault Refusal := .next (s.loadRecord (· == 4)).2

/-- CHART_POLL (R417): the first read of a POLL, or a further one. -/
def execChartPoll (s : State) : Host.Outcome State Fault Refusal := .next (s.loadRecord (· == 5)).2

/-- CHART_POLL_TIMEOUT (R417, R418): no read issued within TMO of the first has matched. -/
def execChartPollTimeout (s : State) := s.go fun d =>
  match d.loader with
  | some l =>
    let r := l.buf.map (·.2)
    if l.polled && leAt r 0 1 == 5 && d.lasted .chart 0 (leAt r 16 4 * 1000 + 1) then
      d.chartFail 9 (match l.buf with
        | x :: _ => x.1
        | [] => l.next)
    else d
  | none => d

/-- CHART_WAIT (Table 16.8): the time of the WAIT at the front has passed. -/
def execChartWait (s : State) : Host.Outcome State Fault Refusal := .next (s.loadRecord (· == 6)).2

/-- CHART_STORE (Table 16.8). -/
def execChartStore (s : State) : Host.Outcome State Fault Refusal := .next (s.loadRecord (· == 7)).2

/-- CHART_PHASE (R417). -/
def execChartPhase (s : State) : Host.Outcome State Fault Refusal := .next (s.loadRecord (· == 8)).2

/-- CHART_TUNE (Table 16.8). -/
def execChartTune (s : State) : Host.Outcome State Fault Refusal := .next (s.loadRecord (· == 10)).2

/-- CHART_END (R417). -/
def execChartEnd (s : State) : Host.Outcome State Fault Refusal := .next (s.loadRecord (· == 0)).2

/-- REF_WAIT_EXPIRY (R405, R424): firmware applies phase B on the device's own time, with UNREF, unless Lodestar is in LOCK. -/
def execRefWaitExpiry (s : State) : Host.Outcome State Fault Refusal :=
  .next (
    if s.dev.chartDone && s.dev.loader.isSome && !s.dev.inPhaseB && s.dev.refWait != 0 &&
        s.dev.lasted .refWait 0 (s.dev.refWait * 1000000000) && s.dev.get REF.STAT_STATE != 2 then
      (s.onDev fun d => ((d.put NVM.BOOT_STAT_UNREF true).bootStep 10).phaseHold.phaseBStart).loadAll
    else s)

/-- PHASE_B (R417, R424): the write of NVM.CMD.PHASE_B; the loader takes up to `n` records before the next command. Phase B under
way goes on. -/
def execPhaseB (n : Nat) (s : State) : Host.Outcome State Fault Refusal :=
  .next ((s.onDev (·.phaseHold.phaseBStart)).loadRun (if s.dev.chartDone then n else 0))

/-- RESTORE_FACTORY (R423): `writing` says that another NVM write is in progress. -/
def execRestoreFactory (writing : Bool) (s : State) : Host.Outcome State Fault Refusal := .next (s.restoreBegin writing)

/-- RESTORE_COMPLETE (R423): the copy ends, `verified` or not. What a copy that does not verify has left in USER_CAL is a free value (log 29). -/
def execRestoreComplete (verified : Bool) (s : State) : Host.Outcome State Fault Refusal :=
  let good := verified && (calSet (s.nvmRead factoryCal calSize)).isSome
  let copy := if verified then s.nvmRead factoryCal calSize else (Config.unverifiedCopy s.dev.drawn).take calSize
  .next (
    if !s.dev.restoring then s
    else if s.dev.flag NVM.BOOT_STAT_NVM_OWN then s.onDev (·.put NVM.BOOT_STAT_OWN_WAIT true)
    else ((s.nvmErase userCal calSize).nvmProgram userCal copy).onDev fun d =>
      { d with restoring := false, drawn := d.drawn + 1 }.raise (if good then NVM.EVT_STAT_RESTORE_DONE else NVM.EVT_STAT_RESTORE_FAIL))

end Sys2Proof.Machine
end

