-- ==== Sys2Proof/Machine/Upd.lean ====
section
/-!
DEFINITION. Sys2Proof/Machine/Upd.lean: the mailbox's messages and commands (R441 to R444, Table 17.6), the key packages (R453 to
R456), staging and activation (R461 to R466), and the DMA engine (R445, R446).
-/

namespace Sys2Proof.Machine

/-! ## Messages (Table 17.5) -/

/-- STATUS codes (Table 17.5). -/
def stOk : Nat := 0
def stBadCmd : Nat := 1
def stBadParam : Nat := 2
def stBusy : Nat := 3
def stDmaErr : Nat := 4
def stVerifyFail : Nat := 5
def stDenied : Nat := 6
def stNotReady : Nat := 7

/-- The commands of Table 17.6. -/
def mbxListed (cmd : Nat) : Bool := [0x01, 0x02, 0x10, 0x11, 0x20, 0x21, 0x22, 0x23, 0x30, 0x40].contains cmd

/-- A response to a request: CMD and TAG echoed, the status, and the results. -/
def mbxReply (m : MbxMsg) (status : Nat) (data : List Byte) : MbxMsg :=
  let r := data.take 56
  { m with bytes := leBytes 2 (leAt m.bytes 0 2) ++ leBytes 2 (leAt m.bytes 2 2) ++ leBytes 2 r.length ++ leBytes 2 status ++ r ++
      List.replicate (56 - r.length) 0 }

namespace Dev

/-- The oldest request with a CMD. -/
def mbxFind (d : Dev) (cmd : Nat) : Option MbxMsg := d.mbxReqs.find? fun m => leAt m.bytes 0 2 == cmd

/-- The oldest request with a CMD is answered: its response waits to be written. -/
def mbxAnswer (d : Dev) (cmd status : Nat) (data : List Byte) : Dev :=
  match d.mbxFind cmd with
  | some m => { d with mbxReqs := d.mbxReqs.erase m, mbxRsps := d.mbxRsps ++ [mbxReply m status data] }
  | none => d

/-- A parameter of `n` bytes at an offset of the oldest request with a CMD. -/
def mbxParam (d : Dev) (cmd o n : Nat) : Nat :=
  match d.mbxFind cmd with
  | some m => leAt m.bytes (8 + o) n
  | none => 0

/-- A response is written (R441, R442): to the registers, with BUSY and MBX_DONE, or to the response queue. -/
def mbxDeliver (d : Dev) (m : MbxMsg) : Dev :=
  if m.ring then (d.qProduce (d.get MGT.MBX_CFG_RSP_Q) m.bytes).2
  else
    let d := (List.range 16).foldl (fun d k => d.set (MGT.MBX_RSP_DATA k) (leAt m.bytes (4 * k) 4)) d
    (d.put MGT.MBX_STAT_BUSY false).raise MGT.EVT_STAT_MBX_DONE

/-- Bytes read from host memory by the DMA engine count as PCIe traffic (Table 20.2). -/
def hostRead (d : Dev) (n : Nat) : Dev := d.bwAdd 266 n

end Dev

namespace State

/-- A command of Table 17.6 runs for the oldest request with its CMD: nothing where there is none; NOT_READY while the boot ROM
runs, where the boot ROM does not serve it (R443). -/
def mbxRun (s : State) (cmd : Nat) (rom : Bool) (f : State → State) : State :=
  if (s.dev.mbxFind cmd).isNone then s
  else if s.dev.flag MGT.STAT_BOOTROM && !rom then s.onDev (·.mbxAnswer cmd stNotReady [])
  else f s

/-- The response to the oldest request with a CMD. -/
def answer (s : State) (cmd status : Nat) (data : List Byte) : State := s.onDev (·.mbxAnswer cmd status data)

/-- What needs the NVM waits while the card controller owns its bus (R412). -/
def withNvm (s : State) (f : State → State) : State :=
  if s.dev.flag NVM.BOOT_STAT_NVM_OWN then s.onDev (·.put NVM.BOOT_STAT_OWN_WAIT true) else f s

end State

/-! ## Key packages (R453 to R456) -/

/-- Is a slot usable for a usage (R450)? -/
def slotUsable (d : Dev) (slot usage : Nat) : Bool :=
  decide (slot < 32) && d.get KEY.SLOT_ATTR_STATE slot == 1 && d.get KEY.SLOT_ATTR_USAGE slot == usage

/-- Check 1 of R454. -/
def pkgFormed (d : Dev) (pkg : List Byte) (slot : Nat) : Bool :=
  let signer := leAt pkg 8 1
  let wrap := leAt pkg 9 1
  leAt pkg 0 4 == 0x504B4B4F && leAt pkg 4 1 == slot && decide (1 ≤ slot) && decide (slot ≤ 31) &&
    [1, 2, 3].contains (leAt pkg 5 1) && decide (leAt pkg 6 1 ≤ 2) && decide (leAt pkg 7 1 ≤ 2) &&
    pkg.length == (if signer = 0xFF then 80 else 336) &&
    (signer == 0xFF || (signer != slot && decide (signer < 32) && d.get KEY.SLOT_ATTR_STATE signer != 0)) &&
    (wrap == 0xFF || slotUsable d wrap 2)

/-- The OWNER and REPL that govern a replacement (R455): those of the record; an EMPTY slot counts as SIGNED with the package's
OWNER, a BAD one as SIGNED with VENDOR. -/
def pkgRule (d : Dev) (pkg : List Byte) (slot : Nat) : Nat × Nat :=
  match d.get KEY.SLOT_ATTR_STATE slot with
  | 0 => (leAt pkg 6 1, 1)
  | 1 => (d.get KEY.SLOT_ATTR_OWNER slot, d.get KEY.SLOT_ATTR_REPL slot)
  | _ => (0, 1)

/-- Check 3 of R454 (R455). -/
def pkgAuthorised (d : Dev) (pkg : List Byte) (slot : Nat) : Bool :=
  let signer := leAt pkg 8 1
  let rule := pkgRule d pkg slot
  let signs := signer == 0 || (slotUsable d signer 1 && d.get KEY.SLOT_ATTR_OWNER signer == rule.1)
  let same := d.get KEY.SLOT_ATTR_STATE slot == 0 || (leAt pkg 6 1 == rule.1 && leAt pkg 7 1 == rule.2)
  (rule.2 == 2 || signs) && (same || signer == 0)

/-- The key that a package carries, where its envelope and its wrap tag verify and GEN is greater (check 4 of R454). -/
def pkgKey (d : Dev) (pkg : List Byte) (slot : Nat) : Option (List Byte) × Dev :=
  let signer := leAt pkg 8 1
  let wrap := leAt pkg 9 1
  let x := if signer = 0xFF then (true, d) else envelopeOk d 3 pkg
  let key := (pkg.drop 28).take 32
  let newer := decide ((if d.get KEY.SLOT_ATTR_STATE slot = 0 then 0 else d.get KEY.SLOT_GEN_GEN slot) < leAt pkg 12 4)
  if x.1 && (signer == 0xFF || leAt pkg 85 1 == signer) && newer then
    if wrap = 0xFF then (some key, x.2)
    else
      let u := x.2.keyUse wrap 2 true
      (if u.1 then gcmOpen (d.keyBytes wrap) ((pkg.drop 16).take 12) (pkg.take 16) key ((pkg.drop 60).take 16) else none, u.2)
  else (none, x.2)

/-- The record of a slot (Table 18.2). -/
def slotRecord (pkg key : List Byte) (slot : Nat) : List Byte :=
  let attr := (pkg.drop 5).take 3 ++ [0] ++ (pkg.drop 12).take 4 ++ List.replicate 8 0
  let x := gcmSeal Config.deviceKey (leBytes 4 slot ++ (pkg.drop 12).take 4 ++ leBytes 4 0) attr key
  x.1 ++ attr ++ x.2

/-- A header of 64 bytes with a CRC: its first bytes, then zeros (Table 16.6, R451). -/
def sealHeader (bs : List Byte) : List Byte :=
  let h := bs ++ List.replicate (60 - bs.length) 0
  h ++ leBytes 4 (crc32 h)

namespace State

/-- An accepted replacement (R456): the other copy is written; where it reads back, the store takes the key and the copy is in
force. With no valid copy, slots 1 to 31 stand EMPTY and KEYS_B is written (log 30). -/
def keyReplace (s : State) (pkg key : List Byte) (slot : Nat) (readBack : Bool) : State :=
  let d := s.dev
  let none' := d.flag KEY.STAT_COPY_NONE
  let x := if none' then 0 else d.get KEY.STAT_COPY
  let y := 1 - x
  let gen := (if none' then 0 else d.get KEY.COPY_GEN_GEN) + 1
  let rec' := slotRecord pkg key slot
  let image := (List.range 31).flatMap fun i =>
    if i + 1 = slot then rec' else if none' then List.replicate 64 0xFF else s.nvmRead (keysBase x + 64 * (i + 1)) 64
  let head := sealHeader (leBytes 4 0x53594B4F ++ leBytes 4 gen)
  let t := ((s.nvmErase (keysBase y) 0x10000).nvmProgram (keysBase y + 64) image).nvmProgram (keysBase y) head
  if readBack then
    let usage := leAt pkg 5 1
    let d := { d with keys := mapPut d.keys (slot, 0) [] key, lastSeq := mapPut d.lastSeq (slot, 0) none none }
    let d := ((d.set KEY.SLOT_ATTR_USAGE usage slot).set KEY.SLOT_ATTR_OWNER (leAt pkg 6 1) slot).set KEY.SLOT_ATTR_REPL (leAt pkg 7 1) slot
    let d := ((d.set KEY.SLOT_ATTR_STATE 1 slot).set KEY.SLOT_GEN_GEN (leAt pkg 12 4) slot).set KEY.SLOT_FP_FP
      (if usage = 1 then leNat (key.take 4) else 0) slot
    let d := ((d.set KEY.STAT_COPY y).put KEY.STAT_COPY_NONE false).set KEY.COPY_GEN_GEN gen
    { t with dev := d.raise KEY.EVT_STAT_REPLACED }.answer 0x30 stOk []
  else (t.nvmErase (keysBase y) 64).answer 0x30 stVerifyFail []

/-- A refused package (R454). -/
def keyRefuse (s : State) (slot status : Nat) : State :=
  (s.onDev fun d => (d.raise KEY.EVT_STAT_REPL_FAIL).pulseFault ⟨223, 3, 0, slot⟩).answer 0x30 status []

/-- The checks of R454, in order; the first that fails gives the status. -/
def keyCheck (s : State) (pkg : List Byte) (slot len : Nat) (writing readBack : Bool) : State :=
  let d := s.dev
  if !(pkgFormed d pkg slot && pkg.length == len) then s.keyRefuse slot stBadParam
  else if d.flag KEY.STAT_DEBUG || (d.get KEY.SLOT_ATTR_STATE slot == 1 && d.get KEY.SLOT_ATTR_REPL slot == 0) then
    s.keyRefuse slot stDenied
  else if !pkgAuthorised d pkg slot then s.keyRefuse slot stDenied
  else
    let x := pkgKey d pkg slot
    match x.1 with
    | none => { s with dev := x.2 }.keyRefuse slot stVerifyFail
    | some key =>
      if writing || d.restoring || d.get KEY.STAT_STAGE == 4 then { s with dev := x.2 }.keyRefuse slot stBusy
      else s.withNvm fun _ => { s with dev := x.2 }.keyReplace pkg key slot readBack

/-! ## Staging (R461 to R463) -/

/-- The staging sectors that a block reaches first are erased, and the block is programmed (R462). -/
def stageBlock (s : State) (off : Nat) (data : List Byte) : State :=
  let first := (off + 0xFFFF) / 0x10000
  let last := (off + data.length + 0xFFFF) / 0x10000
  (s.nvmErase (stagingBase + 0x10000 * first) (0x10000 * (last - first))).nvmProgram (stagingBase + off) data

/-- STAGE_WRITE (R462). -/
def stageWrite (s : State) (data : Option (List Byte)) : State :=
  let d := s.dev
  let off := d.mbxParam 0x20 0 4
  let len := d.mbxParam 0x20 4 4
  let again := match d.stageLast with
    | some l => l.1 == off && l.2.length == len
    | none => false
  if 3 ≤ d.get KEY.STAT_STAGE then s.answer 0x20 stBusy []
  else if len = 0 ∨ len % 4 ≠ 0 ∨ 0x10000 < len ∨ imageRegion < off + len then s.answer 0x20 stBadParam []
  else if off ≠ 0 ∧ off ≠ d.get KEY.STAGE_LEN_LEN ∧ again = false then s.answer 0x20 stBadParam []
  else
    match data with
    | none => s.answer 0x20 stDmaErr []
    | some bs =>
      if bs.length ≠ len then (s.onDev (·.hostRead bs.length)).answer 0x20 stDmaErr []
      else if off ≠ 0 ∧ off ≠ d.get KEY.STAGE_LEN_LEN then
        (s.onDev (·.hostRead len)).answer 0x20 (if d.stageLast = some (off, bs) then stOk else stBadParam) []
      else s.withNvm fun s =>
        ((s.stageBlock off bs).onDev fun d =>
          let d := { d.hostRead len with stageLast := some (off, bs) }.set KEY.STAGE_LEN_LEN (off + len)
          if off = 0 then { d.set KEY.STAT_STAGE 1 with stageType := 0 } else d).answer 0x20 stOk []

/-- The bytes staged. -/
def staged (s : State) (len : Nat) : List Byte := s.nvmRead stagingBase len

/-- STAGE_VERIFY (R463): the TYPE is the one that the image's envelope names. -/
def stageVerify (s : State) : State :=
  let len := s.dev.get KEY.STAGE_LEN_LEN
  if s.dev.mbxParam 0x21 0 4 ≠ len then s.answer 0x21 stBadParam []
  else s.withNvm fun s =>
    let img := s.staged len
    let type := leAt (img.drop (len - 256)) 4 1
    let x := envelopeOk s.dev type img
    let good := (type == 1 || (type == 2 && (chartFormatBad (img.take (len - 256))).isNone)) && x.1
    let t := { s with dev := x.2 }
    if good then
      (t.onDev fun d =>
        let d := d.raise KEY.EVT_STAT_VERIFY_OK
        if d.get KEY.STAT_STAGE ≤ 2 then { d.set KEY.STAT_STAGE 2 with stageType := type } else d).answer 0x21 stOk [BitVec.ofNat 8 type]
    else (t.onDev (·.raise KEY.EVT_STAT_VERIFY_FAIL)).answer 0x21 stVerifyFail [BitVec.ofNat 8 type]

end State

/-! ## Activation (R464 to R466) -/

namespace Dev

/-- The instant I, in ns. -/
def actInstant (d : Dev) : Nat := d.get2 KEY.ACT_SEC_LO_SEC_L KEY.ACT_SEC_HI_SEC_H * 1000000000 + d.get KEY.ACT_NS_NS

/-- The status of an ACTIVATE (R464). -/
def actStatus (d : Dev) (i : Nat) : Nat :=
  if !d.flag TIM.SRV_STAT_TIME_VALID || d.get KEY.STAT_STAGE != 2 then stNotReady
  else if i * 2 ^ 40 < d.time + 1000000000 * 2 ^ 40 ∨ d.time + 86400 * 1000000000 * 2 ^ 40 < i * 2 ^ 40 then stBadParam
  else stOk

/-- ACTIVATE (R464). -/
def activate (d : Dev) : Dev :=
  let sec := d.mbxParam 0x22 0 6
  let ns := d.mbxParam 0x22 6 4
  let st := d.actStatus (sec * 1000000000 + ns)
  let d := d.mbxAnswer 0x22 st []
  if st = stOk then
    ((d.set2 KEY.ACT_SEC_LO_SEC_L KEY.ACT_SEC_HI_SEC_H sec).set KEY.ACT_NS_NS ns |>.set KEY.STAT_STAGE 3).raise KEY.EVT_STAT_ACT_SCHED
  else d

/-- ACTIVATE_CANCEL (R464, R469). -/
def activateCancel (d : Dev) : Dev :=
  if d.get KEY.STAT_STAGE ≠ 3 then d.mbxAnswer 0x23 stDenied []
  else if d.actInstant * 2 ^ 40 < d.time + 10000000 * 2 ^ 40 then d.mbxAnswer 0x23 stBusy []
  else ((d.set KEY.STAT_STAGE 2).set KEY.STAT_ACT_RESULT 2).mbxAnswer 0x23 stOk []

/-- The control side restarts for a firmware activation (R465): an ACTIVE twin that serves a region sends ABORT (R371); before
RUNNING the reset is a device reset (R408). -/
def actBegin (d : Dev) : Dev :=
  let len := d.get KEY.STAGE_LEN_LEN
  if !d.flag NVM.BOOT_STAT_RUNNING then d.deviceRestart
  else
    let d := match d.con.serving with
      | some r => if d.conIn [5] then d.unitQueue 0x13 [BitVec.ofNat 8 r] else d
      | none => d
    let d := d.mark .kick 0
    let d := { { d.set KEY.STAT_STAGE 4 with actRestart := true }.ctlDown with bootHalt := false }
    { (d.set KEY.STAT_STAGE 4).put MGT.STAT_BOOTROM true with stageType := 1, actLen := len }

end Dev

namespace State

/-- The activation begins (R464 to R466, R469). -/
def activation (s : State) : State :=
  let d := s.dev
  if d.stageType = 1 then
    let t := s.onDev (·.actBegin)
    if t.dev.get KEY.STAT_STAGE = 4 then t.withNvm fun t => t.nvmErase fwBase imageRegion else t
  else s.onDev fun d => { d.set KEY.STAT_STAGE 4 with actLen := d.get KEY.STAGE_LEN_LEN }

/-- The boot header that is not in use is written, and is in use from then on (R465, R466). -/
def newHeader (s : State) (fwLen chartLen : Nat) : State :=
  let k := 1 - s.dev.get NVM.BOOT_STAT_HDR
  let gen := (s.dev.bootHdr.1 + 1) % 2 ^ 32
  let h := sealHeader (leBytes 4 0x4448424F ++ leBytes 4 gen ++ leBytes 4 fwLen ++ leBytes 4 chartLen)
  ((s.nvmErase (bootBase k) 0x10000).nvmProgram (bootBase k) h).onDev fun d =>
    { d with bootHdr := (gen, fwLen, chartLen) }.set NVM.BOOT_STAT_HDR k

/-- Staging returns to LOADING. -/
def stageDone (s : State) (done : Bool) : State :=
  s.onDev fun d =>
    let d := { (d.set KEY.STAT_STAGE 1).set KEY.STAGE_LEN_LEN 0 with stageLast := none, stageType := 0, actLen := 0 }
    if done then (d.set KEY.STAT_ACT_RESULT 1).raise KEY.EVT_STAT_ACT_DONE else d

/-- The copy of an activation is complete (R465 to R467); `copied` says that the flash took it. -/
def activationEnd (s : State) (copied : Bool) : State :=
  let d := s.dev
  let len := d.actLen
  let img := s.staged len
  let x := envelopeOk d d.stageType img
  let good := copied && x.1
  let s := { s with dev := x.2 }
  if d.stageType = 1 then
    if good then
      let t := ((s.nvmErase fwBase imageRegion).nvmProgram fwBase img).newHeader len d.bootHdr.2.2
      (t.onDev fun d => { (d.wdogStart) with fwImage := img }.ctlUp).stageDone true
    else ((s.nvmErase fwBase imageRegion).stageDone false).onDev fun d =>
      { d with bootHalt := true }.raiseFault (Dev.devFault 221)
  else
    if good then (((s.nvmErase chartBase (cardBase - chartBase)).nvmProgram chartBase img).newHeader d.bootHdr.2.1 len).stageDone true
    else (s.nvmErase chartBase (cardBase - chartBase)).stageDone false

end State

/-! ## Meanings: the mailbox -/

/-- MAILBOX_RING_REQUEST (R442): a request is consumed from the request queue; `bytes` are what the host wrote there. -/
def execMailboxRingRequest (bytes : List Byte) (s : State) := s.go fun d =>
  if d.flag MGT.MBX_CFG_RING_EN && !d.restarting then
    let x := d.qConsume (d.get MGT.MBX_CFG_REQ_Q) 64
    if x.1 then
      { x.2 with mbxReqs := x.2.mbxReqs ++ [MbxMsg.mk true (bytes.take 64 ++ List.replicate (64 - bytes.length) 0)] }.logAdd 1750 1
    else x.2
  else d

/-- MAILBOX_RESPONSE (R441 to R443): the oldest response is written; where none waits and the oldest request's CMD is unlisted,
BAD_CMD is. -/
def execMailboxResponse (s : State) := s.go fun d =>
  match d.mbxRsps, d.mbxReqs with
  | m :: ms, _ => { d with mbxRsps := ms }.mbxDeliver m
  | [], m :: ms =>
    if mbxListed (leAt m.bytes 0 2) then d else { d with mbxReqs := ms }.mbxDeliver (mbxReply m stBadCmd [])
  | [], [] => d

/-- GET_INFO (Table 17.6): the version of the firmware image, whose layout is not described, is Config's. -/
def execGetInfo (s : State) : Host.Outcome State Fault Refusal :=
  .next (s.mbxRun 0x01 true fun s => s.answer 0x01 stOk
    (leBytes 4 (Config.fwVersion s.dev.fwImage) ++ leBytes 4 s.dev.bootHdr.1 ++ leBytes 1 (s.dev.get NVM.BOOT_STAT_STEP)))

/-- ECHO (Table 17.6). -/
def execEcho (s : State) : Host.Outcome State Fault Refusal :=
  .next (s.mbxRun 0x02 true fun s => s.answer 0x02 stOk
    (match s.dev.mbxFind 0x02 with
      | some m => (m.bytes.drop 8).take (leAt m.bytes 4 2)
      | none => []))

/-- BOOT_LOAD (R401, Table 17.6): served by the boot ROM where BOOT_SRC = 1; what firmware answers is open (log 2). `data` is what
the DMA engine read, none where it failed. -/
def execBootLoad (data : Option (List Byte)) (s : State) : Host.Outcome State Fault Refusal :=
  let d := s.dev
  .next (s.mbxRun 0x10 (d.flag NVM.BOOT_STAT_BOOT_SRC) fun s =>
    if !d.flag MGT.STAT_BOOTROM then
      let r := d.draw
      { s with dev := r.2 }.answer 0x10 (r.1 % 65536) []
    else
      let target := d.mbxParam 0x10 0 1
      let len := d.mbxParam 0x10 9 4
      if 1 < target then s.answer 0x10 stBadParam []
      else
        match data with
        | none => s.answer 0x10 stDmaErr []
        | some bs =>
          let s := s.onDev (·.hostRead bs.length)
          if bs.length ≠ len then s.answer 0x10 stDmaErr []
          else if target = 1 then (s.onDev fun d => { d with bootChart := bs }).answer 0x10 stOk []
          else
            let x := envelopeOk s.dev 1 bs
            if x.1 then { s with dev := { x.2 with bootFw := bs } }.answer 0x10 stOk []
            else { s with dev := x.2 }.answer 0x10 stVerifyFail [])

/-- BOOT_START (R401, Table 17.6). -/
def execBootStart (s : State) : Host.Outcome State Fault Refusal :=
  let d := s.dev
  .next (s.mbxRun 0x11 (d.flag NVM.BOOT_STAT_BOOT_SRC) fun s =>
    if d.flag MGT.STAT_BOOTROM then (s.onDev fun d => { d with bootGo := true }).answer 0x11 stOk []
    else
      let r := d.draw
      { s with dev := r.2 }.answer 0x11 (r.1 % 65536) [])

/-- STAGE_WRITE (R462): `data` is what the DMA engine read, none where it failed. -/
def execStageWrite (data : Option (List Byte)) (s : State) : Host.Outcome State Fault Refusal :=
  .next (s.mbxRun 0x20 false fun s => s.stageWrite data)

/-- STAGE_VERIFY (R463). -/
def execStageVerify (s : State) : Host.Outcome State Fault Refusal := .next (s.mbxRun 0x21 false fun s => s.stageVerify)

/-- ACTIVATE (R464). -/
def execActivate (s : State) : Host.Outcome State Fault Refusal := .next (s.mbxRun 0x22 false fun s => s.onDev (·.activate))

/-- ACTIVATE_CANCEL (R464). -/
def execActivateCancel (s : State) : Host.Outcome State Fault Refusal :=
  .next (s.mbxRun 0x23 false fun s => s.onDev (·.activateCancel))

/-- KEY_REPLACE (R453 to R456): the package that the DMA engine read (none where it failed), whether another NVM write is in
progress, and whether the new copy reads back. -/
def execKeyReplace (pkg : Option (List Byte)) (writing readBack : Bool) (s : State) : Host.Outcome State Fault Refusal :=
  .next (s.mbxRun 0x30 false fun s =>
    match pkg with
    | none => s.answer 0x30 stDmaErr []
    | some p => (s.onDev (·.hostRead p.length)).keyCheck p (s.dev.mbxParam 0x30 0 1) (s.dev.mbxParam 0x30 9 4) writing readBack)

/-- NVM_READ (R443): not more than 1 MiB, and never of the key copies. -/
def execNvmRead (s : State) : Host.Outcome State Fault Refusal :=
  .next (s.mbxRun 0x40 false fun s =>
    let off := s.dev.mbxParam 0x40 0 4
    let len := s.dev.mbxParam 0x40 4 4
    if 0x100000 < len then s.answer 0x40 stBadParam []
    else if off < keysBase 2 ∧ keysBase 0 < off + len then s.answer 0x40 stDenied []
    else s.withNvm fun s =>
      (s.onDev fun d => d.hostWrite (d.mbxParam 0x40 8 8) (s.nvmRead off len)).answer 0x40 stOk [])

/-! ## Meanings: activation -/

/-- ACTIVATION_INSTANT (R464 to R466, R469): time has reached or passed I; a key replacement or a sector write in progress
(`writing`) comes first. -/
def execActivationInstant (writing : Bool) (s : State) : Host.Outcome State Fault Refusal :=
  if s.dev.get KEY.STAT_STAGE = 3 ∧ s.dev.actInstant * 2 ^ 40 ≤ s.dev.time ∧ writing = false ∧ s.dev.restoring = false
  then .next s.activation
  else .next s

/-- ACTIVATION_COMPLETE (R465 to R467): `copied` says that the flash took the copy; it waits for the bus (R412, R469). -/
def execActivationComplete (copied : Bool) (s : State) : Host.Outcome State Fault Refusal :=
  if s.dev.get KEY.STAT_STAGE = 4 then .next (s.withNvm fun s => s.activationEnd copied) else .next s

/-! ## The DMA engine (R445, R446) -/

/-- The store granule at an address holds an uncorrectable error (R239). -/
def badGranule (d : Dev) (a : Nat) : Bool := d.ueGran.contains (a / 32)

/-- The first granule with an error that a read of `n` bytes meets, as a byte address. -/
def firstBad (d : Dev) (a n : Nat) : Option Nat :=
  ((List.range ((a + n + 31) / 32 - a / 32)).map fun i => 32 * (a / 32 + i)).find? fun g => badGranule d g

namespace State

/-- A transfer from host memory to the store: how many bytes move and the status (R446); `data` is what the host supplied. -/
def dmaIn (s : State) (a n : Nat) (data : Option (List Byte)) : Nat × Nat × State :=
  let bs := (data.getD []).take n
  let d := s.dev.hostRead bs.length
  if a < surfStart then (0, 2, { s with dev := d })
  else
    let room := storeEnd - a
    let k := min bs.length room
    let t := { s with dev := d }.writeStore a (bs.take k)
    (k, if k = n then 0 else if bs.length < room then 3 else 1, t)

/-- A transfer from the store to host memory (R446): a granule with an uncorrectable error goes out as all ones and ends it. -/
def dmaOut (s : State) (a n host : Nat) : Nat × Nat × State :=
  let k := min n (storeEnd - a)
  let r := match firstBad s.dev a k with
    | some g =>
      let good := g - a
      let e := min k (g + 32 - a)
      (4, memReads storeFill s.store a good ++ List.replicate (e - good) 0xFF)
    | none => (if k = n then 0 else 1, memReads storeFill s.store a k)
  let d := s.dev.hbmAccess false a r.2.length
  (r.2.length, r.1, { s with dev := if r.2.isEmpty then d else d.hostWrite host r.2 })

/-- A descriptor's transfer (Table 17.7): the bytes moved, the status, the state after it. -/
def dmaMove (s : State) (elem : List Byte) (data : Option (List Byte)) : Nat × Nat × State :=
  let a := leAt elem 8 8
  let n := leAt elem 16 4
  if n = 0 ∨ 16777216 < n then (0, 5, s)
  else if leAt elem 20 1 % 2 = 0 then s.dmaIn a n data
  else s.dmaOut a n (leAt elem 0 8)

end State

/-- DMA_DESCRIPTOR (R445, R446): a descriptor is consumed, with at most four in flight; `elem` is the element the host wrote, `data`
what host memory supplies to a transfer to the store. -/
def execDmaDescriptor (elem : List Byte) (data : Option (List Byte)) (s : State) : Host.Outcome State Fault Refusal :=
  let d := s.dev
  if d.flag HIF.DMA_CTL_EN && decide (d.dmaFly.length < 4) then
    let x := d.qConsume (d.get HIF.DMA_CTL_DESC_Q) 32
    if x.1 then
      let r := { s with dev := x.2 }.dmaMove elem data
      let job : DmaJob := ⟨leAt elem 24 4, leAt elem 21 1 % 2 == 1, r.2.1, r.1⟩
      .next (r.2.2.onDev fun d => { d with dmaFly := d.dmaFly ++ [job] }.set HIF.DMA_STAT_INFLIGHT (d.dmaFly.length + 1))
    else .next { s with dev := x.2 }
  else .next s

/-- DMA_COMPLETE (R446): the oldest descriptor in flight ends; completion records follow descriptor order. -/
def execDmaComplete (s : State) := s.go fun d =>
  match d.dmaFly with
  | [] => d
  | j :: js =>
    let d := ({ d with dmaFly := js }.set HIF.DMA_STAT_INFLIGHT js.length).logAdd 1749 1
    let d := if j.cpl || j.status != 0 then
        (d.qProduce (d.get HIF.DMA_CTL_CPL_Q) (leBytes 4 j.tag ++ leBytes 1 j.status ++ leBytes 3 0 ++ leBytes 4 j.moved ++
          leBytes 4 0)).2
      else d
    if j.status = 0 then d
    else ((d.raise HIF.EVT_STAT_DMA_ERR).count HIF.DMA_STAT_CNT_ERR).pulseFault (Dev.devFault 254)

end Sys2Proof.Machine
end

