-- ==== Sys2Proof/Machine/Dispatch.lean ====
section
/-!
DEFINITION. Sys2Proof/Machine/Dispatch.lean: one arm for each command.
-/

namespace Sys2Proof.Machine

def exec (i : Instr) (s : State) : Host.Outcome State Fault Refusal :=
  match i with
  | .registerWrite m off v => Sys2Proof.Machine.execRegisterWrite m off v s
  | .decodeMiss m off wr => Sys2Proof.Machine.execDecodeMiss m off wr s
  | .selectWrite m off v => Sys2Proof.Machine.execSelectWrite m off v s
  | .lowWordRead m off => Sys2Proof.Machine.execLowWordRead m off s
  | .timeFracRead m => Sys2Proof.Machine.execTimeFracRead m s
  | .targetTimeout m off wr => Sys2Proof.Machine.execTargetTimeout m off wr s
  | .dataBlockRx g l b => Sys2Proof.Machine.execDataBlockRx g l b s
  | .idleBlockRx g l raw => Sys2Proof.Machine.execIdleBlockRx g l raw s
  | .badControlBlock g l raw => Sys2Proof.Machine.execBadControlBlock g l raw s
  | .trainBlockRx g l raw => Sys2Proof.Machine.execTrainBlockRx g l raw s
  | .alignBlockRx g bs => Sys2Proof.Machine.execAlignBlockRx g bs s
  | .markerMissing g lanes => Sys2Proof.Machine.execMarkerMissing g lanes s
  | .roleBlockRx g bs => Sys2Proof.Machine.execRoleBlockRx g bs s
  | .restBlockRx g bs => Sys2Proof.Machine.execRestBlockRx g bs s
  | .exitBlockRx g bs => Sys2Proof.Machine.execExitBlockRx g bs s
  | .clockLos g => Sys2Proof.Machine.execClockLos g s
  | .clockLol g => Sys2Proof.Machine.execClockLol g s
  | .clockLosClear g => Sys2Proof.Machine.execClockLosClear g s
  | .clockValid g => Sys2Proof.Machine.execClockValid g s
  | .blockLock g lanes => Sys2Proof.Machine.execBlockLock g lanes s
  | .retrainTimer g => Sys2Proof.Machine.execRetrainTimer g s
  | .retrainAutoWrite g v => Sys2Proof.Machine.execRetrainAutoWrite g v s
  | .elasticSlip slot ins => Sys2Proof.Machine.execElasticSlip slot ins s
  | .trqTimer g => Sys2Proof.Machine.execTrqTimer g s
  | .rxReqWrite g v => Sys2Proof.Machine.execRxReqWrite g v s
  | .txReqWrite g v => Sys2Proof.Machine.execTxReqWrite g v s
  | .trainingStepEnd g => Sys2Proof.Machine.execTrainingStepEnd g s
  | .markerPeriodStart g => Sys2Proof.Machine.execMarkerPeriodStart g s
  | .roleIndex g k => Sys2Proof.Machine.execRoleIndex g k s
  | .roleWordChange => Sys2Proof.Machine.execRoleWordChange s
  | .roleWordSend g => Sys2Proof.Machine.execRoleWordSend g s
  | .restSend g => Sys2Proof.Machine.execRestSend g s
  | .lngCntClr g => Sys2Proof.Machine.execLngCntClr g s
  | .forceRetrain g => Sys2Proof.Machine.execForceRetrain g s
  | .forceTrain g => Sys2Proof.Machine.execForceTrain g s
  | .inputEnable slot en => Sys2Proof.Machine.execInputEnable slot en s
  | .eavFound slot => Sys2Proof.Machine.execEavFound slot s
  | .eavMiss slot => Sys2Proof.Machine.execEavMiss slot s
  | .inputFrameStart slot => Sys2Proof.Machine.execInputFrameStart slot s
  | .payloadIdPacket slot => Sys2Proof.Machine.execPayloadIdPacket slot s
  | .ancPacketCapture slot => Sys2Proof.Machine.execAncPacketCapture slot s
  | .outputEnable o en => Sys2Proof.Machine.execOutputEnable o en s
  | .counterStart o => Sys2Proof.Machine.execCounterStart o s
  | .counterLineStart o ins => Sys2Proof.Machine.execCounterLineStart o ins s
  | .counterFrameStart o => Sys2Proof.Machine.execCounterFrameStart o s
  | .sourceLineStart o ins => Sys2Proof.Machine.execSourceLineStart o ins s
  | .triggerChange o => Sys2Proof.Machine.execTriggerChange o s
  | .routeWrite m v => Sys2Proof.Machine.execRouteWrite m v s
  | .xpCntClr o => Sys2Proof.Machine.execXpCntClr o s
  | .takeGo m => Sys2Proof.Machine.execTakeGo m s
  | .takeFlush m => Sys2Proof.Machine.execTakeFlush m s
  | .takeRingEntry bytes => Sys2Proof.Machine.execTakeRingEntry bytes s
  | .takeMessage arriving tagOk => Sys2Proof.Machine.execTakeMessage arriving tagOk s
  | .takeEntry => Sys2Proof.Machine.execTakeEntry s
  | .armEntry => Sys2Proof.Machine.execArmEntry s
  | .cancelEntry => Sys2Proof.Machine.execCancelEntry s
  | .takeExecute o => Sys2Proof.Machine.execTakeExecute o s
  | .salvoExpiry salvo => Sys2Proof.Machine.execSalvoExpiry salvo s
  | .takeEngineEnable en => Sys2Proof.Machine.execTakeEngineEnable en s
  | .tkCntClr => Sys2Proof.Machine.execTkCntClr s
  | .controlSideDown => Sys2Proof.Machine.execControlSideDown s
  | .controlSideUp => Sys2Proof.Machine.execControlSideUp s
  | .audioFollow o => Sys2Proof.Machine.execAudioFollow o s
  | .autoNegotiationDone p => Sys2Proof.Machine.execAutoNegotiationDone p s
  | .linkUp m => Sys2Proof.Machine.execLinkUp m s
  | .linkDown m => Sys2Proof.Machine.execLinkDown m s
  | .rxFrame m bytes info => Sys2Proof.Machine.execRxFrame m bytes info s
  | .txFrameStart m avail => Sys2Proof.Machine.execTxFrameStart m avail s
  | .txUnderrun m sent => Sys2Proof.Machine.execTxUnderrun m sent s
  | .txLinkDrop m f => Sys2Proof.Machine.execTxLinkDrop m f s
  | .txGateDrop m tc => Sys2Proof.Machine.execTxGateDrop m tc s
  | .macEnable m en => Sys2Proof.Machine.execMacEnable m en s
  | .gateCfgChange m => Sys2Proof.Machine.execGateCfgChange m s
  | .gateListChange m => Sys2Proof.Machine.execGateListChange m s
  | .gateEntryBoundary m => Sys2Proof.Machine.execGateEntryBoundary m s
  | .macCntClr m => Sys2Proof.Machine.execMacCntClr m s
  | .linkRestart m => Sys2Proof.Machine.execLinkRestart m s
  | .contextEnable c en => Sys2Proof.Machine.execContextEnable c en s
  | .bundleEnable b en => Sys2Proof.Machine.execBundleEnable b en s
  | .bundleFrame b => Sys2Proof.Machine.execBundleFrame b s
  | .bundleLineTimeout b => Sys2Proof.Machine.execBundleLineTimeout b s
  | .legLoss c leg => Sys2Proof.Machine.execLegLoss c leg s
  | .videoPacketRelease f => Sys2Proof.Machine.execVideoPacketRelease f s
  | .audioPacketRelease f => Sys2Proof.Machine.execAudioPacketRelease f s
  | .ancPacketRelease f => Sys2Proof.Machine.execAncPacketRelease f s
  | .flwBlkCntClr => Sys2Proof.Machine.execFlwBlkCntClr s
  | .flwCntClr c => Sys2Proof.Machine.execFlwCntClr c s
  | .queueEnable q en => Sys2Proof.Machine.execQueueEnable q en s
  | .queueIndexWrite m prod v => Sys2Proof.Machine.execQueueIndexWrite m prod v s
  | .queueElementConsume q => Sys2Proof.Machine.execQueueElementConsume q s
  | .queueElementProduce q bytes => Sys2Proof.Machine.execQueueElementProduce q bytes s
  | .queueNotifyTimer q => Sys2Proof.Machine.execQueueNotifyTimer q s
  | .hostTxElement m elem => Sys2Proof.Machine.execHostTxElement m elem s
  | .qCntClr q => Sys2Proof.Machine.execQCntClr q s
  | .hwmClr q => Sys2Proof.Machine.execHwmClr q s
  | .idxClr q => Sys2Proof.Machine.execIdxClr q s
  | .syncStart n => Sys2Proof.Machine.execSyncStart n s
  | .syncStop n => Sys2Proof.Machine.execSyncStop n s
  | .syncFrameChoice n k => Sys2Proof.Machine.execSyncFrameChoice n k s
  | .syncFramePlay n k => Sys2Proof.Machine.execSyncFramePlay n k s
  | .syncFrameIncomplete n => Sys2Proof.Machine.execSyncFrameIncomplete n s
  | .syncHoldTimeout n => Sys2Proof.Machine.execSyncHoldTimeout n s
  | .syncFreeze n v => Sys2Proof.Machine.execSyncFreeze n v s
  | .fsCntClr => Sys2Proof.Machine.execFsCntClr s
  | .eccAddrClr => Sys2Proof.Machine.execEccAddrClr s
  | .syncCntClr n => Sys2Proof.Machine.execSyncCntClr n s
  | .bar2Read o len => Sys2Proof.Machine.execBar2Read o len s
  | .bar2Write o bytes => Sys2Proof.Machine.execBar2Write o bytes s
  | .eccCe => Sys2Proof.Machine.execEccCe s
  | .eccUe addr reader => Sys2Proof.Machine.execEccUe addr reader s
  | .patrolScrub ces ues => Sys2Proof.Machine.execPatrolScrub ces ues s
  | .engineStart e => Sys2Proof.Machine.execEngineStart e s
  | .engineStop e => Sys2Proof.Machine.execEngineStop e s
  | .engineFrame e late => Sys2Proof.Machine.execEngineFrame e late s
  | .engineCommit e => Sys2Proof.Machine.execEngineCommit e s
  | .engineCommitPoint e => Sys2Proof.Machine.execEngineCommitPoint e s
  | .engineCntClr e => Sys2Proof.Machine.execEngineCntClr e s
  | .coefDataAccess m v => Sys2Proof.Machine.execCoefDataAccess m v s
  | .matrixTick n ports elems => Sys2Proof.Machine.execMatrixTick n ports elems s
  | .amxCommit => Sys2Proof.Machine.execAmxCommit s
  | .amxCommitPoint => Sys2Proof.Machine.execAmxCommitPoint s
  | .matrixEnable en => Sys2Proof.Machine.execMatrixEnable en s
  | .amxCntClr => Sys2Proof.Machine.execAmxCntClr s
  | .audioDirectionEnable p tx en => Sys2Proof.Machine.execAudioDirectionEnable p tx en s
  | .frameSyncRx p tx clocks rate frames => Sys2Proof.Machine.execFrameSyncRx p tx clocks rate frames s
  | .frameSyncMissing p tx => Sys2Proof.Machine.execFrameSyncMissing p tx s
  | .srcLock p => Sys2Proof.Machine.execSrcLock p s
  | .srcUnlock p => Sys2Proof.Machine.execSrcUnlock p s
  | .audCntClr p => Sys2Proof.Machine.execAudCntClr p s
  | .timeSet => Sys2Proof.Machine.execTimeSet s
  | .timeAdj => Sys2Proof.Machine.execTimeAdj s
  | .srvPush => Sys2Proof.Machine.execSrvPush s
  | .cadSnap => Sys2Proof.Machine.execCadSnap s
  | .srvReset => Sys2Proof.Machine.execSrvReset s
  | .timCntClr => Sys2Proof.Machine.execTimCntClr s
  | .incrWrite hi v => Sys2Proof.Machine.execIncrWrite hi v s
  | .servoSample => Sys2Proof.Machine.execServoSample s
  | .ppsEdge n t => Sys2Proof.Machine.execPpsEdge n t s
  | .framePulse n t => Sys2Proof.Machine.execFramePulse n t s
  | .cadenceFrameStart c => Sys2Proof.Machine.execCadenceFrameStart c s
  | .triggerFire n => Sys2Proof.Machine.execTriggerFire n s
  | .txTimestampEntry m => Sys2Proof.Machine.execTxTimestampEntry m s
  | .tsqPop m => Sys2Proof.Machine.execTsqPop m s
  | .lodestarEnable en => Sys2Proof.Machine.execLodestarEnable en s
  | .refinEdge n t cycles => Sys2Proof.Machine.execRefinEdge n t cycles s
  | .refinLoss n => Sys2Proof.Machine.execRefinLoss n s
  | .ptpKeep => Sys2Proof.Machine.execPtpKeep s
  | .ptpKeepTimeout => Sys2Proof.Machine.execPtpKeepTimeout s
  | .requal => Sys2Proof.Machine.execRequal s
  | .lrnClr => Sys2Proof.Machine.execLrnClr s
  | .lrnDataRead m => Sys2Proof.Machine.execLrnDataRead m s
  | .lodestarMeasurement y pll => Sys2Proof.Machine.execLodestarMeasurement y pll s
  | .waitToRestore n => Sys2Proof.Machine.execWaitToRestore n s
  | .referenceSelection => Sys2Proof.Machine.execReferenceSelection s
  | .l1Lock => Sys2Proof.Machine.execL1Lock s
  | .histOk => Sys2Proof.Machine.execHistOk s
  | .holdExpire => Sys2Proof.Machine.execHoldExpire s
  | .holdoverModelUpdate temp => Sys2Proof.Machine.execHoldoverModelUpdate temp s
  | .learnRecord => Sys2Proof.Machine.execLearnRecord s
  | .ageDay => Sys2Proof.Machine.execAgeDay s
  | .consortEnable en => Sys2Proof.Machine.execConsortEnable en s
  | .heartbeatTx => Sys2Proof.Machine.execHeartbeatTx s
  | .consortUnitTx => Sys2Proof.Machine.execConsortUnitTx s
  | .heartbeatRx bytes t4 => Sys2Proof.Machine.execHeartbeatRx bytes t4 s
  | .twinTimeSample => Sys2Proof.Machine.execTwinTimeSample s
  | .pairTimeout pulled healthy => Sys2Proof.Machine.execPairTimeout pulled healthy s
  | .partnerLoss pulled healthy => Sys2Proof.Machine.execPartnerLoss pulled healthy s
  | .ctrlTimeout => Sys2Proof.Machine.execCtrlTimeout s
  | .handoverComplete => Sys2Proof.Machine.execHandoverComplete s
  | .forceActive => Sys2Proof.Machine.execForceActive s
  | .join => Sys2Proof.Machine.execJoin s
  | .yieldCmd => Sys2Proof.Machine.execYieldCmd s
  | .yieldInstant => Sys2Proof.Machine.execYieldInstant s
  | .yieldRoleSwitch => Sys2Proof.Machine.execYieldRoleSwitch s
  | .yieldRx bytes => Sys2Proof.Machine.execYieldRx bytes s
  | .conCntClr => Sys2Proof.Machine.execConCntClr s
  | .journalRx bytes => Sys2Proof.Machine.execJournalRx bytes s
  | .digestSend u c k => Sys2Proof.Machine.execDigestSend u c k s
  | .digestRx bytes => Sys2Proof.Machine.execDigestRx bytes s
  | .digestTimeout u c k => Sys2Proof.Machine.execDigestTimeout u c k s
  | .reqRx bytes img => Sys2Proof.Machine.execReqRx bytes img s
  | .stateRx bytes => Sys2Proof.Machine.execStateRx bytes s
  | .snapRx bytes => Sys2Proof.Machine.execSnapRx bytes s
  | .regionCommit writes => Sys2Proof.Machine.execRegionCommit writes s
  | .abortRx bytes => Sys2Proof.Machine.execAbortRx bytes s
  | .faultRecord rise pulse fall => Sys2Proof.Machine.execFaultRecord rise pulse fall s
  | .srcAck src => Sys2Proof.Machine.execSrcAck src s
  | .srcClr src => Sys2Proof.Machine.execSrcClr src s
  | .srcInj src => Sys2Proof.Machine.execSrcInj src s
  | .srcForce src v => Sys2Proof.Machine.execSrcForce src v s
  | .injStuck src => Sys2Proof.Machine.execInjStuck src s
  | .logClr => Sys2Proof.Machine.execLogClr s
  | .ackAll => Sys2Proof.Machine.execAckAll s
  | .fltCntClr => Sys2Proof.Machine.execFltCntClr s
  | .logDataRead m => Sys2Proof.Machine.execLogDataRead m s
  | .spSafeIdle v => Sys2Proof.Machine.execSpSafeIdle v s
  | .devReset => Sys2Proof.Machine.execDevReset s
  | .wdogKick v => Sys2Proof.Machine.execWdogKick v s
  | .watchdogExpiry writing => Sys2Proof.Machine.execWatchdogExpiry writing s
  | .thermalSample ts => Sys2Proof.Machine.execThermalSample ts s
  | .thermalTrip => Sys2Proof.Machine.execThermalTrip s
  | .shedStepTimer => Sys2Proof.Machine.execShedStepTimer s
  | .sidePortWrite off data => Sys2Proof.Machine.execSidePortWrite off data s
  | .sidePortRead off regs => Sys2Proof.Machine.execSidePortRead off regs s
  | .aonPowerUp => Sys2Proof.Machine.execAonPowerUp s
  | .deviceResetAssert => Sys2Proof.Machine.execDeviceResetAssert s
  | .powerGoodFall k => Sys2Proof.Machine.execPowerGoodFall k s
  | .deviceResetRelease pg bootSrc twinId nvmOwn => Sys2Proof.Machine.execDeviceResetRelease pg bootSrc twinId nvmOwn s
  | .nvmOwnChange level writing card => Sys2Proof.Machine.execNvmOwnChange level writing card s
  | .sectorWriteDone w => Sys2Proof.Machine.execSectorWriteDone w s
  | .bootHeaderSelect => Sys2Proof.Machine.execBootHeaderSelect s
  | .firmwareVerifyDone => Sys2Proof.Machine.execFirmwareVerifyDone s
  | .hbmTrainingDone failed => Sys2Proof.Machine.execHbmTrainingDone failed s
  | .calibrationApply mv => Sys2Proof.Machine.execCalibrationApply mv s
  | .chartPhaseA n => Sys2Proof.Machine.execChartPhaseA n s
  | .chartWrite => Sys2Proof.Machine.execChartWrite s
  | .chartWriteSeq => Sys2Proof.Machine.execChartWriteSeq s
  | .chartWriteFifo => Sys2Proof.Machine.execChartWriteFifo s
  | .chartModify => Sys2Proof.Machine.execChartModify s
  | .chartPoll => Sys2Proof.Machine.execChartPoll s
  | .chartPollTimeout => Sys2Proof.Machine.execChartPollTimeout s
  | .chartWait => Sys2Proof.Machine.execChartWait s
  | .chartStore => Sys2Proof.Machine.execChartStore s
  | .chartPhase => Sys2Proof.Machine.execChartPhase s
  | .chartTune => Sys2Proof.Machine.execChartTune s
  | .chartEnd => Sys2Proof.Machine.execChartEnd s
  | .refWaitExpiry => Sys2Proof.Machine.execRefWaitExpiry s
  | .phaseB n => Sys2Proof.Machine.execPhaseB n s
  | .restoreFactory writing => Sys2Proof.Machine.execRestoreFactory writing s
  | .restoreComplete verified => Sys2Proof.Machine.execRestoreComplete verified s
  | .hostReset down => Sys2Proof.Machine.execHostReset down s
  | .busClr => Sys2Proof.Machine.execBusClr s
  | .eventSourcePending src => Sys2Proof.Machine.execEventSourcePending src s
  | .vecAck k v => Sys2Proof.Machine.execVecAck k v s
  | .msixUnmask v => Sys2Proof.Machine.execMsixUnmask v s
  | .softSet idx => Sys2Proof.Machine.execSoftSet idx s
  | .softClr idx => Sys2Proof.Machine.execSoftClr idx s
  | .mailboxGo m => Sys2Proof.Machine.execMailboxGo m s
  | .mailboxRingRequest bytes => Sys2Proof.Machine.execMailboxRingRequest bytes s
  | .mailboxResponse => Sys2Proof.Machine.execMailboxResponse s
  | .getInfo => Sys2Proof.Machine.execGetInfo s
  | .echo => Sys2Proof.Machine.execEcho s
  | .bootLoad data => Sys2Proof.Machine.execBootLoad data s
  | .bootStart => Sys2Proof.Machine.execBootStart s
  | .stageWrite data => Sys2Proof.Machine.execStageWrite data s
  | .stageVerify => Sys2Proof.Machine.execStageVerify s
  | .activate => Sys2Proof.Machine.execActivate s
  | .activateCancel => Sys2Proof.Machine.execActivateCancel s
  | .keyReplace pkg writing readBack => Sys2Proof.Machine.execKeyReplace pkg writing readBack s
  | .nvmRead => Sys2Proof.Machine.execNvmRead s
  | .activationInstant writing => Sys2Proof.Machine.execActivationInstant writing s
  | .activationComplete ok => Sys2Proof.Machine.execActivationComplete ok s
  | .debugRequest => Sys2Proof.Machine.execDebugRequest s
  | .debugClear => Sys2Proof.Machine.execDebugClear s
  | .dmaDescriptor elem data => Sys2Proof.Machine.execDmaDescriptor elem data s
  | .dmaComplete => Sys2Proof.Machine.execDmaComplete s
  | .clockMonitorWindow bad sysStopped => Sys2Proof.Machine.execClockMonitorWindow bad sysStopped s
  | .pclkLock => Sys2Proof.Machine.execPclkLock s
  | .pclkIdleTimeout => Sys2Proof.Machine.execPclkIdleTimeout s
  | .crossingSideReset x unit orderly lost => Sys2Proof.Machine.execCrossingSideReset x unit orderly lost s
  | .crossingRestart x unit => Sys2Proof.Machine.execCrossingRestart x unit s
  | .xingCntClr => Sys2Proof.Machine.execXingCntClr s
  | .clrAll => Sys2Proof.Machine.execClrAll s
  | .snapshot => Sys2Proof.Machine.execSnapshot s
  | .peakClr => Sys2Proof.Machine.execPeakClr s
  | .freeze v => Sys2Proof.Machine.execFreeze v s
  | .bwWindowEnd => Sys2Proof.Machine.execBwWindowEnd s
  | .pcieLinkUp speed width => Sys2Proof.Machine.execPcieLinkUp speed width s
  | .alwaysOnRailLoss => Sys2Proof.Machine.execAlwaysOnRailLoss s

end Sys2Proof.Machine
end

