-- ==== Sys2Proof/Machine/Idle.lean ====
section
/-!
DEFINITION. Sys2Proof/Machine/Idle.lean: what one core-clock cycle brings about of itself, which is what the block does when no command
waits (log 8).
-/

namespace Sys2Proof.Machine

/-- One cc passes: the Chronometer counts while the synthesised clocks run (R315, R320, R403), and the ACLK counter of the
always-on domain counts once in 32 cc (Tables 15.9 and 19.1: 25 MHz against 800 MHz). -/
def Dev.idle (d : Dev) : Dev :=
  let d := if d.inReset || !d.flag GLB.CLK_STAT_SYS_LOCK then d else d.timeTick
  { d with cc := d.cc + 1, aclk := if (d.cc + 1) % 32 = 0 then (d.aclk + 1) % 2 ^ 48 else d.aclk }

end Sys2Proof.Machine
end

