-- ==== Sys2Proof/Safety.lean ====
section
/-!
DEFINITION. Sys2Proof/Safety.lean: what counts as a good state: the frame store and the NVM in their canonical form.
-/

namespace Sys2Proof.Machine

/-- The memory form that every step keeps: addresses strictly rising, and no byte listed at what an unlisted address reads as. -/
def State.memWf (s : State) : Bool := Sys2Proof.Machine.memWf storeFill s.store && Sys2Proof.Machine.memWf nvmFill s.nvm

/-- The command answers a next state in which the frame store, the NVM and the queue stand as they were and the block is as `P`
says. -/
def RunsTo (i : Instr) (s : State) (P : Dev → Prop) : Prop := ∃ d, exec i s = .next { s with dev := d } ∧ P d

/-- The command answers a next state in which nothing but registers of the block has changed, as `P` says. -/
def RegsTo (i : Instr) (s : State) (P : Dev → Prop) : Prop :=
  ∃ r, exec i s = .next { s with dev := { s.dev with regs := r } } ∧ P { s.dev with regs := r }

/-- A count of 32 bits that saturates. -/
abbrev sat32 (n : Nat) : Nat := min (2 ^ 32 - 1) n

/-- Every register but the listed ones, each an offset and an instance, keeps its word. -/
def RegsKept (d e : Dev) (keys : List Key) : Prop := ∀ off ch, (off, ch) ∉ keys → e.reg off ch = d.reg off ch

/-- Every register of every instance keeps its word, but for the listed offsets. -/
def OffsKept (d e : Dev) (offs : List Nat) : Prop := ∀ off ch, off ∉ offs → e.reg off ch = d.reg off ch

/-- The windows of the register space (Table 17.1). -/
inductive Win where
  | glb | flt | tim | ref | nvm | key | mgt | bus | evt | log | lng | xp | slp | mac | flw | qm | fs | plt | amx | aud | con | hif
  deriving DecidableEq, Repr

/-- A window's number: the control side's ten take 64 KiB each from offset 0 on, the other twelve 1 MiB each from 0x00100000 on. -/
def Win.num : Win → Nat
  | .glb => 0 | .flt => 1 | .tim => 2 | .ref => 3 | .nvm => 4 | .key => 5 | .mgt => 6 | .bus => 7 | .evt => 8 | .log => 9
  | .lng => 1 | .xp => 2 | .slp => 3 | .mac => 4 | .flw => 5 | .qm => 6 | .fs => 7 | .plt => 8 | .amx => 9 | .aud => 10 | .con => 11
  | .hif => 12

/-- Is the window one of the twelve large ones? -/
def Win.large : Win → Bool
  | .glb | .flt | .tim | .ref | .nvm | .key | .mgt | .bus | .evt | .log => false
  | .lng | .xp | .slp | .mac | .flw | .qm | .fs | .plt | .amx | .aud | .con | .hif => true

/-- Does the window hold an offset? -/
def Win.has (w : Win) (off : Nat) : Bool :=
  if w.large then off / 0x100000 == w.num else decide (off < 0x100000) && off / 0x10000 == w.num

/-- Every register outside some windows keeps its word. -/
def OnlyWindows (d e : Dev) (ws : List Win) : Prop := ∀ off ch, (∀ w ∈ ws, w.has off = false) → e.reg off ch = d.reg off ch

/-- The Chart loader can go on, and the record `r` stands whole at its front, passes its checks and applies to this device. -/
def RecordAt (d : Dev) (l : Loader) (r : List Byte) : Prop :=
  d.loader = some l ∧ d.loaderFree l = true ∧ (l.buf.take r.length).map (·.2) = r ∧ leAt r 2 2 = r.length ∧ recOk r = true ∧
    d.condMet (leAt r 1 1) = true

/-- The loader once it has got past a record of `n` bytes. -/
def pastRecord (l : Loader) (n : Nat) : Loader := { l with buf := l.buf.drop n, polled := false }

end Sys2Proof.Machine
end

