-- ==== Sys2Proof/WellFormed.lean ====
section
/-!
DEFINITION. Sys2Proof/WellFormed.lean: what a sender outside can form: the bounds on operands that their types do not carry.
-/

namespace Sys2Proof

/-- The fields of a take entry within their bits (Table 5.1). -/
def TakeEntry.wf (e : TakeEntry) : Bool :=
  decide (e.sec < 2 ^ 48) && decide (e.ns < 2 ^ 32) && decide (e.out < 2048) && decide (e.type < 4) && decide (e.src < 2048) &&
    decide (e.salvo < 65536)

/-- A fault of the sources, levels and units that records hold (Table 15.12, R386). -/
def FaultAt.wf (f : FaultAt) : Bool :=
  decide (f.src < 256) && decide (1 ≤ f.lvl) && decide (f.lvl ≤ 3) && decide (f.unit < 65536) && decide (f.aux < 256)

/-- A command that its sender can form. -/
def Instr.wf (i : Instr) : Bool :=
  match i with
  | .registerWrite _ off _ | .selectWrite _ off _ | .lowWordRead _ off | .decodeMiss _ off _ | .targetTimeout _ off _ =>
    decide (off < 2 ^ 24)
  | .alignBlockRx _ bs | .roleBlockRx _ bs | .restBlockRx _ bs | .exitBlockRx _ bs => decide (bs.length = 8)
  | .takeRingEntry bytes => decide (bytes.length = 16)
  | .txLinkDrop _ f => decide (f.tc < 8)
  | .bar2Read o len => decide (o.val + len ≤ 2 ^ 28)
  | .bar2Write o bytes => decide (o.val + bytes.length ≤ 2 ^ 28)
  | .heartbeatRx bytes _ | .yieldRx bytes | .journalRx bytes | .digestRx bytes | .reqRx bytes _ | .stateRx bytes | .snapRx bytes
  | .abortRx bytes => decide (bytes.length = 128)
  | .regionCommit writes => writes.all fun w => decide (w.1 < 2 ^ 24)
  | .faultRecord rise pulse fall => (rise ++ pulse ++ fall).all FaultAt.wf
  | .thermalSample ts => decide (ts.length = 24)
  | .nvmOwnChange level _ card => !level || card.isEmpty
  | .sectorWriteDone (.erase sector) => decide (sector < 2048)
  | .sectorWriteDone (.program page bs) => decide (page < 32768) && decide (bs.length ≤ 4096)
  | .sectorWriteDone .faultLog => true
  | .sectorWriteDone (.userCal xs) =>
    xs.all fun x => decide (x.1 ≤ 665) && decide (x.2.length % 4 = 0) && decide (x.2.length + 8 < 65536)
  | .mailboxRingRequest bytes => decide (bytes.length = 64)
  | .dmaDescriptor elem _ => decide (elem.length = 32)
  | _ => true

end Sys2Proof
end

