-- ==== Sys2Proof/Certificates/Slice0/Obligations.lean ====
section
/-!
DEFINITION. Sys2Proof/Certificates/Slice0/Obligations.lean: the statements for the provers. `RunsTo` and `RegsTo` say that a command answers
a next state with the frame store, the NVM and the queue as they were; `RegsKept` and `OffsKept` say which registers it leaves alone.
-/

open Sys2Proof Sys2Proof.Machine

/-- The lanes' data path (R44, R45, R47): an UP group in native mode delivers payload bits [32p+31:32p] to the slot of phase p; in
compatibility mode two words for each of phases 0 and 1; a header error delivers no word with V = 1 and counts CNT_HDR once. Below the
header threshold registers outside the Logbook and CNT_HDR stay. Words between partners, on lanes whose headers are listed: a role word
that at least 5 lanes agree on is taken into LNG.ROLE_RX whole (R74), REST from at least 5 lanes takes an UP receiver to REST with its
alignment retained (R58, R71), unless a header error of the same block passes HDR_THR, which takes it DOWN (R60); in every other state but
REST a REST block moves nothing. A compatibility receiver in REST that sees fewer than 5 EXIT blocks acquires afresh (R59); with 5 of them
and eight valid headers it seeks markers at once (R71). A data index of a group in RUN (R44, R50, R79): the blocks carry, for each slot,
the words its output has queued, oldest first, one of each data block in native mode and two in compatibility mode, a V = 0 word as 0; the
words sent leave the queue, those after them wait; the Logbook counts the data blocks, one a lane (R485). -/
def Obligations.LaneData : Prop :=
  ((∀ (g : Grp) (l : Lane) (b : LaneBlk) (s : State), g.val < 36 → s.dev.rxState g = 5 → s.dev.compat g = false → b.hdr = 0x5 →
    RunsTo (.dataBlockRx g l b) s fun d =>
      (∀ p < 4, mapGet d.inWords (g * 32 + l * 4 + p, 0) [] = [(s.dev.takePayload g l b.raw).1.extractLsb' (32 * p) 32]) ∧
      RegsKept s.dev d [(0x00090100, g.val), (0x00090104, g.val)]) ∧
  (∀ (g : Grp) (l : Lane) (b : LaneBlk) (s : State), g.val < 36 → s.dev.rxState g = 5 → s.dev.compat g = true → b.hdr = 0x5 →
    RunsTo (.dataBlockRx g l b) s fun d =>
      (∀ p < 2, mapGet d.inWords (g * 32 + l * 4 + p, 0) [] = [(s.dev.takePayload g l b.raw).1.extractLsb' (32 * p) 32,
        (s.dev.takePayload g l b.raw).1.extractLsb' (64 + 32 * p) 32]) ∧
      (∀ slot, (∀ p < 2, slot ≠ g.val * 32 + l.val * 4 + p) → mapGet d.inWords (slot, 0) [] = mapGet s.dev.inWords (slot, 0) [])) ∧
  (∀ (g : Grp) (l : Lane) (b : LaneBlk) (s : State), g.val < 36 → s.dev.rxState g = 5 → b.hdr ≠ 0x5 → b.hdr ≠ 0xA →
    ((s.dev.rxOf g).lanes.getD l ⟨0, 0, 0, 0, false⟩).hdrErr + 1 ≤ s.dev.get LNG.ERR_CFG_HDR_THR g →
    RunsTo (.dataBlockRx g l b) s fun d =>
      d.get LNG.CNT_HDR_COUNT g = sat32 (s.dev.get LNG.CNT_HDR_COUNT g + 1) ∧ d.rxState g = 5 ∧
      (∀ p < (if s.dev.compat g then 2 else 4), ∀ w ∈ mapGet d.inWords (g * 32 + l * 4 + p, 0) [], w = 0) ∧
      RegsKept s.dev d [(0x00100120, g), (0x00090100, g), (0x00090104, g)]) ∧
  (∀ (g : Grp) (l : Lane) (b : LaneBlk) (s : State), s.dev.rxState g ≠ 5 → s.dev.rxState g ≠ 7 → b.hdr = 0x5 ∨ b.hdr = 0xA →
    RunsTo (.dataBlockRx g l b) s fun d => d.inWords = s.dev.inWords ∧ RegsKept s.dev d [])) ∧
  ((∀ (g : Grp) (bs : List LaneBlk) (p : BitVec 128) (s : State), s.dev.rxState g = 5 → (∀ b ∈ bs, b.hdr = 0xA ∨ b.hdr = 0x5) →
    Dev.agreed (Dev.validOf 0x66 bs (s.dev.takePayloads g bs).1) = some p → (payloadByte p 1).toNat / 32 % 2 = 0 →
    RunsTo (.roleBlockRx g bs) s fun d => d.get LNG.ROLE_RX_VALID g = 1 ∧ d.get LNG.ROLE_RX_ROLE g = (payloadByte p 1).toNat % 4 ∧
      d.get LNG.ROLE_RX_HEALTHY g = (payloadByte p 1).toNat / 4 % 2 ∧ d.get LNG.ROLE_RX_ROLE_SEQ g = (payloadByte p 2).toNat ∧
      d.get LNG.ROLE_RX_SYSID g = (payloadByte p 3).toNat + 256 * (payloadByte p 4).toNat ∧
      RegsKept s.dev d [(0x00100114, g.val), (0x0010011C, g.val), (0x00100128, g.val), (0x00090100, g.val), (0x00090104, g.val)]) ∧
  (∀ (g : Grp) (bs : List LaneBlk) (s : State), s.dev.rxState g = 5 → (∀ b ∈ bs, b.hdr = 0xA ∨ b.hdr = 0x5) →
    5 ≤ (Dev.validOf 0x78 bs (s.dev.takePayloads g bs).1).length →
    RunsTo (.restBlockRx g bs) s fun d => d.rxState g = 7 ∧ (d.rxOf g).retained = true ∧ d.get LNG.EVT_STAT_REST_RX g = 1) ∧
  (∀ (g : Grp) (bs : List LaneBlk) (l : Nat) (b : LaneBlk) (x : RxLane) (s : State), s.dev.rxState g = 5 → s.dev.shedding = false →
    bs[l]? = some b → b.hdr ≠ 0xA → b.hdr ≠ 0x5 → (s.dev.rxOf g).lanes[l]? = some x →
    s.dev.get LNG.ERR_CFG_HDR_THR g < x.hdrErr + 1 →
    RunsTo (.restBlockRx g bs) s fun d => d.rxState g = 6) ∧
  (∀ (g : Grp) (bs : List LaneBlk) (s : State), s.dev.rxState g ≠ 5 → s.dev.rxState g ≠ 7 →
    RunsTo (.restBlockRx g bs) s fun d => d.rxState g = s.dev.rxState g ∧
      RegsKept s.dev d [(0x00100120, g.val), (0x00100128, g.val)]) ∧
  (∀ (g : Grp) (bs : List LaneBlk) (s : State), s.dev.rxState g = 7 → s.dev.compat g = true → s.dev.shedding = false →
    (Dev.validOf 0x99 bs (s.dev.takePayloads g bs).1).length < 5 →
    RunsTo (.exitBlockRx g bs) s fun d => d.rxState g = 2) ∧
  (∀ (g : Grp) (bs : List LaneBlk) (s : State), s.dev.rxState g = 7 → s.dev.compat g = true → s.dev.shedding = false → bs.length = 8 →
    (∀ b ∈ bs, b.hdr = 0xA ∨ b.hdr = 0x5) → 5 ≤ (Dev.validOf 0x99 bs (s.dev.takePayloads g bs).1).length →
    RunsTo (.exitBlockRx g bs) s fun d => d.rxState g = 4 ∧ d.get LNG.GRP_STAT_LANE_LOCK g = 255)) ∧
  (∀ (g k : Nat) (d : Dev), g < 36 → 0 < k →
    (∀ o, o / 32 = g → mapGet (d.sendData g k).outQ (o, 0) [] =
      (mapGet d.outQ (o, 0) []).drop (if d.compat g then 2 * k else k)) ∧
    (∀ o, o / 32 ≠ g → mapGet (d.sendData g k).outQ (o, 0) [] = mapGet d.outQ (o, 0) []) ∧
    (d.flag LOG.STAT_FROZEN = false → (d.sendData g k).get2 LOG.CTR_LO_COUNT_L LOG.CTR_HI_COUNT_H (37 + g) =
      (d.get2 LOG.CTR_LO_COUNT_L LOG.CTR_HI_COUNT_H (37 + g) + 8 * k) % 2 ^ 48) ∧
    ∃ ws, (d.sendData g k).sent = .data g k ws :: d.sent ∧
      ∀ x ∈ ws, x.1 / 32 = g ∧ x.2 = ((mapGet d.outQ (x.1, 0) []).take (if d.compat g then 2 * k else k)).map
        fun w => if wordV w then w else 0)

/-- Control blocks (R48, R49, R65): a valid IDLE or TRAIN block leaves every register of a receiver that is not resuming from compatibility
REST; in LOCK, ALIGN and UP (the states in which headers are read, log 83) a block with a bad CRC or an unlisted type is counted once in
CNT_CTL, whatever command brings it, and changes no other register. A marker aligns a group (R53): eight CRC-valid ALIGN blocks with the
group's number, its mode, equal MSEQ and at most 53 UI between the first and the last take the receiver from ALIGN to UP, with the
measured skew reported; the expected index passing without an ALIGN counts one marker failure for each lane that missed it (R55). -/
def Obligations.ControlAndAlignment : Prop :=
  ((∀ (g : Grp) (l : Lane) (raw : BitVec 128) (s : State), s.dev.rxState g ≠ 7 ∨ s.dev.compat g = false →
    controlOk (s.dev.takePayload g l raw).1 = true → (payloadByte (s.dev.takePayload g l raw).1 0).toNat ∈ controlTypes →
    RunsTo (.idleBlockRx g l raw) s (fun d => RegsKept s.dev d []) ∧ RunsTo (.trainBlockRx g l raw) s (fun d => RegsKept s.dev d [])) ∧
  (∀ (g : Grp) (l : Lane) (raw : BitVec 128) (s : State), s.dev.rxState g ∈ [3, 4, 5] →
    (controlOk (s.dev.takePayload g l raw).1 = false ∨ (payloadByte (s.dev.takePayload g l raw).1 0).toNat ∉ controlTypes) →
    (RunsTo (.badControlBlock g l raw) s fun d =>
      d.get LNG.CNT_CTL_COUNT g = sat32 (s.dev.get LNG.CNT_CTL_COUNT g + 1) ∧ RegsKept s.dev d [(0x00100128, g.val)]) ∧
    ∀ c ∈ [Instr.idleBlockRx g l raw, Instr.trainBlockRx g l raw], RunsTo c s fun d =>
      d.get LNG.CNT_CTL_COUNT g = sat32 (s.dev.get LNG.CNT_CTL_COUNT g + 1) ∧ RegsKept s.dev d [(0x00100128, g.val)])) ∧
  ((∀ (g : Grp) (bs : List LaneBlk) (m first last : Nat) (s : State), s.dev.rxState g = 4 → bs.length = 8 →
    (∀ b ∈ bs, b.hdr = 0xA ∧ first ≤ b.at_ui ∧ b.at_ui ≤ last) → (∃ b ∈ bs, b.at_ui = first) → (∃ b ∈ bs, b.at_ui = last) →
    last ≤ first + 53 →
    (∀ p ∈ (s.dev.takePayloads g bs).1, controlOk p = true ∧ (payloadByte p 0).toNat = 0x4B ∧ (payloadByte p 1).toNat % 64 = g ∧
      decide ((payloadByte p 2).toNat ≥ 128) = s.dev.compat g ∧ Dev.mseqOf p = m) →
    RunsTo (.alignBlockRx g bs) s fun d => d.rxState g = 5 ∧ d.get LNG.SKEW_STAT_SKEW g = last - first ∧
      d.get LNG.SKEW_STAT_SKEW_VALID g = 1 ∧ d.get LNG.EVT_STAT_UP g = 1 ∧ (d.rxOf g).mseq = m) ∧
  (∀ (g : Grp) (lanes : List Lane) (s : State), s.dev.rxState g = 5 →
    RunsTo (.markerMissing g lanes) s fun d => d.get LNG.CNT_MRK_COUNT g =
      sat32 (s.dev.get LNG.CNT_MRK_COUNT g + ((List.finRange 8).filter fun l => lanes.contains l).length)) ∧
  (∀ (g : Grp) (lanes : List Lane) (s : State), s.dev.rxState g ≠ 5 →
    RunsTo (.markerMissing g lanes) s fun d => d = s.dev))

/-- The receive state machine (Table 2.5, R58, R59, R61, R63, R70), each command in every state; where a state is named, while the 110 °C step
does not hold a direction (R72). CLOCK_LOS is seen in every state but OFF, CLOCK_LOL in none of OFF and SLEEP: while acquiring they return
to ACQ without a count, in UP they enter DOWN, counted once, with the DOWN event, their own event and the group's loss fault.
CLOCK_LOS_CLEAR ends a native REST. CLOCK_VALID, once both are clear for 200 ns, moves ACQ to LOCK; BLOCK_LOCK on all lanes moves LOCK to
ALIGN; RETRAIN_TIMER, 1 µs after entry into DOWN, moves on where RETRAIN_AUTO is set. FORCE_RETRAIN acquires afresh from every state that
seeks or has lock. A write of RX_REQ that turns a direction off or to SLEEP takes effect from every state (R59); 0b11 acts as 0b01. -/
def Obligations.ReceiveStates : Prop :=
  ((∀ (g : Grp) (s : State), RunsTo (.clockLos g) s fun d => (s.dev.rxState g = 0 → d = s.dev) ∧
    (s.dev.rxState g ≠ 0 → d.get LNG.GRP_STAT_CLK_LOS g = 1) ∧
    (s.dev.rxState g ∈ [2, 3, 4] → s.dev.shedding = false → d.rxState g = 2 ∧
      d.get LNG.CNT_DOWN_COUNT g = s.dev.get LNG.CNT_DOWN_COUNT g) ∧
    (s.dev.rxState g = 5 → s.dev.shedding = false → d.rxState g = 6 ∧ d.get LNG.EVT_STAT_LOS g = 1 ∧ d.get LNG.EVT_STAT_DOWN g = 1 ∧
      d.get LNG.CNT_DOWN_COUNT g = sat32 (s.dev.get LNG.CNT_DOWN_COUNT g + 1) ∧ groupFault 64 g ∈ d.conds)) ∧
  (∀ (g : Grp) (s : State), RunsTo (.clockLol g) s fun d => (s.dev.rxState g ≤ 1 → d = s.dev) ∧
    (1 < s.dev.rxState g → d.get LNG.GRP_STAT_CLK_LOL g = 1) ∧
    (s.dev.rxState g ∈ [2, 3, 4] → s.dev.shedding = false → d.rxState g = 2 ∧
      d.get LNG.CNT_DOWN_COUNT g = s.dev.get LNG.CNT_DOWN_COUNT g) ∧
    (s.dev.rxState g = 5 → s.dev.shedding = false → d.rxState g = 6 ∧ d.get LNG.EVT_STAT_LOL g = 1 ∧ d.get LNG.EVT_STAT_DOWN g = 1 ∧
      d.get LNG.CNT_DOWN_COUNT g = sat32 (s.dev.get LNG.CNT_DOWN_COUNT g + 1) ∧ groupFault 64 g ∈ d.conds)) ∧
  (∀ (g : Grp) (s : State), RunsTo (.clockLosClear g) s fun d => d.get LNG.GRP_STAT_CLK_LOS g = 0 ∧
    (s.dev.rxState g = 7 → s.dev.compat g = false → s.dev.shedding = false → d.rxState g = 2) ∧
    (s.dev.rxState g ≠ 7 ∨ s.dev.compat g = true → d.rxState g = s.dev.rxState g ∧ RegsKept s.dev d [(0x00100104, g.val)])) ∧
  (∀ (g : Grp) (s : State), s.dev.lasted .rxClock g 200 = true → RunsTo (.clockValid g) s fun d =>
    d.get LNG.GRP_STAT_CLK_LOS g = 0 ∧ d.get LNG.GRP_STAT_CLK_LOL g = 0 ∧
    (s.dev.rxState g = 2 → s.dev.shedding = false → d.rxState g = 3) ∧
    (s.dev.rxState g ≠ 2 → d.rxState g = s.dev.rxState g ∧ RegsKept s.dev d [(0x00100104, g.val)])) ∧
  (∀ (g : Grp) (s : State), s.dev.lasted .rxClock g 200 = false → RunsTo (.clockValid g) s fun d => d = s.dev) ∧
  (∀ (g : Grp) (lanes : BitVec 8) (s : State), RunsTo (.blockLock g lanes) s fun d =>
    (s.dev.rxState g ≠ 3 → d = s.dev) ∧
    (s.dev.rxState g = 3 → s.dev.shedding = false →
      d.get LNG.GRP_STAT_LANE_LOCK g = s.dev.get LNG.GRP_STAT_LANE_LOCK g ||| lanes.toNat ∧
      d.rxState g = if s.dev.get LNG.GRP_STAT_LANE_LOCK g ||| lanes.toNat = 255 then 4 else 3)) ∧
  (∀ (g : Grp) (s : State), s.dev.lasted .rxDown g 1000 = true → RunsTo (.retrainTimer g) s fun d =>
    (s.dev.rxState g ≠ 6 → d = s.dev) ∧
    (s.dev.rxState g = 6 → s.dev.flag LNG.GRP_CTL_RETRAIN_AUTO g = true → s.dev.shedding = false → d.rxState g = 2) ∧
    (s.dev.rxState g = 6 → s.dev.flag LNG.GRP_CTL_RETRAIN_AUTO g = false → d.rxState g = 6 ∧ (d.rxOf g).aged = true)) ∧
  (∀ (g : Grp) (v : Bool) (s : State), RunsTo (.retrainAutoWrite g v) s fun d => d.get LNG.GRP_CTL_RETRAIN_AUTO g = b2n v ∧
    (s.dev.rxState g = 6 → (s.dev.rxOf g).aged = true → v = true → s.dev.shedding = false → d.rxState g = 2)) ∧
  (∀ (g : Grp) (s : State), RunsTo (.forceRetrain g) s fun d =>
    (s.dev.rxState g ∈ [2, 3, 4, 6] → s.dev.shedding = false → d.rxState g = 2) ∧
    (s.dev.rxState g = 5 → s.dev.shedding = false → d.rxState g = 6 ∧ d.get LNG.EVT_STAT_DOWN g = 1 ∧
      d.get LNG.CNT_DOWN_COUNT g = sat32 (s.dev.get LNG.CNT_DOWN_COUNT g + 1)) ∧
    (s.dev.rxState g ∈ [0, 1, 7] → d = s.dev)) ∧
  (∀ (g : Grp) (s : State), s.dev.shedding = false → s.dev.rxState g ∈ [0, 1] →
    RunsTo (.rxReqWrite g 2) s fun d => d.rxState g = 2 ∧ d.get LNG.GRP_CTL_RX_REQ g = 2)) ∧
  (∀ (g : Grp) (s : State),
    RunsTo (.rxReqWrite g 0) s (fun d => d.rxState g = 0 ∧ d.get LNG.GRP_CTL_RX_REQ g = 0) ∧
    RunsTo (.rxReqWrite g 1) s (fun d => d.rxState g = 1 ∧ d.get LNG.GRP_CTL_RX_REQ g = 1) ∧
    RunsTo (.rxReqWrite g 3) s (fun d => d.rxState g = 1 ∧ d.get LNG.GRP_CTL_RX_REQ g = 3))

/-- The transmit state machine (Tables 2.7 and 2.8, R50, R51, R65, R66, R68, R69). A training step ends once it has lasted its time; a role
word that has changed, and REST, go out where an index that would carry IDLE comes before the next fixed one; TRQ rises after more than
100 µs of acquiring. A change of ROLE or HEALTHY advances ROLE_SEQ by 1 modulo 256 and marks every group's role word for sending (R52);
ROLE here is the model's pair of STAT.ROLE and the hold of 10 µs after a yield (log 89). Elastic slips are counted on the slot's group
(R57): an insertion delivers one V = 0 word; a deletion waits for a word to delete. -/
def Obligations.TransmitStates : Prop :=
  (∀ (g : Grp) (s : State),
    (s.dev.txState g = 0 → s.dev.txHeldOff g = false → s.dev.shedding = false →
      RunsTo (.txReqWrite g 2) s fun d => d.txState g = 2 ∧ (d.txOf g).seqStep = some (.full, 1)) ∧
    (s.dev.txState g = 1 → s.dev.txHeldOff g = false → s.dev.shedding = false →
      RunsTo (.txReqWrite g 2) s fun d => d.txState g = 2 ∧
        (d.txOf g).seqStep = some (if s.dev.compat g then (.exit, 3) else (.wake, 1))) ∧
    (s.dev.txState g = 3 → RunsTo (.txReqWrite g 0) s fun d => d.txState g = 0) ∧
    (s.dev.txState g = 3 → RunsTo (.txReqWrite g 1) s fun d => d.txState g = 3 ∧ (d.txOf g).restWait = true) ∧
    (s.dev.txState g = 2 → (s.dev.txOf g).seqStep = some (.full, 1) → s.dev.stepOver g = true →
      RunsTo (.trainingStepEnd g) s fun d => (d.txOf g).seqStep = some (.full, 2) ∧ d.txState g = 2 ∧
        d.sent = .prbs g ((List.range 8).map (0x1FFF - ·)) :: s.dev.sent) ∧
    (s.dev.txState g = 2 → (s.dev.txOf g).seqStep = some (.full, 3) → s.dev.stepOver g = true →
      RunsTo (.trainingStepEnd g) s fun d => d.txState g = 3 ∧ (d.txOf g).seqStep = none) ∧
    (s.dev.txState g ≠ 2 ∨ s.dev.stepOver g = false → RunsTo (.trainingStepEnd g) s fun d => d = s.dev) ∧
    (s.dev.txState g = 3 → RunsTo (.markerPeriodStart g) s fun d =>
      (d.txOf g).mseq = ((s.dev.txOf g).mseq + 1) % 65536 ∧ (d.txOf g).idx = 0 ∧
      ∃ ps, d.sent.head? = some (.lanes g ps) ∧ ps.length = 8 ∧ ∀ p ∈ ps, p.head? = some 0x4B) ∧
    (∀ k : Fin 3, s.dev.txState g = 3 → RunsTo (.roleIndex g k) s fun d => (d.txOf g).idx = 4096 * (k.val + 1) ∧
      d.sent.head? = some (.lanes g (List.replicate 8 (controlPayload 0x66 (s.dev.roleWord g))))) ∧
    (s.dev.txState g = 3 → (s.dev.txOf g).changed = true → (s.dev.toIdle g).isSome = true →
      RunsTo (.roleWordSend g) s fun d => (d.txOf g).changed = false ∧
      d.sent.head? = some (.lanes g (List.replicate 8 (controlPayload 0x66 (s.dev.roleWord g))))) ∧
    (s.dev.txState g = 3 → (s.dev.txOf g).restWait = true → (s.dev.toIdle g).isSome = true →
      RunsTo (.restSend g) s fun d => d.txState g = 1 ∧
      ∃ ps, d.sent.head? = some (.lanes g ps) ∧ ∀ p ∈ ps, p.head? = some 0x78) ∧
    (s.dev.txState g = 3 → s.dev.shedding = false → RunsTo (.forceTrain g) s fun d => d.txState g = 2 ∧
      (d.txOf g).seqStep = some (.full, 1) ∧ d.get LNG.EVT_STAT_RETRAIN g = 1) ∧
    (s.dev.rxState g ∈ [2, 3, 4] → s.dev.lasted .rxAcquire g 100001 = true → s.dev.flag LNG.GRP_CTL_TRQ_EN g = true →
      RunsTo (.trqTimer g) s fun d => (d.txOf g).trq = true ∧ (d.txOf g).changed = true ∧ RegsKept s.dev d [])) ∧
  (∀ s : State, s.dev.roleSent ≠ (s.dev.get CON.STAT_ROLE + 4 * b2n s.dev.roleHold, s.dev.flag FLT.STAT_HEALTHY) →
    RunsTo .roleWordChange s fun d => d.roleSeq = (s.dev.roleSeq + 1) % 256 ∧ (∀ g : Grp, (d.txOf g).changed = true) ∧
      RegsKept s.dev d []) ∧
  (∀ (slot : Slot) (ins : Bool) (s : State), slot.val < 1152 → RunsTo (.elasticSlip slot ins) s fun d =>
    d.get LNG.CNT_SLIP_COUNT (slot / 32) = sat32 (s.dev.get LNG.CNT_SLIP_COUNT (slot / 32) + 1) ∧
    RegsKept s.dev d [(0x0010012C, slot / 32)] ∧ (ins = true → mapGet d.inWords (slot.val, 0) [] = [0]) ∧
    (ins = false → mapGet d.slips (slot.val, 0) 0 = mapGet s.dev.slips (slot.val, 0) 0 + 1))

/-- The input stage's parser (R98, R99, Table 3.5): a stopped stage is held in SEARCH with no detected format; a start takes the stage's
frame-shadowed register. On the next valid EAV of the words received SEARCH leads to VERIFY, the M bits passed that disagree are counted
in CNT_TRS, an EAV on the tracked grid keeps or regains LOCKED, and the failed CRCs of a whole line are counted where CRC_CHK is set. An
expected position without an EAV is counted in CNT_TRS, leads in VERIFY to SEARCH, and in lock to FLYWHEEL until LOSS_LINES, then to
SEARCH. What an input frame start, a payload ID and an ancillary packet bring (R101, R102, R107, R109): the frame-shadowed register
becomes active, the measured offset of a locked slot is valid and reported as lines and ns, the next payload ID is reported with PID_CHG
on a change, and a captured packet takes one element of the capture queue, or is dropped and counted where the queue is full. -/
def Obligations.InputStage : Prop :=
  ((∀ (slot : SlpSlot) (s : State), RunsTo (.inputEnable slot false) s fun d => d.get SLP.IN_CFG_IN_EN slot = 0 ∧
    d.get SLP.IN_STAT_PARSE slot = 0 ∧ d.get SLP.IN_STAT_DET_FMT slot = 0) ∧
  (∀ (slot : SlpSlot) (s : State), RunsTo (.inputEnable slot true) s fun d => d.get SLP.IN_CFG_IN_EN slot = 1 ∧
    d.actReg 0x00300104 slot = s.dev.reg 0x00300104 slot) ∧
  (∀ (slot : SlpSlot) (i k : Nat) (f v : Bool) (s : State), s.dev.flag SLP.IN_CFG_IN_EN slot = true →
    s.dev.nextEav slot = some (i, k, f, v) → ∀ x, s.dev.insOf slot = x →
    ∃ t, exec (.eavFound slot) s = .next t ∧ t.nvm = s.nvm ∧
      t.dev.get SLP.CNT_TRS_COUNT slot = sat32 (s.dev.get SLP.CNT_TRS_COUNT slot +
        mErrs (ifWords x.buf) 0 (x.buf.take (x.buf.length - (dropTo x.buf i).1.length))) ∧
      (s.dev.get SLP.IN_STAT_PARSE slot = 0 → t.dev.get SLP.IN_STAT_PARSE slot = 1) ∧
      (2 ≤ s.dev.get SLP.IN_STAT_PARSE slot → (x.away + (i - x.pos)) % max 1 x.wpl = 0 →
        t.dev.get SLP.IN_STAT_PARSE slot = 2) ∧
      (2 ≤ s.dev.get SLP.IN_STAT_PARSE slot → s.dev.flag SLP.IN_CFG_CRC_CHK slot = true → x.s = k → x.away = 0 → i - x.pos = x.wpl →
        t.dev.get SLP.CNT_CRC_COUNT slot = sat32 (s.dev.get SLP.CNT_CRC_COUNT slot +
          crcFails k (lineIn k (((ifWords x.buf).drop x.pos).take x.wpl)) ((ifWords x.buf).drop i)))) ∧
  (∀ (slot : SlpSlot) (s : State), s.dev.flag SLP.IN_CFG_IN_EN slot = false → slot.val < 1152 →
    RunsTo (.eavFound slot) s fun d => d = s.dev) ∧
  (∀ (slot : SlpSlot) (i : Nat) (s : State), s.dev.flag SLP.IN_CFG_IN_EN slot = true → s.dev.nextPlace slot = some i →
    (∀ e, s.dev.nextEav slot = some e → i < e.1) →
    (s.dev.nextEav slot = none → i + 8 * (s.dev.insOf slot).s ≤ (ifWords (s.dev.insOf slot).buf).length) → ∀ x, s.dev.insOf slot = x →
    RunsTo (.eavMiss slot) s fun d => d.get SLP.CNT_TRS_COUNT slot = sat32 (s.dev.get SLP.CNT_TRS_COUNT slot +
        (mErrs (ifWords x.buf) 0 (x.buf.take (x.buf.length - (dropTo x.buf i).1.length)) + 1)) ∧
      d.get SLP.IN_STAT_PARSE slot = if s.dev.get SLP.IN_STAT_PARSE slot = 1 then 0
        else if x.missed + 1 ≥ max 1 (s.dev.get SLP.IN_CFG_LOSS_LINES slot) then 0 else 3)) ∧
  ((∀ (slot : SlpSlot) (f : Fmt) (s : State), s.dev.flag SLP.IN_CFG_IN_EN slot = true → (s.dev.insOf slot).fresh = true →
    s.dev.locked slot = true → s.dev.syncAt slot = none → fmtOf (s.dev.get SLP.IN_STAT_DET_FMT slot) = some f →
    RunsTo (.inputFrameStart slot) s fun d => d.actReg 0x00300104 slot = s.dev.reg 0x00300104 slot ∧
      d.get SLP.TA_OFS_VALID slot = 1 ∧ d.get SLP.TA_OFS_OFS_LINES slot = ofSigned 12 (offsetParts f (s.dev.frameOfs slot).1).1 ∧
      ((s.dev.frameOfs slot).1 % 2 = 0 → d.get SLP.TA_OFS_NS_OFS_NS slot = ofSigned 32 ((s.dev.frameOfs slot).1 * 5 / 2))) ∧
  (∀ (slot : SlpSlot) (pid : Word) (rest : List Word) (s : State), s.dev.flag SLP.IN_CFG_IN_EN slot = true →
    (s.dev.insOf slot).pids = pid :: rest →
    RunsTo (.payloadIdPacket slot) s fun d => d.get SLP.PID_PID slot = pid.toNat ∧ (d.insOf slot).pids = rest ∧
      d.get SLP.IN_STAT_PID_VALID slot = 1 ∧ (s.dev.get SLP.PID_PID slot ≠ pid.toNat → d.get SLP.EVT_STAT_PID_CHG slot = 1)) ∧
  (∀ (slot : SlpSlot) (p : AncPkt) (rest : List AncPkt) (q : Nat) (s : State), s.dev.flag SLP.IN_CFG_IN_EN slot = true →
    (s.dev.insOf slot).pkts = p :: rest →
    (∃ n < 8, s.dev.ancMatch slot fltIn n p = true ∧ s.dev.flag (SLP.ANC_FLT_CAP n) slot = true) →
    s.dev.flag SLP.ANC_Q_CAP_EN slot = true → q = s.dev.get SLP.ANC_Q_CAP_Q slot →
    s.dev.qUsable q false (ancRecord slot p).length = true →
    (s.dev.qFill q < s.dev.qSize q → RunsTo (.ancPacketCapture slot) s fun d => (d.insOf slot).pkts = rest ∧
      d.get QM.Q_PROD_IDX q = (s.dev.get QM.Q_PROD_IDX q + 1) % (2 * s.dev.qSize q) % 2 ^ QM.Q_PROD_IDX.w) ∧
    (s.dev.qSize q ≤ s.dev.qFill q → RunsTo (.ancPacketCapture slot) s fun d =>
      d.get SLP.CNT_ANC_DROP_COUNT slot = sat32 (s.dev.get SLP.CNT_ANC_DROP_COUNT slot + 1) ∧
      d.get QM.Q_PROD_IDX q = s.dev.get QM.Q_PROD_IDX q)))

/-- The output stage and its raster counter (R89, R90, R91, R94, R109, R125): a start of a stopped output takes its frame-shadowed registers
and, with a format, waits for the next frame start of its cadence; there, and not before, the counter starts at line 0; a line start adds
a line where the line before ends; a frame start is a commit point; the source's line start re-phases the counter while the output passes
its source, and ends the generator of an output whose trigger is clear; a stop clears the counter and stops the generator. The crosspoint
(R22, R112, R113, R117, R120, R126): TRIG follows the substitute trigger; a write to XP.ROUTE.SRC sets the active source while the output
is stopped, with its latency and, for an invalid code, INVALID; while the output runs a change is ignored and raises CLASS_VIOL. A word
crosses the device unchanged (R19, R111, R112, R115): a data block of a native group brings its word of phase p to every lane output that
passes that slot without output processing, where it waits for its lane behind the words before it. The slot stream that a generator makes
conforms to its format's rate (R85, R86, R87), whatever correction is due. -/
def Obligations.OutputAndCrosspoint : Prop :=
  ((∀ (o : SlpSlot) (s : State), s.dev.get SLP.OUT_CFG_OUT_EN o = 0 →
    RunsTo (.outputEnable o true) s fun d => d.get SLP.OUT_CFG_OUT_EN o = 1 ∧
      (d.outOf o).wait = (if fmtValid (s.dev.outFmt o) then some (mapGet s.dev.cadLast (s.dev.outCad o, 0) (-1)) else none) ∧
      (d.outOf o).run = false ∧ d.actReg 0x00200104 o = s.dev.reg 0x00200104 o ∧ d.actReg 0x00300114 o = s.dev.reg 0x00300114 o) ∧
  (∀ (o : SlpSlot) (s : State), s.dev.get SLP.OUT_CFG_OUT_EN o = 1 →
    RunsTo (.outputEnable o false) s fun d => d.get SLP.OUT_CFG_OUT_EN o = 0 ∧ (d.outOf o).run = false ∧ d.takesOf o = [] ∧
      d.get XP.SRC_STAT_GEN o = 0 ∧ d.get XP.SRC_STAT_CAUSE o = 0) ∧
  (∀ (o : Slot) (k : Int) (s : State), (s.dev.outOf o).wait = some k → s.dev.outRuns o = true →
    (k < mapGet s.dev.cadLast (s.dev.outCad o, 0) (-1) →
      RunsTo (.counterStart o) s fun d => (d.outOf o).run = true ∧ (d.outOf o).wait = none ∧ (d.outOf o).line = 0 ∧
        (d.outOf o).lineT = s.dev.slotNow ∧ d.actReg 0x00200104 o = s.dev.reg 0x00200104 o) ∧
    (mapGet s.dev.cadLast (s.dev.outCad o, 0) (-1) ≤ k → RunsTo (.counterStart o) s fun d => d = s.dev)) ∧
  (∀ (o : Slot) ins (f : Fmt) (s : State), fmtOf (s.dev.outFmt o) = some f → (s.dev.outOf o).run = true →
    RunsTo (.counterLineStart o ins) s fun d =>
      (d.outOf o).line = (if (s.dev.outOf o).line ≥ f.lines then 1 else (s.dev.outOf o).line + 1) ∧
      (d.outOf o).lineT = if (s.dev.outOf o).placed then (s.dev.outOf o).lineT else (s.dev.outOf o).lineT + (s.dev.outOf o).span) ∧
  (∀ (o : Slot) (s : State), (s.dev.outOf o).run = true →
    RunsTo (.counterFrameStart o) s fun d => (d.outOf o).line = 0 ∧ (d.outOf o).frameT = s.dev.cadNow ∧
      d.actReg 0x00200104 o = s.dev.reg 0x00200104 o) ∧
  (∀ (o : Slot) ins (s : State), o.val < 1536 → s.dev.srcAct o < 1152 → s.dev.synced (s.dev.srcAct o) = false →
    s.dev.srcSeq (s.dev.srcAct o) ≠ (s.dev.outOf o).seen → s.dev.outRuns o = true → (s.dev.outOf o).wait = none →
    (s.dev.outOf o).run = true → ∀ x, s.dev.insOf (s.dev.srcAct o) = x →
    (s.dev.passing o = true → RunsTo (.sourceLineStart o ins) s fun d => (d.outOf o).lineT = x.eavT ∧
      (x.line ≠ 1 → (d.outOf o).line = (s.dev.outOf o).line) ∧
      (x.line = 1 → (d.outOf o).line = 0 ∧ (d.outOf o).frameT = x.frameT ∧ d.actReg 0x00200104 o = s.dev.reg 0x00200104 o)) ∧
    (s.dev.flag XP.SRC_STAT_GEN o = true → s.dev.flag XP.SRC_STAT_TRIG o = false → s.dev.getAct XP.OUT_POL_RET_FRAMES o = 0 →
      x.line ≠ 1 → RunsTo (.sourceLineStart o ins) s fun d => d.get XP.SRC_STAT_GEN o = 0 ∧ (d.outOf o).sub = false ∧
        d.get XP.SRC_STAT_CAUSE o = 0 ∧ (d.outOf o).lineT = x.eavT))) ∧
  ((∀ (o : Slot) (s : State), RunsTo (.triggerChange o) s fun d =>
    d.get XP.SRC_STAT_TRIG o = b2n (s.dev.trigCause o (s.dev.srcAct o) != 0) ∧ d.srcAct o = s.dev.srcAct o) ∧
  (∀ (m : Master) (v : Word) (o : Nat) (s : State), s.dev.get XP.OUT_SEL_SEL m.code = o → o < 1664 → s.dev.outRuns o = false →
    RunsTo (.routeWrite m v) s fun d => d.srcAct o = v.toNat % 2048 ∧ d.get XP.ROUTE_SRC o = v.toNat % 2048 ∧
      d.get XP.SRC_STAT_INVALID o = b2n (invalidSrc (v.toNat % 2048)) ∧
      d.get XP.SRC_STAT_LAT o = if v.toNat % 2048 < 1664 then
        9 + (o % 4 + 4 - v.toNat % 4) % 4 + (if s.dev.processed o then 4 else 0) else 0) ∧
  (∀ (m : Master) (v : Word) (o : Nat) (s : State), s.dev.get XP.OUT_SEL_SEL m.code = o → o < 1664 → s.dev.outRuns o = true →
    s.dev.get XP.ROUTE_SRC o ≠ v.toNat % 2048 →
    RunsTo (.routeWrite m v) s fun d => d.get XP.BLK_EVT_CLASS_VIOL = 1 ∧ d.get BUS.EVT_STAT_VIOL = 1 ∧
      (∀ o, d.srcAct o = s.dev.srcAct o) ∧ (∀ o, d.get XP.ROUTE_SRC o = s.dev.get XP.ROUTE_SRC o)) ∧
  (∀ (o : Slot) (s : State), RegsTo (.xpCntClr o) s fun d => d.get XP.CNT_SUB_COUNT o = 0 ∧
    RegsKept s.dev d [(0x00200110, o.val)])) ∧
  ((∀ (g : Grp) (l : Lane) (b : LaneBlk) (p o : Nat) (s : State), g.val < 36 → p < 4 → s.dev.rxState g = 5 → s.dev.compat g = false →
    b.hdr = 0x5 → ∀ slot, slot = g.val * 32 + l.val * 4 + p → s.dev.synced slot = false → (s.dev.insOf slot).mute = false →
    mapGet s.dev.slips (slot, 0) 0 = 0 → (s.dev.outs.map (·.1.1)).count o = 1 → o < 1152 → s.dev.srcAct o = slot →
    s.dev.passing o = true → s.dev.processed o = false → s.dev.taken o = true →
    RunsTo (.dataBlockRx g l b) s fun d => mapGet d.outQ (o, 0) [] =
      mapGet s.dev.outQ (o, 0) [] ++ [(s.dev.takePayload g l b.raw).1.extractLsb' (32 * p) 32]) ∧
  (∀ code ∈ fmtCodes, ∀ (acc : Nat) (fix : Option Bool) (m : Bool) (ws : List Samp), acc < (accConst code).2 →
    conforms (accConst code).1 (accConst code).2 (packWords (accConst code).1 (accConst code).2 acc fix m ws).1 = true))

/-- The bytes of a take entry say its fields and nothing else (R127, Table 5.1): reading the 16 bytes of a well-formed entry gives the entry
back. -/
def Obligations.TakeEntryBytes : Prop :=
  ∀ e : TakeEntry, e.wf = true → takeParse (takeBytes e) = e ∧ (takeBytes e).length = 16

/-- Submission of take entries (R152, R153, R157): GO submits the entry a master has staged and sets BUSY; the ring gives its next element;
FLUSH removes every uncommitted take of the selected output; a message joins those that wait, or is dropped and counted where 64 wait
already. The checks of a take message (R156): a message for another device goes without a trace; one of another version is counted in
CNT_AUTH, sets AUTH_FAIL and has no entry processed; one that passes every check leaves its sequence number as the last of its key slot. -/
def Obligations.TakeIntake : Prop :=
  ((∀ (m : Master) (s : State), s.dev.get XP.OUT_SEL_SEL m.code < 1664 → s.dev.flag HIF.TK_RES_BUSY m.code = false →
    s.dev.restarting = false → RunsTo (.takeGo m) s fun d => d.get HIF.TK_RES_BUSY m.code = 1 ∧
      d.submitted = s.dev.submitted ++ [⟨.regs m, s.dev.staged m (s.dev.get XP.OUT_SEL_SEL m.code)⟩] ∧
      RegsKept s.dev d [(0x00C01024, m.code)]) ∧
  (∀ (m : Master) (s : State), s.dev.get XP.OUT_SEL_SEL m.code < 1664 → s.dev.restarting = false →
    RunsTo (.takeFlush m) s fun d => d.takesOf (s.dev.get XP.OUT_SEL_SEL m.code) =
      (s.dev.takesOf (s.dev.get XP.OUT_SEL_SEL m.code)).filter
        (s.dev.committed (s.dev.get XP.OUT_SEL_SEL m.code) s.dev.timeTu)) ∧
  (∀ (bytes : List Byte) (q : Nat) (s : State), s.dev.flag HIF.TK_CTL_EN = true → s.dev.flag HIF.TK_CTL_RING_EN = true →
    s.dev.conFollows = false → s.dev.restarting = false → q = s.dev.get HIF.TK_QUEUES_ENT_Q → s.dev.qUsable q true 16 = true →
    s.dev.qFill q ≠ 0 → RunsTo (.takeRingEntry bytes) s fun d => d.submitted = s.dev.submitted ++ [⟨.ring, takeParse bytes⟩] ∧
      d.get QM.Q_CONS_IDX q = (s.dev.get QM.Q_CONS_IDX q + 1) % (2 * s.dev.qSize q) % 2 ^ QM.Q_CONS_IDX.w) ∧
  (∀ (bs : List Byte) (ok : Bool) (s : State), s.dev.flag HIF.TK_CTL_EN = true → s.dev.flag HIF.TK_CTL_MSG_EN = true →
    s.dev.restarting = false → s.dev.takeMsgs.length < 64 →
    RunsTo (.takeMessage (some bs) ok) s fun d => d = { s.dev with takeMsgs := s.dev.takeMsgs ++ [bs] }) ∧
  (∀ (bs : List Byte) (ok : Bool) (s : State), s.dev.flag HIF.TK_CTL_EN = true → s.dev.flag HIF.TK_CTL_MSG_EN = true →
    s.dev.restarting = false → 64 ≤ s.dev.takeMsgs.length →
    RegsTo (.takeMessage (some bs) ok) s fun d => d.get HIF.TK_EVT_MSG_OVF = 1 ∧
      d.get HIF.TK_CNT_DROP_COUNT = sat32 (s.dev.get HIF.TK_CNT_DROP_COUNT + 1))) ∧
  (∀ (bs : List Byte) (rest : List (List Byte)) (ok : Bool) (s : State), s.dev.takeMsgs = bs :: rest → s.dev.restarting = false →
    (leNat ((bs.drop 2).take 2) ≠ s.dev.get GLB.SYSID_SYSID → leNat ((bs.drop 2).take 2) ≠ 0xFFFF →
      RunsTo (.takeMessage none ok) s fun d => d = { s.dev with takeMsgs := rest }) ∧
    (leNat ((bs.drop 2).take 2) = s.dev.get GLB.SYSID_SYSID → leNat (bs.take 1) ≠ 1 →
      RunsTo (.takeMessage none ok) s fun d => d.takeMsgs = rest ∧ d.takes = s.dev.takes ∧ d.get HIF.TK_EVT_AUTH_FAIL = 1 ∧
        d.get HIF.TK_CNT_AUTH_COUNT = sat32 (s.dev.get HIF.TK_CNT_AUTH_COUNT + 1)) ∧
    (∀ n key seq : Nat, leNat ((bs.drop 2).take 2) = s.dev.get GLB.SYSID_SYSID → leNat (bs.take 1) = 1 →
      leNat ((bs.drop 1).take 1) = n → 1 ≤ n → n ≤ 32 → 48 + 16 * n ≤ bs.length → leNat ((bs.drop 4).take 1) % 32 = key →
      leNat ((bs.drop 8).take 8) = seq → (s.dev.keyUse key 3 ok).1 = true →
      hmacSha256 (s.dev.keyBytes key) (bs.take (16 + 16 * n)) = (bs.drop (16 + 16 * n)).take 32 → s.dev.seqNew key seq = true →
      RunsTo (.takeMessage none ok) s fun d => d.takeMsgs = rest ∧ mapGet d.lastSeq (key, 0) none = some seq))

/-- Entries, each the first of those received (R130, R133, R138, R143, R151): a TAKE outside a salvo is accepted into its output's empty queue
with the due frame of R138; an ARM whose COUNT is the number of members closes the salvo; a CANCEL of an uncommitted take removes it. A
register entry is answered with code 1. -/
def Obligations.TakeEntries : Prop :=
  ∀ (m : Master) (e : TakeEntry) (rest : List Submitted) (s : State), s.dev.submitted = ⟨.regs m, e⟩ :: rest → e.wf = true →
    e.ns < 1000000000 → s.dev.flag HIF.TK_CTL_EN = true → s.dev.conFollows = false → s.dev.restarting = false →
    (∀ v ∈ s.dev.salvos, s.dev.salvoOver v = false) →
    (e.type = 0 → e.salvo = 0 → e.out < 1664 → s.dev.outRuns e.out = true → fmtValid (s.dev.outFmt e.out) = true →
      s.dev.takesOf e.out = [] → RunsTo .takeEntry s fun d => d.submitted = rest ∧
        (∃ t, d.takesOf e.out = [t] ∧ t.src = e.src ∧ t.origin = .regs m ∧
          t.due = some (s.dev.dueFrame (e.out, e.field2) [] (takeInst e) s.dev.timeTu e.now).1) ∧
        d.get HIF.TK_RES_CODE m.code = 1 ∧ d.get HIF.TK_RES_BUSY m.code = 0 ∧ d.get HIF.TK_QSTAT_DEPTH e.out = 1) ∧
    (e.type = 1 → e.salvo ≠ 0 → 1 ≤ e.src → e.src ≤ 1664 → (∃ v ∈ s.dev.salvos, v.id = e.salvo) →
      (s.dev.members e.salvo).length = e.src →
      RunsTo .armEntry s fun d => d.submitted = rest ∧ d.salvos = s.dev.salvos.filter (·.id != e.salvo) ∧
        d.get HIF.TK_RES_CODE m.code = 1) ∧
    (e.type = 2 → e.out < 1664 → e.salvo = 0 → ∀ t, s.dev.takesOf e.out = [t] → s.dev.committed e.out s.dev.timeTu t = false →
      RunsTo .cancelEntry s fun d => d.submitted = rest ∧ d.takesOf e.out = [] ∧ d.get HIF.TK_RES_CODE m.code = 1) ∧
    (e.type ∉ [0, 3] → RunsTo .takeEntry s fun d => d = s.dev) ∧ (e.type ≠ 1 → RunsTo .armEntry s fun d => d = s.dev) ∧
    (e.type ≠ 2 → RunsTo .cancelEntry s fun d => d = s.dev)

/-- A take executes at its switch point, the counter's line start (R139, R141): the output's active source is the take's, the take leaves the
queue, and the execution is counted; before that point nothing happens; one that falls before a handover completes is deferred (R150). The
take engine's ends (R134, R143, R158): a salvo that was not armed in time closes, and none before its time; disabling the engine empties
every queue and closes every salvo; CNT_CLR clears the six counters and nothing else. -/
def Obligations.TakeOutcomes : Prop :=
  (∀ (o : Slot) (t : Take) (s : State), s.dev.restarting = false → s.dev.nextTake o = some t →
    (s.dev.takeDue o t = true → s.dev.handover = none →
      RunsTo (.takeExecute o) s fun d => d.srcAct o = t.src % 2048 ∧ d.takesOf o = (s.dev.takesOf o).erase t ∧
        d.get HIF.TK_EVT_EXEC = 1 ∧ d.get HIF.TK_CNT_EXE_COUNT = sat32 (s.dev.get HIF.TK_CNT_EXE_COUNT + 1) ∧
        d.get HIF.TK_QSTAT_LAST_CODE o = 2 ∧ ∀ o', o' ≠ o.val → d.srcAct o' = s.dev.srcAct o') ∧
    (s.dev.takeDue o t = false → RunsTo (.takeExecute o) s fun d => d = s.dev) ∧
    (∀ (h k : Int), s.dev.takeDue o t = true → s.dev.handover = some h → t.due = some k → s.dev.swPoint o t.field2 k < h →
      RunsTo (.takeExecute o) s fun d => d.get HIF.TK_EVT_DEFERRED = 1 ∧ ∀ o', d.srcAct o' = s.dev.srcAct o')) ∧
  (∀ s : State,
    (∀ salvo : BitVec 16, (∃ v ∈ s.dev.salvos, v.id = salvo.toNat ∧ s.dev.salvoOver v = true) → RunsTo (.salvoExpiry salvo) s fun d =>
      d.salvos = s.dev.salvos.filter (·.id != salvo.toNat) ∧
      ∀ o, ∀ t ∈ d.takesOf o, ¬(t.salvo = salvo.toNat ∧ t.due = none)) ∧
    (∀ salvo : BitVec 16, (∀ v ∈ s.dev.salvos, v.id = salvo.toNat → s.dev.salvoOver v = false) →
      RunsTo (.salvoExpiry salvo) s fun d => d = s.dev) ∧
    RunsTo (.takeEngineEnable true) s (fun d => d.get HIF.TK_CTL_EN = 1 ∧ RegsKept s.dev d [(0x00C01000, 0)]) ∧
    (s.dev.flag HIF.TK_CTL_EN = true → RunsTo (.takeEngineEnable false) s fun d => d.get HIF.TK_CTL_EN = 0 ∧ d.salvos = [] ∧
      ∀ o, d.takesOf o = []) ∧
    RegsTo .tkCntClr s fun d => (∀ f ∈ [HIF.TK_CNT_EXE_COUNT, HIF.TK_CNT_REJ_COUNT, HIF.TK_CNT_AUTH_COUNT, HIF.TK_CNT_DROP_COUNT,
      HIF.TK_CNT_RES_OVF_COUNT, HIF.TK_CNT_LOST_COUNT], d.get f = 0) ∧
      RegsKept s.dev d [(0x00C01040, 0), (0x00C01044, 0), (0x00C01048, 0), (0x00C0104C, 0), (0x00C01050, 0), (0x00C01054, 0)])

/-- Links and enables of the MACs (R160, R161, R163, R173): the end of auto-negotiation marks every running MAC of a port that negotiates; a
link that rises or falls sets its status, its event and its fault; a fall empties the MAC's queue; EN starts an active MAC and stops any;
LINK_RESTART clears the two completion bits and nothing else. Transmission (R163, R170 to R173, R175): a ready frame that waits alone
starts, cut to MAX_LEN where it is longer; an underrun ends the frame still being sent with a complemented FCS and raises the cut-through
threshold, 0 as 1, up to 32; a frame offered while the link is down, or whose gate has stayed closed for a whole cycle, is discarded and
counted. -/
def Obligations.MacLinksAndTransmit : Prop :=
  ((∀ (p : Fin 16) (s : State), s.dev.flag MAC.PORT_CFG_AN_EN p = true → s.dev.get MAC.PORT_CFG_PHY p ∈ [0, 3] →
    RunsTo (.autoNegotiationDone p) s fun d => ∀ k < 4, s.dev.flag MAC.STAT_RUN (p * 4 + k) = true →
      d.get MAC.STAT_AN_DONE (p * 4 + k) = 1 ∧ d.get MAC.STAT_TRAIN_DONE (p * 4 + k) = 1) ∧
  ∀ (m : Mac) (s : State),
    (s.dev.get MAC.STAT_RUN m = 1 → s.dev.get MAC.STAT_LINK m = 0 → RunsTo (.linkUp m) s fun d =>
      d.get MAC.STAT_LINK m = 1 ∧ d.get MAC.EVT_STAT_LINK_UP m = 1 ∧ (⟨124, 3, 0, m⟩ : FaultAt) ∉ d.conds) ∧
    (s.dev.get MAC.STAT_LINK m = 1 → RunsTo (.linkDown m) s fun d =>
      d.get MAC.STAT_LINK m = 0 ∧ d.get MAC.EVT_STAT_LINK_DOWN m = 1 ∧ (⟨124, 3, 0, m⟩ : FaultAt) ∈ d.conds ∧
      (d.mac m).offers = [] ∧ (d.mac m).flight = none) ∧
    (s.dev.get MAC.STAT_ACTIVE m = 1 → RunsTo (.macEnable m true) s fun d => d.get MAC.STAT_RUN m = 1 ∧ d.get MAC.CFG_EN m = 1) ∧
    RunsTo (.macEnable m false) s (fun d => d.get MAC.STAT_RUN m = 0 ∧ d.get MAC.CFG_EN m = 0 ∧ (d.mac m).flight = none) ∧
    RegsTo (.linkRestart m) s fun d => d.get MAC.STAT_AN_DONE m = 0 ∧ d.get MAC.STAT_TRAIN_DONE m = 0 ∧
      RegsKept s.dev d [(0x00400180, m.val)]) ∧
  (∀ (m : Mac) (f : TxFrame) (s : State),
    (∀ avail : List Nat, s.dev.get MAC.STAT_RUN m = 1 → s.dev.get MAC.STAT_LINK m = 1 → s.dev.etherSilent = false →
      (s.dev.mac m).flight = none →
      (s.dev.mac m).offers = [f] → f.tc < 8 → s.dev.ready m f (avail.getD f.tc (f.bytes.length + 4)) = true →
      RunsTo (.txFrameStart m avail) s fun d => (d.mac m).offers = [] ∧
        (d.mac m).flight = some ⟨if s.dev.maxLen m < f.bytes.length + 4 then { f with bytes := f.bytes.take (s.dev.maxLen m - 4) } else f,
          s.dev.time, s.dev.cc, decide (s.dev.maxLen m < f.bytes.length + 4)⟩) ∧
    (∀ avail : List Nat, s.dev.etherSilent = true → (s.dev.mac m).flight = none → RunsTo (.txFrameStart m avail) s fun d => d = s.dev) ∧
    (∀ (sent : Nat) (x : TxFlight), (s.dev.mac m).flight = some x → s.dev.txGone m x.start < x.frame.bytes.length + 4 →
      RunsTo (.txUnderrun m sent) s fun d => (d.mac m).flight = none ∧
      d.sent = .frame m (x.frame.bytes.take sent) true x.trunc true :: s.dev.sent ∧
      d.get MAC.EVT_STAT_TX_UNDERRUN m = 1 ∧ d.get MAC.TX_CT_THR m =
        if max 1 (s.dev.get MAC.TX_CT_THR m) < 32 then max 1 (s.dev.get MAC.TX_CT_THR m) + 1 else s.dev.get MAC.TX_CT_THR m) ∧
    (s.dev.get MAC.STAT_LINK m = 0 → RunsTo (.txLinkDrop m f) s fun d =>
      d.get2 (MAC.CNT_LO_COUNT_L cTxLinkDrop) (MAC.CNT_HI_COUNT_H cTxLinkDrop) m =
        min (2 ^ 64 - 1) (s.dev.get2 (MAC.CNT_LO_COUNT_L cTxLinkDrop) (MAC.CNT_HI_COUNT_H cTxLinkDrop) m + 1)) ∧
    (∀ tc : Fin 8, s.dev.headOf m tc = some f →
      (s.dev.gateStarved m f = true → RunsTo (.txGateDrop m tc) s fun d =>
        (d.mac m).offers = (s.dev.mac m).offers.erase f ∧ d.get MAC.EVT_STAT_TX_GATE_DROP m = 1 ∧
        d.get2 (MAC.CNT_LO_COUNT_L cTxGateDrop) (MAC.CNT_HI_COUNT_H cTxGateDrop) m =
          min (2 ^ 64 - 1) (s.dev.get2 (MAC.CNT_LO_COUNT_L cTxGateDrop) (MAC.CNT_HI_COUNT_H cTxGateDrop) m + 1)) ∧
      (s.dev.gateStarved m f = false → RunsTo (.txGateDrop m tc) s fun d => d = s.dev)))

/-- Gate schedules (R174, R176): CFG_CHANGE makes the admin values the pending list with the first change time of its grid at least 1 µs
ahead, or is refused with CFG_ERR; at the change time, and not before, the pending list comes into force; until then an entry boundary
shows the state the list gives for the present time. Transmit timestamps and the MAC counters (R328, R329, Table 6.19): a due entry joins
the queue of at most 64, or is dropped and counted; a pop removes the head; CNT_CLR clears the fifteen counters of one MAC and nothing
else. -/
def Obligations.GatesAndTimestamps : Prop :=
  (∀ (m : Mac) (s : State),
    (s.dev.flag MAC.GATE_CTL_GATE_EN m = true → 64 ≤ s.dev.get MAC.GATE_CYCLE_CYCLE m →
      s.dev.get MAC.GATE_CYCLE_CYCLE m ≤ 1000000000 → s.dev.get MAC.GATE_BASE_NS_NS m < 1000000000 →
      RunsTo (.gateCfgChange m) s fun d => d.get MAC.GATE_STAT_PENDING m = 1 ∧ d.get MAC.GATE_STAT_CFG_ERR m = 0 ∧
        ∃ x, (d.mac m).pend = some (s.dev.adminList m, x) ∧ (s.dev.adminList m).base ≤ x ∧
          (x - (s.dev.adminList m).base) % (s.dev.adminList m).cycle = 0 ∧ s.dev.time + 1000 * 2 ^ 40 ≤ x * 2 ^ 40 ∧
          (s.dev.adminList m).cycle = s.dev.get MAC.GATE_CYCLE_CYCLE m) ∧
    (s.dev.flag MAC.GATE_CTL_GATE_EN m = false → RunsTo (.gateCfgChange m) s fun d => d.get MAC.GATE_STAT_CFG_ERR m = 1 ∧
      d.get MAC.EVT_STAT_GATE_ERR m = 1 ∧ d.mac m = s.dev.mac m) ∧
    (∀ g x, (s.dev.mac m).pend = some (g, x) → (x * 2 ^ 40 ≤ s.dev.time → RunsTo (.gateListChange m) s fun d => (d.mac m).oper = some g ∧
      (d.mac m).pend = none ∧ d.get MAC.GATE_STAT_OPER m = 1 ∧ d.get MAC.GATE_STAT_PENDING m = 0 ∧
      d.get MAC.EVT_STAT_GATE_CHG m = 1 ∧ d.get MAC.GATE_STAT_CUR_IDX m = (gateState g s.dev.time).2.1 % 64) ∧
      (s.dev.time < x * 2 ^ 40 → RunsTo (.gateListChange m) s fun d => d = s.dev)) ∧
    (∀ g, s.dev.flag MAC.GATE_CTL_GATE_EN m = true → (s.dev.mac m).oper = some g →
      (∀ p, (s.dev.mac m).pend = some p → s.dev.time < p.2 * 2 ^ 40) → RegsTo (.gateEntryBoundary m) s fun d =>
      d.get MAC.GATE_STAT_CUR_STATES m = (gateState g s.dev.time).1 % 256 ∧
      d.get MAC.GATE_STAT_CUR_IDX m = (gateState g s.dev.time).2.1 % 64 ∧ RegsKept s.dev d [(0x0040017C, m.val)])) ∧
  (∀ (m : Mac) (s : State),
    (∀ e rest, (s.dev.mac m).flight = none → (s.dev.mac m).dues = e :: rest → (s.dev.mac m).tsq.length < 64 → RunsTo (.txTimestampEntry m) s fun d =>
      (d.mac m).tsq = (s.dev.mac m).tsq ++ [{ e with ovf := (s.dev.mac m).tsqLost }] ∧ (d.mac m).dues = rest ∧
      d.get (TIM.TSQ_0_FILL m) = (s.dev.mac m).tsq.length + 1) ∧
    (∀ e rest, (s.dev.mac m).flight = none → (s.dev.mac m).dues = e :: rest → 64 ≤ (s.dev.mac m).tsq.length → RunsTo (.txTimestampEntry m) s fun d =>
      (d.mac m).tsq = (s.dev.mac m).tsq ∧ d.get TIM.EVT_STAT_TSQ_OVF = 1 ∧
      d.get TIM.CNT_TSQ_OVF_COUNT = sat32 (s.dev.get TIM.CNT_TSQ_OVF_COUNT + 1)) ∧
    RunsTo (.tsqPop m) s (fun d => (d.mac m).tsq = (s.dev.mac m).tsq.tail ∧
      d.get (TIM.TSQ_0_FILL m) = (s.dev.mac m).tsq.tail.length % 128) ∧
    RegsTo (.macCntClr m) s fun d =>
      (∀ k < 15, d.get2 (MAC.CNT_LO_COUNT_L k) (MAC.CNT_HI_COUNT_H k) m = 0) ∧
      RegsKept s.dev d ((List.range 15).flatMap fun k => [(0x00400200 + 8 * k, m.val), (0x00400204 + 8 * k, m.val)]))

/-- Received frames (R164 to R169): a good frame within the length limit, addressed to the MAC and in an accepted VLAN is counted once with
its octets; a frame with a wrong FCS is counted as such and not handed on; a stopped MAC receives nothing. -/
def Obligations.MacReceive : Prop :=
  ∀ (m : Mac) (bytes : List Byte) (i : RxInfo) (s : State),
    (s.dev.get MAC.STAT_RUN m = 0 → RunsTo (.rxFrame m bytes i) s fun d => d = s.dev) ∧
    (s.dev.get MAC.STAT_RUN m = 1 → i.held + bytes.length + 16384 ≤ s.dev.rxShare m → 64 ≤ bytes.length → i.cut = false →
      bytes.length ≤ s.dev.maxLen m →
      (crc32 (bytes.take (bytes.length - 4)) = leNat (bytes.drop (bytes.length - 4)) →
        (ethParts (bytes.take (bytes.length - 4))).etype ≠ 0x8808 → s.dev.addrOk m (beAt bytes 0 6) = true →
        (s.dev.vlanOf m (ethParts (bytes.take (bytes.length - 4))).tag).isSome = true →
        RunsTo (.rxFrame m bytes i) s fun d =>
          d.get2 (MAC.CNT_LO_COUNT_L cRxFrames) (MAC.CNT_HI_COUNT_H cRxFrames) m =
            min (2 ^ 64 - 1) (s.dev.get2 (MAC.CNT_LO_COUNT_L cRxFrames) (MAC.CNT_HI_COUNT_H cRxFrames) m + 1) ∧
          d.get2 (MAC.CNT_LO_COUNT_L cRxOctets) (MAC.CNT_HI_COUNT_H cRxOctets) m =
            min (2 ^ 64 - 1) (s.dev.get2 (MAC.CNT_LO_COUNT_L cRxOctets) (MAC.CNT_HI_COUNT_H cRxOctets) m + bytes.length)) ∧
      (crc32 (bytes.take (bytes.length - 4)) ≠ leNat (bytes.drop (bytes.length - 4)) →
        RunsTo (.rxFrame m bytes i) s fun d =>
          d.get2 (MAC.CNT_LO_COUNT_L cRxFcs) (MAC.CNT_HI_COUNT_H cRxFcs) m =
            min (2 ^ 64 - 1) (s.dev.get2 (MAC.CNT_LO_COUNT_L cRxFcs) (MAC.CNT_HI_COUNT_H cRxFcs) m + 1) ∧
          RegsKept s.dev d [(0x00400210, m.val), (0x00400214, m.val)]))

/-- Flow contexts and bundles (R181, R192, R194): an ingress context that passes its start checks runs and takes its cell quota; one that
fails a check reports CFG_ERR and does not run; a stop returns the quota; a bundle with a valid format runs; the frame chosen next has its
target instant PLAY_DELAY after its reference instant (R185, R186), and the raster starts with it, or re-phases with STEP where it would
arrive more than a line away (R188); a complete line makes the slot present, TMO_LINES lines without one make it absent, a stop ends both;
a delivering leg that falls silent is reported. -/
def Obligations.FlowContexts : Prop :=
  (∀ (c : Ctx) (s : State), c.val < 4096 → s.dev.ctxRuns c = false → s.dev.ctxBad c = false →
    s.dev.get QM.Q_QUOTA_CELLS c ≤ s.dev.get QM.CELL_STAT_FREE →
    RunsTo (.contextEnable c true) s fun d => d.get FLW.CTX_STAT_RUN c = 1 ∧ d.get FLW.CTX_CTL_EN c = 1 ∧
      d.get QM.CELL_STAT_FREE = s.dev.get QM.CELL_STAT_FREE - s.dev.get QM.Q_QUOTA_CELLS c) ∧
  (∀ (c : Ctx) (s : State), 4096 ≤ c.val → s.dev.ctxRuns c = false → s.dev.ctxBad c = false →
    RunsTo (.contextEnable c true) s fun d => d.get FLW.CTX_STAT_RUN c = 1 ∧ d.get FLW.CTX_CTL_EN c = 1 ∧
      d.get FLW.CTX_STAT_WAIT c = b2n (s.dev.egressWaits c)) ∧
  (∀ (c : Ctx) (s : State), s.dev.get FLW.CTX_STAT_RUN c = 0 → s.dev.ctxBad c = true →
    RegsTo (.contextEnable c true) s fun d => d.get FLW.CTX_STAT_RUN c = 0 ∧ d.get FLW.CTX_STAT_CFG_ERR c = 1 ∧
      d.get FLW.CTX_EVT_CFG_ERR c = 1 ∧
      RegsKept s.dev d [(0x00500100, c.val), (0x005001A0, c.val), (0x005001A4, c.val)]) ∧
  (∀ (c : Ctx) (s : State), c.val < 4096 → s.dev.ctxRuns c = true →
    RunsTo (.contextEnable c false) s fun d => d.get FLW.CTX_STAT_RUN c = 0 ∧ d.flow c = FlowCtx.init ∧
      d.get QM.CELL_STAT_FREE = (s.dev.get QM.CELL_STAT_FREE + s.dev.get QM.Q_QUOTA_CELLS c) % 2 ^ 19) ∧
  (∀ (b : Bundle) (s : State), s.dev.flag (FLW.BDL_STAT_RUN b) = false → fmtValid (s.dev.get (FLW.BDL_CTL_FMT b)) = true →
    (∀ c ∈ s.dev.running, ¬(c < 4096 ∧ s.dev.bundleOf c = b ∧ s.dev.role c = 1)) →
    RunsTo (.bundleEnable b true) s fun d => d.get (FLW.BDL_STAT_RUN b) = 1 ∧ d.get (FLW.BDL_STAT_CFG_ERR b) = 0 ∧
      d.actReg (0x00508004 + 16 * b) 0 = s.dev.reg (0x00508004 + 16 * b) 0) ∧
  (∀ (b : Bundle) (s : State), RunsTo (.bundleEnable b false) s fun d => d.get (FLW.BDL_STAT_RUN b) = 0 ∧
    d.get (FLW.BDL_STAT_PRESENT b) = 0 ∧ d.get (FLW.BDL_CTL_EN b) = 0) ∧
  (∀ (b : Bundle) (c : Nat) (f : Fmt) (x : Nat × Option Nat) (s : State), s.dev.flag (FLW.BDL_STAT_RUN b) = true →
    s.dev.videoCtx b = some c → s.dev.bdlFmt b = some f → s.dev.nextFrame b c f = some x → ∀ tu target, Dev.clockTu (s.dev.role c == 1) = tu →
    s.dev.refInst b (s.dev.rtpInst x.1 tu) tu - s.dev.resTu + nsTu (s.dev.get (FLW.BDL_PLAY_PLAY_DELAY b) * 100 : Nat) = target →
    ∀ g, s.dev.genOf (1152 + b) = g →
    RunsTo (.bundleFrame b) s fun d => d.actReg (0x00508004 + 16 * b) 0 = s.dev.reg (0x00508004 + 16 * b) 0 ∧
      (d.bdl b).next = some x ∧ (d.genOf (1152 + b)).target = target ∧ (g.run = false → (d.genOf (1152 + b)).resume = some target) ∧
      (g.run = true → lineTu f < (target - (g.frameT + periodTu (f.num, f.den))).natAbs →
        (d.genOf (1152 + b)).resume = some target ∧ d.get (FLW.BDL_EVT_STEP b) = 1)) ∧
  (∀ (b : Bundle) (d : Dev), (d.bdl b).good = true → d.get (FLW.BDL_STAT_PRESENT b) = 0 →
    (d.bdlPresent b).get (FLW.BDL_STAT_PRESENT b) = 1 ∧ (d.bdlPresent b).get (FLW.BDL_EVT_PRESENT b) = 1) ∧
  (∀ (b : Bundle) (s : State), s.dev.bdlTimedOut b = true → s.dev.get (FLW.BDL_STAT_PRESENT b) = 1 → s.dev.syncAt (1152 + b) = none →
    RunsTo (.bundleLineTimeout b) s fun d => d.get (FLW.BDL_STAT_PRESENT b) = 0 ∧ d.get (FLW.BDL_EVT_ABSENT b) = 1 ∧
      d.get SLP.IN_STAT_PRESENT (1152 + b) = 0) ∧
  (∀ (b : Bundle) (s : State), s.dev.bdlTimedOut b = false → RunsTo (.bundleLineTimeout b) s fun d => d = s.dev) ∧
  (∀ (c : Flow) (leg : Fin 2) (s : State), s.dev.ctxRuns c = true → (s.dev.get FLW.CTX_STAT_LEG_ACT c).testBit leg = true →
    (s.dev.legSilent c leg = true → RegsTo (.legLoss c leg) s fun d => (d.get FLW.CTX_STAT_LEG_ACT c).testBit leg = false ∧
      d.get (if leg.val = 0 then FLW.CTX_EVT_LEG_LOSS_0 else FLW.CTX_EVT_LEG_LOSS_1) c = 1 ∧
      RegsKept s.dev d [(0x005001A0, c.val), (0x005001A4, c.val)]) ∧
    (s.dev.legSilent c leg = false → RunsTo (.legLoss c leg) s fun d => d = s.dev))

/-- Egress (R196 to R205, R213): a flow none of whose legs may send releases nothing. A release advances the flow's sequence number by 1
modulo 2^32: of ST 2110-20 video the next part of the row due, not before its release instant where the flow is scheduled; of audio the
samples of 6 or 48 ticks; of ancillary data as many of the packets as MAXPL admits. A leg that runs alone offers one frame of its class to
its MAC while fewer than 64 wait; a host transmit element offers its frame. The counters' clears clear those counters and nothing else. -/
def Obligations.EgressFlows : Prop :=
  (∀ (f : Flow) (s : State), s.dev.flowLegs f = [] →
    RunsTo (.videoPacketRelease f) s (fun d => d = s.dev) ∧ RunsTo (.audioPacketRelease f) s (fun d => d = s.dev) ∧
    RunsTo (.ancPacketRelease f) s (fun d => d = s.dev)) ∧
  (∀ (f : Flow) (c o : Nat) (rest : List Nat) (fm : Fmt) (u : EgrUnit) (h r : EgRow) (s : State), s.dev.flowLegs f = c :: rest →
    o = 1152 + s.dev.bundleOf c → fmtOf (s.dev.outFmt o) = some fm → s.dev.role c = 0 → s.dev.egr o = u → u.rows.head? = some h →
    u.rows.find? (fun r => r.start == h.start && r.field2 == h.field2 && r.row == u.row) = some r →
    (s.dev.scheduled c = false ∨ s.dev.releaseAt c (s.dev.outFmt o) fm r.start r.field2 u.num ≤ s.dev.timeTu →
      RunsTo (.videoPacketRelease f) s fun d => mapGet d.flowSeq (f.val, 0) 0 = (mapGet s.dev.flowSeq (f.val, 0) 0 + 1) % 2 ^ 32) ∧
    (s.dev.scheduled c = true → s.dev.timeTu < s.dev.releaseAt c (s.dev.outFmt o) fm r.start r.field2 u.num →
      RunsTo (.videoPacketRelease f) s fun d => d = s.dev)) ∧
  (∀ (f : Flow) (c n : Nat) (rest : List Nat) (s : State), s.dev.flowLegs f = c :: rest → s.dev.role c = 2 ∨ s.dev.role c = 3 →
    n = (if s.dev.flag FLW.CTX_MEDIA_PT125 c then 6 else 48) → n ≤ (mapGet s.dev.egAud (f.val, 0) []).length →
    RunsTo (.audioPacketRelease f) s fun d => mapGet d.flowSeq (f.val, 0) 0 = (mapGet s.dev.flowSeq (f.val, 0) 0 + 1) % 2 ^ 32 ∧
      mapGet d.egAud (f.val, 0) [] = (mapGet s.dev.egAud (f.val, 0) []).drop n) ∧
  (∀ (f : Flow) (c o k : Nat) (rest : List Nat) (fm : Fmt) (e : EgAnc) (r : List EgAnc) (s : State), s.dev.flowLegs f = c :: rest →
    o = 1152 + s.dev.bundleOf c → fmtOf (s.dev.outFmt o) = some fm → s.dev.role c = 4 → (s.dev.egr o).anc = e :: r →
    (s.dev.egr o).start ≠ e.start → Dev.ancFit (s.dev.maxPl c - 8) e.pkts = k →
    RunsTo (.ancPacketRelease f) s fun d => mapGet d.flowSeq (f.val, 0) 0 = (mapGet s.dev.flowSeq (f.val, 0) 0 + 1) % 2 ^ 32 ∧
      (d.egr o).anc = if k < e.pkts.length then { e with pkts := e.pkts.drop k } :: r else r) ∧
  (∀ (f c m stamp : Nat) (mk late : Bool) (pl : List Byte) (d : Dev), d.flowLegs f = [c] → m = d.get (FLW.LEG_MAC_MAC 0) c →
    d.flag MAC.STAT_LINK m = true → ((d.mac m).offers.filter (·.flow == some c)).length < 64 →
    ∃ x, ((d.flowSend f stamp mk late pl).mac m).offers = (d.mac m).offers ++ [x] ∧ x.flow = some c ∧
      x.tc = d.get (FLW.LEG_QOS_TC 0) c) ∧
  (∀ (m : Mac) (e : List Byte) (q : Nat) (s : State), s.dev.flag (FLW.HQ_TX_EN m) = true → q = s.dev.get (FLW.HQ_TXQ m) →
    s.dev.qUsable q true 16 = true → s.dev.qFill q ≠ 0 → leNat (e.take 2) + 16 ≤ 2 ^ s.dev.get QM.Q_CFG_ESZ q → leNat (e.take 2) + 16 ≤ e.length →
    (e.getD 2 0).toNat % 64 = m → s.dev.flag MAC.STAT_LINK m = true →
    RunsTo (.hostTxElement m e) s fun d => ∃ x, (d.mac m).offers = (s.dev.mac m).offers ++ [x] ∧
      x.tc = (e.getD 3 0).toNat % 8 ∧ x.bytes.take (leNat (e.take 2)) = (e.drop 16).take (leNat (e.take 2))) ∧
  (∀ (c : Ctx) (s : State), RegsTo (.flwCntClr c) s fun d =>
    (∀ f ∈ [FLW.CNT_PKT_0_COUNT, FLW.CNT_PKT_1_COUNT, FLW.CNT_DUP_COUNT, FLW.CNT_LOST_COUNT, FLW.CNT_LATE_COUNT], d.get f c = 0) ∧
    RegsKept s.dev d [(0x005001B0, c.val), (0x005001B4, c.val), (0x005001B8, c.val), (0x005001BC, c.val), (0x005001C0, c.val)]) ∧
  (∀ s : State, RegsTo .flwBlkCntClr s fun d =>
    (∀ f ∈ [FLW.CNT_NOMATCH_COUNT, FLW.CNT_HDR_ERR_COUNT, FLW.CNT_TX_BAD_COUNT], d.get f = 0) ∧
    RegsKept s.dev d [(0x00500010, 0), (0x00500014, 0), (0x00500018, 0)])

/-- The general queues (R207 to R211): EN starts a queue whose element and ring sizes are in range and reports CFG_ERR of any other; software
moves only the index it owns, forward within the ring; the device takes and produces elements by advancing its own index; the notification
timer, TIMER µs after the first element not notified and not before, triggers the vector and clears the count. The queue commands (Table
7.20): CNT_CLR clears the overflow count, HWM_CLR sets the high-water mark to the fill, IDX_CLR empties a queue whose EN is 0 and has no
effect on another; each leaves every other register alone. -/
def Obligations.Queues : Prop :=
  ((∀ (q : GenQ) (s : State), s.dev.flag QM.Q_STAT_RUN (genQ q) = false →
    let esz := s.dev.get QM.Q_CFG_ESZ (genQ q)
    let logN := s.dev.get QM.Q_CFG_LOG_N (genQ q)
    ((4 ≤ esz ∧ esz ≤ 11 ∧ 2 ≤ logN ∧ logN ≤ 16) → RunsTo (.queueEnable q true) s fun d =>
      d.get QM.Q_STAT_RUN (genQ q) = 1 ∧ d.get QM.Q_STAT_CFG_ERR (genQ q) = 0) ∧
    (¬(4 ≤ esz ∧ esz ≤ 11 ∧ 2 ≤ logN ∧ logN ≤ 16) → RunsTo (.queueEnable q true) s fun d =>
      d.get QM.Q_STAT_RUN (genQ q) = 0 ∧ d.get QM.Q_STAT_CFG_ERR (genQ q) = 1 ∧ d.get QM.BLK_EVT_CFG_ERR = 1)) ∧
  (∀ (q : GenQ) (s : State), RunsTo (.queueEnable q false) s fun d =>
    d.get QM.Q_STAT_RUN (genQ q) = 0 ∧ d.get QM.Q_CFG_EN (genQ q) = 0) ∧
  (∀ (m : Master) (v : Word) (q x : Nat) (s : State), s.dev.get QM.Q_SEL_SEL m.code = q → 12288 ≤ q → q < 16384 →
    x = v.toNat % 2 ^ 17 % (2 * s.dev.qSize q) →
    (s.dev.flag QM.Q_CFG_DIR q = true →
      (x + 2 * s.dev.qSize q - s.dev.get QM.Q_CONS_IDX q) % (2 * s.dev.qSize q) ≤ s.dev.qSize q →
      s.dev.qFill q ≤ (x + 2 * s.dev.qSize q - s.dev.get QM.Q_CONS_IDX q) % (2 * s.dev.qSize q) →
      RunsTo (.queueIndexWrite m true v) s fun d => d.get QM.Q_PROD_IDX q = x ∧ d.get QM.Q_CONS_IDX q = s.dev.get QM.Q_CONS_IDX q) ∧
    (s.dev.flag QM.Q_CFG_DIR q = false →
      (s.dev.get QM.Q_PROD_IDX q + 2 * s.dev.qSize q - x) % (2 * s.dev.qSize q) ≤ s.dev.qSize q →
      (s.dev.get QM.Q_PROD_IDX q + 2 * s.dev.qSize q - x) % (2 * s.dev.qSize q) ≤ s.dev.qFill q →
      RunsTo (.queueIndexWrite m false v) s fun d => d.get QM.Q_CONS_IDX q = x ∧ d.get QM.Q_PROD_IDX q = s.dev.get QM.Q_PROD_IDX q) ∧
    (∀ prod : Bool, s.dev.flag QM.Q_CFG_DIR q ≠ prod → RegsTo (.queueIndexWrite m prod v) s fun d =>
      d.get QM.BLK_EVT_IDX_ERR = 1 ∧ RegsKept s.dev d [(0x00600004, 0)])) ∧
  (∀ (q : GenQ) (s : State), s.dev.qUsable (genQ q) true 0 = true → s.dev.qFill (genQ q) ≠ 0 →
    RunsTo (.queueElementConsume q) s fun d => d.get QM.Q_CONS_IDX (genQ q) =
      (s.dev.get QM.Q_CONS_IDX (genQ q) + 1) % (2 * s.dev.qSize (genQ q)) % 2 ^ 17) ∧
  (∀ (q : GenQ) (bytes : List Byte) (s : State), s.dev.qUsable (genQ q) false bytes.length = true →
    (s.dev.qFill (genQ q) < s.dev.qSize (genQ q) → RunsTo (.queueElementProduce q bytes) s fun d =>
      d.get QM.Q_PROD_IDX (genQ q) = (s.dev.get QM.Q_PROD_IDX (genQ q) + 1) % (2 * s.dev.qSize (genQ q)) % 2 ^ 17) ∧
    (s.dev.qSize (genQ q) ≤ s.dev.qFill (genQ q) → RegsTo (.queueElementProduce q bytes) s fun d =>
      d.get QM.Q_CNT_OVF_COUNT (genQ q) = sat32 (s.dev.get QM.Q_CNT_OVF_COUNT (genQ q) + 1) ∧
      RegsKept s.dev d [(0x0060012C, genQ q)])) ∧
  (∀ (q : GenQ) (s : State), s.dev.flag QM.Q_CFG_NOTIFY (genQ q) = true → s.dev.get QM.Q_MOD_TIMER (genQ q) ≠ 0 →
    ∀ n c : Nat, mapGet s.dev.qSince (genQ q, 0) (0, 0) = (n, c) → n ≠ 0 →
    (s.dev.get QM.Q_MOD_TIMER (genQ q) * 800 ≤ s.dev.cc - c → RunsTo (.queueNotifyTimer q) s fun d =>
      mapGet d.qSince (genQ q, 0) (0, 0) = (0, 0) ∧
      (s.dev.restarting = true → d.msixDefer = s.dev.msixDefer ||| 2 ^ s.dev.get QM.Q_CFG_VEC (genQ q))) ∧
    (s.dev.cc - c < s.dev.get QM.Q_MOD_TIMER (genQ q) * 800 → RunsTo (.queueNotifyTimer q) s fun d => d = s.dev))) ∧
  (∀ s : State,
    (∀ q : Fin 16384, RegsTo (.qCntClr q) s fun d => d.get QM.Q_CNT_OVF_COUNT q = 0 ∧ RegsKept s.dev d [(0x0060012C, q.val)]) ∧
    (∀ q : Fin 16384, RegsTo (.hwmClr q) s fun d => d.get QM.Q_HWM_HWM q = s.dev.get QM.Q_STAT_FILL q ∧
      RegsKept s.dev d [(0x00600124, q.val)]) ∧
    (∀ q : GenQ, s.dev.flag QM.Q_CFG_EN (genQ q) = false → RegsTo (.idxClr q) s fun d => d.get QM.Q_PROD_IDX (genQ q) = 0 ∧
      d.get QM.Q_CONS_IDX (genQ q) = 0 ∧ d.get QM.Q_STAT_FILL (genQ q) = 0 ∧ d.get QM.Q_STAT_FULL (genQ q) = 0 ∧
      RegsKept s.dev d [(0x0060010C, genQ q), (0x00600110, genQ q), (0x00600120, genQ q), (0x00600124, genQ q)]) ∧
    (∀ q : GenQ, s.dev.flag QM.Q_CFG_EN (genQ q) = true → RunsTo (.idxClr q) s fun d => d = s.dev))

/-- Start and stop of a frame synchroniser (R222, R224): with no start condition failing it runs, EMPTY, on its slot, and holds its store
units; with one failing it reports the condition's code and does not run; a stop returns what it held. FRZ is a live field (R229). The
frames of a synchroniser outside a gang (R226, R227, R228): the latest frame due is chosen, or the one that played last is repeated and
counted; the chosen frame plays, with its buffer shown and its slot present; a frame whose input fails is given up and counted; HOLD_TMO
repeats while HOLDING, and no fewer, end in EMPTY where no frame is to play at the next frame start (R234). -/
def Obligations.Synchronisers : Prop :=
  (∀ (n : Fin 512) (s : State),
    (s.dev.flag FS.SYNC_STAT_RUN n = false → s.dev.syncStartCode n = 0 → RunsTo (.syncStart n) s fun d =>
      d.get FS.SYNC_STAT_RUN n = 1 ∧ d.get FS.SYNC_STAT_EMPTY n = 1 ∧ d.get FS.SYNC_STAT_ERR n = 0 ∧
      d.syncAt (s.dev.get FS.SYNC_CTL_SLOT n) = some n.val ∧ d.get SLP.IN_STAT_PRESENT (s.dev.get FS.SYNC_CTL_SLOT n) = 0 ∧
      d.get FS.BLK_STAT_UNITS_USED = s.dev.get FS.BLK_STAT_UNITS_USED + storeUnits (s.dev.get FS.SYNC_CTL_FMT n)) ∧
    (s.dev.flag FS.SYNC_STAT_RUN n = false → s.dev.syncStartCode n ≠ 0 → RegsTo (.syncStart n) s fun d =>
      d.get FS.SYNC_STAT_RUN n = 0 ∧ d.get FS.SYNC_STAT_ERR n = s.dev.syncStartCode n ∧ d.get FS.SYNC_EVT_CFG_ERR n = 1 ∧
      RegsKept s.dev d [(0x00700100, n.val), (0x00700108, n.val), (0x00700110, n.val)]) ∧
    (s.dev.flag FS.SYNC_STAT_RUN n = true → RunsTo (.syncStop n) s fun d =>
      d.get FS.SYNC_STAT_RUN n = 0 ∧ d.get FS.SYNC_CTL_EN n = 0 ∧ d.syncAt (s.dev.get FS.SYNC_CTL_SLOT n) = none ∧
      d.syncUnit n = SyncUnit.init ∧
      d.get FS.BLK_STAT_UNITS_USED = s.dev.get FS.BLK_STAT_UNITS_USED - (s.dev.syncUnit n).units) ∧
    (∀ v : Bool, RegsTo (.syncFreeze n v) s fun d => d.get FS.SYNC_CTL_FRZ n = b2n v ∧ d.get FS.SYNC_STAT_FROZEN n = b2n v ∧
      RegsKept s.dev d [(0x00700100, n.val), (0x00700108, n.val)])) ∧
  (∀ (n : Fin 512) (k : Int) (s : State),
    (s.dev.gangOf n = [n.val] → s.dev.flag FS.SYNC_STAT_RUN n = true →
      (∀ f, ((s.dev.syncUnit n).frames.filter fun f => decide (f.due ≤ k)).getLast? = some f →
        RunsTo (.syncFrameChoice n k) s fun d => (d.syncUnit n).choice = some (some f.buf)) ∧
      (((s.dev.syncUnit n).frames.filter fun f => decide (f.due ≤ k)) = [] → (s.dev.syncUnit n).playing.isSome = true →
        RunsTo (.syncFrameChoice n k) s fun d => (d.syncUnit n).choice = some none ∧ d.get FS.SYNC_EVT_REPEAT n = 1 ∧
          d.get FS.CNT_REPEAT_COUNT n = sat32 (s.dev.get FS.CNT_REPEAT_COUNT n + 1))) ∧
    (s.dev.flag FS.SYNC_STAT_RUN n = true → ∀ b f, (s.dev.syncUnit n).choice = some (some b) →
      (s.dev.syncUnit n).frames.find? (·.buf == b) = some f → RunsTo (.syncFramePlay n k) s fun d =>
        (d.syncUnit n).playing = some f ∧ d.get FS.SYNC_STAT_EMPTY n = 0 ∧ d.get FS.SYNC_STAT_BUF n = f.buf % 4 ∧
        d.get SLP.IN_STAT_PRESENT (s.dev.get FS.SYNC_CTL_SLOT n) = 1 ∧ d.actReg 0x00700104 n = s.dev.reg 0x00700104 n) ∧
    (s.dev.gangOf n = [n.val] → ∀ b, (s.dev.syncUnit n).writing = some b → RunsTo (.syncFrameIncomplete n) s fun d =>
      (d.syncUnit n).writing = none ∧ (d.syncUnit n).frames = (s.dev.syncUnit n).frames.filter (·.buf != b) ∧
      d.get FS.SYNC_EVT_INCOMPLETE n = 1 ∧ d.get FS.CNT_INCOMPLETE_COUNT n = sat32 (s.dev.get FS.CNT_INCOMPLETE_COUNT n + 1)) ∧
    (s.dev.flag FS.SYNC_STAT_RUN n = true → s.dev.flag FS.SYNC_STAT_HOLDING n = true → s.dev.getAct FS.SYNC_HOLD_HOLD_TMO n ≠ 0 →
      (s.dev.syncUnit n).repeats < s.dev.getAct FS.SYNC_HOLD_HOLD_TMO n → RunsTo (.syncHoldTimeout n) s fun d => d = s.dev) ∧
    (s.dev.flag FS.SYNC_STAT_RUN n = true → s.dev.flag FS.SYNC_STAT_HOLDING n = true → s.dev.getAct FS.SYNC_HOLD_HOLD_TMO n ≠ 0 →
      (s.dev.syncUnit n).choice.bind id = none → (∀ f ∈ (s.dev.syncUnit n).frames, f.complete = true →
        mapGet s.dev.cadLast (s.dev.get FS.SYNC_CTL_CAD n, 0) (-1) + 1 < f.due) →
      s.dev.getAct FS.SYNC_HOLD_HOLD_TMO n ≤ (s.dev.syncUnit n).repeats → RunsTo (.syncHoldTimeout n) s fun d =>
        d.get FS.SYNC_STAT_EMPTY n = 1 ∧ d.get FS.SYNC_EVT_EMPTY n = 1 ∧ (d.syncUnit n).playing = none ∧
        d.get FS.SYNC_STAT_HOLDING n = 0))

/-- The host's windows into the frame store (R237, R238, R239): byte i of an access has the address that its own window's page register gives
it, in whichever window it falls; a write reaches exactly the enabled bytes that lie in SURF and HOST, and no other byte of the store
changes; a read gives the store's bytes, and beyond the store, or on a granule with an uncorrectable error, an error with all ones. Store
errors (R239, R240): a corrected one and an uncorrectable one are each counted and raised, the first uncorrectable address is captured; a
scrub pass counts everything it finds. The clears of the store's and a synchroniser's counters touch nothing else. -/
def Obligations.FrameStore : Prop :=
  ((∀ (o : Fin 0x10000000) (bytes : List (Option Byte)) (s : State), ∃ d st,
    exec (.bar2Write o bytes) s = .next { s with store := st, dev := d } ∧
    (∀ x, (∀ i v, bytes[i]? = some (some v) → o.val + i < 0x10000000 → s.dev.bar2Addr (o.val + i) ≠ x) →
      memRead storeFill x st = memRead storeFill x s.store) ∧
    (∀ i v, bytes[i]? = some (some v) → o.val + i < 0x10000000 → surfStart ≤ s.dev.bar2Addr (o.val + i) →
      s.dev.bar2Addr (o.val + i) < storeEnd →
      (∀ j, i < j → j < bytes.length → o.val + j < 0x10000000 → s.dev.bar2Addr (o.val + j) ≠ s.dev.bar2Addr (o.val + i)) →
      memRead storeFill (s.dev.bar2Addr (o.val + i)) st = v) ∧
    (∀ x, x < surfStart ∨ storeEnd ≤ x → memRead storeFill x st = memRead storeFill x s.store) ∧
    (bytes ≠ [] → s.dev.bar2Addr o < surfStart → d.get FS.BLK_EVT_WIN_WP = 1)) ∧
  (∀ (o : Fin 0x10000000) (len : Nat) (s : State), o.val + len ≤ 0x10000000 →
    (∀ i < len, s.dev.bar2Addr (o.val + i) < storeEnd) → s.dev.ueGran = [] →
    RunsTo (.bar2Read o len) s fun d =>
      d.bar2 = some ((List.range len).map fun i => memRead storeFill (s.dev.bar2Addr (o.val + i)) s.store, false)) ∧
  (∀ (o : Fin 0x10000000) (len i : Nat) (s : State), i < len → o.val + i < 0x10000000 → storeEnd ≤ s.dev.bar2Addr (o.val + i) →
    RunsTo (.bar2Read o len) s fun d => d.bar2 = some (List.replicate len 0xFF, true) ∧ d.get FS.BLK_EVT_WIN_RANGE = 1) ∧
  (∀ (o : Fin 0x10000000) (len i : Nat) (s : State), i < len → o.val + i < 0x10000000 → s.dev.bar2Addr (o.val + i) / 32 ∈ s.dev.ueGran →
    RunsTo (.bar2Read o len) s fun d => d.bar2 = some (List.replicate len 0xFF, true))) ∧
  (∀ s : State,
    RunsTo .eccCe s (fun d => d.get FS.ECC_CNT_CE_COUNT = sat32 (s.dev.get FS.ECC_CNT_CE_COUNT + 1) ∧ d.get FS.BLK_EVT_ECC_CE = 1 ∧
      d.rising = s.dev.rising ++ [Dev.devFault 140]) ∧
    (∀ (addr : Fin 48000000000) (r : StoreReader), RunsTo (.eccUe addr r) s fun d =>
      d.get FS.ECC_CNT_UE_COUNT = sat32 (s.dev.get FS.ECC_CNT_UE_COUNT + 1) ∧ d.get FS.BLK_EVT_ECC_UE = 1 ∧
      addr.val / 32 ∈ d.ueGran ∧ (s.dev.get FS.ECC_ADDR_LO_VALID = 0 → d.get FS.ECC_ADDR_LO_VALID = 1 ∧
        d.get FS.ECC_ADDR_LO_ADDR_L = addr.val / 32 % 2 ^ 27 ∧ d.get FS.ECC_ADDR_HI_ADDR_H = addr.val / 2 ^ 32)) ∧
    (∀ (ces : Nat) (ues : List (Fin 48000000000)), s.dev.flag FS.SCRUB_CFG_EN = true → RunsTo (.patrolScrub ces ues) s fun d =>
      d.get FS.ECC_CNT_CE_COUNT = sat32 (s.dev.get FS.ECC_CNT_CE_COUNT + ces) ∧
      d.get FS.ECC_CNT_UE_COUNT = sat32 (s.dev.get FS.ECC_CNT_UE_COUNT + ues.length)) ∧
    RegsTo .fsCntClr s (fun d => d.get FS.ECC_CNT_CE_COUNT = 0 ∧ d.get FS.ECC_CNT_UE_COUNT = 0 ∧
      RegsKept s.dev d [(0x00700014, 0), (0x00700018, 0)]) ∧
    RegsTo .eccAddrClr s (fun d => d.get FS.ECC_ADDR_LO_VALID = 0 ∧ d.get FS.ECC_ADDR_LO_ADDR_L = 0 ∧ d.get FS.ECC_ADDR_HI_ADDR_H = 0 ∧
      RegsKept s.dev d [(0x0070001C, 0), (0x00700020, 0)]) ∧
    ∀ n : Fin 512, RegsTo (.syncCntClr n) s fun d => d.get FS.CNT_REPEAT_COUNT n = 0 ∧ d.get FS.CNT_DROP_COUNT n = 0 ∧
      d.get FS.CNT_INCOMPLETE_COUNT n = 0 ∧ d.get FS.CNT_ANC_DROP_COUNT n = 0 ∧
      RegsKept s.dev d [(0x00700120, n.val), (0x00700124, n.val), (0x00700128, n.val), (0x0070012C, n.val)])

/-- Start and stop of a Plotter engine (R244): with no start condition failing it runs from frame 0 with its shadow set active; with one
failing it reports the code and does not run; a stop ends the pending takes of its feeds. Commits (R267, R268): COMMIT arms every engine
of the group; at the commit point, a frame start not before the time that COMMIT set, an engine alone whose shadow set passes its checks
takes it, reports code 1 and raises COMMIT_OK; one that fails keeps its active set, reports the failure and counts it. -/
def Obligations.EngineControl : Prop :=
  (∀ (e : Eng) (s : State),
    (s.dev.flag PLT.ENG_STAT_RUN e = false → s.dev.engStartCode e = 0 → RunsTo (.engineStart e) s fun d =>
      d.get PLT.ENG_STAT_RUN e = 1 ∧ d.get PLT.ENG_STAT_ERR e = 0 ∧ d.get PLT.ENG_FRAME_FRAME e = 0 ∧
      d.actReg 0x00800108 e = s.dev.reg 0x00800108 e) ∧
    (s.dev.flag PLT.ENG_STAT_RUN e = false → s.dev.engStartCode e ≠ 0 → RunsTo (.engineStart e) s fun d =>
      d.get PLT.ENG_STAT_RUN e = 0 ∧ d.get PLT.ENG_STAT_ERR e = s.dev.engStartCode e ∧ d.get PLT.ENG_EVT_START_ERR e = 1) ∧
    (s.dev.flag PLT.ENG_STAT_RUN e = true → RunsTo (.engineStop e) s fun d => d.get PLT.ENG_STAT_RUN e = 0 ∧
      d.get PLT.ENG_CTL_EN e = 0 ∧ ∀ k < 4, d.takesOf (1536 + 4 * e + k) = [] ∧ (d.outOf (1536 + 4 * e + k)).run = false)) ∧
  (∀ (e : Eng) (s : State),
    (s.dev.flag PLT.ENG_STAT_RUN e = true → s.dev.flag PLT.ENG_STAT_ARMED e = false → RunsTo (.engineCommit e) s fun d =>
      ∀ x ∈ s.dev.engGroup e, d.get PLT.ENG_STAT_ARMED x = 1) ∧
    (s.dev.flag PLT.ENG_STAT_RUN e = true → s.dev.flag PLT.ENG_STAT_ARMED e = true → mapGet s.dev.engArmed (e.val, 0) [] = [e.val] →
      (∀ t, mapGet s.dev.commitAt (0, e.val) none = some t → t ≤ s.dev.engFrameT e) →
      ((s.dev.engCheck e).1 = 1 → RunsTo (.engineCommitPoint e) s fun d => d.get PLT.ENG_STAT_RESULT e = 1 ∧
        d.get PLT.ENG_STAT_ARMED e = 0 ∧ d.get PLT.ENG_EVT_COMMIT_OK e = 1 ∧ d.actReg 0x00800108 e = s.dev.reg 0x00800108 e ∧
        ∀ l < 16, d.actReg 0x00800200 (e * 16 + l) = s.dev.reg 0x00800200 (e * 16 + l)) ∧
      ((s.dev.engCheck e).1 ≠ 1 → RunsTo (.engineCommitPoint e) s fun d => d.get PLT.ENG_STAT_RESULT e = (s.dev.engCheck e).1 % 16 ∧
        d.get PLT.ENG_STAT_ARMED e = 0 ∧ d.get PLT.ENG_EVT_COMMIT_REJ e = 1 ∧ d.act = s.dev.act ∧
        d.get PLT.ENG_CNT_REJ_COUNT e = sat32 (s.dev.get PLT.ENG_CNT_REJ_COUNT e + 1))) ∧
    (∀ t, mapGet s.dev.commitAt (0, e.val) none = some t → s.dev.engFrameT e < t →
      RunsTo (.engineCommitPoint e) s fun d => d = s.dev))

/-- An engine's frame (R243, R244, R246, R273): from the first frame start that R244 admits on, a running engine counts its frame; while it
sheds the store stays as it is; else its picture goes to its own freeze buffer and no other byte of the store changes. Coefficients and
counters of an engine (Tables 9.11 and 9.12, R253): a write through COEF_DATA stores ten bits at the index and a read answers them, the
index rises by 1 modulo 1,024, and indices from 768 on ignore accesses; CNT_CLR clears three counters. -/
def Obligations.EngineWork : Prop :=
  (∀ (e : Eng) (late : List (Fin 16 × Nat)) (g : SrcGen) (s : State), s.dev.flag PLT.ENG_STAT_RUN e = true →
    s.dev.genOf (1536 + 4 * e) = g →
    (g.run = true ∨ g.resume.isSome = true ∨ g.target ≤ s.dev.engFrameT e →
      (s.dev.shedding = true → RunsTo (.engineFrame e late) s fun d =>
        d.get PLT.ENG_FRAME_FRAME e = (s.dev.get PLT.ENG_FRAME_FRAME e + 1) % 2 ^ 32 ∧ d.get PLT.ENG_STAT_SHED e = 1) ∧
      (s.dev.shedding = false → s.dev.engFmtOk e = true → ∃ d st,
        exec (.engineFrame e late) s = .next { s with store := st, dev := d } ∧
        d.get PLT.ENG_FRAME_FRAME e = (s.dev.get PLT.ENG_FRAME_FRAME e + 1) % 2 ^ 32 ∧ d.get PLT.ENG_STAT_SHED e = 0 ∧
        ∀ x, x < surfBase + e * 22364160 ∨ surfBase + (e + 1) * 22364160 ≤ x →
          memRead storeFill x st = memRead storeFill x s.store)) ∧
    (g.run = false → g.resume = none → s.dev.engFrameT e < g.target → RunsTo (.engineFrame e late) s fun d => d = s.dev)) ∧
  ((∀ (m : Master) (w : Word) (e i : Nat) (s : State), s.dev.get PLT.ENG_SEL_SEL m.code = e → e < 32 →
    s.dev.get PLT.COEF_IDX_IDX e = i →
    (i < 768 → RunsTo (.coefDataAccess m (some w)) s fun d => d.get PLT.COEF_DATA_COEF (e * 1024 + i) = w.toNat % 1024 ∧
      d.get PLT.COEF_IDX_IDX e = (i + 1) % 1024 ∧ RegsKept s.dev d [(0x00800134, e * 1024 + i), (0x00800130, e)]) ∧
    (768 ≤ i → RegsTo (.coefDataAccess m (some w)) s fun d => d.get PLT.COEF_IDX_IDX e = (i + 1) % 1024 ∧
      RegsKept s.dev d [(0x00800130, e)]) ∧
    RunsTo (.coefDataAccess m none) s fun d => d.get PLT.COEF_IDX_IDX e = (i + 1) % 1024 ∧
      mapGet d.answer (m.code, 0) (0, false) =
        (if i < 768 then BitVec.ofNat 32 (s.dev.get PLT.COEF_DATA_COEF (e * 1024 + i)) else 0, false) ∧
      RegsKept s.dev d [(0x00800130, e)]) ∧
  ∀ (e : Eng) (s : State), RegsTo (.engineCntClr e) s fun d => d.get PLT.ENG_CNT_LATE_COUNT e = 0 ∧
    d.get PLT.ENG_CNT_REJ_COUNT e = 0 ∧ d.get PLT.ENG_CNT_OTC_COUNT e = 0 ∧
    RegsKept s.dev d [(0x00800120, e.val), (0x00800124, e.val), (0x00800128, e.val)])

/-- Commits of the Sounding matrix (R293, R294): AMX_COMMIT arms a running matrix, 2 µs ahead of its commit point, and nothing else; at the
commit point an armed set that passes the checks becomes the active one on every channel, and one that fails is refused with its code and
channel, its active copies as they were; where nothing is armed, or the 2 µs have not passed, nothing happens. The matrix starts and stops
(R295): MATRIX_ENABLE stores EN; on a stopped matrix it checks the set, and waits 2 µs where the checks pass or is refused and reported
where they fail. The start and the stop come at a tick: a start runs with no fade under way; a stop ends every fade and delay line and
sets every channel's output to 0; else the tick leaves the matrix as it is. -/
def Obligations.MatrixControl : Prop :=
  (∀ (s : State),
    (s.dev.flag AMX.BLK_STAT_RUN = true → s.dev.flag AMX.BLK_STAT_ARMED = false → RunsTo .amxCommit s fun d =>
      d.get AMX.BLK_STAT_ARMED = 1 ∧ mapGet d.commitAt (1, 0) none = some (s.dev.cadNow + nsTu 2000) ∧
      RegsKept s.dev d [(0x00900010, 0)]) ∧
    (s.dev.flag AMX.BLK_STAT_RUN = false ∨ s.dev.flag AMX.BLK_STAT_ARMED = true → RunsTo .amxCommit s fun d => d = s.dev) ∧
    (s.dev.flag AMX.BLK_STAT_ARMED = false ∨ s.dev.amxReady = false → RunsTo .amxCommitPoint s fun d => d = s.dev) ∧
    (s.dev.flag AMX.BLK_STAT_ARMED = true → s.dev.amxReady = true → s.dev.amxCheck.1 = 1 → RunsTo .amxCommitPoint s fun d =>
      d.get AMX.BLK_STAT_ARMED = 0 ∧ d.get AMX.BLK_STAT_RESULT = 1 ∧ d.get AMX.BLK_EVT_COMMIT_OK = 1 ∧
      (∀ ch ∈ s.dev.amxChans, ∀ k < 5, d.actReg (0x00900100 + 4 * k) ch = s.dev.reg (0x00900100 + 4 * k) ch)) ∧
    (s.dev.flag AMX.BLK_STAT_ARMED = true → s.dev.amxReady = true → s.dev.amxCheck.1 ≠ 1 → RegsTo .amxCommitPoint s fun d =>
      d.get AMX.BLK_STAT_ARMED = 0 ∧ d.get AMX.BLK_STAT_RESULT = s.dev.amxCheck.1 ∧
      d.get AMX.BLK_STAT_FAIL_CH = s.dev.amxCheck.2 % 2 ^ 15 ∧ d.get AMX.BLK_EVT_COMMIT_REJ = 1 ∧
      d.get AMX.CNT_REJ_COUNT = sat32 (s.dev.get AMX.CNT_REJ_COUNT + 1) ∧
      RegsKept s.dev d [(0x00900010, 0), (0x00900004, 0), (0x00900024, 0)])) ∧
  ((∀ (s : State),
    (s.dev.flag AMX.BLK_STAT_RUN = false → s.dev.amxCheck.1 = 1 → RunsTo (.matrixEnable true) s fun d =>
      d.get AMX.BLK_STAT_RUN = 0 ∧ d.get AMX.BLK_CTL_EN = 1 ∧ d.get AMX.BLK_STAT_RESULT = 1 ∧
      mapGet d.commitAt (1, 0) none = some (s.dev.cadNow + nsTu 2000) ∧
      RegsKept s.dev d [(0x00900008, 0), (0x00900010, 0)]) ∧
    (s.dev.flag AMX.BLK_STAT_RUN = false → s.dev.amxCheck.1 ≠ 1 → RegsTo (.matrixEnable true) s fun d =>
      d.get AMX.BLK_STAT_RUN = 0 ∧ d.get AMX.BLK_CTL_EN = 1 ∧ d.get AMX.BLK_STAT_RESULT = s.dev.amxCheck.1 ∧
      d.get AMX.BLK_EVT_COMMIT_REJ = 1 ∧ d.get AMX.CNT_REJ_COUNT = sat32 (s.dev.get AMX.CNT_REJ_COUNT + 1) ∧
      RegsKept s.dev d [(0x00900008, 0), (0x00900010, 0), (0x00900004, 0), (0x00900024, 0)]) ∧
    (s.dev.flag AMX.BLK_STAT_RUN = false → RunsTo (.matrixEnable false) s fun d =>
      d.get AMX.BLK_CTL_EN = 0 ∧ mapGet d.commitAt (1, 0) none = none ∧ RegsKept s.dev d [(0x00900008, 0)]) ∧
    (∀ en, s.dev.flag AMX.BLK_STAT_RUN = true → RegsTo (.matrixEnable en) s fun d =>
      d.get AMX.BLK_CTL_EN = b2n en ∧ d.get AMX.BLK_STAT_RUN = 1 ∧ RegsKept s.dev d [(0x00900008, 0)])) ∧
  (∀ (d : Dev),
    (d.flag AMX.BLK_STAT_RUN = false → d.flag AMX.BLK_CTL_EN = true → (mapGet d.commitAt (1, 0) none).isSome = true →
      d.amxReady = true → d.amxTurn.get AMX.BLK_STAT_RUN = 1 ∧
        ∀ ch ∈ d.amxChans, (d.amxTurn.amxOut ch).dlyFade = none ∧ ∀ i ∈ (d.amxTurn.amxOut ch).ins, i.fade = none) ∧
    (d.flag AMX.BLK_STAT_RUN = true → d.flag AMX.BLK_CTL_EN = false →
      d.amxTurn.get AMX.BLK_STAT_RUN = 0 ∧ d.amxTurn.get AMX.BLK_STAT_ARMED = 0 ∧ d.amxTurn.amx = [] ∧
      ∀ ch, d.amxTurn.amxValue ch = 0) ∧
    (d.flag AMX.BLK_STAT_RUN = d.flag AMX.BLK_CTL_EN → d.amxTurn = d) ∧
    (d.flag AMX.BLK_STAT_RUN = false → d.amxReady = false ∨ mapGet d.commitAt (1, 0) none = none → d.amxTurn = d)))

/-- Audio follow (R289): a source that a take gave an output's audio is written, once, to SRC_0 and EN_0 of the output's 16 channels, in the
shadow and in the active copy; a source without audio disables the input; with nothing to follow, nothing happens. A tick of the audio
clock (R279, R281, R284): MATRIX_TICK completes and TICK shows it; a channel's sum is the sum of its inputs, rounded at 24 fractional bits
and clamped to 24 bits, and what leaves the channel is the sum that DELAY asks for. -/
def Obligations.MatrixAudio : Prop :=
  (∀ (o : Slot) (s : State),
    (mapGet s.dev.follow (o.val, 0) none = none → RunsTo (.audioFollow o) s fun d => d = s.dev) ∧
    (∀ src fade, mapGet s.dev.follow (o.val, 0) none = some (src, fade) → src < 1536 → RunsTo (.audioFollow o) s fun d =>
      mapGet d.follow (o.val, 0) none = none ∧
      ∀ c < 16, d.get (AMX.SRC_SRC 0) (o.val * 16 + c) = src * 16 + c ∧ d.get (AMX.SRC_EN 0) (o.val * 16 + c) = 1 ∧
        d.getAct (AMX.SRC_SRC 0) (o.val * 16 + c) = src * 16 + c ∧ d.getAct (AMX.SRC_EN 0) (o.val * 16 + c) = 1) ∧
    (∀ src fade, mapGet s.dev.follow (o.val, 0) none = some (src, fade) → 1536 ≤ src → RunsTo (.audioFollow o) s fun d =>
      mapGet d.follow (o.val, 0) none = none ∧
      ∀ c < 16, d.get (AMX.SRC_EN 0) (o.val * 16 + c) = 0 ∧ d.getAct (AMX.SRC_EN 0) (o.val * 16 + c) = 0)) ∧
  ((∀ n ports elems s, ∃ t, exec (.matrixTick n ports elems) s = .next t ∧ t.nvm = s.nvm ∧ t.pending = s.pending ∧
    t.dev.get AMX.TICK_LO_TICK_L = n % 2 ^ 32 ∧ t.dev.get AMX.TICK_HI_TICK_H = n / 2 ^ 32 % 2 ^ 32) ∧
  (∀ (d : Dev) n xs ch v, (d.amxOut ch).hist[(d.amxOut ch).dly]? = some v → (d.amxOut ch).dlyFade = none →
    (d.amxOut ch).dly = 0 ∨ d.poolBad (0, ch) (n - 1 - (d.amxOut ch).dly) = false →
      ((d.amxChan n xs ch).amxOut ch).out = v ∧
      ((d.amxChan n xs ch).amxOut ch).hist.head? =
        some (amxClamp ((((d.amxOut ch).ins.zipIdx.map fun x => d.amxInput xs ch x.2 x.1).sum + 2 ^ 23) / 2 ^ 24)) ∧
      (∀ c, c ≠ ch → (d.amxChan n xs ch).amxOut c = d.amxOut c)))

/-- A direction of a serial audio port (R298, R307, R314): a lead whose channels fit its slots is set to start at the next tick, and then
starts with its whole gang; one whose channels do not fit reports the direction's code and does not run; a stop ends the whole gang; a
gang member's bit is stored and does nothing. Frame synchronisation and the rate converter (R301, R304): a slave's first frame sync brings
it in step; a frame of a wrong length, or a missing sync, is counted on the whole gang and loses the step; a converter whose rate has held
for 100 ms locks, and its unlock, 8 expected frame periods after the last frame sync, is reported; before those times nothing happens. -/
def Obligations.AudioPorts : Prop :=
  ((∀ (p : Port) (tx : Bool) (s : State),
    (s.dev.audLead p = p → s.dev.audRuns p tx = true ∨ s.dev.audNch p tx ≤ s.dev.audSlots p tx →
      RunsTo (.audioDirectionEnable p tx true) s fun d =>
        d.get (if tx then AUD.PORT_CTL_TX_EN else AUD.PORT_CTL_RX_EN) p = 1 ∧ (d.audDir p tx).due = true ∧
        d.audRuns p tx = s.dev.audRuns p tx ∧ RegsKept s.dev d [(0x00A00100, p.val), (0x00A00118, p.val)]) ∧
    (s.dev.audLead p = p → s.dev.audRuns p tx = false → s.dev.audSlots p tx < s.dev.audNch p tx →
      RegsTo (.audioDirectionEnable p tx true) s fun d =>
        d.audRuns p tx = false ∧ d.get AUD.STAT_ERR p = (if tx then 1 else 2) ∧ d.get AUD.EVT_STAT_START_ERR p = 1 ∧
        RegsKept s.dev d [(0x00A00100, p.val), (0x00A00118, p.val), (0x00A0011C, p.val)]) ∧
    (s.dev.audLead p = p → RunsTo (.audioDirectionEnable p tx false) s fun d =>
      d.get (if tx then AUD.PORT_CTL_TX_EN else AUD.PORT_CTL_RX_EN) p = 0 ∧
      ∀ q ∈ s.dev.audGang p, d.audRuns q tx = false ∧ d.audDir q tx = AudDir.init) ∧
    (∀ en, s.dev.audLead p ≠ p → RegsTo (.audioDirectionEnable p tx en) s fun d =>
      d.get (if tx then AUD.PORT_CTL_TX_EN else AUD.PORT_CTL_RX_EN) p = b2n en ∧
      RegsKept s.dev d [(0x00A00100, p.val)])) ∧
  (∀ (d : Dev) (p : Port) (tx : Bool), d.audRuns p tx = false → d.audNch p tx ≤ d.audSlots p tx →
    ∀ q ∈ d.audGang p, (d.audStart p tx).audRuns q tx = true ∧ (d.audStart p tx).audDir q tx = AudDir.init)) ∧
  (∀ (p : Port) (tx : Bool) (s : State), s.dev.audLead p = p →
    (s.dev.audRuns p tx = true → s.dev.audSlave p tx = true →
      (∀ clocks rate frames, (s.dev.audDir p tx).sync = false → RunsTo (.frameSyncRx p tx clocks rate frames) s fun d =>
        ∀ q ∈ s.dev.audGang p, (d.audDir q tx).sync = true) ∧
      (∀ clocks rate frames, (s.dev.audDir p tx).sync = true → clocks ≠ s.dev.audClocks p tx →
        RunsTo (.frameSyncRx p tx clocks rate frames) s fun d => ∀ q ∈ s.dev.audGang p,
          (d.audDir q tx).sync = false ∧ d.get AUD.EVT_STAT_FRAME_ERR q = 1 ∧
          d.get AUD.CNT_FRAME_ERR_COUNT q = sat32 (s.dev.get AUD.CNT_FRAME_ERR_COUNT q + 1)) ∧
      ((s.dev.audDir p tx).sync = true → RunsTo (.frameSyncMissing p tx) s fun d => ∀ q ∈ s.dev.audGang p,
        (d.audDir q tx).sync = false ∧ d.get AUD.EVT_STAT_FRAME_ERR q = 1 ∧
        d.get AUD.CNT_FRAME_ERR_COUNT q = sat32 (s.dev.get AUD.CNT_FRAME_ERR_COUNT q + 1))) ∧
    (s.dev.get AUD.SRC_STAT_STATE p = 1 → 64 ≤ (s.dev.audPort p).good → 30000 ≤ s.dev.get AUD.SRC_STAT_RATE p →
      s.dev.get AUD.SRC_STAT_RATE p ≤ 100000 → s.dev.lasted .srcRate p 100000000 = true →
      RunsTo (.srcLock p) s fun d => ∀ q ∈ s.dev.audGang p,
        d.get AUD.SRC_STAT_STATE q = 2 ∧ d.get AUD.EVT_STAT_SRC_LOCK q = 1) ∧
    (s.dev.lasted .srcRate p 100000000 = false → RunsTo (.srcLock p) s fun d => d = s.dev) ∧
    (s.dev.lasted .frameSync p (8000000000 / max 1 (s.dev.audPort p).base) = true →
      RunsTo (.srcUnlock p) s fun d => ∀ q ∈ s.dev.audGang p, s.dev.get AUD.SRC_STAT_STATE q = 2 →
        d.get AUD.SRC_STAT_STATE q = 1 ∧ d.get AUD.EVT_STAT_SRC_UNLOCK q = 1) ∧
    (s.dev.lasted .frameSync p (8000000000 / max 1 (s.dev.audPort p).base) = false →
      RunsTo (.srcUnlock p) s fun d => d = s.dev))

/-- Steps of the Chronometer (R318, R320): SET and ADJ move the counter to the second, RES absorbs the step only where a cadence is in use and
SLEW is set; a SET of 10^9 ns or more changes nothing and is reported; CAD_SNAP sets RES to 0. INCR stays within 1,000 ppm of INCR_NOM
(R316): a write of either register gives the clamped value, and a value within the limits is stored as written. -/
def Obligations.Chronometer : Prop :=
  (∀ (s : State),
    (1000000000 ≤ s.dev.get TIM.SET_NS_NS → RegsTo .timeSet s fun d =>
      d.get TIM.EVT_STAT_STEP_ERR = 1 ∧ RegsKept s.dev d [(0x00020004, 0)]) ∧
    (s.dev.get TIM.SET_NS_NS < 1000000000 → RunsTo .timeSet s fun d =>
      d.time = (s.dev.get2 TIM.SET_SEC_LO_SEC_L TIM.SET_SEC_HI_SEC_H * 1000000000 + s.dev.get TIM.SET_NS_NS) * 2 ^ 40 ∧
      d.get TIM.SRV_STAT_TIME_VALID = 1 ∧ d.get TIM.EVT_STAT_STEP = 1 ∧
      d.get TIM.CNT_STEP_COUNT = sat32 (s.dev.get TIM.CNT_STEP_COUNT + 1) ∧
      d.res = s.dev.res + (if s.dev.flag TIM.CTL_SLEW && s.dev.cadInUse then ((d.time : Int) - s.dev.time) / 2 ^ 24 else 0)) ∧
    RunsTo .timeAdj s (fun d =>
      (d.time : Int) = (s.dev.time + toSigned 32 (s.dev.get TIM.ADJ_NS) * 2 ^ 40) % (2 ^ 48 * secUnits : Nat) ∧
      d.get TIM.EVT_STAT_STEP = 1 ∧ d.get TIM.CNT_STEP_COUNT = sat32 (s.dev.get TIM.CNT_STEP_COUNT + 1) ∧
      d.res = s.dev.res + (if s.dev.flag TIM.CTL_SLEW && s.dev.cadInUse then toSigned 32 (s.dev.get TIM.ADJ_NS) * 2 ^ 16 else 0)) ∧
    RunsTo .cadSnap s fun d => d.res = 0 ∧ d.time = s.dev.time ∧ d.get TIM.EVT_STAT_SNAP = 1 ∧
      RegsKept s.dev d [(0x00020004, 0)]) ∧
  (∀ (hi : Bool) (v : Word) (s : State), s.dev.incrNom * 1001 / 1000 < 2 ^ 48 → RegsTo (.incrWrite hi v) s fun d =>
    s.dev.incrNom * 999 ≤ d.incr * 1000 ∧ d.incr * 1000 ≤ s.dev.incrNom * 1001 ∧
    (∀ w, w = (if hi then s.dev.get TIM.INCR_LO_INCR_L + v.toNat % 2 ^ 16 * 2 ^ 32
        else v.toNat + s.dev.get TIM.INCR_HI_INCR_H * 2 ^ 32) →
      s.dev.incrNom * 999 ≤ w * 1000 → w * 1000 ≤ s.dev.incrNom * 1001 → d.incr = w) ∧
    RegsKept s.dev d [(0x00020030, 0), (0x00020034, 0)])

/-- Samples for the servo (R321, Table 12.1): a push, a 1PPS edge and a frame pulse each give a sample where the servo is enabled and their
source is the selected one; from another source it is ignored and counted, and with the servo off nothing happens. The servo's processing
(R322, R323, R324, R347): with no sample waiting nothing happens; after a switch of the reference, and for an offset above the step
threshold where steps are enabled, the time steps by the offset; otherwise the integral part and the output follow the rule's formulas
within SRV_LIM, and LOCKED falls on a sample outside the lock threshold. SRV_RESET sets the integral part to 0. -/
def Obligations.Servo : Prop :=
  (∀ (n : Refin) (t : Nat) (s : State),
    (s.dev.get TIM.SRV_CFG_EN = 0 → RunsTo .srvPush s (fun d => d = s.dev) ∧ RunsTo (.ppsEdge n t) s (fun d => d = s.dev) ∧
      RunsTo (.framePulse n t) s fun d => d = s.dev) ∧
    (s.dev.get TIM.SRV_CFG_EN = 1 → s.dev.sample = none →
      (s.dev.get TIM.SRV_STAT_INPUT = 1 → RunsTo .srvPush s fun d =>
        d = { s.dev with sample := some (1, toSigned 48 (s.dev.get2 TIM.SRV_OFS_LO_E_L TIM.SRV_OFS_HI_E_H)) }) ∧
      (s.dev.get TIM.SRV_STAT_INPUT = 2 → s.dev.get REF.STAT_SEL = n → s.dev.get (REF.REFIN_CFG_KIND n) = 2 →
        RunsTo (.ppsEdge n t) s fun d =>
          d = { s.dev with sample := some (2, nearOffset t (1000000000 * 65536) - s.dev.refDelay n) }) ∧
      (s.dev.get TIM.SRV_STAT_INPUT = 3 → s.dev.get REF.STAT_SEL = n → s.dev.get (REF.REFIN_CFG_KIND n) = 1 →
        RunsTo (.framePulse n t) s fun d => d.regs = s.dev.regs ∧ ∃ e, d.sample = some (3, e))) ∧
    (s.dev.get TIM.SRV_CFG_EN = 1 →
      (s.dev.get TIM.SRV_STAT_INPUT ≠ 1 → RegsTo .srvPush s fun d => d.get TIM.EVT_STAT_SRV_IGN = 1 ∧
        d.get TIM.CNT_SRV_IGN_COUNT = sat32 (s.dev.get TIM.CNT_SRV_IGN_COUNT + 1) ∧
        RegsKept s.dev d [(0x00020004, 0), (0x00020078, 0)]) ∧
      (s.dev.get REF.STAT_SEL ≠ n ∨ s.dev.get (REF.REFIN_CFG_KIND n) ≠ 2 → RegsTo (.ppsEdge n t) s fun d =>
        d.get TIM.CNT_SRV_IGN_COUNT = sat32 (s.dev.get TIM.CNT_SRV_IGN_COUNT + 1) ∧
        RegsKept s.dev d [(0x00020004, 0), (0x00020078, 0)]) ∧
      (s.dev.get REF.STAT_SEL ≠ n ∨ s.dev.get (REF.REFIN_CFG_KIND n) ≠ 1 → RegsTo (.framePulse n t) s fun d =>
        d.get TIM.CNT_SRV_IGN_COUNT = sat32 (s.dev.get TIM.CNT_SRV_IGN_COUNT + 1) ∧
        RegsKept s.dev d [(0x00020004, 0), (0x00020078, 0)]))) ∧
  (∀ (s : State),
    (s.dev.sample = none → RunsTo .servoSample s fun d => d = s.dev) ∧
    RegsTo .srvReset s (fun d => d.get TIM.SRV_I_I = 0 ∧ RegsKept s.dev d [(0x00020060, 0)]) ∧
    (∀ src e, s.dev.sample = some (src, e) → src ≠ s.dev.get TIM.SRV_STAT_INPUT → RunsTo .servoSample s fun d =>
      d.sample = none ∧ d.time = s.dev.time ∧ d.get TIM.CNT_SRV_IGN_COUNT = sat32 (s.dev.get TIM.CNT_SRV_IGN_COUNT + 1) ∧
      RegsKept s.dev d [(0x00020004, 0), (0x00020078, 0)]) ∧
    (∀ e, s.dev.sample = some (s.dev.get TIM.SRV_STAT_INPUT, e) →
      (s.dev.swPend = true → RunsTo .servoSample s fun d => d.swPend = false ∧ d.sample = none ∧
        (d.time : Int) = (s.dev.time - e * 2 ^ 24) % (2 ^ 48 * secUnits : Nat) ∧ d.get REF.EVT_STAT_SW_STEP = 1) ∧
      (s.dev.swPend = false → s.dev.flag TIM.SRV_CFG_STEP_EN = true → s.dev.get TIM.SRV_STEP_THR_THR * 65536 < e.natAbs →
        RunsTo .servoSample s fun d => d.sample = none ∧ d.get TIM.SRV_STAT_LOCKED = 0 ∧
          (d.time : Int) = (s.dev.time - e * 2 ^ 24) % (2 ^ 48 * secUnits : Nat)) ∧
      (s.dev.swPend = false →
        (s.dev.flag TIM.SRV_CFG_STEP_EN = false ∨ e.natAbs ≤ s.dev.get TIM.SRV_STEP_THR_THR * 65536) →
        RunsTo .servoSample s fun d => d.sample = none ∧ d.time = s.dev.time ∧
          (∀ lim i : Int, lim = (min 1000000 (s.dev.get TIM.SRV_LIM_LIM) * 256 : Nat) →
            i = max (-lim) (min lim (toSigned 32 (s.dev.get TIM.SRV_I_I) + s.dev.get TIM.SRV_GAIN_KI * e / 2 ^ 24)) →
            toSigned 32 (d.get TIM.SRV_I_I) = i ∧
            toSigned 32 (d.get TIM.SRV_Y_Y) = max (-lim) (min lim (s.dev.get TIM.SRV_GAIN_KP * e / 2 ^ 16 + i))) ∧
          (s.dev.get TIM.SRV_LOCK_THR_THR * 65536 < e.natAbs → d.get TIM.SRV_STAT_LOCKED = 0))))

/-- Cadence frame starts and triggers (R331, R334): a frame start that cadence time has reached is delivered once; a trigger whose instant has
come fires, a single one is then disabled and a periodic one moves on by whole periods past the present time; before its instant it does
nothing. -/
def Obligations.CadencesAndTriggers : Prop :=
  (∀ (c : Cad) (s : State), mapGet s.dev.cadLast (c.val, 0) (-1) < s.dev.cadIndex c → RunsTo (.cadenceFrameStart c) s fun d =>
    mapGet d.cadLast (c.val, 0) (-1) = s.dev.cadIndex c ∧ d.time = s.dev.time) ∧
  (∀ (c : Cad) (s : State), s.dev.cadIndex c ≤ mapGet s.dev.cadLast (c.val, 0) (-1) →
    RunsTo (.cadenceFrameStart c) s fun d => d = s.dev) ∧
  (∀ (n : Fin 8) (s : State), s.dev.flag (TIM.TRIG_SEC_HI_EN n) = false ∨ s.dev.time < s.dev.trigTime n →
    RunsTo (.triggerFire n) s fun d => d = s.dev) ∧
  (∀ (n : Fin 8) (s : State), s.dev.flag (TIM.TRIG_SEC_HI_EN n) = true → s.dev.trigTime n ≤ s.dev.time →
    (s.dev.get (TIM.TRIG_PER_PERIOD n) = 0 → RunsTo (.triggerFire n) s fun d =>
      (d.get TIM.EVT_STAT_TRIG).testBit n = true ∧ d.get (TIM.TRIG_SEC_HI_EN n) = 0 ∧
      d.get (TIM.TRIG_SEC_HI_LATE n) = b2n (s.dev.stepped || decide (s.dev.trigTime n ≤ s.dev.prevTime))) ∧
    (s.dev.get (TIM.TRIG_PER_PERIOD n) ≠ 0 →
      s.dev.time + s.dev.get (TIM.TRIG_PER_PERIOD n) * 2 ^ 40 < 2 ^ 48 * secUnits → RunsTo (.triggerFire n) s fun d =>
        (d.get TIM.EVT_STAT_TRIG).testBit n = true ∧ d.get (TIM.TRIG_SEC_HI_EN n) = 1 ∧
        s.dev.time < d.trigTime n ∧ d.trigTime n ≤ s.dev.time + s.dev.get (TIM.TRIG_PER_PERIOD n) * 2 ^ 40 ∧
        (d.trigTime n - s.dev.trigTime n) % (s.dev.get (TIM.TRIG_PER_PERIOD n) * 2 ^ 40) = 0))

/-- Selection of a reference (R344, R346 to R349): disabling Lodestar leaves it in FREE with no candidate; a newly picked candidate is
selected, ACQ begins and the servo takes its source; where none is left, LOCK goes to HOLD, and ACQ to HOLD or to FREE by HIST_OK; while
the pick stays the same nothing changes. Lock, history and holdover (R346, R348, R349, Table 13.3): L1_LOCK, 1 s after the selection,
takes ACQ with a locked servo to LOCK; HIST_OK comes after HIST seconds of LOCK; the end of HOLD_MAX hours takes HOLD to FREE, with
HIST_OK = 0; before those times nothing happens. -/
def Obligations.Lodestar : Prop :=
  (∀ (s : State),
    RunsTo (.lodestarEnable false) s (fun d => d.get REF.CTL_EN = 0 ∧ d.get REF.STAT_STATE = 0 ∧ d.get REF.STAT_SEL = 7) ∧
    (∀ n, (s.dev.put REF.CTL_EN true).refPick = some n → n ≠ s.dev.get REF.STAT_SEL →
      RunsTo (.lodestarEnable true) s fun d => d.get REF.CTL_EN = 1 ∧ d.get REF.STAT_SEL = n ∧ d.get REF.STAT_STATE = 1) ∧
    (∀ n, s.dev.refPick = some n → n ≠ s.dev.get REF.STAT_SEL → RunsTo .referenceSelection s fun d =>
      d.get REF.STAT_SEL = n ∧ d.get REF.STAT_STATE = 1 ∧ d.get REF.STAT_L1_LOCK = 0 ∧ d.get REF.EVT_STAT_SEL_CHG = 1 ∧
      d.get TIM.SRV_STAT_INPUT = s.dev.refInput (some n) ∧ d.swPend = true ∧
      (s.dev.refInput (some n) ≠ s.dev.get TIM.SRV_STAT_INPUT → d.get TIM.SRV_STAT_LOCKED = 0)) ∧
    (s.dev.flag REF.CTL_EN = true → s.dev.refPick = none → s.dev.get REF.STAT_SEL ≠ 7 →
      (s.dev.get REF.STAT_STATE = 2 → RunsTo .referenceSelection s fun d => d.get REF.STAT_STATE = 3 ∧
        d.get REF.STAT_SEL = 7 ∧ d.get TIM.SRV_STAT_INPUT = 0 ∧ d.get REF.HOLD_F_F_AVG = ofSigned 32 s.dev.fAvg ∧
        Dev.devFault 188 ∈ d.conds) ∧
      (s.dev.get REF.STAT_STATE = 1 → RunsTo .referenceSelection s fun d =>
        d.get REF.STAT_STATE = (if s.dev.flag REF.STAT_HIST_OK then 3 else 0) ∧ d.get REF.STAT_SEL = 7)) ∧
    (s.dev.flag REF.CTL_EN = true → s.dev.refPick.getD 7 = s.dev.get REF.STAT_SEL →
      RunsTo .referenceSelection s fun d => d = s.dev) ∧
    (∀ (n : Cand) m, s.dev.candQual n = true → s.dev.refPick = some m → m ≠ s.dev.get REF.STAT_SEL →
      RunsTo (.waitToRestore n) s fun d => d.get REF.STAT_SEL = m ∧ d.get REF.STAT_STATE = 1) ∧
    (∀ n : Cand, s.dev.candQual n = false → RunsTo (.waitToRestore n) s fun d => d = s.dev)) ∧
  (∀ (s : State),
    (s.dev.flag REF.CTL_EN = true → s.dev.get REF.STAT_SEL < 4 → s.dev.get REF.STAT_STATE = 1 →
      s.dev.lasted .select 0 1000000000 = true → s.dev.flag TIM.SRV_STAT_LOCKED = true → RunsTo .l1Lock s fun d => d.get REF.STAT_L1_LOCK = 1 ∧
        d.get REF.STAT_STATE = 2 ∧ d.get REF.STAT_PIN_STATE = 1 ∧ d.get REF.EVT_STAT_STATE_CHG = 1) ∧
    (s.dev.lasted .select 0 1000000000 = false → RunsTo .l1Lock s fun d => d = s.dev) ∧
    (s.dev.flag REF.CTL_EN = true → s.dev.get REF.STAT_SEL < 4 → s.dev.get REF.STAT_STATE ≠ 1 →
      s.dev.lasted .select 0 1000000000 = true → RegsTo .l1Lock s fun d => d.get REF.STAT_L1_LOCK = 1 ∧ d.get REF.STAT_STATE = s.dev.get REF.STAT_STATE ∧
        RegsKept s.dev d [(0x00030040, 0)]) ∧
    (s.dev.get REF.STAT_STATE = 2 → s.dev.lasted .lock 0 (s.dev.get REF.TIME_CFG_HIST * 1000000000) = true →
      RegsTo .histOk s fun d => d.get REF.STAT_HIST_OK = 1 ∧ d.get REF.STAT_PIN_STATE = 1 ∧
      RegsKept s.dev d [(0x00030040, 0)]) ∧
    (s.dev.get REF.STAT_STATE ≠ 2 ∨ s.dev.lasted .lock 0 (s.dev.get REF.TIME_CFG_HIST * 1000000000) = false → RunsTo .histOk s fun d => d = s.dev) ∧
    (s.dev.get REF.STAT_STATE = 3 → s.dev.get REF.L2_CFG_HOLD_MAX ≠ 0 →
      s.dev.lasted .hold 0 (s.dev.get REF.L2_CFG_HOLD_MAX * 3600000000000) = true → RunsTo .holdExpire s fun d =>
      d.get REF.STAT_STATE = 0 ∧ d.get REF.STAT_HIST_OK = 0 ∧ d.get REF.EVT_STAT_HOLD_EXPIRE = 1 ∧
      Dev.devFault 189 ∈ d.conds ∧ Dev.devFault 188 ∉ d.conds) ∧
    (s.dev.get REF.L2_CFG_HOLD_MAX = 0 ∨ s.dev.lasted .hold 0 (s.dev.get REF.L2_CFG_HOLD_MAX * 3600000000000) = false →
      RunsTo .holdExpire s fun d => d = s.dev))

/-- Presence and qualification of candidates (R337, R338, R343, Table 13.1): pulses within the limits make a pulse input present after 16, PPS
edges with the right cycle count make the pair's 1PPS input present after 4, an edge out of the limits or a loss makes the candidate
absent and unqualified, a pulse input's loss only two periods after its last pulse; PTP is present while PTP_KEEP comes within 1.5 s;
REQUAL disqualifies every candidate but the selected one. The measurement of each second (R340 to R345): while Lodestar is off nothing
happens; a present input's value and validity are shown, an absent candidate's is not valid; a candidate without a violation qualifies
once QUAL_T has passed; under a REFIN selection F is the PLL's value within ±100 ppm. -/
def Obligations.Candidates : Prop :=
  ((∀ (n : Refin) (t cycles x : Nat) (s : State), s.dev.pairBad n = false → s.dev.refKind n = 1 → (s.dev.cand n).last = some x →
    ((((t : Int) - x) * (6750 * 2 ^ 24) - (periodTu (s.dev.cadRate (s.dev.get (REF.REFIN_CFG_CAD n))) : Int)).natAbs ≤
        1000 * tuPerNs → 16 ≤ (s.dev.cand n).run + 1 → RunsTo (.refinEdge n t cycles) s fun d => d.candPresent n = true) ∧
    (1000 * tuPerNs < (((t : Int) - x) * (6750 * 2 ^ 24) - (periodTu (s.dev.cadRate (s.dev.get (REF.REFIN_CFG_CAD n))) : Int)).natAbs →
      RunsTo (.refinEdge n t cycles) s fun d => d.candPresent n = false ∧ d.candQual n = false)) ∧
  (∀ (n : Refin) (t cycles : Nat) (s : State), s.dev.pairBad n = false → s.dev.refKind n ≠ 1 →
    s.dev.refKind (Dev.refPair n) = 2 → 9999999 ≤ cycles → cycles ≤ 10000001 → 4 ≤ (s.dev.cand (Dev.refPair n)).run + 1 →
    RunsTo (.refinEdge n t cycles) s fun d => d.candPresent (Dev.refPair n) = true) ∧
  (∀ (n : Refin) (s : State), s.dev.refKind n ≠ 1 ∨
      s.dev.lasted .cand n (2 * periodTu (s.dev.cadRate (s.dev.get (REF.REFIN_CFG_CAD n))) / tuPerNs) = true →
    RunsTo (.refinLoss n) s fun d => d.candPresent n = false ∧ d.candQual n = false ∧
    d.cand n = CandUnit.init ∧ (s.dev.candQual n = true → d.get REF.EVT_STAT_DISQ = 1)) ∧
  (∀ (n : Refin) (s : State), s.dev.refKind n = 1 →
    s.dev.lasted .cand n (2 * periodTu (s.dev.cadRate (s.dev.get (REF.REFIN_CFG_CAD n))) / tuPerNs) = false →
    RunsTo (.refinLoss n) s fun d => d = s.dev) ∧
  (∀ (s : State), RunsTo .ptpKeep s (fun d => d.candPresent 4 = true ∧ d.marked .cand 4 = s.dev.cc ∧
      RegsKept s.dev d [(0x00030040, 0)]) ∧
    (s.dev.lasted .cand 4 1500000000 = true → RunsTo .ptpKeepTimeout s fun d => d.candPresent 4 = false ∧ d.candQual 4 = false) ∧
    (s.dev.lasted .cand 4 1500000000 = false → RunsTo .ptpKeepTimeout s fun d => d = s.dev) ∧
    RunsTo .requal s fun d => d.get REF.STAT_PRESENT = s.dev.get REF.STAT_PRESENT ∧ ∀ n < 6,
      d.candQual n = (s.dev.candQual n && s.dev.get REF.STAT_SEL == n))) ∧
  (∀ (y : List (Refin × Int)) (pll : Int) (s : State),
    (s.dev.get REF.CTL_EN = 0 → RunsTo (.lodestarMeasurement y pll) s fun d => d = s.dev) ∧
    (s.dev.get REF.CTL_EN = 1 → RunsTo (.lodestarMeasurement y pll) s fun d =>
      (∀ n < 6, s.dev.candPresent n = false → d.get (REF.MEAS_VALID n) = 0) ∧
      (∀ (n : Refin) x, s.dev.candPresent n = true → y.find? (fun z => z.1.val == n.val) = some (n, x) →
        d.get (REF.MEAS_VALID n) = 1 ∧
        toSigned 24 (d.get (REF.MEAS_V n)) = satSigned 24 (10 * ((x + s.dev.mdlM + 128) / 256)) ∧
        (d.get (REF.MEAS_WIN_VIOL n) = 0 → d.get (REF.MEAS_DRIFT_VIOL n) = 0 →
          s.dev.get REF.TIME_CFG_QUAL_T < (s.dev.cand n).good + 1 → d.candQual n = true)) ∧
      (s.dev.get REF.STAT_STATE = 1 ∨ s.dev.get REF.STAT_STATE = 2 → s.dev.get REF.STAT_SEL < 4 →
        toSigned 32 (d.get REF.L1_F_F) = max (-25600000) (min 25600000 pll))))

/-- The holdover model and its learn table (R350, R351): M is the model's value at the temperature, or at the last good one where the reading
is out of range, and 0 without COMP_EN; a minute in LOCK is recorded in its temperature's bin; a read of LRN_DATA answers the bin's mean
and moves on; LRN_CLR empties the table; a day is counted 86,400 s after the last. -/
def Obligations.HoldoverModel : Prop :=
  ∀ (s : State),
    (∀ temp : BitVec 16, -5120 ≤ temp.toInt → temp.toInt ≤ 26880 → RunsTo (.holdoverModelUpdate temp) s fun d =>
      d.get REF.STAT_TH_OK = 1 ∧ d.get REF.TH_STAT_T = temp.toNat ∧ d.goodT = temp.toInt ∧
      d.mdlM = (if s.dev.flag REF.CTL_COMP_EN then s.dev.mdlAt temp.toInt else 0)) ∧
    (∀ temp : BitVec 16, temp.toInt < -5120 ∨ 26880 < temp.toInt → RunsTo (.holdoverModelUpdate temp) s fun d =>
      d.get REF.STAT_TH_OK = 0 ∧ d.get REF.EVT_STAT_TH_FAULT = 1 ∧ d.goodT = s.dev.goodT ∧ Dev.devFault 190 ∈ d.conds ∧
      d.mdlM = (if s.dev.flag REF.CTL_COMP_EN then s.dev.mdlAt s.dev.goodT else 0)) ∧
    (∀ bin : Nat, s.dev.flag REF.STAT_TH_OK = true → s.dev.flag REF.STAT_HIST_OK = true → s.dev.get REF.STAT_STATE = 2 →
      0 < s.dev.xSum.2 → bin = (toSigned 16 (s.dev.get REF.TH_STAT_T) / 256 + 20).toNat →
      (mapGet s.dev.learn (bin, 0) (0, 0)).1 < 65535 → RunsTo .learnRecord s fun d => d.xSum = (0, 0) ∧
        mapGet d.learn (bin, 0) (0, 0) = ((mapGet s.dev.learn (bin, 0) (0, 0)).1 + 1,
          (mapGet s.dev.learn (bin, 0) (0, 0)).2 + s.dev.xSum.1 / s.dev.xSum.2)) ∧
    (s.dev.get REF.STAT_STATE ≠ 2 → RunsTo .learnRecord s fun d => d = { s.dev with xSum := (0, 0) }) ∧
    (∀ m : Master, RunsTo (.lrnDataRead m) s fun d =>
      mapGet d.answer (m.code, 0) (0, false) = (BitVec.ofInt 32 s.dev.lrnMean, false) ∧
      d.get REF.LRN_IDX_IDX = (s.dev.get REF.LRN_IDX_IDX + 1) % 128 ∧ d.learn = s.dev.learn) ∧
    RunsTo .lrnClr s (fun d => d.learn = [] ∧ d.get REF.LRN_IDX_COUNT = 0) ∧
    (s.dev.lasted .age 0 86400000000000 = true → RunsTo .ageDay s fun d =>
      d.get REF.AGE_DAYS_DAYS = (s.dev.get REF.AGE_DAYS_DAYS + 1) % 2 ^ 16 ∧ d.marked .age 0 = s.dev.cc ∧
      RegsKept s.dev d [(0x00030098, 0)]) ∧
    (s.dev.lasted .age 0 86400000000000 = false → RunsTo .ageDay s fun d => d = s.dev)

/-- Consort's enable, pairing and takeover (R360 to R363, R371, R372): EN takes OFF to SEEK, its fall takes every state to OFF; without a
partner SEEK becomes ACTIVE only where nobody pulls TWIN_ROLE; the loss of a partner, of its control side, and FORCE_ACTIVE take the
standby to TAKEOVER under their conditions and once their times have passed, which defers takes for 500 µs; the end of the handover makes
it ACTIVE. A yield (R373): the active with a ready standby announces an instant in whole microseconds; at the instant it enters STANDBY
and keeps READY, its ready partner enters TAKEOVER; the role words of groups 0 to 35 follow 10 µs later; before an instant nothing
happens; what the partner announces is taken by a standby. -/
def Obligations.ConsortRole : Prop :=
  (∀ (s : State),
    (s.dev.get CON.STAT_STATE = 0 → s.dev.get FLT.STAT_SEV_MAX < 5 → RunsTo (.consortEnable true) s fun d =>
      d.get CON.CTL_EN = 1 ∧ d.get CON.STAT_STATE = 1 ∧ d.get CON.STAT_ROLE = 0) ∧
    RunsTo (.consortEnable false) s (fun d => d.get CON.CTL_EN = 0 ∧ d.get CON.STAT_STATE = 0 ∧ d.get CON.STAT_PAIRED = 0 ∧
      d.get CON.STAT_READY = 0 ∧ d.units = [] ∧ d.handover = none) ∧
    (∀ healthy, s.dev.get CON.STAT_STATE = 1 →
      s.dev.lasted .pair 0 (max 1 (s.dev.get CON.CTL_PAIR_TMO) * 10000000 * (1 + s.dev.twinId)) = true →
      RunsTo (.pairTimeout false healthy) s fun d => d.get CON.STAT_STATE = 5 ∧ d.get CON.STAT_ROLE = 1) ∧
    (∀ pulled healthy, s.dev.get CON.STAT_STATE = 1 →
      s.dev.lasted .pair 0 (max 1 (s.dev.get CON.CTL_PAIR_TMO) * 10000000 * (1 + s.dev.twinId)) = false ∨ pulled = true →
      RunsTo (.pairTimeout pulled healthy) s fun d => d.get CON.STAT_STATE = 1 ∧
        (pulled = true → healthy = true → s.dev.lasted .pair 0 (max 1 (s.dev.get CON.CTL_PAIR_TMO) * 10000000) = true →
          d.get CON.EVT_STAT_LINK_FAULT = 1)) ∧
    (∀ healthy, s.dev.get CON.STAT_STATE = 3 → s.dev.flag CON.CTL_AUTO_TAKE = true → s.dev.flag CON.STAT_READY = true →
      s.dev.con.yieldRx = none → s.dev.beatLost = true → RunsTo (.partnerLoss false healthy) s fun d =>
        d.get CON.STAT_STATE = 4 ∧ d.get CON.STAT_ROLE = 1 ∧ d.get CON.STAT_PAIRED = 0 ∧ d.get CON.STAT_DEFER = 1 ∧
        d.get CON.EVT_STAT_TAKEOVER = 1 ∧ d.handover = some (s.dev.timeTu + nsTu 500000) ∧
        d.get CON.CNT_HB_MISS_COUNT =
          sat32 (s.dev.get CON.CNT_HB_MISS_COUNT + min (s.dev.beatsSince .beat) (s.dev.beatsSince .missed))) ∧
    (s.dev.get CON.STAT_STATE = 3 → s.dev.beatLost = true → RunsTo (.partnerLoss true true) s fun d =>
      d.get CON.STAT_STATE = 3 ∧ d.get CON.EVT_STAT_LINK_FAULT = 1 ∧ d.get CON.STAT_HB_OK = 0) ∧
    (∀ pulled healthy, s.dev.beatLost = false → s.dev.rxState 36 = 5 → RunsTo (.partnerLoss pulled healthy) s fun d =>
      d = s.dev.twinPins pulled healthy) ∧
    (s.dev.get CON.STAT_STATE = 3 → s.dev.ctrlOut = true → s.dev.flag CON.STAT_READY = true →
      RunsTo .ctrlTimeout s fun d => d.get CON.STAT_STATE = 4 ∧ d.handover = some (s.dev.timeTu + nsTu 500000)) ∧
    (s.dev.ctrlOut = false → RunsTo .ctrlTimeout s fun d => d = s.dev) ∧
    (s.dev.conIn [1, 2, 3] = true → RunsTo .forceActive s fun d => d.get CON.STAT_STATE = 4 ∧
      d.get CON.CNT_TAKEOVER_COUNT = sat32 (s.dev.get CON.CNT_TAKEOVER_COUNT + 1)) ∧
    (s.dev.conIn [1, 2, 3] = false → RunsTo .forceActive s fun d => d = s.dev) ∧
    (s.dev.handoverDue = false → RunsTo .handoverComplete s fun d => d = s.dev) ∧
    (s.dev.handover.isSome = true → s.dev.handoverDue = true → s.dev.get CON.STAT_STATE = 4 → RunsTo .handoverComplete s fun d =>
      d.get CON.STAT_STATE = 5 ∧ d.get CON.STAT_DEFER = 0 ∧ d.handover = none) ∧
    (s.dev.get CON.STAT_STATE = 3 → s.dev.get CON.PTR_ID_STATE = 5 → s.dev.get CON.COPY_REGIONS ≠ 0 → RunsTo .join s fun d =>
      d.get CON.STAT_STATE = 2 ∧ d.get CON.STAT_REG_DONE = 0 ∧ (s.dev.get CON.COPY_REGIONS).testBit (d.get CON.COPY_CUR) = true)) ∧
  (∀ (s : State),
    (s.dev.get CON.STAT_STATE = 5 → s.dev.get CON.PTR_ID_STATE = 3 → s.dev.flag CON.STAT_PTR_READY = true →
      s.dev.con.yieldTx = none → RunsTo .yieldCmd s fun d => ∃ y : Int, d.con.yieldTx = some y ∧
        s.dev.timeTu + nsTu 100000 ≤ y ∧ y < s.dev.timeTu + nsTu 101000 ∧ y % nsTu 1000 = 0) ∧
    (s.dev.get CON.STAT_STATE ≠ 5 → RunsTo .yieldCmd s fun d => d = s.dev) ∧
    (s.dev.yieldDue = false → RunsTo .yieldInstant s fun d => d = s.dev) ∧
    (∀ y, s.dev.con.yieldTx = some y → y ≤ s.dev.timeTu → s.dev.get CON.STAT_STATE = 5 → RunsTo .yieldInstant s fun d =>
      d.get CON.STAT_STATE = 3 ∧ d.get CON.STAT_ROLE = 2 ∧ d.con.yieldTx = none ∧ d.con.keep = true ∧ d.roleHold = true ∧
      d.handover = some (y + nsTu 500000)) ∧
    (∀ y, s.dev.con.yieldTx = none → s.dev.con.yieldRx = some y → y ≤ s.dev.timeTu → s.dev.get CON.STAT_STATE = 3 →
      s.dev.flag CON.STAT_READY = true → RunsTo .yieldInstant s fun d => d.get CON.STAT_STATE = 4 ∧
        d.handover = some (y + nsTu 500000) ∧ d.con.yieldRx = none) ∧
    (s.dev.roleSwitchDue = true → RunsTo .yieldRoleSwitch s fun d => d = { s.dev with roleHold := false }) ∧
    (s.dev.roleSwitchDue = false → RunsTo .yieldRoleSwitch s fun d => d = s.dev) ∧
    (∀ bytes p, s.dev.flag CON.CTL_EN = true → unitParse bytes = some (0x12, p) → s.dev.get CON.STAT_STATE = 3 →
      RunsTo (.yieldRx bytes) s fun d =>
        d.con.yieldRx = some (nsTu (payNat p 0 6 * 1000000000 + payNat p 6 4 : Nat))))

/-- Units on the twin link (R356 to R358, Tables 14.1 and 14.3): a heartbeat is queued with the next HSEQ; the waiting unit of the lowest rank
is sent and leaves the queue; a unit that fails its CRC, its length or its type is counted and has no other effect on Consort, for each of
the receive commands; a stopped Consort drops every unit. Heartbeats (R355, R358 to R361, R374): a newer heartbeat of a compatible partner
updates the partner's status; in SEEK it pairs, and the device with TWIN_ID 0 becomes ACTIVE against a seeking partner; an incompatible
partner is reported; one that is not newer is discarded; the mean offset of an interval goes to the servo. -/
def Obligations.ConsortLink : Prop :=
  (∀ (s : State),
    (s.dev.flag CON.CTL_EN = true → s.dev.twinRuns = true → RunsTo .heartbeatTx s fun d =>
      d.con.hseqTx = (s.dev.con.hseqTx + 1) % 2 ^ 32 ∧
      ∃ p, d.units = s.dev.units ++ [(0x01, p)] ∧ p.length = 52 ∧ payNat p 0 4 = (s.dev.con.hseqTx + 1) % 2 ^ 32 ∧
        payNat p 6 2 = s.dev.get GLB.SYSID_SYSID) ∧
    (s.dev.flag CON.CTL_EN = false ∨ s.dev.twinRuns = false → RunsTo .heartbeatTx s fun d => d = s.dev) ∧
    (∀ u rest, s.dev.twinRuns = true → unitNext s.dev.units = some (u, rest) → RunsTo .consortUnitTx s fun d => d.units = rest ∧
      ∃ p, d.sent = .unit (unitBytes u.1 p) :: s.dev.sent ∧ (u.1 ≠ 1 → p = u.2)) ∧
    (∀ (bytes img : List Byte) t4, s.dev.flag CON.CTL_EN = true → unitParse bytes = none →
      ∀ i ∈ ([.heartbeatRx bytes t4, .yieldRx bytes, .journalRx bytes, .digestRx bytes, .reqRx bytes img, .stateRx bytes,
        .snapRx bytes, .abortRx bytes] : List Instr), RunsTo i s fun d =>
          d.get CON.CNT_UNIT_ERR_COUNT = sat32 (s.dev.get CON.CNT_UNIT_ERR_COUNT + 1) ∧ d.con = s.dev.con ∧
          RegsKept s.dev d [(0x00B00044, 0)]) ∧
    (∀ (bytes img : List Byte) t4, s.dev.flag CON.CTL_EN = false →
      ∀ i ∈ ([.heartbeatRx bytes t4, .yieldRx bytes, .journalRx bytes, .digestRx bytes, .reqRx bytes img, .stateRx bytes,
        .snapRx bytes, .abortRx bytes] : List Instr), RunsTo i s fun d => d.con = s.dev.con ∧ d.regs = s.dev.regs)) ∧
  ((∀ (bytes p : List Byte) (t4 : Nat) (s : State), s.dev.flag CON.CTL_EN = true → unitParse bytes = some (0x01, p) →
    (s.dev.con.hseqRx = none → s.dev.hbCompat p = true → RunsTo (.heartbeatRx bytes t4) s fun d =>
      d.con.hseqRx = some (payNat p 0 4) ∧ d.get CON.STAT_HB_OK = 1 ∧ d.get CON.PTR_ID_SYSID = payNat p 6 2 ∧
      d.get CON.PTR_CHART_ID_ID = payNat p 8 4 ∧ d.get CON.PTR_ID_STATE = payNat p 4 1 % 8 ∧
      (s.dev.get CON.STAT_STATE = 1 → payNat p 4 1 % 8 = 1 → s.dev.twinId = 0 →
        d.get CON.STAT_STATE = 5 ∧ d.get CON.STAT_PAIRED = 1)) ∧
    (s.dev.con.hseqRx = none → s.dev.hbCompat p = false → s.dev.get CON.STAT_STATE = 1 → RunsTo (.heartbeatRx bytes t4) s fun d =>
      d.get CON.EVT_STAT_PAIR_ERR = 1 ∧ d.get CON.STAT_STATE = 1) ∧
    (s.dev.con.hseqRx = some (payNat p 0 4) → RunsTo (.heartbeatRx bytes t4) s fun d => d.con = s.dev.con ∧
      d.get CON.STAT_STATE = s.dev.get CON.STAT_STATE)) ∧
  (∀ (s : State), s.dev.lasted .twinTime 0 (max 1 (s.dev.get CON.CFG_TIME_SMP) * 1000000) = true →
    RunsTo .twinTimeSample s fun d => d.con.offsets = (0, 0) ∧
      (0 < s.dev.con.offsets.2 → s.dev.get TIM.SRV_CFG_EN = 1 → s.dev.get TIM.SRV_STAT_INPUT = 4 → s.dev.sample = none →
        d.sample = some (4, toSigned 48 (ofSigned 48 (s.dev.con.offsets.1 / s.dev.con.offsets.2))))) ∧
  (∀ (s : State), s.dev.lasted .twinTime 0 (max 1 (s.dev.get CON.CFG_TIME_SMP) * 1000000) = false →
    RunsTo .twinTimeSample s fun d => d = s.dev))

/-- The journal and the digests on a standby (R364 to R367): a record in sequence moves JSEQ_RX on without a gap, one out of sequence is
reported and takes readiness away; the active sends a unit's digest, the CRC over its outputs' slot CRCs of a frame; a standby keeps a
received one for its own; one without a counterpart two frame periods after its frame counts as a mismatch. The copy of regions (R369 to
R371): the active serves a requested region with a new snapshot number and its image's CRC; the joining device gathers region data of the
region being copied, holds the snapshot whole where size and CRC agree and asks again where they do not; an ABORT of that region ends the
copy and leaves the device in STANDBY, counted. The commit of a copied region (R370): a shadow that SNAP has completed is done, SURF's
bytes reach the frame store and no other region touches it, SWITCH takes the journal's number; with no completed shadow nothing happens. -/
def Obligations.ConsortState : Prop :=
  ((∀ (bytes p : List Byte) (s : State), s.dev.flag CON.CTL_EN = true → unitParse bytes = some (0x02, p) →
    s.dev.get CON.STAT_STATE = 3 → s.dev.get CON.COPY_CUR ≠ 8 → p.length = 40 →
    RunsTo (.journalRx bytes) s fun d => d.get CON.JSEQ_RX_JSEQ = payNat p 36 4 ∧
      (payNat p 36 4 ≠ (s.dev.get CON.JSEQ_RX_JSEQ + 1) % 2 ^ 32 → d.get CON.EVT_STAT_JRNL_GAP = 1 ∧ d.con.gap = true ∧
        d.get CON.CNT_JRNL_GAP_COUNT = sat32 (s.dev.get CON.CNT_JRNL_GAP_COUNT + 1))) ∧
  (∀ (u : DigUnit) (c : Cad) (k : Int) (s : State), s.dev.flag CON.CTL_DIG_EN = false →
    RunsTo (.digestSend u c k) s fun d => d = s.dev) ∧
  (∀ (u : DigUnit) (c : Cad) (k : Int) (s : State) (base : Nat), s.dev.flag CON.CTL_DIG_EN = true → s.dev.get CON.STAT_STATE = 5 →
    base = (if u.val < 36 then 32 * u.val else 1152 + 32 * (u.val - 36)) →
    ((List.range 32).filterMap fun j => s.dev.digCrc u c k (base + j)) ≠ [] →
    RunsTo (.digestSend u c k) s fun d => ∃ p, d.units = s.dev.units ++ [(0x03, p)] ∧ p.length = 16 ∧
      payNat p 0 1 = u ∧ payNat p 1 1 = c ∧ (payNat p 4 4 : Int) = k % 2 ^ 32 ∧
      payNat p 12 4 = crc32 (((List.range 32).filterMap fun j => s.dev.digCrc u c k (base + j)).flatMap fun x => leBytes 4 x)) ∧
  (∀ (bytes p : List Byte) (s : State), s.dev.flag CON.CTL_EN = true → unitParse bytes = some (0x03, p) → p.length = 16 →
    s.dev.get CON.STAT_STATE = 3 → s.dev.flag CON.CTL_DIG_EN = true → s.dev.con.own = [] →
    RunsTo (.digestRx bytes) s fun d => d.con.peer = s.dev.con.peer ++
      [⟨payNat p 0 1 % 64, payNat p 1 1 % 16, payNat p 4 4, payNat p 8 4, payNat p 12 4⟩]) ∧
  (∀ (u : DigUnit) (c : Cad) (k : Word) (s : State),
    s.dev.digOver c k.toNat = true → s.dev.con.peer.any (fun x => x.unit == u.val && x.cad == c.val && x.k == k.toNat) = true →
    RunsTo (.digestTimeout u c k) s fun d => d.get CON.EVT_STAT_DIG_MM = 1 ∧
      d.get CON.CNT_DIG_MM_COUNT = sat32 (s.dev.get CON.CNT_DIG_MM_COUNT + 1) ∧ d.get CON.MM_STAT_UNIT = u ∧
      d.get CON.MM_STAT_CAD = c ∧ d.get CON.MM_STAT_VALID = 1 ∧ d.get CON.MM_STAT_K_LO = k.toNat % 2 ^ 16) ∧
  (∀ (u : DigUnit) (c : Cad) (k : Word) (s : State), s.dev.digOver c k.toNat = false →
    RunsTo (.digestTimeout u c k) s fun d => d = s.dev)) ∧
  (∀ (bytes p : List Byte) (s : State), s.dev.flag CON.CTL_EN = true →
    (∀ img, unitParse bytes = some (0x10, p) → s.dev.get CON.STAT_STATE = 5 → payNat p 0 1 < 9 →
      RunsTo (.reqRx bytes img) s fun d => d.con.snapSeq = (s.dev.con.snapSeq + 1) % 65536 ∧ d.con.serving = some (payNat p 0 1) ∧
        ∃ q, d.units.getLast? = some (0x11, q) ∧ payNat q 0 1 = payNat p 0 1 ∧ payNat q 16 4 = crc32 img) ∧
    (unitParse bytes = some (0x20, p) → s.dev.get CON.STAT_STATE = 2 → s.dev.get CON.COPY_CUR = payNat p 0 1 →
      RunsTo (.stateRx bytes) s fun d => d.con.shadow.snap = some (payNat p 2 2) ∧
        d.con.shadow.data.getLast? = some (payNat p 4 8, p.drop 12)) ∧
    (∀ img, unitParse bytes = some (0x11, p) → s.dev.get CON.STAT_STATE = 2 → s.dev.get CON.COPY_CUR = payNat p 0 1 →
      imageOf s.dev.con.shadow.data (payNat p 4 8) = some img → s.dev.con.shadow.snap = some (payNat p 2 2) →
      (crc32 img = payNat p 16 4 → RunsTo (.snapRx bytes) s fun d =>
        d.con.shadow.whole = some (payNat p 4 8, payNat p 12 4) ∧ d.con.shadow.data = s.dev.con.shadow.data) ∧
      (crc32 img ≠ payNat p 16 4 → RunsTo (.snapRx bytes) s fun d => d.con.shadow = CopyShadow.init ∧
        d.units = s.dev.units ++ [(0x10, [BitVec.ofNat 8 (s.dev.get CON.COPY_CUR)])])) ∧
    (unitParse bytes = some (0x13, p) → s.dev.get CON.STAT_STATE = 2 → s.dev.get CON.COPY_CUR = payNat p 0 1 →
      s.dev.get CON.COPY_CUR ≠ 15 → RunsTo (.abortRx bytes) s fun d => d.get CON.STAT_STATE = 3 ∧
        d.get CON.COPY_CUR = 15 ∧ d.get CON.EVT_STAT_COPY_ABORT = 1 ∧
        d.get CON.CNT_COPY_ABORT_COUNT = sat32 (s.dev.get CON.CNT_COPY_ABORT_COUNT + 1) ∧ d.con.shadow = CopyShadow.init)) ∧
  ((∀ writes s, s.dev.con.shadow.whole = none → RunsTo (.regionCommit writes) s fun d => d = s.dev) ∧
  (∀ w r s, s.dev.con.shadow.whole = some w → s.dev.get CON.COPY_CUR = r → r < 9 → ∃ d st,
    exec (.regionCommit []) s = .next { s with store := st, dev := d } ∧
    (d.get CON.STAT_REG_DONE).testBit r = true ∧ d.get CON.EVT_STAT_COPY_DONE = 1 ∧ (r ≠ 5 → st = s.store) ∧
    (∀ img, r = 5 → imageOf s.dev.con.shadow.data w.1 = some img → surfStart + img.length ≤ storeEnd →
      memReads storeFill st surfStart img.length = img) ∧
    (r = 8 → s.dev.con.heldRecs = [] → d.get CON.JSEQ_RX_JSEQ = w.2 % 2 ^ 32 ∧ d.con.gap = false)))

/-- Accesses that do not reach a register (R2, R3, R431, R432): a decode miss is answered with an error and all ones, counted, reported and
captured where no capture stands; a target time-out is answered the same way and reported; BUS.CMD.CLR empties both captures. Select
registers (R15 to R17): each bus master writes its own copy and no other's, and a value out of the register's range raises the block's
select-range event. -/
def Obligations.BusAccess : Prop :=
  (∀ (m : Master) (off : Nat) (wr : Bool) (s : State), s.dev.busMaster m = true →
    (m ≠ .sidePort → RunsTo (.decodeMiss m off wr) s fun d =>
      mapGet d.answer (m.code, 0) (0, false) = (0xFFFFFFFF, true) ∧ d.get BUS.EVT_STAT_DECODE_MISS = 1 ∧
      d.get BUS.MISS_INFO_COUNT = min (2 ^ 16 - 1) (s.dev.get BUS.MISS_INFO_COUNT + 1) ∧ d.get BUS.MISS_INFO_VALID = 1 ∧
      (s.dev.get BUS.MISS_INFO_VALID = 0 → d.get BUS.MISS_INFO_MASTER = m.code ∧ d.get BUS.MISS_INFO_WRITE = b2n wr ∧
        d.get BUS.MISS_ADDR_OFS = off % 2 ^ 24) ∧
      (s.dev.get BUS.MISS_INFO_VALID = 1 → d.get BUS.MISS_ADDR_OFS = s.dev.get BUS.MISS_ADDR_OFS)) ∧
    (s.dev.shutOut m off = false → RunsTo (.targetTimeout m off wr) s fun d =>
      mapGet d.answer (m.code, 0) (0, false) = (0xFFFFFFFF, true) ∧ d.get BUS.EVT_STAT_TMO = 1 ∧
      d.rising = s.dev.rising ++ [⟨16 * busClass off + 8, 3, 0, 0⟩]) ∧
    RegsTo .busClr s fun d => (∀ f ∈ [BUS.MISS_INFO_VALID, BUS.MISS_INFO_COUNT, BUS.MISS_ADDR_OFS, BUS.VIOL_INFO_VALID,
      BUS.VIOL_INFO_COUNT, BUS.VIOL_ADDR_OFS], d.get f = 0) ∧
      RegsKept s.dev d [(0x00070004, 0), (0x00070008, 0), (0x0007000C, 0), (0x00070010, 0)]) ∧
  (∀ (m : Master) (v : Word) (s : State), s.dev.busMaster m = true →
    ∀ f ∈ [FLT.SRC_SEL_SEL, KEY.SLOT_SEL_SEL, EVT.SRC_SEL_SEL, LOG.CTR_SEL_SEL, LNG.GRP_SEL_SEL, XP.OUT_SEL_SEL,
      SLP.SLOT_SEL_SEL, MAC.PORT_SEL_SEL, FLW.FLOW_SEL_SEL, QM.Q_SEL_SEL, FS.SYNC_SEL_SEL, PLT.ENG_SEL_SEL, PLT.LAY_SEL_SEL,
      AMX.CH_SEL_SEL, AUD.PORT_SEL_SEL], s.dev.shutOut m f.off = false → RunsTo (.selectWrite m f.off v) s fun d =>
        d.get f m.code = v.toNat % 2 ^ f.w ∧ (∀ k, k ≠ m.code → d.reg f.off k = s.dev.reg f.off k) ∧
        mapGet d.answer (m.code, 0) (0, false) = (0, false) ∧
        ∀ n evt, selRange f.off = some (n, evt) → n ≤ v.toNat % 2 ^ f.w → d.get evt = 1)

/-- Register writes (R7, R8) through three registers: a live field takes the value; a static field takes it while its owner does not run, and
otherwise keeps its value, with the owner's and the bus's class-violation events; an event bit clears on a written 1. Reads that latch
(R6, R317): a read of a low word answers it and latches the high word for the reading master; a read of TIME_FRAC answers the fraction and
latches the same instant's nanoseconds and seconds. -/
def Obligations.RegisterAccess : Prop :=
  (∀ (m : Master) (v : Word) (s : State), s.dev.busMaster m = true → s.dev.chartHeld = false → s.dev.restarting = false →
    RunsTo (.registerWrite m 0x0002002C v) s (fun d => d.get TIM.ADJ_NS = v.toNat ∧
      OffsKept s.dev d [0x0002002C, 0x00090100, 0x00090104]) ∧
    (s.dev.get HIF.TK_CTL_EN = 0 → RunsTo (.registerWrite m 0x00C01004 v) s fun d =>
      d.get HIF.TK_VLAN_VID = v.toNat % 2 ^ 12 ∧ OffsKept s.dev d [0x00C01004, 0x00090100, 0x00090104]) ∧
    (s.dev.get HIF.TK_CTL_EN = 1 → v.toNat % 2 ^ 12 ≠ s.dev.get HIF.TK_VLAN_VID →
      RunsTo (.registerWrite m 0x00C01004 v) s fun d => d.get HIF.TK_VLAN_VID = s.dev.get HIF.TK_VLAN_VID ∧
        d.get HIF.TK_EVT_CLASS_VIOL = 1 ∧
        (m ≠ .sidePort → d.get BUS.EVT_STAT_VIOL = 1 ∧
          d.get BUS.VIOL_INFO_COUNT = min (2 ^ 16 - 1) (s.dev.get BUS.VIOL_INFO_COUNT + 1)) ∧
        OffsKept s.dev d [0x00C01030, 0x00070000, 0x0007000C, 0x00070010, 0x00090100, 0x00090104]) ∧
    RunsTo (.registerWrite m 0x00070000 v) s fun d =>
      d.get BUS.EVT_STAT_DECODE_MISS = (if v.toNat.testBit 0 then 0 else s.dev.get BUS.EVT_STAT_DECODE_MISS) ∧
      d.get BUS.EVT_STAT_TMO = (if v.toNat.testBit 1 then 0 else s.dev.get BUS.EVT_STAT_TMO) ∧
      d.get BUS.EVT_STAT_VIOL = (if v.toNat.testBit 2 then 0 else s.dev.get BUS.EVT_STAT_VIOL) ∧
      OffsKept s.dev d [0x00070000, 0x00090100, 0x00090104]) ∧
  (∀ (m : Master) (s : State), s.dev.busMaster m = true → s.dev.restarting = false →
    (∀ off ∈ [0x0001002C, 0x00020030, 0x00020038, 0x00020068], mapGet s.dev.hold (m.code, off) none = none →
      RunsTo (.lowWordRead m off) s fun d => mapGet d.answer (m.code, 0) (0, false) = (s.dev.peek m off, false) ∧
        mapGet d.hold (m.code, off + 4) none = some (s.dev.peek m (off + 4))) ∧
    (mapGet s.dev.hold (m.code, 0x00020010) none = none → RunsTo (.timeFracRead m) s fun d =>
      mapGet d.answer (m.code, 0) (0, false) = (BitVec.ofNat 32 (s.dev.time / 2 ^ 24 % 65536), false) ∧
      mapGet d.hold (m.code, 0x00020014) none = some (BitVec.ofNat 32 s.dev.timeNs) ∧
      mapGet d.hold (m.code, 0x00020018) none = some (BitVec.ofNat 32 s.dev.timeSec) ∧
      mapGet d.hold (m.code, 0x0002001C) none = some (BitVec.ofNat 32 (s.dev.timeSec / 2 ^ 32 % 65536))))

/-- The event router (R435 to R437, R439, R440): judging a source records whether it is pending, drives the pins it is routed to and disarms
its armed vector; an acknowledged vector re-arms where no source of the vector is pending; unmasking a vector sends the message that it
holds; soft bits are set and cleared. -/
def Obligations.EventRouter : Prop :=
  (∀ (src : EvtSrc) (s : State), RunsTo (.eventSourcePending src) s fun d =>
    mapGet d.evtWas (src.val, 0) false = s.dev.srcPending src ∧
    (s.dev.srcPending src = true → s.dev.flag EVT.SRC_CFG_VEC_EN src = true →
      d.vecArmed (s.dev.get EVT.SRC_CFG_VEC src) = false) ∧
    (∀ k < 4, s.dev.srcPending src = true → (s.dev.get EVT.PIN_EN_EN).testBit k = true →
      (s.dev.get EVT.SRC_CFG_PINS src).testBit k = true → d.evtPins.testBit k = true)) ∧
  (∀ (k : Fin 2) (v : Word) (s : State), RunsTo (.vecAck k v) s fun d =>
    ∀ i < 32, v.toNat.testBit i = true →
      (∀ src, s.dev.get EVT.SRC_CFG_VEC src = 32 * k.val + i → s.dev.srcPending src = false) → d.vecArmed (32 * k.val + i) = true) ∧
  (∀ (v : Vec) (s : State), RunsTo (.msixUnmask v) s fun d => (d.reg (0x00C0800C + 16 * v.val) 0).toNat % 2 = 0 ∧
    ((s.dev.get ⟨0x00C08800 + 4 * (v.val / 32), 0, 32⟩).testBit (v.val % 32) = true → s.dev.funcMask = false →
      (d.get ⟨0x00C08800 + 4 * (v.val / 32), 0, 32⟩).testBit (v.val % 32) = false ∧
      d.sent = .msix v.val ((s.dev.reg (0x00C08000 + 16 * v.val) 0).toNat + (s.dev.reg (0x00C08004 + 16 * v.val) 0).toNat * 2 ^ 32)
        (s.dev.reg (0x00C08008 + 16 * v.val) 0).toNat :: s.dev.sent)) ∧
  (∀ (i : Fin 128) (s : State), RunsTo (.softSet i) s (fun d => d.get EVT.SOFT_IDX = i ∧
      ∀ j, d.soft.testBit j = (s.dev.soft.testBit j || decide (j = i.val))) ∧
    RunsTo (.softClr i) s fun d => d.get EVT.SOFT_IDX = i ∧
      ∀ j, d.soft.testBit j = (s.dev.soft.testBit j && decide (j ≠ i.val)))

/-- The Logbook (R486 to R489): CLR_ALL zeroes every counter, a snapshot copies every counter with the time, PEAK_CLR zeroes the peaks, FREEZE
shows in FROZEN, and the end of a window gives each monitor's bytes and keeps the peak; while frozen or stopped, or before its time, a
window does not end. Counter clears (Tables 2.14, 10.6, 11.11, 12.4, 14.14, 15.8 and 19.8): each clears its block's counters, of one
instance where the block has instances, and no other register. -/
def Obligations.LogbookAndCounters : Prop :=
  (∀ (s : State),
    RegsTo .clrAll s (fun d => (∀ i < 1760, d.get2 LOG.CTR_LO_COUNT_L LOG.CTR_HI_COUNT_H i = 0) ∧
      OffsKept s.dev d [0x00090100, 0x00090104]) ∧
    RegsTo .snapshot s (fun d => (∀ i < 1760, d.get2 LOG.SNAP_LO_SNAP_L LOG.SNAP_HI_SNAP_H i =
        s.dev.get2 LOG.CTR_LO_COUNT_L LOG.CTR_HI_COUNT_H i) ∧
      d.get LOG.SNAP_SEQ_SEQ = (s.dev.get LOG.SNAP_SEQ_SEQ + 1) % 2 ^ 32 ∧ d.get LOG.SNAP_NS_NS = s.dev.timeNs ∧
      d.get LOG.BLK_EVT_SNAP_DONE = 1 ∧
      OffsKept s.dev d [0x00090108, 0x0009010C, 0x00090018, 0x0009001C, 0x00090020, 0x00090024, 0x00090004]) ∧
    RegsTo .peakClr s (fun d => ∀ i < 270, d.get2 (LOG.BW_PEAK_LO_PEAK_L i) (LOG.BW_PEAK_HI_PEAK_H i) = 0 ∧
      d.get2 (LOG.BW_LAST_LO_LAST_L i) (LOG.BW_LAST_HI_LAST_H i) =
        s.dev.get2 (LOG.BW_LAST_LO_LAST_L i) (LOG.BW_LAST_HI_LAST_H i)) ∧
    (∀ v : Bool, RunsTo (.freeze v) s fun d => d.get LOG.CTL_FREEZE = b2n v ∧ d.get LOG.STAT_FROZEN = b2n v ∧
      RegsKept s.dev d [(0x00090008, 0), (0x00090014, 0), (0x00090004, 0)]) ∧
    (s.dev.windowOver = true → RunsTo .bwWindowEnd s fun d =>
      d.bwAcc = [] ∧ d.get LOG.STAT_WSEQ = (s.dev.get LOG.STAT_WSEQ + 1) % 2 ^ 24 ∧ d.get LOG.BLK_EVT_WIN_END = 1 ∧
      ∀ i < 270, mapGet s.dev.bwAcc (i, 0) 0 < 2 ^ 48 →
        d.get2 (LOG.BW_LAST_LO_LAST_L i) (LOG.BW_LAST_HI_LAST_H i) = mapGet s.dev.bwAcc (i, 0) 0 ∧
        d.get2 (LOG.BW_PEAK_LO_PEAK_L i) (LOG.BW_PEAK_HI_PEAK_H i) =
          max (s.dev.get2 (LOG.BW_PEAK_LO_PEAK_L i) (LOG.BW_PEAK_HI_PEAK_H i)) (mapGet s.dev.bwAcc (i, 0) 0)) ∧
    (s.dev.windowOver = false → RunsTo .bwWindowEnd s fun d => d = s.dev)) ∧
  (∀ (s : State),
    (∀ g : Grp, RegsTo (.lngCntClr g) s fun d =>
      (∀ k ∈ [0x00100120, 0x00100124, 0x00100128, 0x0010012C, 0x00100130], d.reg k g = 0) ∧
      RegsKept s.dev d [(0x00100120, g.val), (0x00100124, g.val), (0x00100128, g.val), (0x0010012C, g.val), (0x00100130, g.val)]) ∧
    RegsTo .amxCntClr s (fun d => d.get AMX.CNT_CLIP_COUNT = 0 ∧ d.get AMX.CNT_REJ_COUNT = 0 ∧
      RegsKept s.dev d [(0x00900020, 0), (0x00900024, 0)]) ∧
    (∀ p : Port, RegsTo (.audCntClr p) s fun d => (∀ k < 5, d.reg (0x00A00120 + 4 * k) p = 0) ∧
      RegsKept s.dev d ((List.range 5).map fun k => (0x00A00120 + 4 * k, p.val))) ∧
    RegsTo .timCntClr s (fun d => (∀ k < 3, d.reg (0x00020074 + 4 * k) 0 = 0) ∧
      RegsKept s.dev d [(0x00020074, 0), (0x00020078, 0), (0x0002007C, 0)]) ∧
    RegsTo .conCntClr s (fun d => (∀ k < 6, d.reg (0x00B00030 + 4 * k) 0 = 0) ∧
      RegsKept s.dev d ((List.range 6).map fun k => (0x00B00030 + 4 * k, 0))) ∧
    RegsTo .fltCntClr s (fun d => (∀ src, d.get FLT.SRC_CNT_COUNT src = 0) ∧ OffsKept s.dev d [0x0001010C]) ∧
    RegsTo .xingCntClr s fun d => d.get GLB.XING_LOST_COUNT = 0 ∧ d.get GLB.XING_LAST_IDX = 0 ∧ d.get GLB.XING_LAST_VALID = 0 ∧
      RegsKept s.dev d [(0x00000118, 0), (0x0000011C, 0)])

/-- Clocks and crossings (R473, R475, R480 to R482): after a monitor window a clock's condition is present exactly where it runs and was out
of range, and the status bits show it; PCLK_ON follows the PLL's lock and its idle time; a reset side makes its instance absent, and only
an unexpected reset counts what was lost and raises XING; a restart makes the instance present again. -/
def Obligations.ClocksAndCrossings : Prop :=
  (∀ (bad : List Clock) (stopped : Bool) (s : State), RunsTo (.clockMonitorWindow bad stopped) s fun d =>
    d.get GLB.CLK_STAT_SYS_LOCK = b2n (!stopped) ∧ d.get GLB.CLK_STAT_ACLK_OK = b2n (!bad.contains .aclk) ∧
    (∀ c ∈ allClocks, d.conds.contains ⟨16 * (clockOwner c).1 + 6, 3, 0, (clockOwner c).2⟩ =
      (bad.contains c && s.dev.clockRuns c)) ∧
    d.conds.contains (Dev.devFault 47) = stopped ∧ d.conds.contains (Dev.devFault 12) = bad.contains .aclk) ∧
  (∀ (s : State),
    (s.dev.pclkReq = true → RunsTo .pclkLock s fun d => d.get GLB.CLK_STAT_PCLK_ON = 1 ∧ d.pclkReq = false ∧
      RegsKept s.dev d [(0x00000100, 0)]) ∧
    (s.dev.pclkReq = false → RunsTo .pclkLock s fun d => d = s.dev) ∧
    (s.dev.flagSet PLT.ENG_CTL_EN = [] → s.dev.lasted .pclk 0 10000000 = true → RunsTo .pclkIdleTimeout s fun d =>
      d.get GLB.CLK_STAT_PCLK_ON = 0 ∧ d.pclkReq = false ∧ RegsKept s.dev d [(0x00000100, 0)]) ∧
    (s.dev.flagSet PLT.ENG_CTL_EN ≠ [] ∨ s.dev.lasted .pclk 0 10000000 = false → RunsTo .pclkIdleTimeout s fun d => d = s.dev)) ∧
  (∀ (x : Fin 26) (unit lost : Nat) (s : State),
    RunsTo (.crossingSideReset x unit true lost) s (fun d => mapGet d.absent (x.val, unit) false = true ∧
      (d.get GLB.XING_ABSENT_ABSENT).testBit x = true ∧ d.rising = s.dev.rising ∧ RegsKept s.dev d [(0x00000110, 0)]) ∧
    RunsTo (.crossingSideReset x unit false lost) s (fun d => (d.get GLB.XING_ABSENT_ABSENT).testBit x = true ∧
      d.rising = s.dev.rising ++ [⟨16 * xingClass x + 7, 3, 0, unit⟩] ∧
      (0 < lost → d.get GLB.XING_LOST_COUNT = sat32 (s.dev.get GLB.XING_LOST_COUNT + lost) ∧ d.get GLB.XING_LAST_IDX = x ∧
        d.get GLB.XING_LAST_VALID = 1) ∧
      (lost = 0 → d.get GLB.XING_LOST_COUNT = s.dev.get GLB.XING_LOST_COUNT)) ∧
    RunsTo (.crossingRestart x unit) s fun d => mapGet d.absent (x.val, unit) false = false ∧ d.rising = s.dev.rising ∧
      RegsKept s.dev d [(0x00000110, 0)])

/-- The record of a fault (R384 to R387, R391): a fault that has no record yet is recorded with its unit, the effective severity that
escalation gives and an entry of the log, or, with the log full, without one; its acknowledgement falls and it is counted. That SEQ of
Table 15.5 numbers the entries alone is the model's reading (log 112). -/
def Obligations.FaultRecords : Prop :=
  ∀ (f : FaultAt) (s : State), f.src < 256 → s.dev.rising = [] → mapGet s.dev.fltRecs (f.src, 0) ⟨0, 0⟩ = ⟨0, 0⟩ →
    mapGet s.dev.injArmed (f.src, 0) false = false → s.dev.flag FLT.SRC_CMD_FORCE f.src = false →
    RunsTo (.faultRecord [] [f] []) s fun d => d.get FLT.SRC_STAT_REC f.src = 1 ∧ d.get FLT.SRC_STAT_ACKED f.src = 0 ∧
      d.get FLT.SRC_STAT_EFF f.src = (Dev.effective (s.dev.sevOf f.src) (s.dev.classUnacked (f.src / 16))).1 ∧
      d.get FLT.SRC_STAT_LVL f.src = f.lvl % 4 ∧ d.get FLT.SRC_STAT_UNIT f.src = f.unit % 2 ^ 16 ∧
      d.get FLT.SRC_CNT_COUNT f.src = sat32 (s.dev.get FLT.SRC_CNT_COUNT f.src + 1) ∧
      (s.dev.fltLog.length < 64 → d.fltSeq = s.dev.fltSeq + 1 ∧ ∃ x, d.fltLog = s.dev.fltLog ++ [x] ∧ x.seq = s.dev.fltSeq ∧ x.src = f.src ∧
        x.sev = s.dev.sevOf f.src ∧ x.unit = f.unit ∧ x.aux = f.aux) ∧
      (64 ≤ s.dev.fltLog.length → d.fltSeq = s.dev.fltSeq ∧ d.fltLog = s.dev.fltLog ∧ d.get FLT.BLK_EVT_LOG_FULL = 1)

/-- Acknowledging and clearing (R387, R388, R391): ACK marks a record and ACK_ALL every record; CLR removes a record whose condition is gone,
is refused while it is present and does nothing to a HALT record; LOG_CLR empties the log; a read of LOG_DATA_7 answers the word and moves
the master's own index on. Injection (R389): INJ arms a source that has a checker and no other; FORCE holds the condition of a source that
has none, and its rise is a fault; an armed injection that no check consumes in 100 ms ends as INJ_STUCK. -/
def Obligations.FaultCommands : Prop :=
  (∀ (src : Src) (s : State), s.dev.rising = [] →
    (s.dev.get FLT.SRC_STAT_REC src = 1 → RegsTo (.srcAck src) s fun d => d.get FLT.SRC_STAT_ACKED src = 1 ∧
      RegsKept s.dev d [(0x00010104, src.val), (0x00010040 + 4 * (src.val / 16), 0), (0x0001000C, 0)]) ∧
    (s.dev.get FLT.SRC_STAT_REC src = 0 → RunsTo (.srcAck src) s (fun d => d = s.dev) ∧ RunsTo (.srcClr src) s fun d => d = s.dev) ∧
    (s.dev.get FLT.SRC_STAT_REC src = 1 → s.dev.get FLT.SRC_STAT_COND src = 1 → RegsTo (.srcClr src) s fun d =>
      d.get FLT.BLK_EVT_CLR_REFUSED = 1 ∧ RegsKept s.dev d [(0x00010004, 0)]) ∧
    (s.dev.get FLT.SRC_STAT_REC src = 1 → s.dev.get FLT.SRC_STAT_COND src = 0 → s.dev.get FLT.SRC_STAT_EFF src = 5 →
      RunsTo (.srcClr src) s fun d => d = s.dev) ∧
    (s.dev.get FLT.SRC_STAT_REC src = 1 → s.dev.get FLT.SRC_STAT_COND src = 0 → s.dev.get FLT.SRC_STAT_EFF src ≠ 5 →
      RunsTo (.srcClr src) s fun d => d.get FLT.SRC_STAT_REC src = 0 ∧ d.get FLT.SRC_STAT_EFF src = 0 ∧
        mapGet d.fltRecs (src.val, 0) ⟨0, 0⟩ = ⟨0, 0⟩) ∧
    ((∀ ch, s.dev.flag FLT.SRC_STAT_REC ch = true → ch < 256) → RunsTo .ackAll s fun d =>
      ∀ k < 256, s.dev.get FLT.SRC_STAT_REC k = 1 → d.get FLT.SRC_STAT_ACKED k = 1) ∧
    RunsTo .logClr s (fun d => d.fltLog = [] ∧ d.get FLT.LOG_IDX_COUNT = 0 ∧ d.get FLT.LOG_IDX_COUNT 6 = 0) ∧
    ∀ m : Master, RunsTo (.logDataRead m) s fun d => mapGet d.answer (m.code, 0) (0, false) = (s.dev.logWord m 7, false) ∧
      d.get FLT.LOG_IDX_IDX (Dev.logCh m) = (s.dev.get FLT.LOG_IDX_IDX (Dev.logCh m) + 1) % 64 ∧ d.fltLog = s.dev.fltLog) ∧
  (∀ (src : Src) (s : State),
    (hasChecker src = true → RunsTo (.srcInj src) s fun d => mapGet d.injArmed (s.dev.injTarget src, 0) false = true ∧
      d.marked .inject (s.dev.injTarget src) = s.dev.cc ∧ d.regs = s.dev.regs) ∧
    (hasChecker src = false → RunsTo (.srcInj src) s fun d => d = s.dev) ∧
    (∀ v, hasChecker src = true → RunsTo (.srcForce src v) s fun d => d = s.dev) ∧
    (∀ v, hasChecker src = false → RunsTo (.srcForce src v) s fun d => d.get FLT.SRC_CMD_FORCE src = b2n v ∧
      d.get FLT.SRC_STAT_COND src = b2n (v || s.dev.conds.any (·.src == src.val)) ∧
      d.rising = s.dev.rising ++ (if v && !s.dev.flag FLT.SRC_CMD_FORCE src then [⟨src.val, 3, 0, 0⟩] else [])) ∧
    (mapGet s.dev.injArmed (src.val, 0) false = true → s.dev.lasted .inject src 100000000 = true → RunsTo (.injStuck src) s fun d =>
      mapGet d.injArmed (src.val, 0) false = false ∧ d.rising = s.dev.rising ++ [⟨15, 3, 0, src.val⟩]) ∧
    (mapGet s.dev.injArmed (src.val, 0) false = false ∨ s.dev.lasted .inject src 100000000 = false → RunsTo (.injStuck src) s fun d => d = s.dev))

/-- The watchdog (R392): the two kicks in order set RST_CNT to 0, any other write is counted as bad; the end of TMO with EN set, while the
boot ROM does not kick, counts a restart and takes the control side down, or waits for a sector write; else nothing happens. Thermal
supervision (R382, R393 to R396): the hottest valid reading is Tj and moves the ladder; with fewer than four valid readings, or at 120 °C,
the trip fires; the trip and the side port's request hold safe-idle; SHED_STEP seconds move the shed threshold. -/
def Obligations.Supervision : Prop :=
  (∀ (s : State),
    (s.dev.kickSeq = false → RunsTo (.wdogKick 0x0000A55A) s fun d => d = { s.dev with kickSeq := true }) ∧
    (s.dev.kickSeq = true → RunsTo (.wdogKick 0x00005AA5) s fun d => d.kickSeq = false ∧ d.get FLT.WDOG_STAT_RST_CNT = 0 ∧
      RegsKept s.dev d [(0x00010024, 0)]) ∧
    (∀ v : Word, v.toNat ≠ kickFirst → v.toNat ≠ kickSecond → RunsTo (.wdogKick v) s fun d => d.kickSeq = false ∧
      d.get FLT.WDOG_STAT_BAD_KICK = min (2 ^ 16 - 1) (s.dev.get FLT.WDOG_STAT_BAD_KICK + 1) ∧
      RegsKept s.dev d [(0x00010024, 0)]) ∧
    (∀ w, s.dev.wdogDue = false → RunsTo (.watchdogExpiry w) s fun d => d = s.dev) ∧
    (s.dev.wdogDue = true → RunsTo (.watchdogExpiry true) s fun d => d.wdogWait = true ∧
      d.get FLT.WDOG_STAT_RST_CNT = min 15 (s.dev.get FLT.WDOG_STAT_RST_CNT + 1)) ∧
    (s.dev.wdogDue = true → s.dev.flag NVM.BOOT_STAT_RUNNING = true → RunsTo (.watchdogExpiry false) s fun d =>
      d.restarting = true ∧ d.get HIF.STAT_CTRL_UP = 0 ∧
      d.get FLT.WDOG_STAT_RST_CNT = min 15 (s.dev.get FLT.WDOG_STAT_RST_CNT + 1))) ∧
  ((∀ (ts : List (BitVec 12)) (tj : Int) (s : State), ts.length = 24 →
    4 ≤ ((ts.map BitVec.toInt).filter (Dev.sensorOk (ts.map BitVec.toInt))).length →
    tj ∈ (ts.map BitVec.toInt).filter (Dev.sensorOk (ts.map BitVec.toInt)) →
    (∀ x ∈ (ts.map BitVec.toInt).filter (Dev.sensorOk (ts.map BitVec.toInt)), x ≤ tj) →
    RunsTo (.thermalSample ts) s fun d => toSigned 12 (d.get FLT.TJ_TJ) = tj ∧ d.ladder = ladderNext s.dev.ladder tj ∧
      d.get FLT.TJ_VALID_CNT = ((ts.map BitVec.toInt).filter (Dev.sensorOk (ts.map BitVec.toInt))).length ∧
      (480 ≤ tj → d.get FLT.STAT_TRIP = 1 ∧ d.get FLT.STAT_SAFE_IDLE = 1 ∧ d.get FLT.STAT_HEALTHY = 0)) ∧
  (∀ (ts : List (BitVec 12)) (s : State), ts.length = 24 →
    ((ts.map BitVec.toInt).filter (Dev.sensorOk (ts.map BitVec.toInt))).length < 4 →
    RunsTo (.thermalSample ts) s fun d => d.get FLT.TJ_TJ = 480 ∧ d.get FLT.STAT_TRIP = 1 ∧ d.get FLT.STAT_SAFE_IDLE = 1) ∧
  (∀ (s : State),
    RunsTo .thermalTrip s (fun d => d.get FLT.STAT_TRIP = 1 ∧ d.get FLT.STAT_STEP = 4 ∧ d.get FLT.STAT_SAFE_IDLE = 1 ∧
      d.get FLT.STAT_HEALTHY = 0 ∧ Dev.devFault 31 ∈ d.conds) ∧
    RunsTo (.spSafeIdle true) s (fun d => d.get FLT.SP_CTL_SAFE_IDLE = 1 ∧ d.get FLT.STAT_SAFE_IDLE = 1 ∧
      d.get FLT.STAT_HEALTHY = 0) ∧
    RunsTo (.spSafeIdle false) s (fun d => d.get FLT.SP_CTL_SAFE_IDLE = 0 ∧
      d.get FLT.STAT_SAFE_IDLE = b2n (decide (5 ≤ s.dev.actionSev) || s.dev.flag FLT.STAT_TRIP)) ∧
    (s.dev.shedDue = true → RunsTo .shedStepTimer s fun d => d.get XP.BLK_STAT_SHED_H =
      if 3 ≤ s.dev.ladder then min 7 (s.dev.get XP.BLK_STAT_SHED_H + 1) else s.dev.get XP.BLK_STAT_SHED_H - 1) ∧
    (s.dev.shedDue = false → RunsTo .shedStepTimer s fun d => d = s.dev)))

/-- The side port (R388, R397): an offset that is not a multiple of 4 is not acknowledged and does nothing else; a read answers four bytes a
register, the first from the register addressed; a write reaches the register; DEV_RESET is refused while a HALT source has its condition
present and otherwise resets the device, which starts again at once unless device reset is in force already. -/
def Obligations.SidePort : Prop :=
  (∀ (off : BitVec 16) (data : List Byte) (regs : Nat) (s : State), off.toNat % 4 ≠ 0 →
    RunsTo (.sidePortWrite off data) s (fun d => d = { s.dev with spNack := true }) ∧
    RunsTo (.sidePortRead off regs) s fun d => d = { s.dev with spNack := true }) ∧
  (∀ (off : BitVec 16) (regs : Nat) (s : State), off.toNat % 4 = 0 → 0 < regs →
    mapGet s.dev.hold (Master.sidePort.code, 0x00010000 + off.toNat) none = none →
    RunsTo (.sidePortRead off regs) s fun d => d.spNack = false ∧ d.spData.length = 4 * regs ∧
      d.spData.take 4 = leBytes 4 (s.dev.peek .sidePort (0x00010000 + off.toNat)).toNat) ∧
  (∀ (a b c e : Byte) (s : State), RunsTo (.sidePortWrite 0x0008 [a, b, c, e]) s fun d => d.spNack = false ∧
    d.get FLT.CTL_INJ_SAFE = a.toNat % 2 ∧ d.get FLT.CTL_SHED_STEP = b.toNat) ∧
  (∀ (s : State), (s.dev.fltRecs.any fun e => decide (5 ≤ max e.2.real e.2.inj) && s.dev.flag FLT.SRC_STAT_COND e.1.1) = true →
    RunsTo .devReset s fun d => d = s.dev) ∧
  (∀ (s : State), (s.dev.fltRecs.any fun e => decide (5 ≤ max e.2.real e.2.inj) && s.dev.flag FLT.SRC_STAT_COND e.1.1) = false →
    RunsTo .devReset s fun d => d.fltRecs = [] ∧ d.inReset = s.dev.inReset ∧ d.get NVM.BOOT_STAT_RUNNING = 0 ∧ d.fltLog = s.dev.fltLog ∧
      (s.dev.inReset = false → d.get NVM.BOOT_STAT_STEP = 2 ∧ d.get MGT.STAT_BOOTROM = 1) ∧
      (s.dev.inReset = true → d.get NVM.BOOT_STAT_STEP = 0 ∧ d.get MGT.STAT_BOOTROM = 0))

/-- The control side goes down and comes up (R36, R135, R434, R444): going down discards every waiting take without a result, empties the
mailbox and resets the DMA engine and the control masters' select copies; coming up counts the takes lost and reports it; where it is
held, it stays down. The host interface (R426, R428, R440, Table 21.6): LINK_RST resets the host's copies, masks every vector and ends the
DMA engine's work; with the link down the fault stays present until the link is up again, with its speed and width; the configuration
space identifies the device (R496). The resets of the device (R378, R400 to R403, R457, R497, Table 22.6): the always-on rail's rise
resets everything and a device reset all but the always-on domain; a power-good input that falls holds device reset with PG_LOSS; once
every power-good input is high, the release samples the straps and starts the boot ROM at step 2; the store and the NVM stay as they are
throughout. -/
def Obligations.Resets : Prop :=
  (∀ (s : State),
    RunsTo .controlSideDown s (fun d => d.restarting = true ∧ d.get HIF.STAT_CTRL_UP = 0 ∧ d.get CON.STAT_CTRL = 0 ∧
      d.salvos = [] ∧ d.submitted = [] ∧ d.mbxReqs = [] ∧ d.mbxRsps = [] ∧ d.dmaFly = [] ∧ d.get HIF.DMA_CTL_EN = 0 ∧
      (∀ m < 6, d.get HIF.TK_RES_BUSY m = 0) ∧ d.get KEY.STAT_STAGE = 1 ∧ d.get XP.OUT_SEL_SEL Master.core.code = 0 ∧
      d.takesLost = s.dev.takesLost + s.dev.takesCount fun _ _ => true) ∧
    (s.dev.flag FLT.WDOG_STAT_HELD = false → s.dev.haltHold = false → s.dev.inReset = false → s.dev.bootHalt = false →
      RunsTo .controlSideUp s fun d => d.restarting = false ∧ d.get HIF.STAT_CTRL_UP = 1 ∧ d.get CON.STAT_CTRL = 1 ∧
        d.get MGT.STAT_FW_RUN = 1 ∧ d.get MGT.STAT_BOOTROM = 0 ∧ d.get MGT.EVT_STAT_CTRL_UP = 1 ∧ d.takesLost = 0 ∧
        d.get HIF.TK_CNT_LOST_COUNT = sat32 (s.dev.get HIF.TK_CNT_LOST_COUNT + s.dev.takesLost) ∧
        (0 < s.dev.takesLost → d.get HIF.TK_EVT_LOST = 1) ∧ (s.dev.mbxLost = true → d.get MGT.EVT_STAT_MBX_LOST = 1)) ∧
    (s.dev.flag FLT.WDOG_STAT_HELD = true ∨ s.dev.haltHold = true ∨ s.dev.inReset = true ∨ s.dev.bootHalt = true →
      RunsTo .controlSideUp s fun d => d = s.dev)) ∧
  (∀ (s : State),
    (∀ down : Bool, RunsTo (.hostReset down) s fun d => d.get HIF.EVT_STAT_LINK_RST = 1 ∧ d.dmaFly = [] ∧ d.funcMask = false ∧
      (∀ v < 64, (d.reg (0x00C0800C + 16 * v) 0).toNat = 1) ∧ d.get XP.OUT_SEL_SEL Master.host.code = 0 ∧
      (down = true → d.get HIF.STAT_LINK_UP = 0 ∧ Dev.devFault 252 ∈ d.conds) ∧
      (down = false → d.get HIF.STAT_LINK_UP = s.dev.get HIF.STAT_LINK_UP ∧ d.rising = s.dev.rising ++ [Dev.devFault 252])) ∧
    (∀ speed width : Fin 8, RunsTo (.pcieLinkUp speed width) s fun d => d.get HIF.STAT_LINK_UP = 1 ∧
      d.get HIF.STAT_SPEED = speed ∧ d.get HIF.STAT_WIDTH = width ∧ Dev.devFault 252 ∉ d.conds) ∧
    s.dev.pcieIds = ⟨0x1F2A, 0x1664, s.dev.get GLB.STEP_STEP, 0x048000, 0x1F2A, 0x0001⟩) ∧
  (∀ (s : State),
    RunsTo .aonPowerUp s (fun d => d.regs = [] ∧ d.inReset = true ∧ d.fltLog = [] ∧
      d.rising = if s.dev.railLost then [Dev.devFault 44] else []) ∧
    RunsTo .alwaysOnRailLoss s (fun d => d.railLost = true ∧ d.inReset = true) ∧
    RunsTo .deviceResetAssert s (fun d => d.inReset = true ∧ d.fltRecs = [] ∧ d.fltLog = s.dev.fltLog ∧
      d.get NVM.BOOT_STAT_RUNNING = 0 ∧ d.get FLT.STAT_RUNNING = 0 ∧ d.get FLT.STAT_HEALTHY = 0 ∧
      d.get NVM.BOOT_STAT_NVM_OWN = s.dev.get NVM.BOOT_STAT_NVM_OWN ∧
      (∀ src, d.get FLT.SRC_CNT_COUNT src = s.dev.get FLT.SRC_CNT_COUNT src) ∧
      d.get FLT.WDOG_STAT_BAD_KICK = s.dev.get FLT.WDOG_STAT_BAD_KICK ∧ d.get FLT.WDOG_STAT_RST_CNT = 0 ∧
      d.get KEY.DBG_CTL_REQ = s.dev.get KEY.DBG_CTL_REQ ∧ d.takes = [] ∧ d.keys = Dev.reset.keys) ∧
    (∀ k : Fin 4, RunsTo (.powerGoodFall k) s fun d => d.inReset = true ∧ d.pg.getLsbD k = false ∧
      ⟨44, 3, 0, k.val⟩ ∈ d.conds) ∧
    (∀ bootSrc twinId nvmOwn : Bool, s.dev.inReset = true → RunsTo (.deviceResetRelease 0xF bootSrc twinId nvmOwn) s fun d =>
      d.inReset = false ∧ d.get NVM.BOOT_STAT_BOOT_SRC = b2n bootSrc ∧ d.get NVM.BOOT_STAT_TWIN_ID = b2n twinId ∧
      d.get NVM.BOOT_STAT_NVM_OWN = b2n nvmOwn ∧ d.get NVM.BOOT_STAT_STEP = 2 ∧ d.get MGT.STAT_BOOTROM = 1 ∧
      d.get KEY.STAT_DEBUG = s.dev.get KEY.DBG_CTL_REQ ∧
      (mapGet d.keys (0, 0) [] = if s.dev.flag KEY.DBG_CTL_REQ then Config.testRoot else Config.prodRoot)) ∧
    (∀ (pg : BitVec 4) (bootSrc twinId nvmOwn : Bool), pg ≠ 0xF → RunsTo (.deviceResetRelease pg bootSrc twinId nvmOwn) s fun d =>
      d.inReset = s.dev.inReset ∧ d.pg = pg))

/-- The NVM and its bus (R410, R412, R423): a change of NVM_OWN is shown and reported, and what the card controller wrote is seen when it
falls; an erased sector and a programmed page reach nothing else, and never FACTORY_CAL or the card's space; a restore erases USER_CAL, is
refused while another write is in progress, and ends with USER_CAL holding FACTORY_CAL's bytes. What firmware writes to the NVM (R391,
R414, R420, R422), while it runs with the bus its own: FAULT_LOG takes the next log entry that it has not copied, at the first free place
of the sector of the latest generation; a full sector is followed by the next one, erased first where it is not, with MAGIC, a new
generation and the entry's SEQ before the entry; USER_CAL is rewritten as a whole, at most once a day; without firmware, or with nothing
to write, nothing happens. -/
def Obligations.NvmCommands : Prop :=
  ((∀ (level w : Bool) card (s : State), level = s.dev.flag NVM.BOOT_STAT_NVM_OWN →
    exec (.nvmOwnChange level w card) s = .next s) ∧
  (∀ (w : Bool) card (s : State), s.dev.get NVM.BOOT_STAT_NVM_OWN = 0 → RunsTo (.nvmOwnChange true w card) s fun d =>
    d.get NVM.BOOT_STAT_NVM_OWN = 1 ∧ d.get NVM.EVT_STAT_OWN_CHG = 1 ∧
    d.rising = s.dev.rising ++ (if w then [Dev.devFault 239] else [])) ∧
  (∀ (w : Bool) card (s : State), s.dev.get NVM.BOOT_STAT_NVM_OWN = 1 → ∃ d, exec (.nvmOwnChange false w card) s =
    .next { s with nvm := card.foldl (fun m x => memWrites nvmFill m x.1 x.2) s.nvm, dev := d } ∧
    d.get NVM.BOOT_STAT_NVM_OWN = 0 ∧ d.get NVM.EVT_STAT_OWN_CHG = 1 ∧ d.get NVM.BOOT_STAT_OWN_WAIT = 0) ∧
  (∀ (sector : Nat) (s : State), s.dev.wdogWait = false → (0x10000 * sector < factoryCal ∨ userCal ≤ 0x10000 * sector) →
    0x10000 * sector < cardBase → ∃ n, exec (.sectorWriteDone (.erase sector)) s = .next { s with nvm := n } ∧
      ∀ a, memRead nvmFill a n = if 0x10000 * sector ≤ a ∧ a < 0x10000 * sector + 0x10000 then nvmFill else memRead nvmFill a s.nvm) ∧
  (∀ (page : Nat) (bs : List Byte) (s : State), s.dev.wdogWait = false →
    (0x1000 * page < factoryCal ∨ userCal ≤ 0x1000 * page) → 0x1000 * page < cardBase →
    ∃ n, exec (.sectorWriteDone (.program page bs)) s = .next { s with nvm := n } ∧
      memReads nvmFill n (0x1000 * page) (min 0x1000 bs.length) = bs.take 0x1000 ∧
      ∀ a, (a < 0x1000 * page ∨ 0x1000 * page + 0x1000 ≤ a) → memRead nvmFill a n = memRead nvmFill a s.nvm) ∧
  (∀ (sector : Nat) (bs : List Byte) (s : State), s.dev.wdogWait = false →
    ((factoryCal ≤ 0x10000 * sector ∧ 0x10000 * sector < userCal) ∨ cardBase ≤ 0x10000 * sector →
      exec (.sectorWriteDone (.erase sector)) s = .next s) ∧
    ((factoryCal ≤ 0x1000 * sector ∧ 0x1000 * sector < userCal) ∨ cardBase ≤ 0x1000 * sector →
      exec (.sectorWriteDone (.program sector bs)) s = .next s)) ∧
  (∀ (s : State), s.dev.restoring = false → s.dev.get KEY.STAT_STAGE ≠ 4 → s.dev.get NVM.BOOT_STAT_NVM_OWN = 0 →
    ∃ d n, exec (.restoreFactory false) s = .next { s with nvm := n, dev := d } ∧ d.restoring = true ∧
      ∀ a, memRead nvmFill a n = if userCal ≤ a ∧ a < userCal + calSize then nvmFill else memRead nvmFill a s.nvm) ∧
  (∀ (s : State), RunsTo (.restoreFactory true) s fun d => d.get NVM.EVT_STAT_RESTORE_FAIL = 1 ∧ d.restoring = s.dev.restoring) ∧
  (∀ (v : Bool) (s : State), s.dev.restoring = true → s.dev.get NVM.BOOT_STAT_NVM_OWN = 0 →
    ∃ d n, exec (.restoreComplete v) s = .next { s with nvm := n, dev := d } ∧ d.restoring = false ∧
      (v = true → memReads nvmFill n userCal calSize = memReads nvmFill s.nvm factoryCal calSize) ∧
      (∀ a, (a < userCal ∨ userCal + calSize ≤ a) → memRead nvmFill a n = memRead nvmFill a s.nvm) ∧
      (v = true → (calSet (memReads nvmFill s.nvm factoryCal calSize)).isSome = true → d.get NVM.EVT_STAT_RESTORE_DONE = 1) ∧
      (v = false → d.get NVM.EVT_STAT_RESTORE_FAIL = 1)) ∧
  (∀ (v : Bool) (s : State), s.dev.restoring = false → exec (.restoreComplete v) s = .next s)) ∧
  ((∀ (adapt : List (Nat × List Byte)) (s : State), s.dev.wdogWait = false →
    (s.firmwareRuns = false → ∀ w ∈ [NvmWrite.faultLog, .userCal adapt], exec (.sectorWriteDone w) s = .next s) ∧
    (s.dev.fltLog.find? (fun e => decide (s.dev.logCopied ≤ e.seq)) = none →
      exec (.sectorWriteDone .faultLog) s = .next s)) ∧
  (∀ (e : LogEnt) (s : State), s.dev.wdogWait = false → s.firmwareRuns = true →
    s.dev.fltLog.find? (fun e => decide (s.dev.logCopied ≤ e.seq)) = some e →
    (∀ k i a, s.logCurrent = some k → s.logFree k = some i → a = State.logSector k + 32 + 32 * i →
      ∃ n, exec (.sectorWriteDone .faultLog) s = .next { s with nvm := n, dev := { s.dev with logCopied := e.seq + 1 } } ∧
        memReads nvmFill n a 32 = e.bytes ∧ ∀ x, (x < a ∨ a + 32 ≤ x) → memRead nvmFill x n = memRead nvmFill x s.nvm) ∧
    (∀ k gen, (s.logCurrent = none ∧ k = 0 ∧ gen = Config.logGeneration) ∨
        (∃ j, s.logCurrent = some j ∧ s.logFree j = none ∧ k = (j + 1) % 4 ∧ gen = s.logGen j + 1) →
      ((s.nvm.any fun c => decide (State.logSector k ≤ c.1) && decide (c.1 < State.logSector (k + 1))) = false →
        ∃ n, exec (.sectorWriteDone .faultLog) s = .next { s with nvm := n, dev := { s.dev with logCopied := e.seq + 1 } } ∧
          memReads nvmFill n (State.logSector k) 12 = leBytes 4 0x474C464F ++ leBytes 4 gen ++ leBytes 4 e.seq ∧
          memReads nvmFill n (State.logSector k + 32) 32 = e.bytes) ∧
      ((s.nvm.any fun c => decide (State.logSector k ≤ c.1) && decide (c.1 < State.logSector (k + 1))) = true →
        ∃ n, exec (.sectorWriteDone .faultLog) s = .next { s with nvm := n } ∧ ∀ x, memRead nvmFill x n =
          if State.logSector k ≤ x ∧ x < State.logSector k + 0x10000 then nvmFill else memRead nvmFill x s.nvm))) ∧
  (∀ (adapt : List (Nat × List Byte)) (img : List Byte) (s : State), s.dev.wdogWait = false → s.firmwareRuns = true →
    img = s.dev.calImage adapt →
    (img.length ≤ calSize → s.dev.lasted .userCal 0 86400000000000 = true → s.dev.restoring = false →
      ∃ n, exec (.sectorWriteDone (.userCal adapt)) s = .next { s with nvm := n, dev := s.dev.mark .userCal 0 } ∧
        memReads nvmFill n userCal img.length = img ∧
        ∀ x, (x < userCal ∨ userCal + calSize ≤ x) → memRead nvmFill x n = memRead nvmFill x s.nvm) ∧
    (s.dev.lasted .userCal 0 86400000000000 = false ∨ s.dev.restoring = true →
      exec (.sectorWriteDone (.userCal adapt)) s = .next s)))

/-- The start sequence (R403, R411, R412, R421, R452, R459, R511, Table 16.3): step 3 picks the boot header and the key copy in use, and the
boot ROM halts where neither header is valid; steps 4 and 5 run a firmware image that verifies and halt on one that does not; step 6 shows
the store ready, or the failed stacks; step 7 applies a calibration set and gives VDD_CORE its set point; each waits while the card
controller owns the NVM. -/
def Obligations.BootSequence : Prop :=
  (∀ (s : State), s.dev.get NVM.BOOT_STAT_NVM_OWN = 1 → RegsTo .bootHeaderSelect s fun d =>
    d.get NVM.BOOT_STAT_OWN_WAIT = 1 ∧ RegsKept s.dev d [(0x00040000, 0)]) ∧
  (∀ (a b : List Byte) (s : State), s.dev.get NVM.BOOT_STAT_NVM_OWN = 0 → a = s.nvmRead (bootBase 0) 64 → b = s.nvmRead (bootBase 1) 64 →
    (pickHeader 0x4448424F a b = none → RunsTo .bootHeaderSelect s fun d => d.bootHalt = true ∧ Dev.devFault 221 ∈ d.conds) ∧
    (∀ k h, pickHeader 0x4448424F a b = some k → h = (if k = 0 then a else b) → RunsTo .bootHeaderSelect s fun d =>
      d.get NVM.BOOT_STAT_HDR = k ∧ d.bootHdr = (leAt h 4 4, leAt h 8 4, leAt h 12 4) ∧
      d.get NVM.BOOT_STAT_STEP = max 3 (s.dev.get NVM.BOOT_STAT_STEP) ∧
      (∀ j, s.dev.get KEY.STAT_DEBUG = 0 →
        pickHeader 0x53594B4F (s.nvmRead (keysBase 0) 64) (s.nvmRead (keysBase 1) 64) = some j →
        d.get KEY.STAT_COPY = j ∧ d.get KEY.STAT_COPY_NONE = 0))) ∧
  (∀ (img : List Byte) (s : State), s.dev.bootHalt = false → s.dev.get NVM.BOOT_STAT_BOOT_SRC = 0 →
    s.dev.get NVM.BOOT_STAT_NVM_OWN = 0 → img = s.nvmRead fwBase s.dev.bootHdr.2.1 →
    ((envelopeOk s.dev 1 img).1 = true → RunsTo .firmwareVerifyDone s fun d => d.get MGT.STAT_FW_RUN = 1 ∧
      d.get MGT.STAT_BOOTROM = 0 ∧ d.fwImage = img ∧ 5 ≤ d.get NVM.BOOT_STAT_STEP) ∧
    ((envelopeOk s.dev 1 img).1 = false → RunsTo .firmwareVerifyDone s fun d => d.bootHalt = true ∧
      Dev.devFault 221 ∈ d.conds)) ∧
  (∀ (s : State), s.dev.bootHalt = true → RunsTo .firmwareVerifyDone s fun d => d = s.dev) ∧
  (∀ (s : State), RunsTo (.hbmTrainingDone 0) s fun d => d.get FS.BLK_STAT_READY = 1 ∧ d.get GLB.CLK_STAT_HCLK_LOCK = 3 ∧
    d.get NVM.BOOT_STAT_STEP = max 6 (s.dev.get NVM.BOOT_STAT_STEP)) ∧
  (∀ (f : BitVec 2) (s : State), f ≠ 0 → RunsTo (.hbmTrainingDone f) s fun d =>
    d.get FS.BLK_STAT_READY = s.dev.get FS.BLK_STAT_READY ∧ ∀ k < 2, f.getLsbD k = true → ⟨142, 3, 0, k⟩ ∈ d.conds) ∧
  (∀ (mv : Nat) (s : State), s.dev.get NVM.BOOT_STAT_RUNNING = 1 → RunsTo (.calibrationApply mv) s fun d => d = s.dev) ∧
  (∀ (mv : Nat) (s : State), s.dev.get NVM.BOOT_STAT_RUNNING = 0 → s.dev.get NVM.BOOT_STAT_NVM_OWN = 0 →
    ((calSet (s.nvmRead userCal calSize)).isSome = true → RunsTo (.calibrationApply mv) s fun d =>
      d.get NVM.BOOT_STAT_CAL_USER = 1 ∧ d.get NVM.BOOT_STAT_CAL_NONE = 0 ∧ 7 ≤ d.get NVM.BOOT_STAT_STEP) ∧
    (calSet (s.nvmRead userCal calSize) = none → (calSet (s.nvmRead factoryCal calSize)).isSome = true →
      RunsTo (.calibrationApply mv) s fun d => d.get NVM.BOOT_STAT_CAL_USER = 0 ∧ d.get NVM.BOOT_STAT_CAL_NONE = 0 ∧
        d.get NVM.EVT_STAT_CAL_FALLBACK = 1 ∧ 7 ≤ d.get NVM.BOOT_STAT_STEP) ∧
    (calSet (s.nvmRead userCal calSize) = none → calSet (s.nvmRead factoryCal calSize) = none →
      RunsTo (.calibrationApply mv) s fun d => d.get NVM.BOOT_STAT_CAL_NONE = 1 ∧ d.get NVM.EVT_STAT_CAL_NONE = 1 ∧
        d.vcore = min 800 (max 700 mv) ∧ 7 ≤ d.get NVM.BOOT_STAT_STEP))

/-- The Chart's start and its phases (R404 to R406, R417 to R419, R424): the loader opens a Chart whose envelope and format are right and
takes over its SYSID and CHART_ID, and fails with the code of R418 otherwise; PHASE_B written early is held, and after phase A it starts
phase B, whose end raises RUNNING; the end of the reference wait does the same with UNREF. -/
def Obligations.ChartPhases : Prop :=
  (∀ (n : Nat) (img : List Byte) (s : State), s.dev.bootHalt = false → s.dev.chartDone = false → s.dev.loader = none →
    s.dev.get NVM.BOOT_STAT_CHART_RES = 0 → (s.dev.get NVM.BOOT_STAT_BOOT_SRC = 1 ∨ s.dev.get NVM.BOOT_STAT_NVM_OWN = 0) →
    img = (if s.dev.flag NVM.BOOT_STAT_BOOT_SRC then s.dev.bootChart else s.nvmRead chartBase s.dev.bootHdr.2.2) →
    ((envelopeOk s.dev 2 img).1 = false → RunsTo (.chartPhaseA n) s fun d => d.get NVM.BOOT_STAT_CHART_RES = 4 ∧
      d.get NVM.CHART_POS_POS = 0 ∧ d.get NVM.EVT_STAT_CHART_FAIL = 1 ∧ d.loader = none ∧ Dev.devFault 238 ∈ d.conds) ∧
    (∀ p, (envelopeOk s.dev 2 img).1 = true → chartFormatBad (img.take (img.length - 256)) = some p →
      RunsTo (.chartPhaseA n) s fun d => d.get NVM.BOOT_STAT_CHART_RES = 6 ∧ d.get NVM.CHART_POS_POS = p % 2 ^ 32 ∧
        d.loader = none) ∧
    ((envelopeOk s.dev 2 img).1 = true → chartFormatBad (img.take (img.length - 256)) = none →
      RunsTo (.chartPhaseA 0) s fun d => d.get NVM.BOOT_STAT_CHART_RES = 1 ∧ d.get GLB.SYSID_SYSID = leAt img 12 2 ∧
        d.get CON.CHART_ID_ID = leAt img 8 4 ∧ d.refWait = leAt img 14 2 ∧
        ∃ l, d.loader = some l ∧ l.image = img.take (img.length - 256) ∧ l.secs = leAt img 6 2 ∧ l.phaseB = false)) ∧
  (∀ (n : Nat) (s : State), s.dev.bootHalt = true ∨ s.dev.chartDone = true → RunsTo (.chartPhaseA n) s fun d => d = s.dev) ∧
  (∀ (n : Nat) (s : State), s.dev.get NVM.BOOT_STAT_RUNNING = 0 → s.dev.inPhaseB = false →
    s.dev.get NVM.BOOT_STAT_CHART_RES < 4 → s.dev.chartDone = false →
    RunsTo (.phaseB n) s fun d => d = { s.dev with chartHeld := true }) ∧
  (∀ (n : Nat) (l : Loader) (s : State), s.dev.get NVM.BOOT_STAT_RUNNING = 0 → s.dev.get NVM.BOOT_STAT_CHART_RES < 4 →
    s.dev.chartDone = true → s.dev.loader = some l → l.phaseB = false → l.ended = true →
    RunsTo (.phaseB n) s (fun d => d.get NVM.BOOT_STAT_RUNNING = 1 ∧ d.get NVM.BOOT_STAT_CHART_RES = 3 ∧
      d.get NVM.BOOT_STAT_PHASE_B = 1 ∧ d.get NVM.EVT_STAT_RUNNING = 1 ∧ d.loader = none ∧ 12 ≤ d.get NVM.BOOT_STAT_STEP) ∧
    (s.dev.refWait ≠ 0 → s.dev.get REF.STAT_STATE ≠ 2 → s.dev.lasted .refWait 0 (s.dev.refWait * 1000000000) = true →
      RunsTo .refWaitExpiry s fun d => d.get NVM.BOOT_STAT_UNREF = 1 ∧
      d.get NVM.BOOT_STAT_RUNNING = 1 ∧ d.get NVM.BOOT_STAT_CHART_RES = 3) ∧
    (s.dev.refWait = 0 ∨ s.dev.get REF.STAT_STATE = 2 ∨ s.dev.lasted .refWait 0 (s.dev.refWait * 1000000000) = false → RunsTo .refWaitExpiry s fun d => d = s.dev))

/-- The records of the Chart (Table 16.8, R416 to R418): each is applied once at its place, shown in CHART_POS, and the loader goes on; a POLL
waits until its register matches and fails once TMO µs have passed since its first read; a WAIT begins, and ends once its µs have passed;
a STORE outside SURF and HOST, a second PHASE and an END that is not last fail with R418's codes. -/
def Obligations.ChartRecords : Prop :=
  ∀ (l : Loader) (r : List Byte) (s : State), RecordAt s.dev l r →
    (leAt r 0 1 = 1 → leAt r 4 4 = 0x0002002C → RunsTo .chartWrite s fun d => d.get TIM.ADJ_NS = leAt r 8 4 ∧
      d.loader = some (pastRecord l r.length) ∧ d.get NVM.CHART_POS_POS = Dev.loaderPos l % 2 ^ 32) ∧
    (leAt r 0 1 = 2 → leAt r 4 4 = 0x00020020 → r.length = 16 → RunsTo .chartWriteSeq s fun d => d.get TIM.SET_NS_NS = leAt r 8 4 ∧
      d.get TIM.SET_SEC_LO_SEC_L = leAt r 12 4 ∧ d.loader = some (pastRecord l r.length)) ∧
    (leAt r 0 1 = 3 → leAt r 4 4 = 0x0002002C → r.length = 16 → RunsTo .chartWriteFifo s fun d => d.get TIM.ADJ_NS = leAt r 12 4 ∧
      d.loader = some (pastRecord l r.length)) ∧
    (leAt r 0 1 = 4 → leAt r 4 4 = 0x0002002C → mapGet s.dev.hold (Master.loader.code, 0x0002002C) none = none →
      RunsTo .chartModify s fun d => d.loader = some (pastRecord l r.length) ∧
        d.reg 0x0002002C 0 = (s.dev.reg 0x0002002C 0 &&& ~~~BitVec.ofNat 32 (leAt r 8 4)) |||
          (BitVec.ofNat 32 (leAt r 12 4) &&& BitVec.ofNat 32 (leAt r 8 4))) ∧
    (leAt r 0 1 = 5 → leAt r 4 4 = 0x0002002C → mapGet s.dev.hold (Master.loader.code, 0x0002002C) none = none →
      (l.polled = false ∨ s.dev.lasted .chart 0 (leAt r 16 4 * 1000 + 1) = false →
        (s.dev.reg 0x0002002C 0 &&& BitVec.ofNat 32 (leAt r 8 4) = BitVec.ofNat 32 (leAt r 12 4) &&& BitVec.ofNat 32 (leAt r 8 4) →
          RunsTo .chartPoll s fun d => d.loader = some (pastRecord l r.length)) ∧
        (s.dev.reg 0x0002002C 0 &&& BitVec.ofNat 32 (leAt r 8 4) ≠ BitVec.ofNat 32 (leAt r 12 4) &&& BitVec.ofNat 32 (leAt r 8 4) →
          (leAt r 16 4 ≠ 0 → RunsTo .chartPoll s fun d => d.loader = some { l with polled := true } ∧
            (l.polled = false → d.marked .chart 0 = s.dev.cc)) ∧
          (leAt r 16 4 = 0 → RunsTo .chartPoll s fun d => d.loader = none ∧ d.get NVM.BOOT_STAT_CHART_RES = 9))) ∧
      (l.polled = true → s.dev.lasted .chart 0 (leAt r 16 4 * 1000 + 1) = true → RunsTo .chartPoll s fun d =>
        d.loader = none ∧ d.get NVM.BOOT_STAT_CHART_RES = 9)) ∧
    (leAt r 0 1 = 5 → l.polled = true → s.dev.lasted .chart 0 (leAt r 16 4 * 1000 + 1) = true →
      RunsTo .chartPollTimeout s fun d => d.loader = none ∧
        d.get NVM.BOOT_STAT_CHART_RES = 9 ∧ d.get NVM.EVT_STAT_CHART_FAIL = 1 ∧ Dev.devFault 238 ∈ d.conds) ∧
    (leAt r 0 1 = 5 → l.polled = false ∨ s.dev.lasted .chart 0 (leAt r 16 4 * 1000 + 1) = false →
      RunsTo .chartPollTimeout s fun d => d = s.dev) ∧
    (leAt r 0 1 = 6 →
      (l.polled = false → RunsTo .chartWait s fun d => d.loader = some { l with polled := true } ∧
        d.marked .chart 0 = s.dev.cc ∧ RegsKept s.dev d [(0x0004000C, 0)]) ∧
      (l.polled = true → RunsTo .chartWait s fun d => RegsKept s.dev d [(0x0004000C, 0)] ∧
        d.loader = some (if s.dev.lasted .chart 0 (leAt r 4 4 * 1000) then pastRecord l r.length else l))) ∧
    (leAt r 0 1 = 7 → surfStart ≤ leAt r 4 8 → leAt r 4 8 + (r.length - 12) ≤ storeEnd →
      ∃ d st, exec .chartStore s = .next { s with store := st, dev := d } ∧ d.loader = some (pastRecord l r.length) ∧
        memReads storeFill st (leAt r 4 8) (r.length - 12) = r.drop 12 ∧
        ∀ x, (x < leAt r 4 8 ∨ leAt r 4 8 + (r.length - 12) ≤ x) → memRead storeFill x st = memRead storeFill x s.store) ∧
    (leAt r 0 1 = 7 → leAt r 4 8 < surfStart → RunsTo .chartStore s fun d => d.loader = none ∧
      d.get NVM.BOOT_STAT_CHART_RES = 8) ∧
    (leAt r 0 1 = 8 → l.phased = false → l.phaseB = false → s.dev.chartHeld = false → RunsTo .chartPhase s fun d =>
      d.chartDone = true ∧ d.get NVM.BOOT_STAT_CHART_RES = 2 ∧ d.get NVM.EVT_STAT_CHART_DONE = 1 ∧
      d.loader = some { pastRecord l r.length with phased := true, phaseB := false }) ∧
    (leAt r 0 1 = 8 → l.phased = true → RunsTo .chartPhase s fun d => d.loader = none ∧ d.get NVM.BOOT_STAT_CHART_RES = 7) ∧
    (leAt r 0 1 = 10 → RunsTo .chartTune s fun d => mapGet d.tunes (leAt r 4 2, 0) [] = r.drop 8 ∧
      d.loader = some (pastRecord l r.length)) ∧
    (leAt r 0 1 = 0 → l.buf.length = r.length → plainLeft l.image l.secs l.next = 0 →
      (l.phaseB = false → s.dev.chartHeld = false → RunsTo .chartEnd s fun d => d.chartDone = true ∧
        d.get NVM.BOOT_STAT_CHART_RES = 2 ∧ d.get NVM.EVT_STAT_CHART_DONE = 1) ∧
      (l.phaseB = true → RunsTo .chartEnd s fun d => d.get NVM.BOOT_STAT_RUNNING = 1 ∧
        d.get NVM.BOOT_STAT_CHART_RES = 3 ∧ d.loader = none)) ∧
    (leAt r 0 1 = 0 → r.length < l.buf.length → RunsTo .chartEnd s fun d => d.loader = none ∧
      d.get NVM.BOOT_STAT_CHART_RES = 7)

/-- The mailbox (R441 to R443): GO submits the request registers once and is refused while BUSY; a ring request is consumed where the ring is
enabled; the oldest response is written, with BUSY falling and MBX_DONE; a CMD that is not listed is answered BAD_CMD. -/
def Obligations.Mailbox : Prop :=
  (∀ (m : Master) (s : State), mbxServes s.dev m = true → s.dev.get MGT.MBX_STAT_BUSY = 0 → RunsTo (.mailboxGo m) s fun d =>
    d.mbxReqs = s.dev.mbxReqs ++ [MbxMsg.mk false s.dev.mbxRequest] ∧ d.get MGT.MBX_STAT_BUSY = 1) ∧
  (∀ (m : Master) (s : State), mbxServes s.dev m = true → s.dev.get MGT.MBX_STAT_BUSY = 1 → RegsTo (.mailboxGo m) s fun d =>
    d.get MGT.EVT_STAT_MBX_BUSY = 1 ∧ RegsKept s.dev d [(0x00060004, 0)]) ∧
  (∀ (m : Master) (s : State), mbxServes s.dev m = false → RunsTo (.mailboxGo m) s fun d => d = s.dev) ∧
  (∀ (bytes : List Byte) (s : State), s.dev.flag MGT.MBX_CFG_RING_EN = true → s.dev.restarting = false →
    s.dev.qUsable (s.dev.get MGT.MBX_CFG_REQ_Q) true 64 = true → s.dev.qFill (s.dev.get MGT.MBX_CFG_REQ_Q) ≠ 0 →
    bytes.length = 64 → RunsTo (.mailboxRingRequest bytes) s fun d => d.mbxReqs = s.dev.mbxReqs ++ [MbxMsg.mk true bytes]) ∧
  (∀ (bytes : List Byte) (s : State), s.dev.flag MGT.MBX_CFG_RING_EN = false →
    RunsTo (.mailboxRingRequest bytes) s fun d => d = s.dev) ∧
  (∀ m ms (s : State), s.dev.mbxRsps = m :: ms → m.ring = false → RunsTo .mailboxResponse s fun d => d.mbxRsps = ms ∧
    d.get MGT.MBX_STAT_BUSY = 0 ∧ d.get MGT.EVT_STAT_MBX_DONE = 1 ∧
    ∀ k < 16, d.get (MGT.MBX_RSP_DATA k) = leAt m.bytes (4 * k) 4) ∧
  (∀ m ms (s : State), s.dev.mbxRsps = [] → s.dev.mbxReqs = m :: ms → m.ring = false → mbxListed (leAt m.bytes 0 2) = false →
    RunsTo .mailboxResponse s fun d => d.mbxReqs = ms ∧ d.get MGT.MBX_STAT_BUSY = 0 ∧
      d.get (MGT.MBX_RSP_DATA 1) / 2 ^ 16 = stBadCmd) ∧
  (∀ (s : State), s.dev.mbxRsps = [] → s.dev.mbxReqs = [] → RunsTo .mailboxResponse s fun d => d = s.dev)

/-- The commands of Table 17.6 that read or start (R401, R443): each answers the oldest request of its CMD, NOT_READY while the boot ROM runs
where it does not serve the command; GET_INFO and ECHO return their results; BOOT_LOAD keeps what a host boot loads and BOOT_START starts
it; NVM_READ never shows the key copies. -/
def Obligations.MailboxCommands : Prop :=
  (∀ (m : MbxMsg) (s : State), s.dev.mbxFind 0x01 = some m → RunsTo .getInfo s fun d => d.mbxReqs = s.dev.mbxReqs.erase m ∧
    d.mbxRsps = s.dev.mbxRsps ++ [mbxReply m stOk (leBytes 4 (Config.fwVersion s.dev.fwImage) ++ leBytes 4 s.dev.bootHdr.1 ++
      leBytes 1 (s.dev.get NVM.BOOT_STAT_STEP))]) ∧
  (∀ (m : MbxMsg) (s : State), s.dev.mbxFind 0x02 = some m → RunsTo .echo s fun d => d.mbxReqs = s.dev.mbxReqs.erase m ∧
    d.mbxRsps = s.dev.mbxRsps ++ [mbxReply m stOk ((m.bytes.drop 8).take (leAt m.bytes 4 2))]) ∧
  (∀ (s : State), s.dev.flag MGT.STAT_BOOTROM = true → s.dev.flag NVM.BOOT_STAT_BOOT_SRC = false → ∀ cmd m,
    s.dev.mbxFind cmd = some m → ∀ i, ((cmd = 0x10 ∧ ∃ x, i = .bootLoad x) ∨ (cmd = 0x11 ∧ i = .bootStart) ∨
      (cmd = 0x20 ∧ ∃ x, i = .stageWrite x) ∨ (cmd = 0x21 ∧ i = .stageVerify) ∨ (cmd = 0x22 ∧ i = .activate) ∨
      (cmd = 0x23 ∧ i = .activateCancel) ∨ (cmd = 0x30 ∧ ∃ x w b, i = .keyReplace x w b) ∨ (cmd = 0x40 ∧ i = .nvmRead)) →
    RunsTo i s fun d => d = { s.dev with mbxReqs := s.dev.mbxReqs.erase m, mbxRsps := s.dev.mbxRsps ++ [mbxReply m stNotReady []] }) ∧
  (∀ (m : MbxMsg) (bs : List Byte) (s : State), s.dev.mbxFind 0x10 = some m → s.dev.flag MGT.STAT_BOOTROM = true →
    s.dev.flag NVM.BOOT_STAT_BOOT_SRC = true → leAt m.bytes 17 4 = bs.length →
    (leAt m.bytes 8 1 = 1 → RunsTo (.bootLoad (some bs)) s fun d => d.bootChart = bs ∧
      d.mbxRsps = s.dev.mbxRsps ++ [mbxReply m stOk []]) ∧
    (leAt m.bytes 8 1 = 0 → (envelopeOk s.dev 1 bs).1 = true → RunsTo (.bootLoad (some bs)) s fun d => d.bootFw = bs ∧
      d.mbxRsps = s.dev.mbxRsps ++ [mbxReply m stOk []]) ∧
    (leAt m.bytes 8 1 = 0 → (envelopeOk s.dev 1 bs).1 = false → RunsTo (.bootLoad (some bs)) s fun d =>
      d.bootFw = s.dev.bootFw ∧ d.mbxRsps = s.dev.mbxRsps ++ [mbxReply m stVerifyFail []]) ∧
    (1 < leAt m.bytes 8 1 → RunsTo (.bootLoad (some bs)) s fun d => d.bootChart = s.dev.bootChart ∧ d.bootFw = s.dev.bootFw ∧
      d.mbxRsps = s.dev.mbxRsps ++ [mbxReply m stBadParam []]) ∧
    (leAt m.bytes 8 1 ≤ 1 → RunsTo (.bootLoad none) s fun d => d.mbxRsps = s.dev.mbxRsps ++ [mbxReply m stDmaErr []])) ∧
  (∀ (m : MbxMsg) (s : State), s.dev.mbxFind 0x11 = some m → s.dev.flag MGT.STAT_BOOTROM = true →
    s.dev.flag NVM.BOOT_STAT_BOOT_SRC = true → RunsTo .bootStart s fun d => d.bootGo = true ∧
      d.mbxRsps = s.dev.mbxRsps ++ [mbxReply m stOk []]) ∧
  (∀ (m : MbxMsg) (s : State), s.dev.mbxFind 0x40 = some m → s.dev.flag MGT.STAT_BOOTROM = false →
    (0x100000 < leAt m.bytes 12 4 → RunsTo .nvmRead s fun d => d.sent = s.dev.sent ∧
      d.mbxRsps = s.dev.mbxRsps ++ [mbxReply m stBadParam []]) ∧
    (leAt m.bytes 12 4 ≤ 0x100000 → leAt m.bytes 8 4 < keysBase 2 → keysBase 0 < leAt m.bytes 8 4 + leAt m.bytes 12 4 →
      RunsTo .nvmRead s fun d => d.sent = s.dev.sent ∧ d.mbxRsps = s.dev.mbxRsps ++ [mbxReply m stDenied []]) ∧
    (leAt m.bytes 12 4 ≤ 0x100000 → (keysBase 2 ≤ leAt m.bytes 8 4 ∨ leAt m.bytes 8 4 + leAt m.bytes 12 4 ≤ keysBase 0) →
      s.dev.flag NVM.BOOT_STAT_NVM_OWN = false → RunsTo .nvmRead s fun d =>
        d.sent = .hostWrite (leAt m.bytes 16 8) (s.nvmRead (leAt m.bytes 8 4) (leAt m.bytes 12 4)) :: s.dev.sent ∧
        d.mbxRsps = s.dev.mbxRsps ++ [mbxReply m stOk []]))

/-- Staging (R461 to R463) and scheduling (R464, R469): a block at offset 0 begins a package and is programmed to STAGING; one while an
activation is scheduled is answered BUSY; STAGE_VERIFY reports the image staged; ACTIVATE schedules a verified image for an instant
between 1 s and a day ahead, and ACTIVATE_CANCEL takes it back up to 10 ms before. -/
def Obligations.Staging : Prop :=
  (∀ (m : MbxMsg) (bs : List Byte) (s : State), s.dev.mbxFind 0x20 = some m → s.dev.flag MGT.STAT_BOOTROM = false →
    s.dev.get KEY.STAT_STAGE < 3 → leAt m.bytes 8 4 = 0 → leAt m.bytes 12 4 = bs.length → 0 < bs.length → bs.length % 4 = 0 →
    bs.length ≤ 0x10000 → s.dev.flag NVM.BOOT_STAT_NVM_OWN = false →
    ∃ d n, exec (.stageWrite (some bs)) s = .next { s with nvm := n, dev := d } ∧ d.get KEY.STAGE_LEN_LEN = bs.length ∧
      d.get KEY.STAT_STAGE = 1 ∧ d.stageLast = some (0, bs) ∧ d.mbxRsps = s.dev.mbxRsps ++ [mbxReply m stOk []] ∧
      memReads nvmFill n stagingBase bs.length = bs ∧
      ∀ a, (a < stagingBase ∨ stagingBase + 0x10000 ≤ a) → memRead nvmFill a n = memRead nvmFill a s.nvm) ∧
  (∀ (m : MbxMsg) (x : Option (List Byte)) (s : State), s.dev.mbxFind 0x20 = some m → s.dev.flag MGT.STAT_BOOTROM = false →
    3 ≤ s.dev.get KEY.STAT_STAGE → RunsTo (.stageWrite x) s fun d => d.mbxRsps = s.dev.mbxRsps ++ [mbxReply m stBusy []] ∧
      d.regs = s.dev.regs) ∧
  (∀ (m : MbxMsg) (img : List Byte) (s : State), s.dev.mbxFind 0x21 = some m → s.dev.flag MGT.STAT_BOOTROM = false →
    leAt m.bytes 8 4 = s.dev.get KEY.STAGE_LEN_LEN → s.dev.flag NVM.BOOT_STAT_NVM_OWN = false →
    img = s.nvmRead stagingBase (s.dev.get KEY.STAGE_LEN_LEN) → leAt (img.drop (img.length - 256)) 4 1 = 1 →
    ((envelopeOk s.dev 1 img).1 = true → s.dev.get KEY.STAT_STAGE ≤ 2 → RunsTo .stageVerify s fun d =>
      d.get KEY.STAT_STAGE = 2 ∧ d.stageType = 1 ∧ d.get KEY.EVT_STAT_VERIFY_OK = 1) ∧
    ((envelopeOk s.dev 1 img).1 = false → RunsTo .stageVerify s fun d => d.get KEY.STAT_STAGE = s.dev.get KEY.STAT_STAGE ∧
      d.get KEY.EVT_STAT_VERIFY_FAIL = 1)) ∧
  (∀ (m : MbxMsg) (s : State), s.dev.mbxFind 0x22 = some m → s.dev.flag MGT.STAT_BOOTROM = false →
    (s.dev.actStatus (leAt m.bytes 8 6 * 1000000000 + leAt m.bytes 14 4) = stOk → RunsTo .activate s fun d =>
      d.get KEY.STAT_STAGE = 3 ∧ d.get KEY.EVT_STAT_ACT_SCHED = 1 ∧
      d.actInstant = leAt m.bytes 8 6 * 1000000000 + leAt m.bytes 14 4 ∧
      d.mbxRsps = s.dev.mbxRsps ++ [mbxReply m stOk []]) ∧
    (∀ st, s.dev.actStatus (leAt m.bytes 8 6 * 1000000000 + leAt m.bytes 14 4) = st → st ≠ stOk → RunsTo .activate s fun d =>
      d.regs = s.dev.regs ∧ d.mbxRsps = s.dev.mbxRsps ++ [mbxReply m st []])) ∧
  (∀ (m : MbxMsg) (s : State), s.dev.mbxFind 0x23 = some m → s.dev.flag MGT.STAT_BOOTROM = false →
    (s.dev.get KEY.STAT_STAGE ≠ 3 → RunsTo .activateCancel s fun d => d.regs = s.dev.regs ∧
      d.mbxRsps = s.dev.mbxRsps ++ [mbxReply m stDenied []]) ∧
    (s.dev.get KEY.STAT_STAGE = 3 → s.dev.time + 10000000 * 2 ^ 40 ≤ s.dev.actInstant * 2 ^ 40 →
      RunsTo .activateCancel s fun d => d.get KEY.STAT_STAGE = 2 ∧ d.get KEY.STAT_ACT_RESULT = 2 ∧
        d.mbxRsps = s.dev.mbxRsps ++ [mbxReply m stOk []]) ∧
    (s.dev.get KEY.STAT_STAGE = 3 → s.dev.actInstant * 2 ^ 40 < s.dev.time + 10000000 * 2 ^ 40 →
      RunsTo .activateCancel s fun d => d.regs = s.dev.regs ∧ d.mbxRsps = s.dev.mbxRsps ++ [mbxReply m stBusy []]))

/-- Activation (R464 to R467): before its instant nothing happens; at the instant a firmware activation takes the control side down and erases
FIRMWARE, and a Chart's begins; its end leaves the staged image in its place with a new boot header, or, where it does not verify, leaves
staging as LOADING and, for firmware, the boot ROM halted. -/
def Obligations.Activation : Prop :=
  (∀ (w : Bool) (s : State), s.dev.get KEY.STAT_STAGE ≠ 3 ∨ s.dev.time < s.dev.actInstant * 2 ^ 40 ∨ w = true →
    RunsTo (.activationInstant w) s fun d => d = s.dev) ∧
  (∀ (s : State), s.dev.get KEY.STAT_STAGE = 3 → s.dev.actInstant * 2 ^ 40 ≤ s.dev.time → s.dev.restoring = false →
    (s.dev.stageType = 2 → RunsTo (.activationInstant false) s fun d => d.get KEY.STAT_STAGE = 4 ∧
      d.actLen = s.dev.get KEY.STAGE_LEN_LEN) ∧
    (s.dev.stageType = 1 → s.dev.flag NVM.BOOT_STAT_RUNNING = true → s.dev.flag NVM.BOOT_STAT_NVM_OWN = false →
      ∃ d n, exec (.activationInstant false) s = .next { s with nvm := n, dev := d } ∧ d.get KEY.STAT_STAGE = 4 ∧
        d.restarting = true ∧ d.get MGT.STAT_BOOTROM = 1 ∧ d.actLen = s.dev.get KEY.STAGE_LEN_LEN ∧
        ∀ a, memRead nvmFill a n = if fwBase ≤ a ∧ a < fwBase + imageRegion then nvmFill else memRead nvmFill a s.nvm)) ∧
  (∀ (c : Bool) (s : State), s.dev.get KEY.STAT_STAGE ≠ 4 → RunsTo (.activationComplete c) s fun d => d = s.dev) ∧
  (∀ (s : State), s.dev.get KEY.STAT_STAGE = 4 → s.dev.flag NVM.BOOT_STAT_NVM_OWN = false →
    (s.dev.stageType = 2 → (envelopeOk s.dev 2 (s.nvmRead stagingBase s.dev.actLen)).1 = true → s.dev.actLen ≤ imageRegion →
      ∃ d n, exec (.activationComplete true) s = .next { s with nvm := n, dev := d } ∧ d.get KEY.STAT_STAGE = 1 ∧
        d.get KEY.STAT_ACT_RESULT = 1 ∧ d.get KEY.EVT_STAT_ACT_DONE = 1 ∧
        d.bootHdr = ((s.dev.bootHdr.1 + 1) % 2 ^ 32, s.dev.bootHdr.2.1, s.dev.actLen) ∧
        memReads nvmFill n chartBase s.dev.actLen = s.nvmRead stagingBase s.dev.actLen) ∧
    (s.dev.stageType = 1 → (envelopeOk s.dev 1 (s.nvmRead stagingBase s.dev.actLen)).1 = true → s.dev.actLen ≤ imageRegion →
      ∃ d n, exec (.activationComplete true) s = .next { s with nvm := n, dev := d } ∧ d.get KEY.STAT_STAGE = 1 ∧
        d.fwImage = s.nvmRead stagingBase s.dev.actLen ∧ d.get KEY.EVT_STAT_ACT_DONE = 1 ∧
        d.get NVM.BOOT_STAT_HDR = 1 - s.dev.get NVM.BOOT_STAT_HDR ∧
        memReads nvmFill n fwBase s.dev.actLen = s.nvmRead stagingBase s.dev.actLen) ∧
    (s.dev.stageType = 1 → ∃ d n, exec (.activationComplete false) s = .next { s with nvm := n, dev := d } ∧
      d.get KEY.STAT_STAGE = 1 ∧ d.bootHalt = true ∧ Dev.devFault 221 ∈ d.conds))

/-- Replacing a key (R453 to R456) and the debug request (R457): an accepted package writes the other copy and the slot takes the key, its
attributes and its generation; one that R454 refuses is answered with the check's status and reported, and changes no slot; DBG_CTL is
held for the next device reset. The DMA engine (R445, R446): with room for a descriptor the oldest element is consumed; a length out of
range moves nothing and ends with its status; a transfer to SURF writes the host's bytes there and nothing else; descriptors end in order,
and a failed one is reported. -/
def Obligations.KeysAndDma : Prop :=
  ((∀ (m : MbxMsg) (pkg key : List Byte) (slot : Nat) (s : State), s.dev.mbxFind 0x30 = some m →
    s.dev.flag MGT.STAT_BOOTROM = false → slot = leAt m.bytes 8 1 → pkg.length = leAt m.bytes 17 4 →
    (pkgFormed s.dev pkg slot = false → ∀ w b, RunsTo (.keyReplace (some pkg) w b) s fun d =>
      d.get KEY.EVT_STAT_REPL_FAIL = 1 ∧ d.keys = s.dev.keys ∧ d.rising = s.dev.rising ++ [⟨223, 3, 0, slot⟩] ∧
      d.mbxRsps = s.dev.mbxRsps ++ [mbxReply m stBadParam []]) ∧
    (pkgFormed s.dev pkg slot = true → s.dev.flag KEY.STAT_DEBUG = true → ∀ w b, RunsTo (.keyReplace (some pkg) w b) s fun d =>
      d.get KEY.EVT_STAT_REPL_FAIL = 1 ∧ d.keys = s.dev.keys ∧ d.mbxRsps = s.dev.mbxRsps ++ [mbxReply m stDenied []]) ∧
    (pkgFormed s.dev pkg slot = true → s.dev.flag KEY.STAT_DEBUG = false →
      ¬(s.dev.get KEY.SLOT_ATTR_STATE slot = 1 ∧ s.dev.get KEY.SLOT_ATTR_REPL slot = 0) →
      pkgAuthorised s.dev pkg slot = true → (pkgKey s.dev pkg slot).1 = some key → s.dev.restoring = false →
      s.dev.get KEY.STAT_STAGE ≠ 4 → s.dev.flag NVM.BOOT_STAT_NVM_OWN = false →
      ∃ d n, exec (.keyReplace (some pkg) false true) s = .next { s with nvm := n, dev := d } ∧
        mapGet d.keys (slot, 0) [] = key ∧ d.get KEY.SLOT_ATTR_STATE slot = 1 ∧
        d.get KEY.SLOT_ATTR_USAGE slot = leAt pkg 5 1 % 4 ∧ d.get KEY.SLOT_GEN_GEN slot = leAt pkg 12 4 ∧
        d.get KEY.EVT_STAT_REPLACED = 1 ∧ d.get KEY.STAT_COPY_NONE = 0 ∧
        d.get KEY.STAT_COPY = 1 - (if s.dev.flag KEY.STAT_COPY_NONE then 0 else s.dev.get KEY.STAT_COPY) ∧
        d.mbxRsps = s.dev.mbxRsps ++ [mbxReply m stOk []])) ∧
  (∀ (s : State), RegsTo .debugRequest s (fun d => d.get KEY.DBG_CTL_REQ = 1 ∧ RegsKept s.dev d [(0x0005000C, 0)]) ∧
    RegsTo .debugClear s fun d => d.get KEY.DBG_CTL_REQ = 0 ∧ RegsKept s.dev d [(0x0005000C, 0)])) ∧
  ((∀ elem data (s : State), s.dev.flag HIF.DMA_CTL_EN = false ∨ 4 ≤ s.dev.dmaFly.length →
    RunsTo (.dmaDescriptor elem data) s fun d => d = s.dev) ∧
  (∀ elem data (s : State), s.dev.flag HIF.DMA_CTL_EN = true → s.dev.dmaFly.length < 4 →
    s.dev.qUsable (s.dev.get HIF.DMA_CTL_DESC_Q) true 32 = true → s.dev.qFill (s.dev.get HIF.DMA_CTL_DESC_Q) ≠ 0 →
    (leAt elem 16 4 = 0 ∨ 16777216 < leAt elem 16 4 → RunsTo (.dmaDescriptor elem data) s fun d => ∃ j, j.status = 5 ∧ j.moved = 0 ∧
      d.dmaFly = s.dev.dmaFly ++ [j] ∧ d.get HIF.DMA_STAT_INFLIGHT = s.dev.dmaFly.length + 1) ∧
    (∀ bs, data = some bs → 0 < leAt elem 16 4 → leAt elem 16 4 ≤ 16777216 → leAt elem 20 1 % 2 = 0 → surfStart ≤ leAt elem 8 8 →
      leAt elem 8 8 + leAt elem 16 4 ≤ storeEnd → bs.length = leAt elem 16 4 →
      ∃ d st, exec (.dmaDescriptor elem data) s = .next { s with store := st, dev := d } ∧
        (∃ j, j.status = 0 ∧ j.moved = bs.length ∧ d.dmaFly = s.dev.dmaFly ++ [j]) ∧
        memReads storeFill st (leAt elem 8 8) bs.length = bs ∧
        ∀ x, (x < leAt elem 8 8 ∨ leAt elem 8 8 + bs.length ≤ x) → memRead storeFill x st = memRead storeFill x s.store)) ∧
  (∀ (s : State), s.dev.dmaFly = [] → RunsTo .dmaComplete s fun d => d = s.dev) ∧
  (∀ j js (s : State), s.dev.dmaFly = j :: js → js.length < 8 → RunsTo .dmaComplete s fun d => d.dmaFly = js ∧
    d.get HIF.DMA_STAT_INFLIGHT = js.length ∧
    (j.status ≠ 0 → d.get HIF.EVT_STAT_DMA_ERR = 1 ∧
      d.get HIF.DMA_STAT_CNT_ERR = min (2 ^ 16 - 1) (s.dev.get HIF.DMA_STAT_CNT_ERR + 1))))

/-- What the commands of the lanes, the video stages, the crosspoint, the takes, the Ethernet side, the store and the Plotters leave alone:
every register outside the windows listed keeps its word (R3, R8; the windows are those of Table 17.1 whose registers a command's rules
name). -/
def Obligations.FramesMedia : Prop :=
  ∀ (i : Instr) (s t : State), exec i s = .next t → match i with
    | .roleWordChange .. => OnlyWindows s.dev t.dev []
    | .audioFollow .. => OnlyWindows s.dev t.dev [.amx]
    | .flwBlkCntClr .. | .flwCntClr .. => OnlyWindows s.dev t.dev [.flw]
    | .syncHoldTimeout .. | .syncFreeze .. | .fsCntClr .. | .eccAddrClr .. | .syncCntClr .. | .eccUe .. => OnlyWindows s.dev t.dev [.fs]
    | .tkCntClr .. => OnlyWindows s.dev t.dev [.hif]
    | .lngCntClr .. => OnlyWindows s.dev t.dev [.lng]
    | .restSend .. => OnlyWindows s.dev t.dev [.log, .lng]
    | .markerPeriodStart .. | .roleIndex .. | .roleWordSend .. | .queueNotifyTimer .. => OnlyWindows s.dev t.dev [.log]
    | .autoNegotiationDone .. | .txLinkDrop .. | .gateCfgChange .. | .gateListChange .. | .gateEntryBoundary .. | .macCntClr ..
     | .linkRestart .. => OnlyWindows s.dev t.dev [.mac]
    | .engineCntClr .. => OnlyWindows s.dev t.dev [.plt]
    | .queueEnable .. | .qCntClr .. | .hwmClr .. | .idxClr .. => OnlyWindows s.dev t.dev [.qm]
    | .xpCntClr .. => OnlyWindows s.dev t.dev [.xp]
    | .linkUp .. => OnlyWindows s.dev t.dev [.flt, .mac]
    | .engineCommit .. => OnlyWindows s.dev t.dev [.glb, .plt]
    | .bar2Read .. | .bar2Write .. | .eccCe .. | .patrolScrub .. => OnlyWindows s.dev t.dev [.log, .fs]
    | .takeRingEntry .. | .queueElementConsume .. | .queueElementProduce .. => OnlyWindows s.dev t.dev [.log, .qm]
    | .txGateDrop .. => OnlyWindows s.dev t.dev [.mac, .qm]
    | .audioPacketRelease .. | .hostTxElement .. => OnlyWindows s.dev t.dev [.log, .mac, .flw, .qm]
    | .controlSideUp .. => OnlyWindows s.dev t.dev [.mgt, .log, .con, .hif]
    | .trqTimer .. | .payloadIdPacket .. => OnlyWindows s.dev t.dev [.glb, .tim, .log, .slp, .aud]
    | .elasticSlip .. | .txReqWrite .. | .trainingStepEnd .. | .forceTrain .. =>
        OnlyWindows s.dev t.dev [.glb, .tim, .log, .lng, .slp, .aud]
    | .legLoss .. => OnlyWindows s.dev t.dev [.glb, .tim, .log, .slp, .flw, .aud]
    | .inputEnable .. | .eavMiss .. | .syncStart .. | .syncStop .. | .syncFrameChoice .. | .syncFramePlay .. | .syncFrameIncomplete .. =>
        OnlyWindows s.dev t.dev [.glb, .tim, .log, .slp, .fs, .aud]
    | .txUnderrun .. | .macEnable .. => OnlyWindows s.dev t.dev [.glb, .tim, .log, .slp, .mac, .aud]
    | .engineFrame .. | .engineCommitPoint .. | .coefDataAccess .. => OnlyWindows s.dev t.dev [.glb, .tim, .log, .slp, .plt, .aud]
    | .ancPacketCapture .. | .queueIndexWrite .. => OnlyWindows s.dev t.dev [.glb, .tim, .log, .slp, .qm, .aud]
    | .counterStart .. | .counterFrameStart .. | .triggerChange .. => OnlyWindows s.dev t.dev [.glb, .tim, .log, .xp, .slp, .aud]
    | .inputFrameStart .. => OnlyWindows s.dev t.dev [.glb, .tim, .bus, .log, .slp, .fs, .aud]
    | .routeWrite .. => OnlyWindows s.dev t.dev [.glb, .tim, .bus, .log, .xp, .slp, .aud]
    | .bundleLineTimeout .. => OnlyWindows s.dev t.dev [.glb, .tim, .log, .slp, .flw, .fs, .aud]
    | .txFrameStart .. => OnlyWindows s.dev t.dev [.glb, .tim, .log, .slp, .mac, .qm, .aud]
    | .takeGo .. => OnlyWindows s.dev t.dev [.glb, .tim, .log, .xp, .slp, .aud, .hif]
    | .engineStart .. => OnlyWindows s.dev t.dev [.glb, .tim, .log, .xp, .slp, .plt, .aud]
    | .counterLineStart .. => OnlyWindows s.dev t.dev [.glb, .tim, .log, .xp, .slp, .qm, .aud]
    | .idleBlockRx .. | .badControlBlock .. | .trainBlockRx .. | .clockLos .. | .clockLol .. | .clockLosClear .. | .clockValid ..
     | .blockLock .. | .retrainTimer .. | .retrainAutoWrite .. | .rxReqWrite .. | .forceRetrain .. =>
        OnlyWindows s.dev t.dev [.glb, .flt, .tim, .log, .lng, .slp, .fs, .aud]
    | .linkDown .. => OnlyWindows s.dev t.dev [.glb, .flt, .tim, .log, .slp, .mac, .qm, .aud]
    | .eavFound .. | .contextEnable .. | .bundleEnable .. => OnlyWindows s.dev t.dev [.glb, .tim, .log, .slp, .flw, .qm, .fs, .aud]
    | .videoPacketRelease .. => OnlyWindows s.dev t.dev [.glb, .tim, .log, .slp, .mac, .flw, .qm, .aud]
    | .takeEntry .. | .armEntry .. | .cancelEntry .. | .salvoExpiry .. | .takeEngineEnable .. =>
        OnlyWindows s.dev t.dev [.glb, .tim, .log, .slp, .qm, .aud, .con, .hif]
    | .dataBlockRx .. | .alignBlockRx .. | .markerMissing .. | .roleBlockRx .. | .restBlockRx .. | .exitBlockRx .. =>
        OnlyWindows s.dev t.dev [.glb, .flt, .tim, .log, .lng, .slp, .flw, .fs, .aud]
    | .ancPacketRelease .. => OnlyWindows s.dev t.dev [.glb, .flt, .tim, .log, .slp, .mac, .flw, .qm, .aud]
    | .takeMessage .. => OnlyWindows s.dev t.dev [.glb, .tim, .key, .log, .slp, .qm, .aud, .con, .hif]
    | .takeFlush .. => OnlyWindows s.dev t.dev [.glb, .tim, .log, .xp, .slp, .qm, .aud, .con, .hif]
    | .takeExecute .. => OnlyWindows s.dev t.dev [.glb, .flt, .tim, .log, .xp, .slp, .qm, .aud, .con, .hif]
    | .outputEnable .. => OnlyWindows s.dev t.dev [.glb, .tim, .log, .xp, .slp, .flw, .qm, .aud, .con, .hif]
    | .sourceLineStart .. => OnlyWindows s.dev t.dev [.glb, .tim, .log, .xp, .slp, .flw, .qm, .fs, .plt, .aud]
    | .rxFrame .. => OnlyWindows s.dev t.dev [.glb, .tim, .log, .xp, .slp, .mac, .flw, .qm, .aud, .hif]
    | .engineStop .. => OnlyWindows s.dev t.dev [.glb, .tim, .log, .xp, .slp, .qm, .plt, .aud, .con, .hif]
    | _ => True

/-- What the commands of audio, time, reference, Consort, supervision, start and the control plane leave alone, in the same sense; commands
that write registers of any window, and the resets, are not among them. -/
def Obligations.FramesTimeAndControl : Prop :=
  ∀ (i : Instr) (s t : State), exec i s = .next t → match i with
    | .heartbeatTx .. | .yieldCmd .. | .yieldRoleSwitch .. | .getInfo .. | .echo .. | .bootStart .. => OnlyWindows s.dev t.dev []
    | .amxCommit .. | .matrixEnable .. | .amxCntClr .. => OnlyWindows s.dev t.dev [.amx]
    | .audCntClr .. => OnlyWindows s.dev t.dev [.aud]
    | .busClr .. => OnlyWindows s.dev t.dev [.bus]
    | .conCntClr .. | .digestSend .. | .digestTimeout .. => OnlyWindows s.dev t.dev [.con]
    | .softSet .. | .softClr .. => OnlyWindows s.dev t.dev [.evt]
    | .srcForce .. | .logClr .. | .fltCntClr .. => OnlyWindows s.dev t.dev [.flt]
    | .pclkLock .. | .crossingSideReset .. | .crossingRestart .. | .xingCntClr .. => OnlyWindows s.dev t.dev [.glb]
    | .bootLoad .. | .activate .. | .activateCancel .. | .debugRequest .. | .debugClear .. => OnlyWindows s.dev t.dev [.key]
    | .consortUnitTx .. | .clrAll .. | .snapshot .. | .peakClr .. => OnlyWindows s.dev t.dev [.log]
    | .restoreFactory .. | .restoreComplete .. | .nvmRead .. => OnlyWindows s.dev t.dev [.nvm]
    | .requal .. | .lrnClr .. | .lodestarMeasurement .. | .learnRecord .. => OnlyWindows s.dev t.dev [.ref]
    | .timeSet .. | .timeAdj .. | .srvPush .. | .cadSnap .. | .srvReset .. | .timCntClr .. | .incrWrite .. | .tsqPop .. =>
        OnlyWindows s.dev t.dev [.tim]
    | .pcieLinkUp .. => OnlyWindows s.dev t.dev [.flt, .hif]
    | .holdoverModelUpdate .. => OnlyWindows s.dev t.dev [.flt, .ref]
    | .amxCommitPoint .. => OnlyWindows s.dev t.dev [.fs, .amx]
    | .frameSyncMissing .. => OnlyWindows s.dev t.dev [.glb, .aud]
    | .clockMonitorWindow .. => OnlyWindows s.dev t.dev [.glb, .flt]
    | .yieldRx .. | .digestRx .. | .reqRx .. | .stateRx .. | .snapRx .. => OnlyWindows s.dev t.dev [.log, .con]
    | .msixUnmask .. => OnlyWindows s.dev t.dev [.log, .hif]
    | .mailboxRingRequest .. => OnlyWindows s.dev t.dev [.log, .qm]
    | .stageWrite .. | .keyReplace .. => OnlyWindows s.dev t.dev [.nvm, .key]
    | .vecAck .. => OnlyWindows s.dev t.dev [.evt, .log, .hif]
    | .bootHeaderSelect .. => OnlyWindows s.dev t.dev [.flt, .nvm, .key]
    | .dmaDescriptor .. | .dmaComplete .. => OnlyWindows s.dev t.dev [.log, .qm, .hif]
    | .mailboxResponse .. => OnlyWindows s.dev t.dev [.mgt, .log, .qm]
    | .eventSourcePending .. => OnlyWindows s.dev t.dev [.evt, .log, .qm, .hif]
    | .firmwareVerifyDone .. => OnlyWindows s.dev t.dev [.flt, .nvm, .key, .mgt]
    | .hbmTrainingDone .. => OnlyWindows s.dev t.dev [.glb, .flt, .nvm, .fs]
    | .audioDirectionEnable .. | .frameSyncRx .. | .srcLock .. | .srcUnlock .. | .ppsEdge .. | .framePulse .. | .cadenceFrameStart ..
     | .triggerFire .. | .srcInj .. | .injStuck .. | .pclkIdleTimeout .. | .freeze .. | .bwWindowEnd .. =>
        OnlyWindows s.dev t.dev [.glb, .tim, .log, .slp, .aud]
    | .logDataRead .. | .wdogKick .. => OnlyWindows s.dev t.dev [.glb, .flt, .tim, .log, .slp, .aud]
    | .decodeMiss .. | .targetTimeout .. => OnlyWindows s.dev t.dev [.glb, .tim, .bus, .log, .slp, .aud]
    | .consortEnable .. | .heartbeatRx .. | .pairTimeout .. | .partnerLoss .. | .ctrlTimeout .. | .handoverComplete .. | .forceActive ..
     | .join .. | .yieldInstant .. | .abortRx .. => OnlyWindows s.dev t.dev [.glb, .tim, .log, .slp, .aud, .con]
    | .txTimestampEntry .. => OnlyWindows s.dev t.dev [.glb, .tim, .log, .slp, .mac, .aud]
    | .shedStepTimer .. => OnlyWindows s.dev t.dev [.glb, .tim, .log, .xp, .slp, .aud]
    | .refinEdge .. | .refinLoss .. | .ptpKeep .. | .ptpKeepTimeout .. | .lrnDataRead .. | .histOk .. | .ageDay .. | .twinTimeSample .. =>
        OnlyWindows s.dev t.dev [.glb, .tim, .ref, .log, .slp, .aud]
    | .nvmOwnChange .. | .chartPollTimeout .. => OnlyWindows s.dev t.dev [.glb, .flt, .tim, .nvm, .log, .slp, .aud]
    | .servoSample .. | .lodestarEnable .. | .waitToRestore .. | .referenceSelection .. | .l1Lock .. | .holdExpire .. =>
        OnlyWindows s.dev t.dev [.glb, .flt, .tim, .ref, .log, .slp, .aud]
    | .stageVerify .. => OnlyWindows s.dev t.dev [.glb, .tim, .nvm, .key, .log, .slp, .aud]
    | .matrixTick .. => OnlyWindows s.dev t.dev [.glb, .tim, .log, .slp, .flw, .qm, .fs, .amx, .aud]
    | _ => True

/-- Every command completes with the queue as it was, and the two memories belong to the commands that the spec lets write them: the frame
store to BAR2, DMA, STORE records, the Plotters, the synchronisers' pictures, the delay lines and the copy of SURF (R225, R236, R238,
R246, R370), the NVM to its own commands, the firmware's and the register write that starts one (R410, R412, R423, R456, R462, R465,
R466). -/
def Obligations.CommandsComplete : Prop :=
  ∀ (i : Instr) (s : State), ∃ t, exec i s = .next t ∧ t.pending = s.pending ∧
    (t.store ≠ s.store → (∃ o b, i = .bar2Write o b) ∨ (∃ e x, i = .dmaDescriptor e x) ∨ (∃ e f, i = .engineFrame e f) ∨ (∃ o, i = .eavFound o) ∨
      (∃ n p e, i = .matrixTick n p e) ∨
      (∃ w, i = .regionCommit w) ∨ (∃ m o v, i = .registerWrite m o v) ∨ i = .chartStore ∨ (∃ n, i = .chartPhaseA n) ∨
      (∃ n, i = .phaseB n) ∨ i = .refWaitExpiry) ∧
    (t.nvm ≠ s.nvm → (∃ l w c, i = .nvmOwnChange l w c) ∨ (∃ w, i = .sectorWriteDone w) ∨ (∃ w, i = .restoreFactory w) ∨
      (∃ v, i = .restoreComplete v) ∨ (∃ m o v, i = .registerWrite m o v) ∨ (∃ x, i = .stageWrite x) ∨
      (∃ p w b, i = .keyReplace p w b) ∨ (∃ w, i = .activationInstant w) ∨ (∃ c, i = .activationComplete c) ∨
      i ∈ [.chartWrite, .chartWriteSeq, .chartWriteFifo, .chartModify, .chartPoll, .refWaitExpiry] ∨ (∃ n, i = .chartPhaseA n) ∨
      (∃ n, i = .phaseB n))

/-- One step runs the front command on the state with the queue's rest. -/
def Obligations.StepRunsFront : Prop :=
  ∀ (c : Instr) (cs : List Instr) (s : State), s.pending = c :: cs → step s = exec c { s with pending := cs }

/-- On an empty queue one cc passes (the model's choice, log 8): the Chronometer advances by its increment modulo 2^48 s while the synthesised
clocks run outside device reset, and the ACLK counter counts once in 32 cc; no register and no memory changes. -/
def Obligations.IdleCycle : Prop :=
  ∀ s : State, s.pending = [] → ∃ d, step s = .next { s with dev := d } ∧ d.cc = s.dev.cc + 1 ∧ RegsKept s.dev d [] ∧
    d.time = (if s.dev.inReset = true ∨ s.dev.get GLB.CLK_STAT_SYS_LOCK = 0 then s.dev.time
      else (s.dev.time + s.dev.incr) % (2 ^ 48 * secUnits)) ∧
    d.aclk = (if (s.dev.cc + 1) % 32 = 0 then (s.dev.aclk + 1) % 2 ^ 48 else s.dev.aclk)

/-- Every step keeps the frame store and the NVM in their canonical form. -/
def Obligations.StepKeepsMemories : Prop :=
  ∀ s t : State, s.memWf = true → step s = .next t → t.memWf = true

/-- Right after device reset (Tables 21.2 and 21.6): the queue and the memories are empty, no condition is recorded, and the registers read
their reset words, per instance where the table says so. -/
def Obligations.ResetState : Prop :=
  State.reset.memWf = true ∧ State.reset.pending = [] ∧ State.reset.store = [] ∧ State.reset.nvm = [] ∧
  State.reset.dev.fltLog = [] ∧ State.reset.dev.fltRecs = [] ∧ State.reset.dev.time = 0 ∧ State.reset.dev.aclk = 0 ∧
  (∀ x ∈ [(0x00000000, 0x004F1664), (0x00000004, 0x00000120), (0x00010008, 0x00000A01), (0x0001001C, 0x00036400),
      (0x00020034, 0x00000140), (0x00020044, 0x4CCD00B3), (0x00030000, 0x00000180), (0x00050008, 0x00000010),
      (0x00080060, 0xFFFFFFFF), (0x0009000C, 0x000F4240), (0x00400110, 0x00002001), (0x00500148, 0x00034000),
      (0x00700010, 0x00001801), (0x00800108, 0x20080040), (0x00A00104, 0x00001028), (0x00B00000, 0x0AC80314),
      (0x00C01028, 0x0007FF00)], State.reset.dev.reg x.1 0 = BitVec.ofNat 32 x.2) ∧
  (∀ ch < 1664, State.reset.dev.get XP.ROUTE_SRC ch = 2047) ∧
  (∀ ch < 64, State.reset.dev.get MAC.STAT_RUN ch = 0) ∧
  (∀ q < 16384, State.reset.dev.get QM.Q_STAT_FILL q = 0)

/-- Soft sources (R439): a write to EVT.SOFT with SET = 1 sets soft bit IDX, one with CLR = 1 clears it, SET takes precedence, and any bus
master may write it; no other bit changes. -/
def Obligations.SoftSources : Prop :=
  ∀ (m : Master) (v : Word) (s : State), s.dev.busMaster m = true → s.dev.shutOut m 0x00080008 = false →
    s.dev.chartHeld = false →
    RunsTo (.registerWrite m 0x00080008 v) s fun d => ∀ j, d.soft.testBit j =
      if j = v.toNat % 128 then (v.toNat.testBit 8 || (!v.toNat.testBit 9 && s.dev.soft.testBit j)) else s.dev.soft.testBit j

/-- Offsets without a register (R4): inside a window an offset that holds no register reads as zero and ignores writes, and is no decode miss. -/
def Obligations.EmptyOffsets : Prop :=
  ∀ (m : Master) (off : Nat) (v : Word) (s : State), s.dev.busMaster m = true → onBus off = true → findReg off = none →
    inMsix off = false → inPba off = false → s.dev.shutOut m off = false → s.dev.chartHeld = false →
    RunsTo (.registerWrite m off v) s (fun d => OffsKept s.dev d [0x00090100, 0x00090104] ∧
      mapGet d.answer (m.code, 0) (0, false) = (0, false) ∧
      d.get BUS.EVT_STAT_DECODE_MISS = s.dev.get BUS.EVT_STAT_DECODE_MISS) ∧
    (mapGet s.dev.hold (m.code, off) none = none → RunsTo (.lowWordRead m off) s fun d => OffsKept s.dev d [0x00090100, 0x00090104] ∧
      mapGet d.answer (m.code, 0) (0, false) = (0, false) ∧
      d.get BUS.EVT_STAT_DECODE_MISS = s.dev.get BUS.EVT_STAT_DECODE_MISS)
end

