-- ==== Sys2Proof/Laws/Maps.lean ====
section
/-!
SUPPORT. Sys2Proof/Laws/Maps.lean: reading a map or a memory after a write, and the canonical forms.
-/

namespace Sys2Proof.Machine

/-! ## Maps -/

theorem mapFind_mapDel_self {α : Type} (k : Key) (m : Map α) : mapFind k (mapDel k m) = none := by
  induction m with
  | nil => rfl
  | cons e m ih =>
    by_cases h : e.1 = k
    · simp [mapDel, h, ih]
    · simp [mapDel, h, mapFind, ih]

theorem mapFind_mapDel_ne {α : Type} {k j : Key} (h : j ≠ k) (m : Map α) : mapFind j (mapDel k m) = mapFind j m := by
  induction m with
  | nil => rfl
  | cons e m ih =>
    by_cases hk : e.1 = k
    · have : e.1 ≠ j := fun hj => h (hj.symm.trans hk)
      simp [mapDel, hk, mapFind, ih, Ne.symm h]
    · simp [mapDel, hk, mapFind, ih]

theorem mapFind_mapIns_self {α : Type} (k : Key) (v : α) (m : Map α) : mapFind k (mapIns k v m) = some v := by
  induction m with
  | nil => simp [mapIns, mapFind]
  | cons e m ih =>
    by_cases hk : e.1 = k
    · simp [mapIns, hk, mapFind]
    · by_cases hl : keyLt k e.1 = true <;> simp [mapIns, hk, hl, mapFind, ih]

theorem mapFind_mapIns_ne {α : Type} {k j : Key} (h : j ≠ k) (v : α) (m : Map α) : mapFind j (mapIns k v m) = mapFind j m := by
  have h' : ¬ k = j := fun e => h e.symm
  induction m with
  | nil => simp [mapIns, mapFind, h']
  | cons e m ih =>
    by_cases hk : e.1 = k
    · simp [mapIns, hk, mapFind, h']
    · by_cases hl : keyLt k e.1 = true <;> simp [mapIns, hk, hl, mapFind, ih, h']

/-- A value read back after it was written. -/
theorem mapGet_mapPut_self {α : Type} [DecidableEq α] (m : Map α) (k : Key) (dflt v : α) :
    mapGet (mapPut m k dflt v) k dflt = v := by
  unfold mapGet mapPut
  split
  · next h => simp [mapFind_mapDel_self, h]
  · simp [mapFind_mapIns_self]

/-- Every other key reads as before. -/
theorem mapGet_mapPut_ne {α : Type} [DecidableEq α] {k j : Key} (h : j ≠ k) (m : Map α) (dflt v e : α) :
    mapGet (mapPut m k dflt v) j e = mapGet m j e := by
  unfold mapGet mapPut
  split
  · rw [mapFind_mapDel_ne h]
  · rw [mapFind_mapIns_ne h]

/-! ## Memories -/

theorem memRead_memDrop_self (u : Byte) (a : Nat) (m : Memory) : memRead u a (memDrop a m) = u := by
  induction m with
  | nil => rfl
  | cons c m ih =>
    by_cases h : c.1 = a <;> simp [memDrop, h, memRead, ih]

theorem memRead_memDrop_ne {a b : Nat} (h : b ≠ a) (u : Byte) (m : Memory) : memRead u b (memDrop a m) = memRead u b m := by
  have h' : ¬ a = b := fun e => h e.symm
  induction m with
  | nil => rfl
  | cons c m ih =>
    by_cases ha : c.1 = a
    · simp [memDrop, ha, memRead, ih, h']
    · simp [memDrop, ha, memRead, ih]

theorem memRead_memList_self (u : Byte) (a : Nat) (v : Byte) (m : Memory) : memRead u a (memList a v m) = v := by
  induction m with
  | nil => simp [memList, memRead]
  | cons c m ih =>
    by_cases ha : c.1 = a
    · simp [memList, ha, memRead]
    · by_cases hl : a < c.1 <;> simp [memList, ha, hl, memRead, ih]

theorem memRead_memList_ne {a b : Nat} (h : b ≠ a) (u v : Byte) (m : Memory) : memRead u b (memList a v m) = memRead u b m := by
  have h' : ¬ a = b := fun e => h e.symm
  induction m with
  | nil => simp [memList, memRead, h']
  | cons c m ih =>
    by_cases ha : c.1 = a
    · simp [memList, ha, memRead, h']
    · by_cases hl : a < c.1 <;> simp [memList, ha, hl, memRead, ih, h']

/-- A byte read back after it was written. -/
theorem memRead_memWrite_self (u v : Byte) (m : Memory) (a : Nat) : memRead u a (memWrite u m a v) = v := by
  unfold memWrite
  split
  · next h => rw [memRead_memDrop_self, h]
  · exact memRead_memList_self u a v m

/-- Every other byte reads as before. -/
theorem memRead_memWrite_ne {a b : Nat} (h : b ≠ a) (u v : Byte) (m : Memory) :
    memRead u b (memWrite u m a v) = memRead u b m := by
  unfold memWrite
  split
  · exact memRead_memDrop_ne h u m
  · exact memRead_memList_ne h u v m

/-- Bytes below or behind a block that is written read as before. -/
theorem memRead_memWrites_out (u : Byte) (bs : List Byte) : ∀ (m : Memory) (a b : Nat), (b < a ∨ a + bs.length ≤ b) →
    memRead u b (memWrites u m a bs) = memRead u b m := by
  induction bs with
  | nil => intros; rfl
  | cons x bs ih =>
    intro m a b h
    simp only [List.length_cons] at h
    rw [memWrites, ih _ _ _ (by omega), memRead_memWrite_ne (by omega)]

/-- A block reads back what was written to it. -/
theorem memRead_memWrites_in (u : Byte) (bs : List Byte) : ∀ (m : Memory) (a i : Nat) (h : i < bs.length),
    memRead u (a + i) (memWrites u m a bs) = bs[i] := by
  induction bs with
  | nil => intro m a i h; simp at h
  | cons x bs ih =>
    intro m a i h
    cases i with
    | zero => rw [memWrites, memRead_memWrites_out _ _ _ _ _ (by omega)]; exact memRead_memWrite_self u x m a
    | succ i =>
      simp only [List.length_cons] at h
      have := ih (memWrite u m a x) (a + 1) i (by omega)
      rw [memWrites, show a + (i + 1) = a + 1 + i by omega, this]
      rfl

/-! ## The canonical form of a memory -/

/-- Bytes written read back whole. -/
theorem memReads_memWrites (u : Byte) (bs : List Byte) : ∀ (m : Memory) (a : Nat), memReads u (memWrites u m a bs) a bs.length = bs := by
  induction bs with
  | nil => intro m a; rfl
  | cons x bs ih =>
    intro m a
    have h : memRead u a (memWrites u (memWrite u m a x) (a + 1) bs) = x := by
      rw [memRead_memWrites_out _ _ _ _ _ (by omega)]; exact memRead_memWrite_self u x m a
    simp only [List.length_cons, memWrites, memReads, h, ih]

/-- The canonical form, said by positions: addresses strictly rise, and no listed byte is the fill. -/
theorem memWf_iff (u : Byte) (m : Memory) :
    memWf u m = true ↔ m.Pairwise (fun c d => c.1 < d.1) ∧ ∀ c ∈ m, c.2 ≠ u := by
  induction m with
  | nil => simp [memWf]
  | cons c m ih =>
    cases m with
    | nil => simp [memWf]
    | cons d m =>
      simp only [memWf, Bool.and_eq_true, bne_iff_ne, decide_eq_true_eq, ih, List.pairwise_cons, List.mem_cons]
      constructor
      · rintro ⟨⟨hc, hl⟩, ⟨hd, hp⟩, hm⟩
        refine ⟨⟨?_, hd, hp⟩, ?_⟩
        · rintro e (rfl | he)
          · exact hl
          · exact Nat.lt_trans hl (hd e he)
        · rintro e (rfl | he)
          · exact hc
          · exact hm e he
      · rintro ⟨⟨hl, hd, hp⟩, hm⟩
        exact ⟨⟨hm c (.inl rfl), hl d (.inl rfl)⟩, ⟨hd, hp⟩, fun e he => hm e (.inr he)⟩

theorem mem_memDrop {a : Nat} {c : Host.Cell} {m : Memory} (h : c ∈ memDrop a m) : c ∈ m := by
  induction m with
  | nil => simp [memDrop] at h
  | cons e m ih =>
    by_cases ha : e.1 = a
    · simp only [memDrop, ha, if_true] at h; exact List.mem_cons_of_mem _ (ih h)
    · simp only [memDrop, ha, if_false, List.mem_cons] at h
      rcases h with rfl | h
      · exact List.mem_cons_self ..
      · exact List.mem_cons_of_mem _ (ih h)

theorem mem_memList {a : Nat} {v : Byte} {c : Host.Cell} {m : Memory} (h : c ∈ memList a v m) : c = (a, v) ∨ c ∈ m := by
  induction m with
  | nil => simpa [memList] using h
  | cons e m ih =>
    by_cases ha : e.1 = a
    · simp only [memList, ha, if_true, List.mem_cons] at h ⊢
      exact h.imp id .inr
    · by_cases hl : a < e.1
      · simp only [memList, ha, hl, if_true, if_false, List.mem_cons] at h ⊢
        exact h
      · simp only [memList, ha, hl, if_false, List.mem_cons] at h ⊢
        rcases h with h | h
        · exact .inr (.inl h)
        · exact (ih h).imp id .inr

theorem memDrop_wf (u : Byte) (a : Nat) (m : Memory) (h : memWf u m = true) : memWf u (memDrop a m) = true := by
  rw [memWf_iff] at h ⊢
  refine ⟨?_, fun c hc => h.2 c (mem_memDrop hc)⟩
  have hp := h.1
  clear h
  induction m with
  | nil => exact .nil
  | cons e m ih =>
    rw [List.pairwise_cons] at hp
    by_cases ha : e.1 = a
    · simpa [memDrop, ha] using ih hp.2
    · simpa [memDrop, ha] using ⟨fun c d hc => hp.1 _ (mem_memDrop hc), ih hp.2⟩

theorem memList_pairwise (a : Nat) (v : Byte) (m : Memory) (h : m.Pairwise (fun c d => c.1 < d.1)) :
    (memList a v m).Pairwise (fun c d => c.1 < d.1) := by
  induction m with
  | nil => simp [memList]
  | cons e m ih =>
    rw [List.pairwise_cons] at h
    by_cases ha : e.1 = a
    · simp only [memList, ha, if_true, List.pairwise_cons]
      exact ⟨fun c hc => ha ▸ h.1 c hc, h.2⟩
    · by_cases hl : a < e.1
      · simp only [memList, ha, hl, if_true, if_false, List.pairwise_cons, List.mem_cons]
        refine ⟨?_, h.1, h.2⟩
        rintro c (rfl | hc)
        · exact hl
        · exact Nat.lt_trans hl (h.1 c hc)
      · simp only [memList, ha, hl, if_false, List.pairwise_cons]
        refine ⟨fun c hc => ?_, ih h.2⟩
        rcases mem_memList hc with rfl | hc
        · exact Nat.lt_of_le_of_ne (Nat.le_of_not_lt hl) ha
        · exact h.1 c hc

/-- A written byte keeps the canonical form. -/
theorem memWrite_wf (u : Byte) (m : Memory) (a : Nat) (v : Byte) (h : memWf u m = true) : memWf u (memWrite u m a v) = true := by
  unfold memWrite
  split
  · exact memDrop_wf u a m h
  · next hv =>
    rw [memWf_iff] at h ⊢
    refine ⟨memList_pairwise a v m h.1, fun c hc => ?_⟩
    rcases mem_memList hc with rfl | hc
    · exact hv
    · exact h.2 c hc

/-- A written block keeps the canonical form. -/
theorem memWrites_wf (u : Byte) (bs : List Byte) : ∀ (m : Memory) (a : Nat), memWf u m = true →
    memWf u (memWrites u m a bs) = true := by
  induction bs with
  | nil => intro m a h; exact h
  | cons b bs ih => intro m a h; exact ih _ _ (memWrite_wf u m a b h)

/-- Cells left out keep the canonical form. -/
theorem memFilter_wf (u : Byte) (p : Host.Cell → Bool) (m : Memory) (h : memWf u m = true) : memWf u (m.filter p) = true := by
  rw [memWf_iff] at h ⊢
  exact ⟨h.1.filter p, fun c hc => h.2 c (List.mem_filter.mp hc).1⟩

end Sys2Proof.Machine
end

