-- ==== Sys2Proof/Laws/Regs.lean ====
section
/-!
SUPPORT. Sys2Proof/Laws/Regs.lean: a field read after a field was set: the same field, another field of the register, another
register or instance; and what the shared register operations leave alone.
-/

namespace Sys2Proof.Machine

/-! ## Bits of a word -/

theorem bitsOf_eq (r : Word) (lo n : Nat) : bitsOf r lo n = r.toNat / 2 ^ lo % 2 ^ n := by
  simp [bitsOf, Nat.shiftRight_eq_div_pow]

theorem bitsOf_lt (r : Word) (lo n : Nat) : bitsOf r lo n < 2 ^ n := by
  rw [bitsOf_eq]; exact Nat.mod_lt _ (Nat.two_pow_pos n)

/-- The word's number, split at a field. -/
theorem split_at (x lo n : Nat) : x = x % 2 ^ lo + x / 2 ^ lo % 2 ^ n * 2 ^ lo + x / 2 ^ (lo + n) * 2 ^ (lo + n) := by
  have h1 := Nat.div_add_mod x (2 ^ lo)
  have h2 := Nat.div_add_mod (x / 2 ^ lo) (2 ^ n)
  rw [Nat.div_div_eq_div_mul, ← Nat.pow_add] at h2
  have e : 2 ^ lo * (x / 2 ^ lo) = x / 2 ^ (lo + n) * 2 ^ (lo + n) + x / 2 ^ lo % 2 ^ n * 2 ^ lo := by
    conv => lhs; rw [← h2]
    rw [Nat.mul_add, ← Nat.mul_assoc, ← Nat.pow_add, Nat.mul_comm (2 ^ (lo + n)), Nat.mul_comm (2 ^ lo) (x / 2 ^ lo % 2 ^ n)]
  omega

/-- The number of a word whose field is set. -/
theorem putBits_toNat (r : Word) (lo n v : Nat) (h : lo + n ≤ 32) :
    (putBits r lo n v).toNat = r.toNat % 2 ^ lo + v % 2 ^ n * 2 ^ lo + r.toNat / 2 ^ (lo + n) * 2 ^ (lo + n) := by
  have hs := split_at r.toNat lo n
  have hlt : r.toNat % 2 ^ lo + v % 2 ^ n * 2 ^ lo + r.toNat / 2 ^ (lo + n) * 2 ^ (lo + n) < 2 ^ 32 := by
    have hp : 2 ^ (lo + n) * 2 ^ (32 - (lo + n)) = 2 ^ 32 := by rw [← Nat.pow_add]; congr 1; omega
    have ha : r.toNat % 2 ^ lo < 2 ^ lo := Nat.mod_lt _ (Nat.two_pow_pos lo)
    have hb : v % 2 ^ n < 2 ^ n := Nat.mod_lt _ (Nat.two_pow_pos n)
    have hc : r.toNat / 2 ^ (lo + n) < 2 ^ (32 - (lo + n)) := by
      rw [Nat.div_lt_iff_lt_mul (Nat.two_pow_pos _), Nat.mul_comm, hp]; exact r.isLt
    have h1 : r.toNat % 2 ^ lo + v % 2 ^ n * 2 ^ lo < 2 ^ (lo + n) := by
      calc r.toNat % 2 ^ lo + v % 2 ^ n * 2 ^ lo < 2 ^ lo + v % 2 ^ n * 2 ^ lo := Nat.add_lt_add_right ha _
        _ = (v % 2 ^ n + 1) * 2 ^ lo := by rw [Nat.add_mul, Nat.one_mul, Nat.add_comm]
        _ ≤ 2 ^ n * 2 ^ lo := Nat.mul_le_mul_right _ hb
        _ = 2 ^ (lo + n) := by rw [Nat.pow_add, Nat.mul_comm]
    calc _ < 2 ^ (lo + n) + r.toNat / 2 ^ (lo + n) * 2 ^ (lo + n) := Nat.add_lt_add_right h1 _
      _ = (r.toNat / 2 ^ (lo + n) + 1) * 2 ^ (lo + n) := by rw [Nat.add_mul, Nat.one_mul, Nat.add_comm]
      _ ≤ 2 ^ (32 - (lo + n)) * 2 ^ (lo + n) := Nat.mul_le_mul_right _ hc
      _ = 2 ^ 32 := by rw [Nat.mul_comm, hp]
  unfold putBits
  rw [BitVec.toNat_ofNat, Nat.shiftRight_eq_div_pow]
  have : r.toNat - r.toNat / 2 ^ lo % 2 ^ n * 2 ^ lo + v % 2 ^ n * 2 ^ lo =
      r.toNat % 2 ^ lo + v % 2 ^ n * 2 ^ lo + r.toNat / 2 ^ (lo + n) * 2 ^ (lo + n) := by omega
  rw [this, Nat.mod_eq_of_lt hlt]

/-- A field read back after it was set. -/
theorem bitsOf_putBits_self (r : Word) (lo n v : Nat) (h : lo + n ≤ 32) : bitsOf (putBits r lo n v) lo n = v % 2 ^ n := by
  rw [bitsOf_eq, putBits_toNat r lo n v h]
  have ha : r.toNat % 2 ^ lo < 2 ^ lo := Nat.mod_lt _ (Nat.two_pow_pos lo)
  rw [Nat.pow_add, Nat.mul_comm (2 ^ lo) (2 ^ n), ← Nat.mul_assoc, Nat.add_assoc, ← Nat.add_mul,
    Nat.add_mul_div_right _ _ (Nat.two_pow_pos lo), Nat.div_eq_of_lt ha, Nat.zero_add, Nat.add_mul_mod_self_right, Nat.mod_mod]

/-- A field that lies elsewhere in the register keeps its value. -/
theorem bitsOf_putBits_ne (r : Word) (lo n v lo' n' : Nat) (h : lo + n ≤ 32) (hd : lo + n ≤ lo' ∨ lo' + n' ≤ lo) :
    bitsOf (putBits r lo n v) lo' n' = bitsOf r lo' n' := by
  rw [bitsOf_eq, bitsOf_eq, putBits_toNat r lo n v h]
  have hs := split_at r.toNat lo n
  have ha : r.toNat % 2 ^ lo < 2 ^ lo := Nat.mod_lt _ (Nat.two_pow_pos lo)
  have hb : v % 2 ^ n < 2 ^ n := Nat.mod_lt _ (Nat.two_pow_pos n)
  have hw : r.toNat / 2 ^ lo % 2 ^ n < 2 ^ n := Nat.mod_lt _ (Nat.two_pow_pos n)
  rcases hd with hd | hd
  · obtain ⟨k, rfl⟩ := Nat.exists_eq_add_of_le hd
    have key (y : Nat) (hy : y < 2 ^ n) :
        (r.toNat % 2 ^ lo + y * 2 ^ lo + r.toNat / 2 ^ (lo + n) * 2 ^ (lo + n)) / 2 ^ (lo + n + k) =
          r.toNat / 2 ^ (lo + n) / 2 ^ k := by
      have h1 : r.toNat % 2 ^ lo + y * 2 ^ lo < 2 ^ (lo + n) := by
        calc _ < 2 ^ lo + y * 2 ^ lo := Nat.add_lt_add_right ha _
          _ = (y + 1) * 2 ^ lo := by rw [Nat.add_mul, Nat.one_mul, Nat.add_comm]
          _ ≤ 2 ^ n * 2 ^ lo := Nat.mul_le_mul_right _ hy
          _ = 2 ^ (lo + n) := by rw [Nat.pow_add, Nat.mul_comm]
      rw [Nat.pow_add (2) (lo + n) k, ← Nat.div_div_eq_div_mul, Nat.add_mul_div_right _ _ (Nat.two_pow_pos _),
        Nat.div_eq_of_lt h1, Nat.zero_add]
    rw [key _ hb]
    conv => rhs; rw [hs]
    rw [key _ hw]
  · obtain ⟨k, rfl⟩ := Nat.exists_eq_add_of_le hd
    have key (y z : Nat) : (r.toNat % 2 ^ (lo' + n' + k) + y * 2 ^ (lo' + n' + k) + z * 2 ^ (lo' + n' + k + n)) / 2 ^ lo' % 2 ^ n' =
        r.toNat % 2 ^ (lo' + n' + k) / 2 ^ lo' % 2 ^ n' := by
      have e1 : 2 ^ (lo' + n' + k) = 2 ^ lo' * (2 ^ n' * 2 ^ k) := by rw [Nat.add_assoc, Nat.pow_add, Nat.pow_add]
      have e2 : 2 ^ (lo' + n' + k + n) = 2 ^ lo' * (2 ^ n' * (2 ^ k * 2 ^ n)) := by
        rw [Nat.pow_add, e1, Nat.mul_assoc, Nat.mul_assoc]
      have e3 : y * 2 ^ (lo' + n' + k) + z * 2 ^ (lo' + n' + k + n) = 2 ^ lo' * (2 ^ n' * (y * 2 ^ k + z * (2 ^ k * 2 ^ n))) := by
        rw [e1, e2]; simp only [Nat.mul_add, Nat.mul_left_comm, Nat.mul_comm]
      rw [Nat.add_assoc, e3, Nat.add_mul_div_left _ _ (Nat.two_pow_pos lo'), Nat.add_mul_mod_self_left]
    rw [key]
    conv => rhs; rw [hs]
    rw [key]

/-! ## Registers -/

namespace Dev

theorem reg_setReg_self (d : Dev) (off ch : Nat) (v : Word) : (d.setReg off ch v).reg off ch = v :=
  mapGet_mapPut_self d.regs (off, ch) (resetWord off ch) v

theorem reg_setReg_ne (d : Dev) {off ch off' ch' : Nat} (v : Word) (h : off' ≠ off ∨ ch' ≠ ch) :
    (d.setReg off ch v).reg off' ch' = d.reg off' ch' := by
  apply mapGet_mapPut_ne
  intro e
  injection e with e1 e2
  exact h.elim (· e1) (· e2)

theorem actReg_setAct_self (d : Dev) (off ch : Nat) (v : Word) : (d.setAct off ch v).actReg off ch = v :=
  mapGet_mapPut_self d.act (off, ch) (resetWord off ch) v

theorem actReg_setAct_ne (d : Dev) {off ch off' ch' : Nat} (v : Word) (h : off' ≠ off ∨ ch' ≠ ch) :
    (d.setAct off ch v).actReg off' ch' = d.actReg off' ch' := by
  apply mapGet_mapPut_ne
  intro e
  injection e with e1 e2
  exact h.elim (· e1) (· e2)

/-- A field read back after it was set. -/
theorem get_set_self (d : Dev) (f : Fld) (v ch : Nat) (h : f.lo + f.w ≤ 32) : (d.set f v ch).get f ch = v % 2 ^ f.w := by
  unfold Dev.get Dev.set
  rw [reg_setReg_self, bitsOf_putBits_self _ _ _ _ h]

/-- Another register or another instance keeps its fields. -/
theorem get_set_reg (d : Dev) (f g : Fld) (v ch ch' : Nat) (h : g.off ≠ f.off ∨ ch' ≠ ch) :
    (d.set f v ch).get g ch' = d.get g ch' := by
  unfold Dev.get Dev.set
  rw [reg_setReg_ne _ _ h]

/-- A register at another offset keeps its fields. -/
theorem get_set_off (d : Dev) (f g : Fld) (v ch ch' : Nat) (h : g.off ≠ f.off) : (d.set f v ch).get g ch' = d.get g ch' :=
  get_set_reg d f g v ch ch' (.inl h)

/-- Another field of the same register keeps its value. -/
theorem get_set_fld (d : Dev) (f g : Fld) (v ch ch' : Nat) (hf : f.lo + f.w ≤ 32)
    (h : f.lo + f.w ≤ g.lo ∨ g.lo + g.w ≤ f.lo) : (d.set f v ch).get g ch' = d.get g ch' := by
  by_cases e : g.off = f.off ∧ ch' = ch
  · obtain ⟨e1, rfl⟩ := e
    unfold Dev.get Dev.set
    rw [e1, reg_setReg_self, bitsOf_putBits_ne _ _ _ _ _ _ hf h]
  · exact get_set_reg d f g v ch ch' (by omega)

/-- Fields of registers elsewhere keep their words. -/
theorem reg_set_ne (d : Dev) (f : Fld) (v : Nat) {ch off' ch' : Nat} (h : off' ≠ f.off ∨ ch' ≠ ch) :
    (d.set f v ch).reg off' ch' = d.reg off' ch' := reg_setReg_ne d _ h

/-- Fields cleared together: registers elsewhere keep their words. -/
theorem reg_clear_ne (fs : List Fld) : ∀ (d : Dev) {ch off' ch' : Nat}, (ch' ≠ ch ∨ ∀ f ∈ fs, off' ≠ f.off) →
    (d.clear fs ch).reg off' ch' = d.reg off' ch' := by
  induction fs with
  | nil => intros; rfl
  | cons f fs ih =>
    intro d ch off' ch' h
    have : (d.clear (f :: fs) ch) = (d.set f 0 ch).clear fs ch := rfl
    rw [this, ih _ (h.imp id fun h g hg => h g (List.mem_cons_of_mem _ hg)), reg_set_ne]
    exact h.symm.imp (fun h => h f (List.mem_cons_self ..)) id

/-- A counter clear leaves everything but the registers. -/
theorem clear_only_regs (fs : List Fld) : ∀ (d : Dev) (ch : Nat), ∃ r, d.clear fs ch = { d with regs := r } := by
  induction fs with
  | nil => intro d ch; exact ⟨d.regs, rfl⟩
  | cons f fs ih =>
    intro d ch
    obtain ⟨r, h⟩ := ih (d.set f 0 ch) ch
    exact ⟨r, h⟩

end Dev

end Sys2Proof.Machine
end

