-- ==== Sys2Proof/Laws/State.lean ====
section
/-!
SUPPORT. Sys2Proof/Laws/State.lean: what each update of the state leaves alone, field by field, so that no later proof unfolds a
record update.
-/

namespace Sys2Proof.Machine

namespace Dev

/-! ## A register, its active copy and a field -/

@[simp] theorem setReg_act (d : Dev) (off ch : Nat) (v : Word) : (d.setReg off ch v).act = d.act := rfl
@[simp] theorem setReg_hold (d : Dev) (off ch : Nat) (v : Word) : (d.setReg off ch v).hold = d.hold := rfl
@[simp] theorem setReg_answer (d : Dev) (off ch : Nat) (v : Word) : (d.setReg off ch v).answer = d.answer := rfl
@[simp] theorem setReg_cc (d : Dev) (off ch : Nat) (v : Word) : (d.setReg off ch v).cc = d.cc := rfl
@[simp] theorem setReg_marks (d : Dev) (off ch : Nat) (v : Word) : (d.setReg off ch v).marks = d.marks := rfl
@[simp] theorem setReg_drawn (d : Dev) (off ch : Nat) (v : Word) : (d.setReg off ch v).drawn = d.drawn := rfl
@[simp] theorem setReg_rx (d : Dev) (off ch : Nat) (v : Word) : (d.setReg off ch v).rx = d.rx := rfl
@[simp] theorem setReg_tx (d : Dev) (off ch : Nat) (v : Word) : (d.setReg off ch v).tx = d.tx := rfl
@[simp] theorem setReg_roleSeq (d : Dev) (off ch : Nat) (v : Word) : (d.setReg off ch v).roleSeq = d.roleSeq := rfl
@[simp] theorem setReg_roleSent (d : Dev) (off ch : Nat) (v : Word) : (d.setReg off ch v).roleSent = d.roleSent := rfl
@[simp] theorem setReg_inWords (d : Dev) (off ch : Nat) (v : Word) : (d.setReg off ch v).inWords = d.inWords := rfl
@[simp] theorem setReg_ins (d : Dev) (off ch : Nat) (v : Word) : (d.setReg off ch v).ins = d.ins := rfl
@[simp] theorem setReg_slips (d : Dev) (off ch : Nat) (v : Word) : (d.setReg off ch v).slips = d.slips := rfl
@[simp] theorem setReg_outQ (d : Dev) (off ch : Nat) (v : Word) : (d.setReg off ch v).outQ = d.outQ := rfl
@[simp] theorem setReg_crcs (d : Dev) (off ch : Nat) (v : Word) : (d.setReg off ch v).crcs = d.crcs := rfl
@[simp] theorem setReg_gens (d : Dev) (off ch : Nat) (v : Word) : (d.setReg off ch v).gens = d.gens := rfl
@[simp] theorem setReg_outs (d : Dev) (off ch : Nat) (v : Word) : (d.setReg off ch v).outs = d.outs := rfl
@[simp] theorem setReg_syncOf (d : Dev) (off ch : Nat) (v : Word) : (d.setReg off ch v).syncOf = d.syncOf := rfl
@[simp] theorem setReg_follow (d : Dev) (off ch : Nat) (v : Word) : (d.setReg off ch v).follow = d.follow := rfl
@[simp] theorem setReg_takes (d : Dev) (off ch : Nat) (v : Word) : (d.setReg off ch v).takes = d.takes := rfl
@[simp] theorem setReg_salvos (d : Dev) (off ch : Nat) (v : Word) : (d.setReg off ch v).salvos = d.salvos := rfl
@[simp] theorem setReg_submitted (d : Dev) (off ch : Nat) (v : Word) : (d.setReg off ch v).submitted = d.submitted := rfl
@[simp] theorem setReg_takeMsgs (d : Dev) (off ch : Nat) (v : Word) : (d.setReg off ch v).takeMsgs = d.takeMsgs := rfl
@[simp] theorem setReg_lastSeq (d : Dev) (off ch : Nat) (v : Word) : (d.setReg off ch v).lastSeq = d.lastSeq := rfl
@[simp] theorem setReg_takesLost (d : Dev) (off ch : Nat) (v : Word) : (d.setReg off ch v).takesLost = d.takesLost := rfl
@[simp] theorem setReg_macs (d : Dev) (off ch : Nat) (v : Word) : (d.setReg off ch v).macs = d.macs := rfl
@[simp] theorem setReg_flows (d : Dev) (off ch : Nat) (v : Word) : (d.setReg off ch v).flows = d.flows := rfl
@[simp] theorem setReg_flowSeq (d : Dev) (off ch : Nat) (v : Word) : (d.setReg off ch v).flowSeq = d.flowSeq := rfl
@[simp] theorem setReg_bdls (d : Dev) (off ch : Nat) (v : Word) : (d.setReg off ch v).bdls = d.bdls := rfl
@[simp] theorem setReg_egrs (d : Dev) (off ch : Nat) (v : Word) : (d.setReg off ch v).egrs = d.egrs := rfl
@[simp] theorem setReg_egAud (d : Dev) (off ch : Nat) (v : Word) : (d.setReg off ch v).egAud = d.egAud := rfl
@[simp] theorem setReg_syncs (d : Dev) (off ch : Nat) (v : Word) : (d.setReg off ch v).syncs = d.syncs := rfl
@[simp] theorem setReg_pool (d : Dev) (off ch : Nat) (v : Word) : (d.setReg off ch v).pool = d.pool := rfl
@[simp] theorem setReg_ueGran (d : Dev) (off ch : Nat) (v : Word) : (d.setReg off ch v).ueGran = d.ueGran := rfl
@[simp] theorem setReg_bar2 (d : Dev) (off ch : Nat) (v : Word) : (d.setReg off ch v).bar2 = d.bar2 := rfl
@[simp] theorem setReg_engArmed (d : Dev) (off ch : Nat) (v : Word) : (d.setReg off ch v).engArmed = d.engArmed := rfl
@[simp] theorem setReg_commitAt (d : Dev) (off ch : Nat) (v : Word) : (d.setReg off ch v).commitAt = d.commitAt := rfl
@[simp] theorem setReg_meters (d : Dev) (off ch : Nat) (v : Word) : (d.setReg off ch v).meters = d.meters := rfl
@[simp] theorem setReg_audBufs (d : Dev) (off ch : Nat) (v : Word) : (d.setReg off ch v).audBufs = d.audBufs := rfl
@[simp] theorem setReg_amx (d : Dev) (off ch : Nat) (v : Word) : (d.setReg off ch v).amx = d.amx := rfl
@[simp] theorem setReg_lvlIn (d : Dev) (off ch : Nat) (v : Word) : (d.setReg off ch v).lvlIn = d.lvlIn := rfl
@[simp] theorem setReg_aud (d : Dev) (off ch : Nat) (v : Word) : (d.setReg off ch v).aud = d.aud := rfl
@[simp] theorem setReg_time (d : Dev) (off ch : Nat) (v : Word) : (d.setReg off ch v).time = d.time := rfl
@[simp] theorem setReg_prevTime (d : Dev) (off ch : Nat) (v : Word) : (d.setReg off ch v).prevTime = d.prevTime := rfl
@[simp] theorem setReg_stepped (d : Dev) (off ch : Nat) (v : Word) : (d.setReg off ch v).stepped = d.stepped := rfl
@[simp] theorem setReg_res (d : Dev) (off ch : Nat) (v : Word) : (d.setReg off ch v).res = d.res := rfl
@[simp] theorem setReg_resAcc (d : Dev) (off ch : Nat) (v : Word) : (d.setReg off ch v).resAcc = d.resAcc := rfl
@[simp] theorem setReg_sample (d : Dev) (off ch : Nat) (v : Word) : (d.setReg off ch v).sample = d.sample := rfl
@[simp] theorem setReg_lockRun (d : Dev) (off ch : Nat) (v : Word) : (d.setReg off ch v).lockRun = d.lockRun := rfl
@[simp] theorem setReg_swPend (d : Dev) (off ch : Nat) (v : Word) : (d.setReg off ch v).swPend = d.swPend := rfl
@[simp] theorem setReg_cadLast (d : Dev) (off ch : Nat) (v : Word) : (d.setReg off ch v).cadLast = d.cadLast := rfl
@[simp] theorem setReg_cands (d : Dev) (off ch : Nat) (v : Word) : (d.setReg off ch v).cands = d.cands := rfl
@[simp] theorem setReg_fHist (d : Dev) (off ch : Nat) (v : Word) : (d.setReg off ch v).fHist = d.fHist := rfl
@[simp] theorem setReg_mEntry (d : Dev) (off ch : Nat) (v : Word) : (d.setReg off ch v).mEntry = d.mEntry := rfl
@[simp] theorem setReg_goodT (d : Dev) (off ch : Nat) (v : Word) : (d.setReg off ch v).goodT = d.goodT := rfl
@[simp] theorem setReg_xSum (d : Dev) (off ch : Nat) (v : Word) : (d.setReg off ch v).xSum = d.xSum := rfl
@[simp] theorem setReg_learn (d : Dev) (off ch : Nat) (v : Word) : (d.setReg off ch v).learn = d.learn := rfl
@[simp] theorem setReg_units (d : Dev) (off ch : Nat) (v : Word) : (d.setReg off ch v).units = d.units := rfl
@[simp] theorem setReg_handover (d : Dev) (off ch : Nat) (v : Word) : (d.setReg off ch v).handover = d.handover := rfl
@[simp] theorem setReg_con (d : Dev) (off ch : Nat) (v : Word) : (d.setReg off ch v).con = d.con := rfl
@[simp] theorem setReg_digRuns (d : Dev) (off ch : Nat) (v : Word) : (d.setReg off ch v).digRuns = d.digRuns := rfl
@[simp] theorem setReg_roleHold (d : Dev) (off ch : Nat) (v : Word) : (d.setReg off ch v).roleHold = d.roleHold := rfl
@[simp] theorem setReg_actRestart (d : Dev) (off ch : Nat) (v : Word) : (d.setReg off ch v).actRestart = d.actRestart := rfl
@[simp] theorem setReg_conds (d : Dev) (off ch : Nat) (v : Word) : (d.setReg off ch v).conds = d.conds := rfl
@[simp] theorem setReg_rising (d : Dev) (off ch : Nat) (v : Word) : (d.setReg off ch v).rising = d.rising := rfl
@[simp] theorem setReg_fltRecs (d : Dev) (off ch : Nat) (v : Word) : (d.setReg off ch v).fltRecs = d.fltRecs := rfl
@[simp] theorem setReg_injArmed (d : Dev) (off ch : Nat) (v : Word) : (d.setReg off ch v).injArmed = d.injArmed := rfl
@[simp] theorem setReg_fltLog (d : Dev) (off ch : Nat) (v : Word) : (d.setReg off ch v).fltLog = d.fltLog := rfl
@[simp] theorem setReg_fltSeq (d : Dev) (off ch : Nat) (v : Word) : (d.setReg off ch v).fltSeq = d.fltSeq := rfl
@[simp] theorem setReg_logCopied (d : Dev) (off ch : Nat) (v : Word) : (d.setReg off ch v).logCopied = d.logCopied := rfl
@[simp] theorem setReg_aclk (d : Dev) (off ch : Nat) (v : Word) : (d.setReg off ch v).aclk = d.aclk := rfl
@[simp] theorem setReg_kickSeq (d : Dev) (off ch : Nat) (v : Word) : (d.setReg off ch v).kickSeq = d.kickSeq := rfl
@[simp] theorem setReg_wdogWait (d : Dev) (off ch : Nat) (v : Word) : (d.setReg off ch v).wdogWait = d.wdogWait := rfl
@[simp] theorem setReg_ladder (d : Dev) (off ch : Nat) (v : Word) : (d.setReg off ch v).ladder = d.ladder := rfl
@[simp] theorem setReg_haltHold (d : Dev) (off ch : Nat) (v : Word) : (d.setReg off ch v).haltHold = d.haltHold := rfl
@[simp] theorem setReg_spData (d : Dev) (off ch : Nat) (v : Word) : (d.setReg off ch v).spData = d.spData := rfl
@[simp] theorem setReg_spNack (d : Dev) (off ch : Nat) (v : Word) : (d.setReg off ch v).spNack = d.spNack := rfl
@[simp] theorem setReg_faultN (d : Dev) (off ch : Nat) (v : Word) : (d.setReg off ch v).faultN = d.faultN := rfl
@[simp] theorem setReg_inReset (d : Dev) (off ch : Nat) (v : Word) : (d.setReg off ch v).inReset = d.inReset := rfl
@[simp] theorem setReg_pg (d : Dev) (off ch : Nat) (v : Word) : (d.setReg off ch v).pg = d.pg := rfl
@[simp] theorem setReg_railLost (d : Dev) (off ch : Nat) (v : Word) : (d.setReg off ch v).railLost = d.railLost := rfl
@[simp] theorem setReg_bootFw (d : Dev) (off ch : Nat) (v : Word) : (d.setReg off ch v).bootFw = d.bootFw := rfl
@[simp] theorem setReg_bootChart (d : Dev) (off ch : Nat) (v : Word) : (d.setReg off ch v).bootChart = d.bootChart := rfl
@[simp] theorem setReg_fwImage (d : Dev) (off ch : Nat) (v : Word) : (d.setReg off ch v).fwImage = d.fwImage := rfl
@[simp] theorem setReg_loader (d : Dev) (off ch : Nat) (v : Word) : (d.setReg off ch v).loader = d.loader := rfl
@[simp] theorem setReg_chartDone (d : Dev) (off ch : Nat) (v : Word) : (d.setReg off ch v).chartDone = d.chartDone := rfl
@[simp] theorem setReg_chartHeld (d : Dev) (off ch : Nat) (v : Word) : (d.setReg off ch v).chartHeld = d.chartHeld := rfl
@[simp] theorem setReg_refWait (d : Dev) (off ch : Nat) (v : Word) : (d.setReg off ch v).refWait = d.refWait := rfl
@[simp] theorem setReg_tunes (d : Dev) (off ch : Nat) (v : Word) : (d.setReg off ch v).tunes = d.tunes := rfl
@[simp] theorem setReg_vcore (d : Dev) (off ch : Nat) (v : Word) : (d.setReg off ch v).vcore = d.vcore := rfl
@[simp] theorem setReg_restoring (d : Dev) (off ch : Nat) (v : Word) : (d.setReg off ch v).restoring = d.restoring := rfl
@[simp] theorem setReg_bootHalt (d : Dev) (off ch : Nat) (v : Word) : (d.setReg off ch v).bootHalt = d.bootHalt := rfl
@[simp] theorem setReg_bootHdr (d : Dev) (off ch : Nat) (v : Word) : (d.setReg off ch v).bootHdr = d.bootHdr := rfl
@[simp] theorem setReg_bootGo (d : Dev) (off ch : Nat) (v : Word) : (d.setReg off ch v).bootGo = d.bootGo := rfl
@[simp] theorem setReg_sent (d : Dev) (off ch : Nat) (v : Word) : (d.setReg off ch v).sent = d.sent := rfl
@[simp] theorem setReg_msixDefer (d : Dev) (off ch : Nat) (v : Word) : (d.setReg off ch v).msixDefer = d.msixDefer := rfl
@[simp] theorem setReg_funcMask (d : Dev) (off ch : Nat) (v : Word) : (d.setReg off ch v).funcMask = d.funcMask := rfl
@[simp] theorem setReg_evtWas (d : Dev) (off ch : Nat) (v : Word) : (d.setReg off ch v).evtWas = d.evtWas := rfl
@[simp] theorem setReg_soft (d : Dev) (off ch : Nat) (v : Word) : (d.setReg off ch v).soft = d.soft := rfl
@[simp] theorem setReg_qSince (d : Dev) (off ch : Nat) (v : Word) : (d.setReg off ch v).qSince = d.qSince := rfl
@[simp] theorem setReg_restarting (d : Dev) (off ch : Nat) (v : Word) : (d.setReg off ch v).restarting = d.restarting := rfl
@[simp] theorem setReg_mbxReqs (d : Dev) (off ch : Nat) (v : Word) : (d.setReg off ch v).mbxReqs = d.mbxReqs := rfl
@[simp] theorem setReg_mbxRsps (d : Dev) (off ch : Nat) (v : Word) : (d.setReg off ch v).mbxRsps = d.mbxRsps := rfl
@[simp] theorem setReg_mbxLost (d : Dev) (off ch : Nat) (v : Word) : (d.setReg off ch v).mbxLost = d.mbxLost := rfl
@[simp] theorem setReg_dmaFly (d : Dev) (off ch : Nat) (v : Word) : (d.setReg off ch v).dmaFly = d.dmaFly := rfl
@[simp] theorem setReg_evtPins (d : Dev) (off ch : Nat) (v : Word) : (d.setReg off ch v).evtPins = d.evtPins := rfl
@[simp] theorem setReg_keys (d : Dev) (off ch : Nat) (v : Word) : (d.setReg off ch v).keys = d.keys := rfl
@[simp] theorem setReg_stageLast (d : Dev) (off ch : Nat) (v : Word) : (d.setReg off ch v).stageLast = d.stageLast := rfl
@[simp] theorem setReg_stageType (d : Dev) (off ch : Nat) (v : Word) : (d.setReg off ch v).stageType = d.stageType := rfl
@[simp] theorem setReg_actLen (d : Dev) (off ch : Nat) (v : Word) : (d.setReg off ch v).actLen = d.actLen := rfl
@[simp] theorem setReg_absent (d : Dev) (off ch : Nat) (v : Word) : (d.setReg off ch v).absent = d.absent := rfl
@[simp] theorem setReg_toggles (d : Dev) (off ch : Nat) (v : Word) : (d.setReg off ch v).toggles = d.toggles := rfl
@[simp] theorem setReg_pclkReq (d : Dev) (off ch : Nat) (v : Word) : (d.setReg off ch v).pclkReq = d.pclkReq := rfl
@[simp] theorem setReg_bwAcc (d : Dev) (off ch : Nat) (v : Word) : (d.setReg off ch v).bwAcc = d.bwAcc := rfl

@[simp] theorem set_act (d : Dev) (f : Fld) (v ch : Nat) : (d.set f v ch).act = d.act := rfl
@[simp] theorem set_hold (d : Dev) (f : Fld) (v ch : Nat) : (d.set f v ch).hold = d.hold := rfl
@[simp] theorem set_answer (d : Dev) (f : Fld) (v ch : Nat) : (d.set f v ch).answer = d.answer := rfl
@[simp] theorem set_cc (d : Dev) (f : Fld) (v ch : Nat) : (d.set f v ch).cc = d.cc := rfl
@[simp] theorem set_marks (d : Dev) (f : Fld) (v ch : Nat) : (d.set f v ch).marks = d.marks := rfl
@[simp] theorem set_drawn (d : Dev) (f : Fld) (v ch : Nat) : (d.set f v ch).drawn = d.drawn := rfl
@[simp] theorem set_rx (d : Dev) (f : Fld) (v ch : Nat) : (d.set f v ch).rx = d.rx := rfl
@[simp] theorem set_tx (d : Dev) (f : Fld) (v ch : Nat) : (d.set f v ch).tx = d.tx := rfl
@[simp] theorem set_roleSeq (d : Dev) (f : Fld) (v ch : Nat) : (d.set f v ch).roleSeq = d.roleSeq := rfl
@[simp] theorem set_roleSent (d : Dev) (f : Fld) (v ch : Nat) : (d.set f v ch).roleSent = d.roleSent := rfl
@[simp] theorem set_inWords (d : Dev) (f : Fld) (v ch : Nat) : (d.set f v ch).inWords = d.inWords := rfl
@[simp] theorem set_ins (d : Dev) (f : Fld) (v ch : Nat) : (d.set f v ch).ins = d.ins := rfl
@[simp] theorem set_slips (d : Dev) (f : Fld) (v ch : Nat) : (d.set f v ch).slips = d.slips := rfl
@[simp] theorem set_outQ (d : Dev) (f : Fld) (v ch : Nat) : (d.set f v ch).outQ = d.outQ := rfl
@[simp] theorem set_crcs (d : Dev) (f : Fld) (v ch : Nat) : (d.set f v ch).crcs = d.crcs := rfl
@[simp] theorem set_gens (d : Dev) (f : Fld) (v ch : Nat) : (d.set f v ch).gens = d.gens := rfl
@[simp] theorem set_outs (d : Dev) (f : Fld) (v ch : Nat) : (d.set f v ch).outs = d.outs := rfl
@[simp] theorem set_syncOf (d : Dev) (f : Fld) (v ch : Nat) : (d.set f v ch).syncOf = d.syncOf := rfl
@[simp] theorem set_follow (d : Dev) (f : Fld) (v ch : Nat) : (d.set f v ch).follow = d.follow := rfl
@[simp] theorem set_takes (d : Dev) (f : Fld) (v ch : Nat) : (d.set f v ch).takes = d.takes := rfl
@[simp] theorem set_salvos (d : Dev) (f : Fld) (v ch : Nat) : (d.set f v ch).salvos = d.salvos := rfl
@[simp] theorem set_submitted (d : Dev) (f : Fld) (v ch : Nat) : (d.set f v ch).submitted = d.submitted := rfl
@[simp] theorem set_takeMsgs (d : Dev) (f : Fld) (v ch : Nat) : (d.set f v ch).takeMsgs = d.takeMsgs := rfl
@[simp] theorem set_lastSeq (d : Dev) (f : Fld) (v ch : Nat) : (d.set f v ch).lastSeq = d.lastSeq := rfl
@[simp] theorem set_takesLost (d : Dev) (f : Fld) (v ch : Nat) : (d.set f v ch).takesLost = d.takesLost := rfl
@[simp] theorem set_macs (d : Dev) (f : Fld) (v ch : Nat) : (d.set f v ch).macs = d.macs := rfl
@[simp] theorem set_flows (d : Dev) (f : Fld) (v ch : Nat) : (d.set f v ch).flows = d.flows := rfl
@[simp] theorem set_flowSeq (d : Dev) (f : Fld) (v ch : Nat) : (d.set f v ch).flowSeq = d.flowSeq := rfl
@[simp] theorem set_bdls (d : Dev) (f : Fld) (v ch : Nat) : (d.set f v ch).bdls = d.bdls := rfl
@[simp] theorem set_egrs (d : Dev) (f : Fld) (v ch : Nat) : (d.set f v ch).egrs = d.egrs := rfl
@[simp] theorem set_egAud (d : Dev) (f : Fld) (v ch : Nat) : (d.set f v ch).egAud = d.egAud := rfl
@[simp] theorem set_syncs (d : Dev) (f : Fld) (v ch : Nat) : (d.set f v ch).syncs = d.syncs := rfl
@[simp] theorem set_pool (d : Dev) (f : Fld) (v ch : Nat) : (d.set f v ch).pool = d.pool := rfl
@[simp] theorem set_ueGran (d : Dev) (f : Fld) (v ch : Nat) : (d.set f v ch).ueGran = d.ueGran := rfl
@[simp] theorem set_bar2 (d : Dev) (f : Fld) (v ch : Nat) : (d.set f v ch).bar2 = d.bar2 := rfl
@[simp] theorem set_engArmed (d : Dev) (f : Fld) (v ch : Nat) : (d.set f v ch).engArmed = d.engArmed := rfl
@[simp] theorem set_commitAt (d : Dev) (f : Fld) (v ch : Nat) : (d.set f v ch).commitAt = d.commitAt := rfl
@[simp] theorem set_meters (d : Dev) (f : Fld) (v ch : Nat) : (d.set f v ch).meters = d.meters := rfl
@[simp] theorem set_audBufs (d : Dev) (f : Fld) (v ch : Nat) : (d.set f v ch).audBufs = d.audBufs := rfl
@[simp] theorem set_amx (d : Dev) (f : Fld) (v ch : Nat) : (d.set f v ch).amx = d.amx := rfl
@[simp] theorem set_lvlIn (d : Dev) (f : Fld) (v ch : Nat) : (d.set f v ch).lvlIn = d.lvlIn := rfl
@[simp] theorem set_aud (d : Dev) (f : Fld) (v ch : Nat) : (d.set f v ch).aud = d.aud := rfl
@[simp] theorem set_time (d : Dev) (f : Fld) (v ch : Nat) : (d.set f v ch).time = d.time := rfl
@[simp] theorem set_prevTime (d : Dev) (f : Fld) (v ch : Nat) : (d.set f v ch).prevTime = d.prevTime := rfl
@[simp] theorem set_stepped (d : Dev) (f : Fld) (v ch : Nat) : (d.set f v ch).stepped = d.stepped := rfl
@[simp] theorem set_res (d : Dev) (f : Fld) (v ch : Nat) : (d.set f v ch).res = d.res := rfl
@[simp] theorem set_resAcc (d : Dev) (f : Fld) (v ch : Nat) : (d.set f v ch).resAcc = d.resAcc := rfl
@[simp] theorem set_sample (d : Dev) (f : Fld) (v ch : Nat) : (d.set f v ch).sample = d.sample := rfl
@[simp] theorem set_lockRun (d : Dev) (f : Fld) (v ch : Nat) : (d.set f v ch).lockRun = d.lockRun := rfl
@[simp] theorem set_swPend (d : Dev) (f : Fld) (v ch : Nat) : (d.set f v ch).swPend = d.swPend := rfl
@[simp] theorem set_cadLast (d : Dev) (f : Fld) (v ch : Nat) : (d.set f v ch).cadLast = d.cadLast := rfl
@[simp] theorem set_cands (d : Dev) (f : Fld) (v ch : Nat) : (d.set f v ch).cands = d.cands := rfl
@[simp] theorem set_fHist (d : Dev) (f : Fld) (v ch : Nat) : (d.set f v ch).fHist = d.fHist := rfl
@[simp] theorem set_mEntry (d : Dev) (f : Fld) (v ch : Nat) : (d.set f v ch).mEntry = d.mEntry := rfl
@[simp] theorem set_goodT (d : Dev) (f : Fld) (v ch : Nat) : (d.set f v ch).goodT = d.goodT := rfl
@[simp] theorem set_xSum (d : Dev) (f : Fld) (v ch : Nat) : (d.set f v ch).xSum = d.xSum := rfl
@[simp] theorem set_learn (d : Dev) (f : Fld) (v ch : Nat) : (d.set f v ch).learn = d.learn := rfl
@[simp] theorem set_units (d : Dev) (f : Fld) (v ch : Nat) : (d.set f v ch).units = d.units := rfl
@[simp] theorem set_handover (d : Dev) (f : Fld) (v ch : Nat) : (d.set f v ch).handover = d.handover := rfl
@[simp] theorem set_con (d : Dev) (f : Fld) (v ch : Nat) : (d.set f v ch).con = d.con := rfl
@[simp] theorem set_digRuns (d : Dev) (f : Fld) (v ch : Nat) : (d.set f v ch).digRuns = d.digRuns := rfl
@[simp] theorem set_roleHold (d : Dev) (f : Fld) (v ch : Nat) : (d.set f v ch).roleHold = d.roleHold := rfl
@[simp] theorem set_actRestart (d : Dev) (f : Fld) (v ch : Nat) : (d.set f v ch).actRestart = d.actRestart := rfl
@[simp] theorem set_conds (d : Dev) (f : Fld) (v ch : Nat) : (d.set f v ch).conds = d.conds := rfl
@[simp] theorem set_rising (d : Dev) (f : Fld) (v ch : Nat) : (d.set f v ch).rising = d.rising := rfl
@[simp] theorem set_fltRecs (d : Dev) (f : Fld) (v ch : Nat) : (d.set f v ch).fltRecs = d.fltRecs := rfl
@[simp] theorem set_injArmed (d : Dev) (f : Fld) (v ch : Nat) : (d.set f v ch).injArmed = d.injArmed := rfl
@[simp] theorem set_fltLog (d : Dev) (f : Fld) (v ch : Nat) : (d.set f v ch).fltLog = d.fltLog := rfl
@[simp] theorem set_fltSeq (d : Dev) (f : Fld) (v ch : Nat) : (d.set f v ch).fltSeq = d.fltSeq := rfl
@[simp] theorem set_logCopied (d : Dev) (f : Fld) (v ch : Nat) : (d.set f v ch).logCopied = d.logCopied := rfl
@[simp] theorem set_aclk (d : Dev) (f : Fld) (v ch : Nat) : (d.set f v ch).aclk = d.aclk := rfl
@[simp] theorem set_kickSeq (d : Dev) (f : Fld) (v ch : Nat) : (d.set f v ch).kickSeq = d.kickSeq := rfl
@[simp] theorem set_wdogWait (d : Dev) (f : Fld) (v ch : Nat) : (d.set f v ch).wdogWait = d.wdogWait := rfl
@[simp] theorem set_ladder (d : Dev) (f : Fld) (v ch : Nat) : (d.set f v ch).ladder = d.ladder := rfl
@[simp] theorem set_haltHold (d : Dev) (f : Fld) (v ch : Nat) : (d.set f v ch).haltHold = d.haltHold := rfl
@[simp] theorem set_spData (d : Dev) (f : Fld) (v ch : Nat) : (d.set f v ch).spData = d.spData := rfl
@[simp] theorem set_spNack (d : Dev) (f : Fld) (v ch : Nat) : (d.set f v ch).spNack = d.spNack := rfl
@[simp] theorem set_faultN (d : Dev) (f : Fld) (v ch : Nat) : (d.set f v ch).faultN = d.faultN := rfl
@[simp] theorem set_inReset (d : Dev) (f : Fld) (v ch : Nat) : (d.set f v ch).inReset = d.inReset := rfl
@[simp] theorem set_pg (d : Dev) (f : Fld) (v ch : Nat) : (d.set f v ch).pg = d.pg := rfl
@[simp] theorem set_railLost (d : Dev) (f : Fld) (v ch : Nat) : (d.set f v ch).railLost = d.railLost := rfl
@[simp] theorem set_bootFw (d : Dev) (f : Fld) (v ch : Nat) : (d.set f v ch).bootFw = d.bootFw := rfl
@[simp] theorem set_bootChart (d : Dev) (f : Fld) (v ch : Nat) : (d.set f v ch).bootChart = d.bootChart := rfl
@[simp] theorem set_fwImage (d : Dev) (f : Fld) (v ch : Nat) : (d.set f v ch).fwImage = d.fwImage := rfl
@[simp] theorem set_loader (d : Dev) (f : Fld) (v ch : Nat) : (d.set f v ch).loader = d.loader := rfl
@[simp] theorem set_chartDone (d : Dev) (f : Fld) (v ch : Nat) : (d.set f v ch).chartDone = d.chartDone := rfl
@[simp] theorem set_chartHeld (d : Dev) (f : Fld) (v ch : Nat) : (d.set f v ch).chartHeld = d.chartHeld := rfl
@[simp] theorem set_refWait (d : Dev) (f : Fld) (v ch : Nat) : (d.set f v ch).refWait = d.refWait := rfl
@[simp] theorem set_tunes (d : Dev) (f : Fld) (v ch : Nat) : (d.set f v ch).tunes = d.tunes := rfl
@[simp] theorem set_vcore (d : Dev) (f : Fld) (v ch : Nat) : (d.set f v ch).vcore = d.vcore := rfl
@[simp] theorem set_restoring (d : Dev) (f : Fld) (v ch : Nat) : (d.set f v ch).restoring = d.restoring := rfl
@[simp] theorem set_bootHalt (d : Dev) (f : Fld) (v ch : Nat) : (d.set f v ch).bootHalt = d.bootHalt := rfl
@[simp] theorem set_bootHdr (d : Dev) (f : Fld) (v ch : Nat) : (d.set f v ch).bootHdr = d.bootHdr := rfl
@[simp] theorem set_bootGo (d : Dev) (f : Fld) (v ch : Nat) : (d.set f v ch).bootGo = d.bootGo := rfl
@[simp] theorem set_sent (d : Dev) (f : Fld) (v ch : Nat) : (d.set f v ch).sent = d.sent := rfl
@[simp] theorem set_msixDefer (d : Dev) (f : Fld) (v ch : Nat) : (d.set f v ch).msixDefer = d.msixDefer := rfl
@[simp] theorem set_funcMask (d : Dev) (f : Fld) (v ch : Nat) : (d.set f v ch).funcMask = d.funcMask := rfl
@[simp] theorem set_evtWas (d : Dev) (f : Fld) (v ch : Nat) : (d.set f v ch).evtWas = d.evtWas := rfl
@[simp] theorem set_soft (d : Dev) (f : Fld) (v ch : Nat) : (d.set f v ch).soft = d.soft := rfl
@[simp] theorem set_qSince (d : Dev) (f : Fld) (v ch : Nat) : (d.set f v ch).qSince = d.qSince := rfl
@[simp] theorem set_restarting (d : Dev) (f : Fld) (v ch : Nat) : (d.set f v ch).restarting = d.restarting := rfl
@[simp] theorem set_mbxReqs (d : Dev) (f : Fld) (v ch : Nat) : (d.set f v ch).mbxReqs = d.mbxReqs := rfl
@[simp] theorem set_mbxRsps (d : Dev) (f : Fld) (v ch : Nat) : (d.set f v ch).mbxRsps = d.mbxRsps := rfl
@[simp] theorem set_mbxLost (d : Dev) (f : Fld) (v ch : Nat) : (d.set f v ch).mbxLost = d.mbxLost := rfl
@[simp] theorem set_dmaFly (d : Dev) (f : Fld) (v ch : Nat) : (d.set f v ch).dmaFly = d.dmaFly := rfl
@[simp] theorem set_evtPins (d : Dev) (f : Fld) (v ch : Nat) : (d.set f v ch).evtPins = d.evtPins := rfl
@[simp] theorem set_keys (d : Dev) (f : Fld) (v ch : Nat) : (d.set f v ch).keys = d.keys := rfl
@[simp] theorem set_stageLast (d : Dev) (f : Fld) (v ch : Nat) : (d.set f v ch).stageLast = d.stageLast := rfl
@[simp] theorem set_stageType (d : Dev) (f : Fld) (v ch : Nat) : (d.set f v ch).stageType = d.stageType := rfl
@[simp] theorem set_actLen (d : Dev) (f : Fld) (v ch : Nat) : (d.set f v ch).actLen = d.actLen := rfl
@[simp] theorem set_absent (d : Dev) (f : Fld) (v ch : Nat) : (d.set f v ch).absent = d.absent := rfl
@[simp] theorem set_toggles (d : Dev) (f : Fld) (v ch : Nat) : (d.set f v ch).toggles = d.toggles := rfl
@[simp] theorem set_pclkReq (d : Dev) (f : Fld) (v ch : Nat) : (d.set f v ch).pclkReq = d.pclkReq := rfl
@[simp] theorem set_bwAcc (d : Dev) (f : Fld) (v ch : Nat) : (d.set f v ch).bwAcc = d.bwAcc := rfl

@[simp] theorem setAct_regs (d : Dev) (off ch : Nat) (v : Word) : (d.setAct off ch v).regs = d.regs := rfl
@[simp] theorem setAct_hold (d : Dev) (off ch : Nat) (v : Word) : (d.setAct off ch v).hold = d.hold := rfl
@[simp] theorem setAct_answer (d : Dev) (off ch : Nat) (v : Word) : (d.setAct off ch v).answer = d.answer := rfl
@[simp] theorem setAct_cc (d : Dev) (off ch : Nat) (v : Word) : (d.setAct off ch v).cc = d.cc := rfl
@[simp] theorem setAct_marks (d : Dev) (off ch : Nat) (v : Word) : (d.setAct off ch v).marks = d.marks := rfl
@[simp] theorem setAct_drawn (d : Dev) (off ch : Nat) (v : Word) : (d.setAct off ch v).drawn = d.drawn := rfl
@[simp] theorem setAct_rx (d : Dev) (off ch : Nat) (v : Word) : (d.setAct off ch v).rx = d.rx := rfl
@[simp] theorem setAct_tx (d : Dev) (off ch : Nat) (v : Word) : (d.setAct off ch v).tx = d.tx := rfl
@[simp] theorem setAct_roleSeq (d : Dev) (off ch : Nat) (v : Word) : (d.setAct off ch v).roleSeq = d.roleSeq := rfl
@[simp] theorem setAct_roleSent (d : Dev) (off ch : Nat) (v : Word) : (d.setAct off ch v).roleSent = d.roleSent := rfl
@[simp] theorem setAct_inWords (d : Dev) (off ch : Nat) (v : Word) : (d.setAct off ch v).inWords = d.inWords := rfl
@[simp] theorem setAct_ins (d : Dev) (off ch : Nat) (v : Word) : (d.setAct off ch v).ins = d.ins := rfl
@[simp] theorem setAct_slips (d : Dev) (off ch : Nat) (v : Word) : (d.setAct off ch v).slips = d.slips := rfl
@[simp] theorem setAct_outQ (d : Dev) (off ch : Nat) (v : Word) : (d.setAct off ch v).outQ = d.outQ := rfl
@[simp] theorem setAct_crcs (d : Dev) (off ch : Nat) (v : Word) : (d.setAct off ch v).crcs = d.crcs := rfl
@[simp] theorem setAct_gens (d : Dev) (off ch : Nat) (v : Word) : (d.setAct off ch v).gens = d.gens := rfl
@[simp] theorem setAct_outs (d : Dev) (off ch : Nat) (v : Word) : (d.setAct off ch v).outs = d.outs := rfl
@[simp] theorem setAct_syncOf (d : Dev) (off ch : Nat) (v : Word) : (d.setAct off ch v).syncOf = d.syncOf := rfl
@[simp] theorem setAct_follow (d : Dev) (off ch : Nat) (v : Word) : (d.setAct off ch v).follow = d.follow := rfl
@[simp] theorem setAct_takes (d : Dev) (off ch : Nat) (v : Word) : (d.setAct off ch v).takes = d.takes := rfl
@[simp] theorem setAct_salvos (d : Dev) (off ch : Nat) (v : Word) : (d.setAct off ch v).salvos = d.salvos := rfl
@[simp] theorem setAct_submitted (d : Dev) (off ch : Nat) (v : Word) : (d.setAct off ch v).submitted = d.submitted := rfl
@[simp] theorem setAct_takeMsgs (d : Dev) (off ch : Nat) (v : Word) : (d.setAct off ch v).takeMsgs = d.takeMsgs := rfl
@[simp] theorem setAct_lastSeq (d : Dev) (off ch : Nat) (v : Word) : (d.setAct off ch v).lastSeq = d.lastSeq := rfl
@[simp] theorem setAct_takesLost (d : Dev) (off ch : Nat) (v : Word) : (d.setAct off ch v).takesLost = d.takesLost := rfl
@[simp] theorem setAct_macs (d : Dev) (off ch : Nat) (v : Word) : (d.setAct off ch v).macs = d.macs := rfl
@[simp] theorem setAct_flows (d : Dev) (off ch : Nat) (v : Word) : (d.setAct off ch v).flows = d.flows := rfl
@[simp] theorem setAct_flowSeq (d : Dev) (off ch : Nat) (v : Word) : (d.setAct off ch v).flowSeq = d.flowSeq := rfl
@[simp] theorem setAct_bdls (d : Dev) (off ch : Nat) (v : Word) : (d.setAct off ch v).bdls = d.bdls := rfl
@[simp] theorem setAct_egrs (d : Dev) (off ch : Nat) (v : Word) : (d.setAct off ch v).egrs = d.egrs := rfl
@[simp] theorem setAct_egAud (d : Dev) (off ch : Nat) (v : Word) : (d.setAct off ch v).egAud = d.egAud := rfl
@[simp] theorem setAct_syncs (d : Dev) (off ch : Nat) (v : Word) : (d.setAct off ch v).syncs = d.syncs := rfl
@[simp] theorem setAct_pool (d : Dev) (off ch : Nat) (v : Word) : (d.setAct off ch v).pool = d.pool := rfl
@[simp] theorem setAct_ueGran (d : Dev) (off ch : Nat) (v : Word) : (d.setAct off ch v).ueGran = d.ueGran := rfl
@[simp] theorem setAct_bar2 (d : Dev) (off ch : Nat) (v : Word) : (d.setAct off ch v).bar2 = d.bar2 := rfl
@[simp] theorem setAct_engArmed (d : Dev) (off ch : Nat) (v : Word) : (d.setAct off ch v).engArmed = d.engArmed := rfl
@[simp] theorem setAct_commitAt (d : Dev) (off ch : Nat) (v : Word) : (d.setAct off ch v).commitAt = d.commitAt := rfl
@[simp] theorem setAct_meters (d : Dev) (off ch : Nat) (v : Word) : (d.setAct off ch v).meters = d.meters := rfl
@[simp] theorem setAct_audBufs (d : Dev) (off ch : Nat) (v : Word) : (d.setAct off ch v).audBufs = d.audBufs := rfl
@[simp] theorem setAct_amx (d : Dev) (off ch : Nat) (v : Word) : (d.setAct off ch v).amx = d.amx := rfl
@[simp] theorem setAct_lvlIn (d : Dev) (off ch : Nat) (v : Word) : (d.setAct off ch v).lvlIn = d.lvlIn := rfl
@[simp] theorem setAct_aud (d : Dev) (off ch : Nat) (v : Word) : (d.setAct off ch v).aud = d.aud := rfl
@[simp] theorem setAct_time (d : Dev) (off ch : Nat) (v : Word) : (d.setAct off ch v).time = d.time := rfl
@[simp] theorem setAct_prevTime (d : Dev) (off ch : Nat) (v : Word) : (d.setAct off ch v).prevTime = d.prevTime := rfl
@[simp] theorem setAct_stepped (d : Dev) (off ch : Nat) (v : Word) : (d.setAct off ch v).stepped = d.stepped := rfl
@[simp] theorem setAct_res (d : Dev) (off ch : Nat) (v : Word) : (d.setAct off ch v).res = d.res := rfl
@[simp] theorem setAct_resAcc (d : Dev) (off ch : Nat) (v : Word) : (d.setAct off ch v).resAcc = d.resAcc := rfl
@[simp] theorem setAct_sample (d : Dev) (off ch : Nat) (v : Word) : (d.setAct off ch v).sample = d.sample := rfl
@[simp] theorem setAct_lockRun (d : Dev) (off ch : Nat) (v : Word) : (d.setAct off ch v).lockRun = d.lockRun := rfl
@[simp] theorem setAct_swPend (d : Dev) (off ch : Nat) (v : Word) : (d.setAct off ch v).swPend = d.swPend := rfl
@[simp] theorem setAct_cadLast (d : Dev) (off ch : Nat) (v : Word) : (d.setAct off ch v).cadLast = d.cadLast := rfl
@[simp] theorem setAct_cands (d : Dev) (off ch : Nat) (v : Word) : (d.setAct off ch v).cands = d.cands := rfl
@[simp] theorem setAct_fHist (d : Dev) (off ch : Nat) (v : Word) : (d.setAct off ch v).fHist = d.fHist := rfl
@[simp] theorem setAct_mEntry (d : Dev) (off ch : Nat) (v : Word) : (d.setAct off ch v).mEntry = d.mEntry := rfl
@[simp] theorem setAct_goodT (d : Dev) (off ch : Nat) (v : Word) : (d.setAct off ch v).goodT = d.goodT := rfl
@[simp] theorem setAct_xSum (d : Dev) (off ch : Nat) (v : Word) : (d.setAct off ch v).xSum = d.xSum := rfl
@[simp] theorem setAct_learn (d : Dev) (off ch : Nat) (v : Word) : (d.setAct off ch v).learn = d.learn := rfl
@[simp] theorem setAct_units (d : Dev) (off ch : Nat) (v : Word) : (d.setAct off ch v).units = d.units := rfl
@[simp] theorem setAct_handover (d : Dev) (off ch : Nat) (v : Word) : (d.setAct off ch v).handover = d.handover := rfl
@[simp] theorem setAct_con (d : Dev) (off ch : Nat) (v : Word) : (d.setAct off ch v).con = d.con := rfl
@[simp] theorem setAct_digRuns (d : Dev) (off ch : Nat) (v : Word) : (d.setAct off ch v).digRuns = d.digRuns := rfl
@[simp] theorem setAct_roleHold (d : Dev) (off ch : Nat) (v : Word) : (d.setAct off ch v).roleHold = d.roleHold := rfl
@[simp] theorem setAct_actRestart (d : Dev) (off ch : Nat) (v : Word) : (d.setAct off ch v).actRestart = d.actRestart := rfl
@[simp] theorem setAct_conds (d : Dev) (off ch : Nat) (v : Word) : (d.setAct off ch v).conds = d.conds := rfl
@[simp] theorem setAct_rising (d : Dev) (off ch : Nat) (v : Word) : (d.setAct off ch v).rising = d.rising := rfl
@[simp] theorem setAct_fltRecs (d : Dev) (off ch : Nat) (v : Word) : (d.setAct off ch v).fltRecs = d.fltRecs := rfl
@[simp] theorem setAct_injArmed (d : Dev) (off ch : Nat) (v : Word) : (d.setAct off ch v).injArmed = d.injArmed := rfl
@[simp] theorem setAct_fltLog (d : Dev) (off ch : Nat) (v : Word) : (d.setAct off ch v).fltLog = d.fltLog := rfl
@[simp] theorem setAct_fltSeq (d : Dev) (off ch : Nat) (v : Word) : (d.setAct off ch v).fltSeq = d.fltSeq := rfl
@[simp] theorem setAct_logCopied (d : Dev) (off ch : Nat) (v : Word) : (d.setAct off ch v).logCopied = d.logCopied := rfl
@[simp] theorem setAct_aclk (d : Dev) (off ch : Nat) (v : Word) : (d.setAct off ch v).aclk = d.aclk := rfl
@[simp] theorem setAct_kickSeq (d : Dev) (off ch : Nat) (v : Word) : (d.setAct off ch v).kickSeq = d.kickSeq := rfl
@[simp] theorem setAct_wdogWait (d : Dev) (off ch : Nat) (v : Word) : (d.setAct off ch v).wdogWait = d.wdogWait := rfl
@[simp] theorem setAct_ladder (d : Dev) (off ch : Nat) (v : Word) : (d.setAct off ch v).ladder = d.ladder := rfl
@[simp] theorem setAct_haltHold (d : Dev) (off ch : Nat) (v : Word) : (d.setAct off ch v).haltHold = d.haltHold := rfl
@[simp] theorem setAct_spData (d : Dev) (off ch : Nat) (v : Word) : (d.setAct off ch v).spData = d.spData := rfl
@[simp] theorem setAct_spNack (d : Dev) (off ch : Nat) (v : Word) : (d.setAct off ch v).spNack = d.spNack := rfl
@[simp] theorem setAct_faultN (d : Dev) (off ch : Nat) (v : Word) : (d.setAct off ch v).faultN = d.faultN := rfl
@[simp] theorem setAct_inReset (d : Dev) (off ch : Nat) (v : Word) : (d.setAct off ch v).inReset = d.inReset := rfl
@[simp] theorem setAct_pg (d : Dev) (off ch : Nat) (v : Word) : (d.setAct off ch v).pg = d.pg := rfl
@[simp] theorem setAct_railLost (d : Dev) (off ch : Nat) (v : Word) : (d.setAct off ch v).railLost = d.railLost := rfl
@[simp] theorem setAct_bootFw (d : Dev) (off ch : Nat) (v : Word) : (d.setAct off ch v).bootFw = d.bootFw := rfl
@[simp] theorem setAct_bootChart (d : Dev) (off ch : Nat) (v : Word) : (d.setAct off ch v).bootChart = d.bootChart := rfl
@[simp] theorem setAct_fwImage (d : Dev) (off ch : Nat) (v : Word) : (d.setAct off ch v).fwImage = d.fwImage := rfl
@[simp] theorem setAct_loader (d : Dev) (off ch : Nat) (v : Word) : (d.setAct off ch v).loader = d.loader := rfl
@[simp] theorem setAct_chartDone (d : Dev) (off ch : Nat) (v : Word) : (d.setAct off ch v).chartDone = d.chartDone := rfl
@[simp] theorem setAct_chartHeld (d : Dev) (off ch : Nat) (v : Word) : (d.setAct off ch v).chartHeld = d.chartHeld := rfl
@[simp] theorem setAct_refWait (d : Dev) (off ch : Nat) (v : Word) : (d.setAct off ch v).refWait = d.refWait := rfl
@[simp] theorem setAct_tunes (d : Dev) (off ch : Nat) (v : Word) : (d.setAct off ch v).tunes = d.tunes := rfl
@[simp] theorem setAct_vcore (d : Dev) (off ch : Nat) (v : Word) : (d.setAct off ch v).vcore = d.vcore := rfl
@[simp] theorem setAct_restoring (d : Dev) (off ch : Nat) (v : Word) : (d.setAct off ch v).restoring = d.restoring := rfl
@[simp] theorem setAct_bootHalt (d : Dev) (off ch : Nat) (v : Word) : (d.setAct off ch v).bootHalt = d.bootHalt := rfl
@[simp] theorem setAct_bootHdr (d : Dev) (off ch : Nat) (v : Word) : (d.setAct off ch v).bootHdr = d.bootHdr := rfl
@[simp] theorem setAct_bootGo (d : Dev) (off ch : Nat) (v : Word) : (d.setAct off ch v).bootGo = d.bootGo := rfl
@[simp] theorem setAct_sent (d : Dev) (off ch : Nat) (v : Word) : (d.setAct off ch v).sent = d.sent := rfl
@[simp] theorem setAct_msixDefer (d : Dev) (off ch : Nat) (v : Word) : (d.setAct off ch v).msixDefer = d.msixDefer := rfl
@[simp] theorem setAct_funcMask (d : Dev) (off ch : Nat) (v : Word) : (d.setAct off ch v).funcMask = d.funcMask := rfl
@[simp] theorem setAct_evtWas (d : Dev) (off ch : Nat) (v : Word) : (d.setAct off ch v).evtWas = d.evtWas := rfl
@[simp] theorem setAct_soft (d : Dev) (off ch : Nat) (v : Word) : (d.setAct off ch v).soft = d.soft := rfl
@[simp] theorem setAct_qSince (d : Dev) (off ch : Nat) (v : Word) : (d.setAct off ch v).qSince = d.qSince := rfl
@[simp] theorem setAct_restarting (d : Dev) (off ch : Nat) (v : Word) : (d.setAct off ch v).restarting = d.restarting := rfl
@[simp] theorem setAct_mbxReqs (d : Dev) (off ch : Nat) (v : Word) : (d.setAct off ch v).mbxReqs = d.mbxReqs := rfl
@[simp] theorem setAct_mbxRsps (d : Dev) (off ch : Nat) (v : Word) : (d.setAct off ch v).mbxRsps = d.mbxRsps := rfl
@[simp] theorem setAct_mbxLost (d : Dev) (off ch : Nat) (v : Word) : (d.setAct off ch v).mbxLost = d.mbxLost := rfl
@[simp] theorem setAct_dmaFly (d : Dev) (off ch : Nat) (v : Word) : (d.setAct off ch v).dmaFly = d.dmaFly := rfl
@[simp] theorem setAct_evtPins (d : Dev) (off ch : Nat) (v : Word) : (d.setAct off ch v).evtPins = d.evtPins := rfl
@[simp] theorem setAct_keys (d : Dev) (off ch : Nat) (v : Word) : (d.setAct off ch v).keys = d.keys := rfl
@[simp] theorem setAct_stageLast (d : Dev) (off ch : Nat) (v : Word) : (d.setAct off ch v).stageLast = d.stageLast := rfl
@[simp] theorem setAct_stageType (d : Dev) (off ch : Nat) (v : Word) : (d.setAct off ch v).stageType = d.stageType := rfl
@[simp] theorem setAct_actLen (d : Dev) (off ch : Nat) (v : Word) : (d.setAct off ch v).actLen = d.actLen := rfl
@[simp] theorem setAct_absent (d : Dev) (off ch : Nat) (v : Word) : (d.setAct off ch v).absent = d.absent := rfl
@[simp] theorem setAct_toggles (d : Dev) (off ch : Nat) (v : Word) : (d.setAct off ch v).toggles = d.toggles := rfl
@[simp] theorem setAct_pclkReq (d : Dev) (off ch : Nat) (v : Word) : (d.setAct off ch v).pclkReq = d.pclkReq := rfl
@[simp] theorem setAct_bwAcc (d : Dev) (off ch : Nat) (v : Word) : (d.setAct off ch v).bwAcc = d.bwAcc := rfl

theorem raise_eq (d : Dev) (f : Fld) (ch : Nat) : d.raise f ch = d.set f 1 ch := rfl
theorem put_eq (d : Dev) (f : Fld) (b : Bool) (ch : Nat) : d.put f b ch = d.set f (b2n b) ch := rfl
theorem when_true (d : Dev) (f : Dev → Dev) : d.when true f = f d := rfl
theorem when_false (d : Dev) (f : Dev → Dev) : d.when false f = d := rfl

end Dev

/-! ## The state -/

namespace State

@[simp] theorem onDev_dev (s : State) (f : Dev → Dev) : (s.onDev f).dev = f s.dev := rfl
@[simp] theorem onDev_store (s : State) (f : Dev → Dev) : (s.onDev f).store = s.store := rfl
@[simp] theorem onDev_nvm (s : State) (f : Dev → Dev) : (s.onDev f).nvm = s.nvm := rfl
@[simp] theorem onDev_pending (s : State) (f : Dev → Dev) : (s.onDev f).pending = s.pending := rfl
@[simp] theorem nvmProgram_dev (s : State) (a : Nat) (bs : List Byte) : (s.nvmProgram a bs).dev = s.dev := rfl
@[simp] theorem nvmProgram_store (s : State) (a : Nat) (bs : List Byte) : (s.nvmProgram a bs).store = s.store := rfl
@[simp] theorem nvmProgram_pending (s : State) (a : Nat) (bs : List Byte) : (s.nvmProgram a bs).pending = s.pending := rfl
@[simp] theorem nvmErase_dev (s : State) (a n : Nat) : (s.nvmErase a n).dev = s.dev := rfl
@[simp] theorem nvmErase_store (s : State) (a n : Nat) : (s.nvmErase a n).store = s.store := rfl
@[simp] theorem nvmErase_pending (s : State) (a n : Nat) : (s.nvmErase a n).pending = s.pending := rfl

@[simp] theorem writeStore_nvm (s : State) (a : Nat) (bs : List Byte) : (s.writeStore a bs).nvm = s.nvm := by
  unfold writeStore; split <;> rfl
@[simp] theorem writeStore_pending (s : State) (a : Nat) (bs : List Byte) : (s.writeStore a bs).pending = s.pending := by
  unfold writeStore; split <;> rfl

/-- A meaning that concerns the block alone answers a next state, with the memories and the queue as they were. -/
theorem go_eq (s : State) (f : Dev → Dev) : s.go f = .next { s with dev := f s.dev } := rfl

end State

end Sys2Proof.Machine
end

