-- ==== Sys2Proof/Laws/Frames.lean ====
section
/-!
SUPPORT. Sys2Proof/Laws/Frames.lean: an operation leaves the registers of a window alone: the relation, and the shared register
operations under it.
-/

namespace Sys2Proof.Machine

/-- The registers at offsets from `lo` up to `hi` read as before. -/
def SameRegs (lo hi : Nat) (d e : Dev) : Prop := ∀ off ch, lo ≤ off → off < hi → e.reg off ch = d.reg off ch

namespace SameRegs

theorem refl (lo hi : Nat) (d : Dev) : SameRegs lo hi d d := fun _ _ _ _ => rfl

theorem trans {lo hi : Nat} {d e f : Dev} (h : SameRegs lo hi d e) (k : SameRegs lo hi e f) : SameRegs lo hi d f :=
  fun o c a b => (k o c a b).trans (h o c a b)

/-- A change of anything but the registers. -/
theorem of_regs {lo hi : Nat} {d e : Dev} (h : e.regs = d.regs) : SameRegs lo hi d e := fun o c _ _ => by
  unfold Dev.reg; rw [h]

theorem set {lo hi : Nat} (d : Dev) (f : Fld) (v ch : Nat) (h : f.off < lo ∨ hi ≤ f.off) : SameRegs lo hi d (d.set f v ch) :=
  fun o c a b => Dev.reg_set_ne d f v (.inl (by omega))

theorem put {lo hi : Nat} (d : Dev) (f : Fld) (v : Bool) (ch : Nat) (h : f.off < lo ∨ hi ≤ f.off) : SameRegs lo hi d (d.put f v ch) :=
  set d f _ ch h

theorem raise {lo hi : Nat} (d : Dev) (f : Fld) (ch : Nat) (h : f.off < lo ∨ hi ≤ f.off) : SameRegs lo hi d (d.raise f ch) :=
  set d f 1 ch h

theorem count {lo hi : Nat} (d : Dev) (f : Fld) (n ch : Nat) (h : f.off < lo ∨ hi ≤ f.off) : SameRegs lo hi d (d.count f n ch) :=
  set d f _ ch h

theorem when {lo hi : Nat} (d : Dev) (b : Bool) (f : Dev → Dev) (h : SameRegs lo hi d (f d)) : SameRegs lo hi d (d.when b f) := by
  cases b
  · exact refl lo hi d
  · exact h

theorem foldl {α : Type} {lo hi : Nat} (f : Dev → α → Dev) (h : ∀ d x, SameRegs lo hi d (f d x)) (l : List α) :
    ∀ d, SameRegs lo hi d (l.foldl f d) := by
  induction l with
  | nil => exact refl lo hi
  | cons x l ih => intro d; exact (h d x).trans (ih _)

/-- The fields of the window's registers read as before. -/
theorem get {lo hi : Nat} {d e : Dev} (h : SameRegs lo hi d e) (f : Fld) (ch : Nat) (a : lo ≤ f.off) (b : f.off < hi) :
    e.get f ch = d.get f ch := by
  unfold Dev.get; rw [h _ _ a b]

theorem refreshCond {lo hi : Nat} (d : Dev) (src : Nat) (h : 0x00010104 < lo ∨ hi ≤ 0x00010104) :
    SameRegs lo hi d (d.refreshCond src) := put d _ _ _ h

theorem raiseFault {lo hi : Nat} (d : Dev) (f : FaultAt) (h : 0x00010104 < lo ∨ hi ≤ 0x00010104) :
    SameRegs lo hi d (d.raiseFault f) := by
  unfold Dev.raiseFault
  split
  · exact refl lo hi d
  · exact (of_regs rfl).trans (refreshCond _ _ h)

theorem dropFault {lo hi : Nat} (d : Dev) (f : FaultAt) (h : 0x00010104 < lo ∨ hi ≤ 0x00010104) :
    SameRegs lo hi d (d.dropFault f) := (of_regs rfl).trans (refreshCond _ _ h)

theorem logAdd {lo hi : Nat} (d : Dev) (i n : Nat) (h : 0x00090110 < lo ∨ hi ≤ 0x00090000) : SameRegs lo hi d (d.logAdd i n) := by
  unfold Dev.logAdd
  split
  · exact refl lo hi d
  · exact (set d _ _ _ (by simp only [LOG.CTR_LO_COUNT_L]; omega)).trans (set _ _ _ _ (by simp only [LOG.CTR_HI_COUNT_H]; omega))

theorem bwAdd {lo hi : Nat} (d : Dev) (i n : Nat) : SameRegs lo hi d (d.bwAdd i n) := by
  unfold Dev.bwAdd
  split
  · exact of_regs rfl
  · exact refl lo hi d

/-- An access to the store changes registers of the Logbook alone (R485, R487). -/
theorem hbmAccess {lo hi : Nat} (d : Dev) (wr : Bool) (a len : Nat) (h : 0x00090110 < lo ∨ hi ≤ 0x00090000) :
    SameRegs lo hi d (d.hbmAccess wr a len) := by
  unfold Dev.hbmAccess
  split
  · exact refl lo hi d
  · exact foldl _ (fun d _ => (logAdd d _ _ h).trans (bwAdd _ _ _)) _ _

theorem hbmMoves {lo hi : Nat} (d : Dev) (wr : Bool) (xs : List (Nat × Nat)) (h : 0x00090110 < lo ∨ hi ≤ 0x00090000) :
    SameRegs lo hi d (d.hbmMoves wr xs) := by
  unfold Dev.hbmMoves
  split
  · exact refl lo hi d
  · exact foldl _ (fun d (x : Nat × Nat) => hbmAccess d wr x.1 x.2 h) _ _

end SameRegs

/-- A raised fault is present. -/
theorem Dev.raiseFault_mem (d : Dev) (f : FaultAt) : f ∈ (d.raiseFault f).conds := by
  unfold Dev.raiseFault
  split
  · next h => simpa using h
  · exact List.mem_cons_self ..

end Sys2Proof.Machine
end

