-- ==== Sys2Proof/Laws/Lanes.lean ====
section
/-!
SUPPORT. Sys2Proof/Laws/Lanes.lean: what the shared operations of the lane groups do to the registers: presence, silence, and entry into a
receive state.
-/

namespace Sys2Proof.Machine

namespace Dev

@[simp] theorem setRx_get (d : Dev) (g : Nat) (r : RxGrp) (f : Fld) (ch : Nat) : (d.setRx g r).get f ch = d.get f ch := rfl
@[simp] theorem setTx_get (d : Dev) (g : Nat) (t : TxGrp) (f : Fld) (ch : Nat) : (d.setTx g t).get f ch = d.get f ch := rfl
@[simp] theorem emit_get (d : Dev) (e : Emission) (f : Fld) (ch : Nat) : (d.emit e).get f ch = d.get f ch := rfl
@[simp] theorem roleChanged_get (d : Dev) (g : Nat) (f : Fld) (ch : Nat) : (d.roleChanged g).get f ch = d.get f ch := rfl
@[simp] theorem takePayload_get (d : Dev) (g l : Nat) (raw : BitVec 128) (f : Fld) (ch : Nat) :
    (d.takePayload g l raw).2.get f ch = d.get f ch := rfl

@[simp] theorem rxOf_setRx (d : Dev) (g : Nat) (r : RxGrp) : (d.setRx g r).rxOf g = r :=
  mapGet_mapPut_self d.rx (g, 0) RxGrp.init r
@[simp] theorem txOf_setTx (d : Dev) (g : Nat) (t : TxGrp) : (d.setTx g t).txOf g = t :=
  mapGet_mapPut_self d.tx (g, 0) TxGrp.init t

/-- The payloads of a group-wide block leave the registers. -/
theorem takePayloads_regs (d : Dev) (g : Nat) (bs : List LaneBlk) : (d.takePayloads g bs).2.regs = d.regs := by
  unfold takePayloads
  have key (l : List (LaneBlk × Nat)) : ∀ acc : List (BitVec 128) × Dev,
      (l.foldl (fun (acc : List (BitVec 128) × Dev) b =>
        let r := acc.2.takePayload g b.2 b.1.raw
        (acc.1 ++ [r.1], r.2)) acc).2.regs = acc.2.regs := by
    induction l with
    | nil => intro acc; rfl
    | cons x l ih => intro acc; exact (ih _).trans rfl
  exact key _ _

theorem refreshHolding_same (d : Dev) (n : Nat) : SameRegs 0 0x00300000 d (d.refreshHolding n) := by
  have hr (e : Dev) (b : Bool) (f : Fld) (h : 0x00300000 ≤ f.off) : SameRegs 0 0x00300000 e (e.raiseIf b f n) := by
    unfold raiseIf
    split
    · exact SameRegs.raise _ _ _ (.inr h)
    · exact SameRegs.refl _ _ _
  unfold refreshHolding
  extract_lets slot u h was d1 d2
  have k : SameRegs 0 0x00300000 d d2 :=
    ((hr d _ FS.SYNC_EVT_HOLD_START (by decide)).trans (hr _ _ FS.SYNC_EVT_HOLD_END (by decide))).trans
      (SameRegs.put _ _ _ _ (.inr (by decide)))
  split
  · exact k
  · exact k.trans (SameRegs.of_regs rfl)

theorem refreshPresence_same (d : Dev) (slot : Nat) (b : Bool) : SameRegs 0 0x00300000 d (d.refreshPresence slot b) := by
  unfold refreshPresence
  extract_lets ok
  split
  · refine SameRegs.trans (e := d.put SLP.IN_STAT_SRC_ABSENT false slot) ?_ ?_
    · exact SameRegs.put _ _ _ _ (.inr (by decide))
    · exact SameRegs.put _ _ _ _ (.inr (by decide))
  · next n _ =>
    extract_lets mm u e
    have he : SameRegs 0 0x00300000 d e := by
      by_cases h : ((!ok || mm) && u.writing.isSome) = true
      · exact SameRegs.of_regs (by simp only [e, h]; rfl)
      · exact SameRegs.of_regs (by simp only [e, h]; rfl)
    refine he.trans ?_
    refine SameRegs.trans (e := e.put FS.SYNC_STAT_FMT_MM mm n) ?_ (SameRegs.trans
      (e := (e.put FS.SYNC_STAT_FMT_MM mm n).put SLP.IN_STAT_SRC_ABSENT (!ok || mm) slot) ?_ (refreshHolding_same _ _))
    · exact SameRegs.put _ _ _ _ (.inr (by decide))
    · exact SameRegs.put _ _ _ _ (.inr (by decide))

/-- A group that leaves UP: its slots' words and presence; no register below the slot stages'. -/
theorem groupSilent_same (d : Dev) (g : Nat) : SameRegs 0 0x00300000 d (d.groupSilent g) := by
  unfold groupSilent
  split
  · refine SameRegs.foldl _ (fun d i => ?_) _ _
    extract_lets slot d'
    exact SameRegs.trans (e := d') (SameRegs.of_regs rfl) (refreshPresence_same _ _ _)
  · exact SameRegs.refl _ _ _

theorem when_get {d : Dev} {b : Bool} {f : Dev → Dev} {F : Fld} {ch : Nat} (h : (f d).get F ch = d.get F ch) :
    (d.when b f).get F ch = d.get F ch := by
  cases b
  · rfl
  · exact h

theorem putUp_get (d : Dev) (g : Nat) (b : Bool) (ch : Nat) :
    (d.putUp g b).get LNG.GRP_STAT_RX_STATE ch = d.get LNG.GRP_STAT_RX_STATE ch := by
  unfold putUp
  split <;> exact get_set_off _ _ _ _ _ _ (by decide)

/-- Entry into a state puts RX_STATE there. -/
theorem enterRx_state (d : Dev) (g st : Nat) : (d.enterRx g st).get LNG.GRP_STAT_RX_STATE g = st % 16 := by
  unfold enterRx
  extract_lets old e1 e2 e3 d1 d2 d3 d4 d5 d6
  have h0 : d1.get LNG.GRP_STAT_RX_STATE g = st % 16 :=
    (when_get rfl).trans ((when_get rfl).trans ((when_get rfl).trans (get_set_self _ _ _ _ (by decide))))
  have h1 : d2.get LNG.GRP_STAT_RX_STATE g = d1.get LNG.GRP_STAT_RX_STATE g := by
    apply when_get
    rw [roleChanged_get, (groupSilent_same _ _).get _ _ (by decide) (by decide), putUp_get]
    exact (get_set_off _ _ _ _ _ _ (by decide)).trans (get_set_off _ _ _ _ _ _ (by decide))
  have h2 : d3.get LNG.GRP_STAT_RX_STATE g = d2.get LNG.GRP_STAT_RX_STATE g := by
    apply when_get
    exact (SameRegs.dropFault (lo := 0x00100000) (hi := 0x00300000) _ _ (.inl (by decide))).get _ _ (by decide) (by decide)
  have h3 : d4.get LNG.GRP_STAT_RX_STATE g = d3.get LNG.GRP_STAT_RX_STATE g := by
    apply when_get
    rw [roleChanged_get, putUp_get]
    exact get_set_off _ _ _ _ _ _ (by decide)
  have h4 : d5.get LNG.GRP_STAT_RX_STATE g = d4.get LNG.GRP_STAT_RX_STATE g := by
    apply when_get
    exact get_set_fld _ _ _ _ _ _ (by decide) (by decide)
  have h5 : d6.get LNG.GRP_STAT_RX_STATE g = d5.get LNG.GRP_STAT_RX_STATE g := by
    apply when_get
    rw [setRx_get]
  rw [← h0, ← h1, ← h2, ← h3, ← h4, ← h5]
  apply when_get
  rw [setTx_get]

/-- While the 110 °C step does not hold, a direction goes where it is sent (R72). -/
theorem moveRx_plain {d : Dev} (h : d.shedding = false) (g st : Nat) : d.moveRx g st = d.enterRx g st := by
  unfold moveRx
  rw [h]
  rfl

end Dev

end Sys2Proof.Machine
end

