-- ==== Sys2Proof/Laws/Only.lean ====
section
/-!
SUPPORT. Sys2Proof/Laws/Only.lean: the operations that change nothing but registers (`OnlyRegs`), what such a change leaves alone field by
field, and the algebra of `RegsKept`: which registers a chain of operations leaves alone.
-/

namespace Sys2Proof.Machine

/-- Nothing but registers differs. -/
def OnlyRegs (d e : Dev) : Prop := ∃ r, e = { d with regs := r }

namespace OnlyRegs

variable {d e f : Dev}

theorem refl (d : Dev) : OnlyRegs d d := ⟨d.regs, rfl⟩

theorem trans (h : OnlyRegs d e) (k : OnlyRegs e f) : OnlyRegs d f := by
  obtain ⟨r, rfl⟩ := h
  obtain ⟨q, rfl⟩ := k
  exact ⟨q, rfl⟩

theorem setReg (d : Dev) (off ch : Nat) (v : Word) : OnlyRegs d (d.setReg off ch v) := ⟨_, rfl⟩
theorem set (d : Dev) (f : Fld) (v ch : Nat) : OnlyRegs d (d.set f v ch) := setReg _ _ _ _
theorem put (d : Dev) (f : Fld) (b : Bool) (ch : Nat) : OnlyRegs d (d.put f b ch) := set _ _ _ _
theorem raise (d : Dev) (f : Fld) (ch : Nat) : OnlyRegs d (d.raise f ch) := set _ _ _ _
theorem count (d : Dev) (f : Fld) (n ch : Nat) : OnlyRegs d (d.count f n ch) := set _ _ _ _
theorem putBit (d : Dev) (f : Fld) (i : Nat) (b : Bool) (ch : Nat) : OnlyRegs d (d.putBit f i b ch) := set _ _ _ _
theorem set2 (d : Dev) (lo hi : Fld) (v ch : Nat) : OnlyRegs d (d.set2 lo hi v ch) := trans (set _ _ _ _) (set _ _ _ _)

theorem raiseIf (d : Dev) (b : Bool) (f : Fld) (ch : Nat) : OnlyRegs d (d.raiseIf b f ch) := by
  cases b
  · exact refl _
  · exact raise _ _ _

theorem when (d : Dev) (b : Bool) (f : Dev → Dev) (h : OnlyRegs d (f d)) : OnlyRegs d (d.when b f) := by
  cases b
  · exact refl _
  · exact h

theorem foldl {α : Type} (f : Dev → α → Dev) (h : ∀ d x, OnlyRegs d (f d x)) (l : List α) : ∀ d, OnlyRegs d (l.foldl f d) := by
  induction l with
  | nil => exact refl
  | cons x l ih => exact fun d => trans (h d x) (ih _)

theorem clear (d : Dev) (fs : List Fld) (ch : Nat) : OnlyRegs d (d.clear fs ch) := foldl _ (fun _ _ => set _ _ _ _) _ _

theorem logAdd (d : Dev) (i n : Nat) : OnlyRegs d (d.logAdd i n) := by
  unfold Dev.logAdd
  split
  · exact refl _
  · exact set2 _ _ _ _ _

theorem refreshCond (d : Dev) (src : Nat) : OnlyRegs d (d.refreshCond src) := put _ _ _ _

/-! ## What such a change leaves alone -/

theorem get_act (h : OnlyRegs d e) : e.act = d.act := by obtain ⟨_, rfl⟩ := h; rfl
theorem get_hold (h : OnlyRegs d e) : e.hold = d.hold := by obtain ⟨_, rfl⟩ := h; rfl
theorem get_answer (h : OnlyRegs d e) : e.answer = d.answer := by obtain ⟨_, rfl⟩ := h; rfl
theorem get_cc (h : OnlyRegs d e) : e.cc = d.cc := by obtain ⟨_, rfl⟩ := h; rfl
theorem get_marks (h : OnlyRegs d e) : e.marks = d.marks := by obtain ⟨_, rfl⟩ := h; rfl
theorem get_drawn (h : OnlyRegs d e) : e.drawn = d.drawn := by obtain ⟨_, rfl⟩ := h; rfl
theorem get_rx (h : OnlyRegs d e) : e.rx = d.rx := by obtain ⟨_, rfl⟩ := h; rfl
theorem get_tx (h : OnlyRegs d e) : e.tx = d.tx := by obtain ⟨_, rfl⟩ := h; rfl
theorem get_roleSeq (h : OnlyRegs d e) : e.roleSeq = d.roleSeq := by obtain ⟨_, rfl⟩ := h; rfl
theorem get_roleSent (h : OnlyRegs d e) : e.roleSent = d.roleSent := by obtain ⟨_, rfl⟩ := h; rfl
theorem get_inWords (h : OnlyRegs d e) : e.inWords = d.inWords := by obtain ⟨_, rfl⟩ := h; rfl
theorem get_ins (h : OnlyRegs d e) : e.ins = d.ins := by obtain ⟨_, rfl⟩ := h; rfl
theorem get_slips (h : OnlyRegs d e) : e.slips = d.slips := by obtain ⟨_, rfl⟩ := h; rfl
theorem get_outQ (h : OnlyRegs d e) : e.outQ = d.outQ := by obtain ⟨_, rfl⟩ := h; rfl
theorem get_crcs (h : OnlyRegs d e) : e.crcs = d.crcs := by obtain ⟨_, rfl⟩ := h; rfl
theorem get_gens (h : OnlyRegs d e) : e.gens = d.gens := by obtain ⟨_, rfl⟩ := h; rfl
theorem get_outs (h : OnlyRegs d e) : e.outs = d.outs := by obtain ⟨_, rfl⟩ := h; rfl
theorem get_syncOf (h : OnlyRegs d e) : e.syncOf = d.syncOf := by obtain ⟨_, rfl⟩ := h; rfl
theorem get_follow (h : OnlyRegs d e) : e.follow = d.follow := by obtain ⟨_, rfl⟩ := h; rfl
theorem get_takes (h : OnlyRegs d e) : e.takes = d.takes := by obtain ⟨_, rfl⟩ := h; rfl
theorem get_salvos (h : OnlyRegs d e) : e.salvos = d.salvos := by obtain ⟨_, rfl⟩ := h; rfl
theorem get_submitted (h : OnlyRegs d e) : e.submitted = d.submitted := by obtain ⟨_, rfl⟩ := h; rfl
theorem get_takeMsgs (h : OnlyRegs d e) : e.takeMsgs = d.takeMsgs := by obtain ⟨_, rfl⟩ := h; rfl
theorem get_lastSeq (h : OnlyRegs d e) : e.lastSeq = d.lastSeq := by obtain ⟨_, rfl⟩ := h; rfl
theorem get_takesLost (h : OnlyRegs d e) : e.takesLost = d.takesLost := by obtain ⟨_, rfl⟩ := h; rfl
theorem get_macs (h : OnlyRegs d e) : e.macs = d.macs := by obtain ⟨_, rfl⟩ := h; rfl
theorem get_flows (h : OnlyRegs d e) : e.flows = d.flows := by obtain ⟨_, rfl⟩ := h; rfl
theorem get_flowSeq (h : OnlyRegs d e) : e.flowSeq = d.flowSeq := by obtain ⟨_, rfl⟩ := h; rfl
theorem get_bdls (h : OnlyRegs d e) : e.bdls = d.bdls := by obtain ⟨_, rfl⟩ := h; rfl
theorem get_egrs (h : OnlyRegs d e) : e.egrs = d.egrs := by obtain ⟨_, rfl⟩ := h; rfl
theorem get_egAud (h : OnlyRegs d e) : e.egAud = d.egAud := by obtain ⟨_, rfl⟩ := h; rfl
theorem get_syncs (h : OnlyRegs d e) : e.syncs = d.syncs := by obtain ⟨_, rfl⟩ := h; rfl
theorem get_pool (h : OnlyRegs d e) : e.pool = d.pool := by obtain ⟨_, rfl⟩ := h; rfl
theorem get_ueGran (h : OnlyRegs d e) : e.ueGran = d.ueGran := by obtain ⟨_, rfl⟩ := h; rfl
theorem get_bar2 (h : OnlyRegs d e) : e.bar2 = d.bar2 := by obtain ⟨_, rfl⟩ := h; rfl
theorem get_engArmed (h : OnlyRegs d e) : e.engArmed = d.engArmed := by obtain ⟨_, rfl⟩ := h; rfl
theorem get_commitAt (h : OnlyRegs d e) : e.commitAt = d.commitAt := by obtain ⟨_, rfl⟩ := h; rfl
theorem get_meters (h : OnlyRegs d e) : e.meters = d.meters := by obtain ⟨_, rfl⟩ := h; rfl
theorem get_audBufs (h : OnlyRegs d e) : e.audBufs = d.audBufs := by obtain ⟨_, rfl⟩ := h; rfl
theorem get_amx (h : OnlyRegs d e) : e.amx = d.amx := by obtain ⟨_, rfl⟩ := h; rfl
theorem get_lvlIn (h : OnlyRegs d e) : e.lvlIn = d.lvlIn := by obtain ⟨_, rfl⟩ := h; rfl
theorem get_aud (h : OnlyRegs d e) : e.aud = d.aud := by obtain ⟨_, rfl⟩ := h; rfl
theorem get_time (h : OnlyRegs d e) : e.time = d.time := by obtain ⟨_, rfl⟩ := h; rfl
theorem get_prevTime (h : OnlyRegs d e) : e.prevTime = d.prevTime := by obtain ⟨_, rfl⟩ := h; rfl
theorem get_stepped (h : OnlyRegs d e) : e.stepped = d.stepped := by obtain ⟨_, rfl⟩ := h; rfl
theorem get_res (h : OnlyRegs d e) : e.res = d.res := by obtain ⟨_, rfl⟩ := h; rfl
theorem get_resAcc (h : OnlyRegs d e) : e.resAcc = d.resAcc := by obtain ⟨_, rfl⟩ := h; rfl
theorem get_sample (h : OnlyRegs d e) : e.sample = d.sample := by obtain ⟨_, rfl⟩ := h; rfl
theorem get_lockRun (h : OnlyRegs d e) : e.lockRun = d.lockRun := by obtain ⟨_, rfl⟩ := h; rfl
theorem get_swPend (h : OnlyRegs d e) : e.swPend = d.swPend := by obtain ⟨_, rfl⟩ := h; rfl
theorem get_cadLast (h : OnlyRegs d e) : e.cadLast = d.cadLast := by obtain ⟨_, rfl⟩ := h; rfl
theorem get_cands (h : OnlyRegs d e) : e.cands = d.cands := by obtain ⟨_, rfl⟩ := h; rfl
theorem get_fHist (h : OnlyRegs d e) : e.fHist = d.fHist := by obtain ⟨_, rfl⟩ := h; rfl
theorem get_mEntry (h : OnlyRegs d e) : e.mEntry = d.mEntry := by obtain ⟨_, rfl⟩ := h; rfl
theorem get_goodT (h : OnlyRegs d e) : e.goodT = d.goodT := by obtain ⟨_, rfl⟩ := h; rfl
theorem get_xSum (h : OnlyRegs d e) : e.xSum = d.xSum := by obtain ⟨_, rfl⟩ := h; rfl
theorem get_learn (h : OnlyRegs d e) : e.learn = d.learn := by obtain ⟨_, rfl⟩ := h; rfl
theorem get_units (h : OnlyRegs d e) : e.units = d.units := by obtain ⟨_, rfl⟩ := h; rfl
theorem get_handover (h : OnlyRegs d e) : e.handover = d.handover := by obtain ⟨_, rfl⟩ := h; rfl
theorem get_con (h : OnlyRegs d e) : e.con = d.con := by obtain ⟨_, rfl⟩ := h; rfl
theorem get_digRuns (h : OnlyRegs d e) : e.digRuns = d.digRuns := by obtain ⟨_, rfl⟩ := h; rfl
theorem get_roleHold (h : OnlyRegs d e) : e.roleHold = d.roleHold := by obtain ⟨_, rfl⟩ := h; rfl
theorem get_actRestart (h : OnlyRegs d e) : e.actRestart = d.actRestart := by obtain ⟨_, rfl⟩ := h; rfl
theorem get_conds (h : OnlyRegs d e) : e.conds = d.conds := by obtain ⟨_, rfl⟩ := h; rfl
theorem get_rising (h : OnlyRegs d e) : e.rising = d.rising := by obtain ⟨_, rfl⟩ := h; rfl
theorem get_fltRecs (h : OnlyRegs d e) : e.fltRecs = d.fltRecs := by obtain ⟨_, rfl⟩ := h; rfl
theorem get_injArmed (h : OnlyRegs d e) : e.injArmed = d.injArmed := by obtain ⟨_, rfl⟩ := h; rfl
theorem get_fltLog (h : OnlyRegs d e) : e.fltLog = d.fltLog := by obtain ⟨_, rfl⟩ := h; rfl
theorem get_fltSeq (h : OnlyRegs d e) : e.fltSeq = d.fltSeq := by obtain ⟨_, rfl⟩ := h; rfl
theorem get_logCopied (h : OnlyRegs d e) : e.logCopied = d.logCopied := by obtain ⟨_, rfl⟩ := h; rfl
theorem get_aclk (h : OnlyRegs d e) : e.aclk = d.aclk := by obtain ⟨_, rfl⟩ := h; rfl
theorem get_kickSeq (h : OnlyRegs d e) : e.kickSeq = d.kickSeq := by obtain ⟨_, rfl⟩ := h; rfl
theorem get_wdogWait (h : OnlyRegs d e) : e.wdogWait = d.wdogWait := by obtain ⟨_, rfl⟩ := h; rfl
theorem get_ladder (h : OnlyRegs d e) : e.ladder = d.ladder := by obtain ⟨_, rfl⟩ := h; rfl
theorem get_haltHold (h : OnlyRegs d e) : e.haltHold = d.haltHold := by obtain ⟨_, rfl⟩ := h; rfl
theorem get_spData (h : OnlyRegs d e) : e.spData = d.spData := by obtain ⟨_, rfl⟩ := h; rfl
theorem get_spNack (h : OnlyRegs d e) : e.spNack = d.spNack := by obtain ⟨_, rfl⟩ := h; rfl
theorem get_faultN (h : OnlyRegs d e) : e.faultN = d.faultN := by obtain ⟨_, rfl⟩ := h; rfl
theorem get_inReset (h : OnlyRegs d e) : e.inReset = d.inReset := by obtain ⟨_, rfl⟩ := h; rfl
theorem get_pg (h : OnlyRegs d e) : e.pg = d.pg := by obtain ⟨_, rfl⟩ := h; rfl
theorem get_railLost (h : OnlyRegs d e) : e.railLost = d.railLost := by obtain ⟨_, rfl⟩ := h; rfl
theorem get_bootFw (h : OnlyRegs d e) : e.bootFw = d.bootFw := by obtain ⟨_, rfl⟩ := h; rfl
theorem get_bootChart (h : OnlyRegs d e) : e.bootChart = d.bootChart := by obtain ⟨_, rfl⟩ := h; rfl
theorem get_fwImage (h : OnlyRegs d e) : e.fwImage = d.fwImage := by obtain ⟨_, rfl⟩ := h; rfl
theorem get_loader (h : OnlyRegs d e) : e.loader = d.loader := by obtain ⟨_, rfl⟩ := h; rfl
theorem get_chartDone (h : OnlyRegs d e) : e.chartDone = d.chartDone := by obtain ⟨_, rfl⟩ := h; rfl
theorem get_chartHeld (h : OnlyRegs d e) : e.chartHeld = d.chartHeld := by obtain ⟨_, rfl⟩ := h; rfl
theorem get_refWait (h : OnlyRegs d e) : e.refWait = d.refWait := by obtain ⟨_, rfl⟩ := h; rfl
theorem get_tunes (h : OnlyRegs d e) : e.tunes = d.tunes := by obtain ⟨_, rfl⟩ := h; rfl
theorem get_vcore (h : OnlyRegs d e) : e.vcore = d.vcore := by obtain ⟨_, rfl⟩ := h; rfl
theorem get_restoring (h : OnlyRegs d e) : e.restoring = d.restoring := by obtain ⟨_, rfl⟩ := h; rfl
theorem get_bootHalt (h : OnlyRegs d e) : e.bootHalt = d.bootHalt := by obtain ⟨_, rfl⟩ := h; rfl
theorem get_bootHdr (h : OnlyRegs d e) : e.bootHdr = d.bootHdr := by obtain ⟨_, rfl⟩ := h; rfl
theorem get_bootGo (h : OnlyRegs d e) : e.bootGo = d.bootGo := by obtain ⟨_, rfl⟩ := h; rfl
theorem get_sent (h : OnlyRegs d e) : e.sent = d.sent := by obtain ⟨_, rfl⟩ := h; rfl
theorem get_msixDefer (h : OnlyRegs d e) : e.msixDefer = d.msixDefer := by obtain ⟨_, rfl⟩ := h; rfl
theorem get_funcMask (h : OnlyRegs d e) : e.funcMask = d.funcMask := by obtain ⟨_, rfl⟩ := h; rfl
theorem get_evtWas (h : OnlyRegs d e) : e.evtWas = d.evtWas := by obtain ⟨_, rfl⟩ := h; rfl
theorem get_soft (h : OnlyRegs d e) : e.soft = d.soft := by obtain ⟨_, rfl⟩ := h; rfl
theorem get_qSince (h : OnlyRegs d e) : e.qSince = d.qSince := by obtain ⟨_, rfl⟩ := h; rfl
theorem get_restarting (h : OnlyRegs d e) : e.restarting = d.restarting := by obtain ⟨_, rfl⟩ := h; rfl
theorem get_mbxReqs (h : OnlyRegs d e) : e.mbxReqs = d.mbxReqs := by obtain ⟨_, rfl⟩ := h; rfl
theorem get_mbxRsps (h : OnlyRegs d e) : e.mbxRsps = d.mbxRsps := by obtain ⟨_, rfl⟩ := h; rfl
theorem get_mbxLost (h : OnlyRegs d e) : e.mbxLost = d.mbxLost := by obtain ⟨_, rfl⟩ := h; rfl
theorem get_dmaFly (h : OnlyRegs d e) : e.dmaFly = d.dmaFly := by obtain ⟨_, rfl⟩ := h; rfl
theorem get_evtPins (h : OnlyRegs d e) : e.evtPins = d.evtPins := by obtain ⟨_, rfl⟩ := h; rfl
theorem get_keys (h : OnlyRegs d e) : e.keys = d.keys := by obtain ⟨_, rfl⟩ := h; rfl
theorem get_stageLast (h : OnlyRegs d e) : e.stageLast = d.stageLast := by obtain ⟨_, rfl⟩ := h; rfl
theorem get_stageType (h : OnlyRegs d e) : e.stageType = d.stageType := by obtain ⟨_, rfl⟩ := h; rfl
theorem get_actLen (h : OnlyRegs d e) : e.actLen = d.actLen := by obtain ⟨_, rfl⟩ := h; rfl
theorem get_absent (h : OnlyRegs d e) : e.absent = d.absent := by obtain ⟨_, rfl⟩ := h; rfl
theorem get_toggles (h : OnlyRegs d e) : e.toggles = d.toggles := by obtain ⟨_, rfl⟩ := h; rfl
theorem get_pclkReq (h : OnlyRegs d e) : e.pclkReq = d.pclkReq := by obtain ⟨_, rfl⟩ := h; rfl
theorem get_bwAcc (h : OnlyRegs d e) : e.bwAcc = d.bwAcc := by obtain ⟨_, rfl⟩ := h; rfl

end OnlyRegs

namespace RegsKept

variable {d e f : Dev} {k : List Key}

theorem refl (d : Dev) (k : List Key) : RegsKept d d k := fun _ _ _ => rfl

theorem trans (h : RegsKept d e k) (h' : RegsKept e f k) : RegsKept d f k := fun o c n => (h' o c n).trans (h o c n)

/-- A change of anything but the registers. -/
theorem of_regs (h : e.regs = d.regs) : RegsKept d e k := fun o c _ => by
  unfold Dev.reg
  rw [h]

theorem mono {k' : List Key} (h : RegsKept d e k) (s : ∀ x ∈ k, x ∈ k') : RegsKept d e k' := fun o c n => h o c (fun m => n (s _ m))

theorem setReg (d : Dev) (off ch : Nat) (v : Word) (h : (off, ch) ∈ k) : RegsKept d (d.setReg off ch v) k := fun o c n =>
  Dev.reg_setReg_ne d v (by
    by_cases e : o = off
    · exact .inr fun e' => n (by rw [e, e']; exact h)
    · exact .inl e)

theorem set (d : Dev) (f : Fld) (v ch : Nat) (h : (f.off, ch) ∈ k) : RegsKept d (d.set f v ch) k := setReg _ _ _ _ h
theorem put (d : Dev) (f : Fld) (v : Bool) (ch : Nat) (h : (f.off, ch) ∈ k) : RegsKept d (d.put f v ch) k := set _ _ _ _ h
theorem raise (d : Dev) (f : Fld) (ch : Nat) (h : (f.off, ch) ∈ k) : RegsKept d (d.raise f ch) k := set _ _ _ _ h
theorem count (d : Dev) (f : Fld) (n ch : Nat) (h : (f.off, ch) ∈ k) : RegsKept d (d.count f n ch) k := set _ _ _ _ h
theorem putBit (d : Dev) (f : Fld) (i : Nat) (b : Bool) (ch : Nat) (h : (f.off, ch) ∈ k) : RegsKept d (d.putBit f i b ch) k :=
  set _ _ _ _ h
theorem set2 (d : Dev) (lo hi : Fld) (v ch : Nat) (h : (lo.off, ch) ∈ k) (h' : (hi.off, ch) ∈ k) : RegsKept d (d.set2 lo hi v ch) k :=
  trans (set _ _ _ _ h) (set _ _ _ _ h')

theorem raiseIf (d : Dev) (b : Bool) (f : Fld) (ch : Nat) (h : (f.off, ch) ∈ k) : RegsKept d (d.raiseIf b f ch) k := by
  cases b
  · exact refl _ _
  · exact raise _ _ _ h

theorem when (d : Dev) (b : Bool) (f : Dev → Dev) (h : RegsKept d (f d) k) : RegsKept d (d.when b f) k := by
  cases b
  · exact refl _ _
  · exact h

theorem clear (fs : List Fld) (ch : Nat) (h : ∀ f ∈ fs, (f.off, ch) ∈ k) : ∀ d : Dev, RegsKept d (d.clear fs ch) k := by
  induction fs with
  | nil => exact fun d => refl _ _
  | cons f fs ih =>
    exact fun d => trans (set d f 0 ch (h f (.head _))) (ih (fun g m => h g (.tail _ m)) _)

theorem logAdd (d : Dev) (i n : Nat) (h : (0x00090100, i) ∈ k) (h' : (0x00090104, i) ∈ k) : RegsKept d (d.logAdd i n) k := by
  unfold Dev.logAdd
  split
  · exact refl _ _
  · exact set2 _ _ _ _ _ h h'

theorem bwAdd (d : Dev) (i n : Nat) : RegsKept d (d.bwAdd i n) k := by
  unfold Dev.bwAdd
  split
  · exact of_regs rfl
  · exact refl _ _

theorem refreshCond (d : Dev) (src : Nat) (h : (0x00010104, src) ∈ k) : RegsKept d (d.refreshCond src) k := put _ _ _ _ h

theorem raiseFault (d : Dev) (f : FaultAt) (h : (0x00010104, f.src) ∈ k) : RegsKept d (d.raiseFault f) k := by
  unfold Dev.raiseFault
  split
  · exact refl _ _
  · exact trans (of_regs rfl) (refreshCond _ _ h)

theorem dropFault (d : Dev) (f : FaultAt) (h : (0x00010104, f.src) ∈ k) : RegsKept d (d.dropFault f) k :=
  trans (of_regs rfl) (refreshCond _ _ h)

/-- A field of a register that is kept. -/
theorem field (h : RegsKept d e k) (f : Fld) (ch : Nat) (n : (f.off, ch) ∉ k) : e.get f ch = d.get f ch := by
  unfold Dev.get
  rw [h _ _ n]

end RegsKept

end Sys2Proof.Machine
end

