-- ==== Sys2Proof/Laws/Ops.lean ====
section
/-!
SUPPORT. Sys2Proof/Laws/Ops.lean: what the shared operations over the frame store and the NVM can do: each keeps the canonical form and
the queue; and reading back what was written.
-/

namespace Sys2Proof.Machine

/-! ## The canonical form -/

theorem bar2Put_wf (bs : List (Option Byte)) : ∀ (m : Memory) (a : Nat), memWf storeFill m = true →
    memWf storeFill (bar2Put m a bs) = true := by
  induction bs with
  | nil => intro m a h; exact h
  | cons b bs ih =>
    intro m a h
    apply ih
    cases b with
    | none => exact h
    | some v =>
      dsimp only
      split
      · exact memWrite_wf _ _ _ _ h
      · exact h

/-- A byte outside SURF and HOST, or outside the block written, reads as before. -/
theorem bar2Put_out (bs : List (Option Byte)) : ∀ (m : Memory) (a b : Nat),
    (b < surfStart ∨ storeEnd ≤ b ∨ b < a ∨ a + bs.length ≤ b) →
    memRead storeFill b (bar2Put m a bs) = memRead storeFill b m := by
  induction bs with
  | nil => intros; rfl
  | cons x bs ih =>
    intro m a b h
    simp only [List.length_cons] at h
    refine (ih _ _ _ (by omega)).trans ?_
    cases x with
    | none => rfl
    | some v =>
      dsimp only
      split
      · exact memRead_memWrite_ne (by omega) _ _ _
      · rfl

/-- An enabled byte in SURF or HOST reads back. -/
theorem bar2Put_in (bs : List (Option Byte)) : ∀ (m : Memory) (a i : Nat) (v : Byte), bs[i]? = some (some v) →
    surfStart ≤ a + i → a + i < storeEnd → memRead storeFill (a + i) (bar2Put m a bs) = v := by
  induction bs with
  | nil => intro m a i v h; simp at h
  | cons x bs ih =>
    intro m a i v h h1 h2
    cases i with
    | zero =>
      simp only [List.getElem?_cons_zero, Option.some.injEq] at h
      subst h
      simp only [Nat.add_zero] at h1 h2 ⊢
      refine (bar2Put_out bs _ (a + 1) a (by omega)).trans ?_
      show memRead storeFill a (if surfStart ≤ a ∧ a < storeEnd then memWrite storeFill m a v else m) = v
      rw [if_pos ⟨h1, h2⟩]
      exact memRead_memWrite_self _ _ _ _
    | succ i =>
      simp only [List.getElem?_cons_succ] at h
      have := ih (match x with
        | some v => if surfStart ≤ a ∧ a < storeEnd then memWrite storeFill m a v else m
        | none => m) (a + 1) i v h (by omega) (by omega)
      rwa [show a + (i + 1) = a + 1 + i by omega]

namespace State

theorem memWf_iff' (s : State) : s.memWf = true ↔
    Sys2Proof.Machine.memWf storeFill s.store = true ∧ Sys2Proof.Machine.memWf nvmFill s.nvm = true := by
  simp [State.memWf]

/-- A change of the block alone keeps the memories. -/
theorem memWf_dev {s : State} (d : Dev) (p : List Instr) (h : s.memWf = true) : State.memWf ⟨d, s.store, s.nvm, p⟩ = true := h

@[simp] theorem onDev_memWf (s : State) (f : Dev → Dev) : (s.onDev f).memWf = s.memWf := rfl

theorem writeStore_memWf {s : State} (a : Nat) (bs : List Byte) (h : s.memWf = true) : (s.writeStore a bs).memWf = true := by
  rw [memWf_iff'] at h ⊢
  refine ⟨?_, by rw [writeStore_nvm]; exact h.2⟩
  unfold writeStore
  split
  · exact h.1
  · exact bar2Put_wf _ _ _ h.1

theorem nvmProgram_memWf {s : State} (a : Nat) (bs : List Byte) (h : s.memWf = true) : (s.nvmProgram a bs).memWf = true := by
  rw [memWf_iff'] at h ⊢
  exact ⟨h.1, memWrites_wf _ _ _ _ h.2⟩

theorem nvmErase_memWf {s : State} (a n : Nat) (h : s.memWf = true) : (s.nvmErase a n).memWf = true := by
  rw [memWf_iff'] at h ⊢
  exact ⟨h.1, memFilter_wf _ _ _ h.2⟩

theorem withNvm_memWf {s : State} (f : State → State) (h : s.memWf = true) (hf : (f s).memWf = true) :
    (s.withNvm f).memWf = true := by
  unfold withNvm
  split
  · rw [onDev_memWf]; exact h
  · exact hf

theorem withNvm_pending {s : State} (f : State → State) (hf : (f s).pending = s.pending) : (s.withNvm f).pending = s.pending := by
  unfold withNvm
  split
  · exact onDev_pending ..
  · exact hf

theorem mbxRun_memWf {s : State} (cmd : Nat) (rom : Bool) (f : State → State) (h : s.memWf = true) (hf : (f s).memWf = true) :
    (s.mbxRun cmd rom f).memWf = true := by
  unfold mbxRun
  split
  · exact h
  · split
    · rw [onDev_memWf]; exact h
    · exact hf

theorem mbxRun_pending {s : State} (cmd : Nat) (rom : Bool) (f : State → State) (hf : (f s).pending = s.pending) :
    (s.mbxRun cmd rom f).pending = s.pending := by
  unfold mbxRun
  split
  · rfl
  · split
    · exact onDev_pending ..
    · exact hf

theorem restoreBegin_keeps (s : State) (w : Bool) : (s.restoreBegin w).store = s.store ∧ (s.restoreBegin w).pending = s.pending ∧
    (s.memWf = true → (s.restoreBegin w).memWf = true) := by
  unfold restoreBegin
  split
  · exact ⟨onDev_store .., onDev_pending .., fun h => (onDev_memWf ..).trans h⟩
  · split
    · exact ⟨onDev_store .., onDev_pending .., fun h => (onDev_memWf ..).trans h⟩
    · exact ⟨(nvmErase_store ..).trans (onDev_store ..), (nvmErase_pending ..).trans (onDev_pending ..),
        fun h => nvmErase_memWf _ _ ((onDev_memWf ..).trans h)⟩

/-- A restore that register writes have started leaves the store and the queue, and keeps the canonical form. -/
theorem afterRestore_keeps (s : State) (was : Bool) : (s.afterRestore was).store = s.store ∧
    (s.afterRestore was).pending = s.pending ∧ (s.memWf = true → (s.afterRestore was).memWf = true) := by
  unfold afterRestore
  split
  · have k := restoreBegin_keeps (s.onDev fun d => { d with restoring := false }) false
    rw [onDev_store, onDev_pending, onDev_memWf] at k
    exact k
  · exact ⟨rfl, rfl, id⟩

/-! ## The Chart loader -/

/-- A record leaves the queue, and keeps the canonical form. -/
theorem recApply_keeps (s : State) (r : List Byte) (again : Bool) :
    (s.recApply r again).2.pending = s.pending ∧ (s.memWf = true → (s.recApply r again).2.memWf = true) := by
  unfold recApply
  split
  · split
    · exact ⟨writeStore_pending .., writeStore_memWf _ _⟩
    · exact ⟨rfl, id⟩
  · exact (afterRestore_keeps { s with dev := (s.dev.recEffect r again).2 } s.dev.restoring).2

/-- A record that the loader takes leaves the queue, and keeps the canonical form. -/
theorem loadRecord_keeps (s : State) (want : Nat → Bool) :
    (s.loadRecord want).2.pending = s.pending ∧
      (s.memWf = true → (s.loadRecord want).2.memWf = true) := by
  unfold loadRecord
  split
  · exact ⟨rfl, id⟩
  · split
    · exact ⟨rfl, id⟩
    · exact ⟨rfl, id⟩
    · next d here next pos r _ => exact recApply_keeps { s with dev := d } r here.polled

theorem loadRun_keeps (n : Nat) : ∀ s : State, (s.loadRun n).pending = s.pending ∧
    (s.memWf = true → (s.loadRun n).memWf = true) := by
  induction n with
  | zero => intro s; exact ⟨rfl, id⟩
  | succ n ih =>
    intro s
    have k := loadRecord_keeps s (fun _ => true)
    unfold loadRun
    extract_lets x
    split
    · have j := ih (s.loadRecord (fun _ => true)).2
      exact ⟨j.1.trans k.1, fun h => j.2 (k.2 h)⟩
    · exact k

theorem loadAll_keeps (s : State) : s.loadAll.pending = s.pending ∧ (s.memWf = true → s.loadAll.memWf = true) := by
  unfold loadAll
  split
  · exact loadRun_keeps _ s
  · exact ⟨rfl, id⟩

/-- The Chart's start concerns the block alone. -/
theorem chartStart_same (s : State) : ∃ d, s.chartStart = { s with dev := d } := by
  unfold chartStart
  split
  · exact ⟨_, rfl⟩
  · split <;> exact ⟨_, rfl⟩

theorem phaseB_keeps (s : State) : ((s.onDev (·.phaseBStart)).loadAll).pending = s.pending ∧
    (s.memWf = true → ((s.onDev (·.phaseBStart)).loadAll).memWf = true) := by
  have k := loadAll_keeps (s.onDev (·.phaseBStart))
  rw [onDev_pending, onDev_memWf] at k
  exact k

/-- What follows a register write leaves the queue and keeps the canonical form. -/
theorem afterWrite_keeps (s : State) (was : Bool) : (s.afterWrite was).pending = s.pending ∧
    (s.memWf = true → (s.afterWrite was).memWf = true) := by
  have key (t : State) (ht : t.pending = s.pending ∧ (s.memWf = true → t.memWf = true)) :
      (if t.dev.chartHeld && t.dev.chartDone then (t.onDev (·.phaseBStart)).loadAll else t).pending = s.pending ∧
        (s.memWf = true → (if t.dev.chartHeld && t.dev.chartDone then (t.onDev (·.phaseBStart)).loadAll else t).memWf = true) := by
    split
    · have k := phaseB_keeps t
      exact ⟨k.1.trans ht.1, fun h => k.2 (ht.2 h)⟩
    · exact ht
  unfold afterWrite
  apply key
  exact (afterRestore_keeps s was).2

theorem logProgram_keeps (s : State) (a : Nat) (head : List Byte) (e : LogEnt) : (s.logProgram a head e).store = s.store ∧
    (s.logProgram a head e).pending = s.pending ∧ (s.memWf = true → (s.logProgram a head e).memWf = true) :=
  ⟨rfl, rfl, fun h => memWf_dev _ _ (nvmProgram_memWf _ _ h)⟩

theorem logBegin_keeps (s : State) (k gen : Nat) (e : LogEnt) : (s.logBegin k gen e).store = s.store ∧
    (s.logBegin k gen e).pending = s.pending ∧ (s.memWf = true → (s.logBegin k gen e).memWf = true) := by
  unfold logBegin
  split
  · exact ⟨rfl, rfl, nvmErase_memWf _ _⟩
  · exact logProgram_keeps _ _ _ _

theorem logCopy_keeps (s : State) : s.logCopy.store = s.store ∧ s.logCopy.pending = s.pending ∧
    (s.memWf = true → s.logCopy.memWf = true) := by
  unfold logCopy
  split
  · exact ⟨rfl, rfl, id⟩
  · split
    · exact logBegin_keeps _ _ _ _
    · split
      · exact logProgram_keeps _ _ _ _
      · exact logBegin_keeps _ _ _ _

theorem calRewrite_keeps (s : State) (xs : List (Nat × List Byte)) : (s.calRewrite xs).store = s.store ∧
    (s.calRewrite xs).pending = s.pending ∧ (s.memWf = true → (s.calRewrite xs).memWf = true) := by
  unfold calRewrite
  dsimp only
  split
  · exact ⟨rfl, rfl, fun h => memWf_dev _ _ (nvmProgram_memWf _ _ (nvmErase_memWf _ _ h))⟩
  · exact ⟨rfl, rfl, id⟩

/-- A sector write leaves the frame store and the queue, and keeps the canonical form. -/
theorem sectorWrite_keeps (s : State) (w : NvmWrite) : (s.sectorWrite w).store = s.store ∧
    (s.sectorWrite w).pending = s.pending ∧ (s.memWf = true → (s.sectorWrite w).memWf = true) := by
  cases w <;> unfold sectorWrite <;> dsimp only <;> split
  · exact ⟨rfl, rfl, id⟩
  · exact ⟨rfl, rfl, nvmErase_memWf _ _⟩
  · exact ⟨rfl, rfl, id⟩
  · exact ⟨rfl, rfl, nvmProgram_memWf _ _⟩
  · exact logCopy_keeps s
  · exact ⟨rfl, rfl, id⟩
  · exact calRewrite_keeps s _
  · exact ⟨rfl, rfl, id⟩

end State

end Sys2Proof.Machine
end

