-- ==== Sys2Proof/Laws/Pictures.lean ====
section
/-!
SUPPORT. Sys2Proof/Laws/Pictures.lean: pictures written to the frame store keep its canonical form.
-/

namespace Sys2Proof.Machine

theorem foldl_wf {α : Type} (u : Byte) (f : Memory → α → Memory) (h : ∀ m x, memWf u m = true → memWf u (f m x) = true)
    (l : List α) : ∀ m, memWf u m = true → memWf u (l.foldl f m) = true := by
  induction l with
  | nil => intro m hm; exact hm
  | cons x l ih => intro m hm; exact ih _ (h m x hm)

/-- Rows written to a buffer. -/
theorem putRows_wf (m : Memory) (a : Nat) (rows : List (Nat × List Samp)) (h : memWf storeFill m = true) :
    memWf storeFill (putRows m a rows) = true :=
  foldl_wf _ _ (fun _ _ hm => memWrites_wf _ _ _ _ hm) _ m h

/-- An engine's frame in its freeze buffer (R246). -/
theorem freezeStore_wf (d : Dev) (m : Memory) (e : Nat) (late : List (Nat × Nat)) (h : memWf storeFill m = true) :
    memWf storeFill (d.freezeStore m e late) = true := by
  unfold Dev.freezeStore
  exact foldl_wf _ _ (fun _ _ hm => putRows_wf _ _ _ hm) _ m h

/-- A synchroniser's line in its buffer (R221). -/
theorem syncLine_memWf (s : State) (slot : Nat) (l : LineIn) (h : s.memWf = true) : (s.syncLine slot l).memWf = true := by
  have k := (State.memWf_iff' s).1 h
  unfold State.syncLine
  extract_lets d
  split
  · exact h
  · extract_lets u code
    split
    · exact (State.memWf_iff' _).2 ⟨putRows_wf _ _ _ k.1, k.2⟩
    · exact h

/-- The delay lines' samples of a tick (R236). -/
theorem poolStore_wf (d : Dev) (n : Nat) (m : Memory) (h : memWf storeFill m = true) : memWf storeFill (d.poolStore n m) = true := by
  unfold Dev.poolStore
  refine foldl_wf _ _ (fun m' x hm => ?_) _ m h
  dsimp only
  split
  · exact memWrites_wf _ _ _ _ hm
  · exact hm

end Sys2Proof.Machine
end

