-- ==== Sys2Proof/Laws/Upd.lean ====
section
/-!
SUPPORT. Sys2Proof/Laws/Upd.lean: the mailbox commands, the activation and the DMA engine keep the queue and the canonical form of
the memories.
-/

namespace Sys2Proof.Machine

/-- The queue stands as it was, and the canonical form of the memories is kept. -/
def Keeps (s t : State) : Prop := t.pending = s.pending ∧ (s.memWf = true → t.memWf = true)

namespace Keeps

theorem refl (s : State) : Keeps s s := ⟨rfl, id⟩

theorem trans {s t u : State} (h : Keeps s t) (k : Keeps t u) : Keeps s u := ⟨k.1.trans h.1, fun w => k.2 (h.2 w)⟩

theorem dev (s : State) (d : Dev) : Keeps s { s with dev := d } := ⟨rfl, id⟩

theorem onDev (s : State) (f : Dev → Dev) : Keeps s (s.onDev f) :=
  ⟨State.onDev_pending .., fun h => (State.onDev_memWf ..).trans h⟩

theorem program (s : State) (a : Nat) (bs : List Byte) : Keeps s (s.nvmProgram a bs) :=
  ⟨State.nvmProgram_pending .., State.nvmProgram_memWf a bs⟩

theorem erase (s : State) (a n : Nat) : Keeps s (s.nvmErase a n) := ⟨State.nvmErase_pending .., State.nvmErase_memWf a n⟩

theorem writeStore (s : State) (a : Nat) (bs : List Byte) : Keeps s (s.writeStore a bs) :=
  ⟨State.writeStore_pending .., State.writeStore_memWf a bs⟩

theorem answer (s : State) (cmd st : Nat) (data : List Byte) : Keeps s (s.answer cmd st data) := onDev s _

theorem withNvm {s : State} {f : State → State} (h : Keeps s (f s)) : Keeps s (s.withNvm f) :=
  ⟨State.withNvm_pending f h.1, fun w => State.withNvm_memWf f w (h.2 w)⟩

theorem mbxRun {s : State} {cmd : Nat} {rom : Bool} {f : State → State} (h : Keeps s (f s)) : Keeps s (s.mbxRun cmd rom f) :=
  ⟨State.mbxRun_pending cmd rom f h.1, fun w => State.mbxRun_memWf cmd rom f w (h.2 w)⟩

theorem keyRefuse (s : State) (slot st : Nat) : Keeps s (s.keyRefuse slot st) := (onDev s _).trans (answer _ _ _ _)

theorem keyReplace (s : State) (pkg key : List Byte) (slot : Nat) (rb : Bool) : Keeps s (s.keyReplace pkg key slot rb) := by
  unfold State.keyReplace
  extract_lets d none' x y gen rec' image head t usage d2 d3 d4 d5
  have ht : Keeps s t := ((erase s _ _).trans (program _ _ _)).trans (program _ _ _)
  split
  · exact (ht.trans (dev t _)).trans (answer _ _ _ _)
  · exact (ht.trans (erase t _ _)).trans (answer _ _ _ _)

theorem keyCheck (s : State) (pkg : List Byte) (slot len : Nat) (w rb : Bool) : Keeps s (s.keyCheck pkg slot len w rb) := by
  unfold State.keyCheck
  extract_lets d x
  split
  · exact keyRefuse s slot stBadParam
  · split
    · exact keyRefuse s slot stDenied
    · split
      · exact keyRefuse s slot stDenied
      · split
        · exact (dev s x.2).trans (keyRefuse { s with dev := x.2 } slot stVerifyFail)
        · split
          · exact (dev s x.2).trans (keyRefuse { s with dev := x.2 } slot stBusy)
          · next key _ _ => exact withNvm ((dev s x.2).trans (keyReplace { s with dev := x.2 } pkg key slot rb))

theorem stageWrite (s : State) (data : Option (List Byte)) : Keeps s (s.stageWrite data) := by
  unfold State.stageWrite
  extract_lets d off len again
  split
  · exact answer s _ _ _
  · split
    · exact answer s _ _ _
    · split
      · exact answer s _ _ _
      · split
        · exact answer s _ _ _
        · split
          · exact (onDev s _).trans (answer _ _ _ _)
          · split
            · exact (onDev s _).trans (answer _ _ _ _)
            · exact withNvm ((((erase s _ _).trans (program _ _ _)).trans (onDev _ _)).trans (answer _ _ _ _))

theorem stageVerify (s : State) : Keeps s s.stageVerify := by
  unfold State.stageVerify
  extract_lets len
  split
  · exact answer s _ _ _
  · apply withNvm
    extract_lets img type x good t
    split
    · exact ((dev s x.2).trans (onDev _ _)).trans (answer _ _ _ _)
    · exact ((dev s x.2).trans (onDev _ _)).trans (answer _ _ _ _)

theorem activation (s : State) : Keeps s s.activation := by
  unfold State.activation
  extract_lets d t
  split
  · split
    · exact (onDev s _).trans (withNvm (erase _ _ _))
    · exact onDev s _
  · exact onDev s _

theorem newHeader (s : State) (a b : Nat) : Keeps s (s.newHeader a b) := by
  unfold State.newHeader
  extract_lets k gen h
  exact ((erase s _ _).trans (program _ _ _)).trans (onDev _ _)

theorem stageDone (s : State) (b : Bool) : Keeps s (s.stageDone b) := onDev s _

theorem activationEnd (s : State) (b : Bool) : Keeps s (s.activationEnd b) := by
  unfold State.activationEnd
  extract_lets d len img x good s2 t
  have h : Keeps s s2 := dev s _
  split
  · split
    · exact (((((h.trans (erase _ _ _)).trans (program _ _ _)).trans (newHeader _ _ _))).trans (onDev _ _)).trans (stageDone _ _)
    · exact ((h.trans (erase _ _ _)).trans (stageDone _ _)).trans (onDev _ _)
  · split
    · exact (((h.trans (erase _ _ _)).trans (program _ _ _)).trans (newHeader _ _ _)).trans (stageDone _ _)
    · exact (h.trans (erase _ _ _)).trans (stageDone _ _)

theorem dmaMove (s : State) (elem : List Byte) (data : Option (List Byte)) : Keeps s (s.dmaMove elem data).2.2 := by
  unfold State.dmaMove
  extract_lets a n
  split
  · exact refl s
  · split
    · unfold State.dmaIn
      extract_lets bs d
      split
      · exact dev s d
      · exact (dev s d).trans (writeStore _ _ _)
    · exact dev s _

end Keeps

end Sys2Proof.Machine
end

