-- ==== Sys2Proof/Tests/Slice0.lean ====
section
/-!
SUPPORT. Sys2Proof/Tests/Slice0.lean: the model's own tests: for each statement concrete states and operands that meet the hypotheses of
each clause, with what the command answers there; the commands that no sender can form; the queue. Which theorem serves which
statement:

- LaneData: wit_LaneDelivery, wit_LaneWords, wit_LaneSending
- ControlAndAlignment: wit_ControlBlocks, wit_Alignment
- ReceiveStates: wit_ReceiveMoves, test_rxReqWrite_off
- TransmitStates: wit_TransmitMoves, wit_RoleWordChange
- InputStage: wit_InputParser, wit_InputReports
- OutputAndCrosspoint: wit_OutputStage, wit_Crosspoint, wit_SlotStreams
- TakeEntryBytes: test_takeEntry_bytes
- TakeIntake: wit_TakeSubmission, wit_TakeMessageChecks, wit_TakeMessageChecks_hmac
- TakeEntries: wit_TakeEntries
- TakeOutcomes: wit_TakeExecution, wit_TakeEnds
- MacLinksAndTransmit: wit_MacLinks, wit_MacTransmit
- GatesAndTimestamps: wit_GateSchedule, wit_MacTimestamps
- MacReceive: wit_MacReceive
- FlowContexts: wit_FlowContexts, wit_FlowContexts_bad
- EgressFlows: wit_EgressFlows
- Queues: wit_GeneralQueues, wit_QueueCommands
- Synchronisers: wit_SyncStartStop, wit_SyncFrames
- FrameStore: wit_Bar2Access, wit_StoreErrors
- EngineControl: wit_EngineStartStop, wit_EngineCommits_rejected
- EngineWork: wit_EngineFrame, wit_EngineCoefficients
- MatrixControl: wit_MatrixCommits, wit_MatrixEnable
- MatrixAudio: wit_AudioFollow, wit_MatrixTicks
- AudioPorts: wit_AudioDirections, wit_AudioSync
- Chronometer: wit_TimeSteps, wit_IncrLimits
- Servo: wit_ServoSamples, wit_ServoLoop
- CadencesAndTriggers: wit_CadencesAndTriggers
- Lodestar: wit_ReferenceSelection, wit_ReferenceStates
- Candidates: wit_ReferenceCandidates, wit_ReferenceMeasurement
- HoldoverModel: wit_HoldoverModel
- ConsortRole: wit_ConsortStates, wit_ConsortYield
- ConsortLink: wit_ConsortUnits, wit_ConsortHeartbeats
- ConsortState: wit_ConsortJournal, wit_ConsortCopy, wit_RegionCommit
- BusAccess: wit_BusErrors, wit_SelectRegisters
- RegisterAccess: wit_RegisterWrites, wit_HoldingRegisters
- EventRouter: wit_EventRouter
- LogbookAndCounters: wit_Logbook, wit_CounterClears
- ClocksAndCrossings: wit_ClocksAndCrossings
- FaultRecords: wit_FaultRecords
- FaultCommands: wit_FaultCommands, wit_FaultInjection
- Supervision: wit_Watchdog, wit_ThermalSupervision
- SidePort: wit_SidePort
- Resets: wit_ControlSide, wit_HostInterface, wit_DeviceResets
- NvmCommands: wit_NvmCommands, wit_NvmFirmware
- BootSequence: wit_BootSequence, wit_FirmwareVerifies
- ChartPhases: wit_ChartPhases, wit_OddImage
- ChartRecords: wit_ChartRecords
- Mailbox: wit_Mailbox
- MailboxCommands: wit_MailboxCommands
- Staging: wit_Staging, wit_StagedImages
- Activation: wit_Activation, wit_StagedImages
- KeysAndDma: wit_KeyCommands, wit_DmaEngine
- FramesMedia: wit_FramesMedia
- FramesTimeAndControl: wit_FramesTimeAndControl
- CommandsComplete: wit_CommandsComplete
- StepRunsFront: wit_StepRunsFront
- IdleCycle: wit_IdleCycle
- StepKeepsMemories: wit_StepKeepsMemories
- SoftSources: wit_SoftSources
- EmptyOffsets: wit_EmptyOffsets
-/

open Sys2Proof Sys2Proof.Machine

section

set_option Elab.async false

/-! ## Helpers -/

/-- The block after reset, long after the last event that it times. -/
def late : Dev := { State.reset.dev with cc := 10 ^ 15 }

/-- The state after reset with its block changed. -/
def st (f : Dev → Dev) : State := { State.reset with dev := f late }

/-- Every listed register but those of some keys reads the same in both. -/
def kept (d e : Dev) (keys : List Key) : Bool :=
  (d.regs ++ e.regs).all fun kv => keys.contains kv.1 || e.reg kv.1.1 kv.1.2 == d.reg kv.1.1 kv.1.2

/-- Every listed register but those of some offsets reads the same in both. -/
def offsKept (d e : Dev) (offs : List Nat) : Bool :=
  (d.regs ++ e.regs).all fun kv => offs.contains kv.1.1 || e.reg kv.1.1 kv.1.2 == d.reg kv.1.1 kv.1.2

/-- The command answers a next state with the memories and the queue as they were, and the block as `p` says. -/
def ran (i : Instr) (s : State) (p : Dev → Bool) : Bool :=
  match exec i s with
  | .next t => t.store == s.store && t.nvm == s.nvm && t.pending == s.pending && p t.dev
  | _ => false

/-- The command answers a next state with nothing but registers changed, as `p` says. -/
def regs (i : Instr) (s : State) (p : Dev → Bool) : Bool :=
  ran i s fun d => { d with regs := s.dev.regs } == s.dev && p d

/-- The command answers a next state as `p` says. -/
def runs (i : Instr) (s : State) (p : State → Bool) : Bool :=
  match exec i s with
  | .next t => p t
  | _ => false

/-- The same block but for its registers. -/
def sameBut (d e : Dev) : Bool := { d with regs := e.regs } == e

/-- A general queue that runs: its number, direction, element and ring sizes and its producer index. -/
def withQ (d : Dev) (q : Nat) (dir : Bool) (esz logN prod : Nat) : Dev :=
  ((((d.put QM.Q_STAT_RUN true q).put QM.Q_CFG_DIR dir q).set QM.Q_CFG_ESZ esz q).set QM.Q_CFG_LOG_N logN q).set QM.Q_PROD_IDX prod q

/-- The state after reset with another block. -/
def on (d : Dev) : State := st fun _ => d

/-- An output that runs format 1, with its counter as given. -/
def outp (en fmt : Nat) (x : OutStage) : State :=
  st fun d => { (d.set SLP.OUT_CFG_OUT_EN en 7).set SLP.OUT_CFG_OUT_FMT fmt 7 with outs := [((7, 0), x)] }

/-- The take engine enabled, with its ring and messages, on outputs that run format 1. -/
def eng : Dev := withQ ((((outp 1 1 OutStage.init).dev.put HIF.TK_CTL_EN true).put HIF.TK_CTL_RING_EN true).put HIF.TK_CTL_MSG_EN true) 12289 true 4 2 1
  |>.set HIF.TK_QUEUES_ENT_Q 12289

/-- A pending take of output 7. -/
def tk (due : Option Int) (salvo : Nat) : Take := ⟨5, false, false, false, salvo, 0, 0, due, false, false, .ring⟩

/-- A payload through the self-synchronising scrambler, from an all-zero state. -/
def scrambled (p : BitVec 128) : BitVec 128 :=
  let f (r : BitVec 128) : BitVec 128 := p ^^^ (r <<< 39) ^^^ (r <<< 58)
  f (f (f (f p)))

/-- A payload of a data block. -/
def dataRaw : BitVec 128 := 0x0F1E2D3C4B5A69788796A5B4C3D2E1F0

/-- A MAC that runs with its link up. -/
def mac (m : Nat) : Dev := { (late.put MAC.STAT_RUN true m).put MAC.STAT_LINK true m with inReset := false }

/-! ## Lane groups -/

/-- A control block on a lane. -/
def ctl (type : Nat) (bs : List Nat) (at_ui : Nat) : LaneBlk :=
  ⟨0xA, scrambled (BitVec.ofNat 128 (leNat (controlPayload type bs))), at_ui⟩

/-- A group in a receive state, a transmit state and a mode. -/
def grp (g rx tx mode : Nat) : State :=
  st fun d => ((d.set LNG.GRP_STAT_RX_STATE rx g).set LNG.GRP_STAT_TX_STATE tx g).set LNG.GRP_CTL_MODE mode g

theorem wit_LaneDelivery : [
    (grp 35 5 0 0).dev.rxState 35 == 5 && !(grp 35 5 0 0).dev.compat 35 && ran (.dataBlockRx 35 7 ⟨0x5, scrambled dataRaw, 0⟩) (grp 35 5 0 0) (fun d =>
      (mapGet d.inWords (1148, 0) []) == [0xC3D2E1F0] && (mapGet d.inWords (1149, 0) []) == [0x8796A5B4] &&
      (mapGet d.inWords (1150, 0) []) == [0x4B5A6978] && (mapGet d.inWords (1151, 0) []) == [0x0F1E2D3C] && kept (grp 35 5 0 0).dev d [(0x00090100, 35), (0x00090104, 35)]),
    (grp 35 5 0 1).dev.compat 35 && ran (.dataBlockRx 35 7 ⟨0x5, scrambled dataRaw, 0⟩) (grp 35 5 0 1) (fun d =>
      (mapGet d.inWords (1148, 0) []) == [0xC3D2E1F0, 0x4B5A6978] && (mapGet d.inWords (1149, 0) []) == [0x8796A5B4, 0x0F1E2D3C] &&
      (mapGet d.inWords (1150, 0) []) == []),
    decide ((((grp 2 5 0 0).dev.rxOf 2).lanes.getD 0 ⟨0, 0, 0, 0, false⟩).hdrErr + 1 ≤ (grp 2 5 0 0).dev.get LNG.ERR_CFG_HDR_THR 2) &&
      ran (.dataBlockRx 2 0 ⟨0x3, dataRaw, 0⟩) (grp 2 5 0 0) (fun d => d.get LNG.CNT_HDR_COUNT 2 == 1 && d.rxState 2 == 5 &&
        (mapGet d.inWords (64, 0) []) == [0] && kept (grp 2 5 0 0).dev d [(0x00100120, 2), (0x00090100, 2), (0x00090104, 2)]),
    (grp 2 4 0 0).dev.rxState 2 != 5 && ran (.dataBlockRx 2 0 ⟨0xA, dataRaw, 0⟩) (grp 2 4 0 0) (fun d => d.inWords == [] && kept (grp 2 4 0 0).dev d [])
  ].all id = true := by decide +kernel

theorem wit_ControlBlocks : [
    controlOk ((grp 0 5 0 0).dev.takePayload 0 3 (ctl 0x1E [] 0).raw).1 && controlTypes.contains (payloadByte ((grp 0 5 0 0).dev.takePayload 0 3 (ctl 0x1E [] 0).raw).1 0).toNat &&
      ran (.idleBlockRx 0 3 (ctl 0x1E [] 0).raw) (grp 0 5 0 0) (fun d => kept (grp 0 5 0 0).dev d []) &&
      ran (.trainBlockRx 0 3 (ctl 0x2D [1, 2] 0).raw) (grp 0 5 0 0) (fun d => kept (grp 0 5 0 0).dev d []),
    !controlOk ((grp 0 5 0 0).dev.takePayload 0 3 dataRaw).1 && ran (.badControlBlock 0 3 dataRaw) (grp 0 5 0 0) (fun d =>
      d.get LNG.CNT_CTL_COUNT 0 == 1 && kept (grp 0 5 0 0).dev d [(0x00100128, 0)]),
    controlOk ((grp 0 5 0 0).dev.takePayload 0 3 (ctl 0x11 [] 0).raw).1 && ran (.idleBlockRx 0 3 (ctl 0x11 [] 0).raw) (grp 0 5 0 0) (fun d =>
      d.get LNG.CNT_CTL_COUNT 0 == 1 && kept (grp 0 5 0 0).dev d [(0x00100128, 0)])
  ].all id = true := by decide +kernel

/-- Eight ALIGN blocks of group 36 with MSEQ 0x0201, the first lane `skew` UI late. -/
def aligns (skew : Nat) : List LaneBlk := (List.range 8).map fun l => ctl 0x4B [36, l, 1, 2] (if l = 0 then skew else 0)

theorem wit_Alignment : [
    (grp 36 4 0 0).dev.rxState 36 == 4 && ((grp 36 4 0 0).dev.takePayloads 36 (aligns 53)).1.all (fun p => controlOk p &&
      (payloadByte p 0).toNat == 0x4B && (payloadByte p 1).toNat % 64 == 36 && Dev.mseqOf p == 0x201) &&
      ran (.alignBlockRx 36 (aligns 53)) (grp 36 4 0 0) (fun d => d.rxState 36 == 5 && d.get LNG.SKEW_STAT_SKEW 36 == 53 &&
        d.get LNG.SKEW_STAT_SKEW_VALID 36 == 1 && d.get LNG.EVT_STAT_UP 36 == 1 && (d.rxOf 36).mseq == 0x201),
    ran (.alignBlockRx 36 (aligns 54)) (grp 36 4 0 0) (fun d => d.rxState 36 == 4 && d.get LNG.EVT_STAT_SKEW_FAIL 36 == 1),
    ran (.markerMissing 0 [0, 7]) (grp 0 5 0 0) (fun d => d.get LNG.CNT_MRK_COUNT 0 == 2),
    ran (.markerMissing 0 [0, 7]) (grp 0 4 0 0) (fun d => d == (grp 0 4 0 0).dev)
  ].all id = true := by decide +kernel

/-- Lane blocks of a type on the first `n` lanes, and IDLE on the rest. -/
def blocks (type : Nat) (bs : List Nat) (n : Nat) : List LaneBlk :=
  (List.range 8).map fun l => if l < n then ctl type bs 0 else ctl 0x1E [] 0

theorem wit_LaneWords : [
    Dev.agreed (Dev.validOf 0x66 (blocks 0x66 [5, 9, 0x34, 0x12] 5) ((grp 0 5 0 0).dev.takePayloads 0 (blocks 0x66 [5, 9, 0x34, 0x12] 5)).1)
        == some (BitVec.ofNat 128 (leNat (controlPayload 0x66 [5, 9, 0x34, 0x12]))) &&
      ran (.roleBlockRx 0 (blocks 0x66 [5, 9, 0x34, 0x12] 5)) (grp 0 5 0 0) (fun d => d.get LNG.ROLE_RX_VALID 0 == 1 &&
        d.get LNG.ROLE_RX_ROLE 0 == 1 && d.get LNG.ROLE_RX_HEALTHY 0 == 1 && d.get LNG.ROLE_RX_ROLE_SEQ 0 == 9 &&
        d.get LNG.ROLE_RX_SYSID 0 == 0x1234 && kept (grp 0 5 0 0).dev d [(0x00100114, 0), (0x0010011C, 0)]),
    ran (.roleBlockRx 0 (blocks 0x66 [5, 9, 0x34, 0x12] 4)) (grp 0 5 0 0) (fun d => d.get LNG.ROLE_RX_VALID 0 == 0),
    decide (5 ≤ (Dev.validOf 0x78 (blocks 0x78 [] 5) ((grp 0 5 0 0).dev.takePayloads 0 (blocks 0x78 [] 5)).1).length) &&
      ran (.restBlockRx 0 (blocks 0x78 [] 5)) (grp 0 5 0 0) (fun d => d.rxState 0 == 7 && (d.rxOf 0).retained && d.get LNG.EVT_STAT_REST_RX 0 == 1),
    ran (.restBlockRx 0 (blocks 0x78 [] 5)) (grp 0 4 0 0) (fun d => d.rxState 0 == 4 && kept (grp 0 4 0 0).dev d []),
    ran (.restBlockRx 0 ((blocks 0x78 [] 7).set 7 ⟨0x3, dataRaw, 0⟩))
      (st fun d => ((d.set LNG.GRP_STAT_RX_STATE 5 0).set LNG.ERR_CFG_HDR_THR 0 0)) (fun d => d.rxState 0 == 6),
    ran (.exitBlockRx 0 (blocks 0x99 [] 5)) (grp 0 7 0 1) (fun d => d.rxState 0 == 4 && d.get LNG.GRP_STAT_LANE_LOCK 0 == 255),
    (grp 0 7 0 1).dev.compat 0 && !(grp 0 7 0 1).dev.shedding &&
      decide ((Dev.validOf 0x99 (blocks 0x99 [] 4) ((grp 0 7 0 1).dev.takePayloads 0 (blocks 0x99 [] 4)).1).length < 5) &&
      ran (.exitBlockRx 0 (blocks 0x99 [] 4)) (grp 0 7 0 1) (fun d => d.rxState 0 == 2)
  ].all id = true := by decide +kernel

theorem wit_ReceiveMoves : [
    !(grp 3 5 0 0).dev.shedding,
    [2, 3, 4].all fun r => ran (.clockLos 3) (grp 3 r 0 0) (fun d => d.rxState 3 == 2 && d.get LNG.GRP_STAT_CLK_LOS 3 == 1 && d.get LNG.CNT_DOWN_COUNT 3 == 0) &&
      ran (.clockLol 3) (grp 3 r 0 0) (fun d => d.rxState 3 == 2 && d.get LNG.GRP_STAT_CLK_LOL 3 == 1 && d.get LNG.CNT_DOWN_COUNT 3 == 0),
    ran (.clockLos 3) (grp 3 5 0 0) (fun d => d.rxState 3 == 6 && d.get LNG.EVT_STAT_LOS 3 == 1 && d.get LNG.EVT_STAT_DOWN 3 == 1 &&
      d.get LNG.CNT_DOWN_COUNT 3 == 1 && d.conds.any fun f => f.src == 64 && f.unit == 3),
    ran (.clockLol 36) (grp 36 5 0 0) (fun d => d.rxState 36 == 6 && d.get LNG.EVT_STAT_LOL 36 == 1 && d.get LNG.EVT_STAT_DOWN 36 == 1 &&
      d.get LNG.CNT_DOWN_COUNT 36 == 1 && d.conds.contains (groupFault 64 36)),
    ran (.forceRetrain 3) (grp 3 5 0 0) (fun d => d.rxState 3 == 6 && d.get LNG.EVT_STAT_DOWN 3 == 1 && d.get LNG.CNT_DOWN_COUNT 3 == 1),
    ran (.clockLosClear 3) (grp 3 7 0 0) (fun d => d.rxState 3 == 2 && d.get LNG.GRP_STAT_CLK_LOS 3 == 0),
    ran (.clockValid 3) (grp 3 2 0 0) (fun d => d.rxState 3 == 3 && d.get LNG.GRP_STAT_CLK_LOS 3 == 0),
    ran (.blockLock 3 0xFF) (grp 3 3 0 0) (fun d => d.rxState 3 == 4 && d.get LNG.GRP_STAT_LANE_LOCK 3 == 255),
    State.reset.dev.lasted .rxClock 3 200 == false && ran (.clockValid 3) State.reset (fun d => d == State.reset.dev),
    ran (.blockLock 3 0xFE) (grp 3 3 0 0) (fun d => d.rxState 3 == 3 && d.get LNG.GRP_STAT_LANE_LOCK 3 == 254),
    [0, 1, 7].all fun r => ran (.forceRetrain 3) (grp 3 r 0 0) (fun d => d == (grp 3 r 0 0).dev),
    ran (.clockLos 3) (grp 3 0 0 0) (fun d => d == (grp 3 0 0 0).dev) && ran (.clockLol 3) (grp 3 1 0 0) (fun d => d == (grp 3 1 0 0).dev),
    (grp 3 6 0 0).dev.lasted .rxDown 3 1000 && (grp 3 6 0 0).dev.flag LNG.GRP_CTL_RETRAIN_AUTO 3 && ran (.retrainTimer 3) (grp 3 6 0 0) (fun d => d.rxState 3 == 2),
    ran (.retrainAutoWrite 3 true) (st fun d => (d.set LNG.GRP_STAT_RX_STATE 6 3).setRx 3 { RxGrp.init with aged := true })
      (fun d => d.rxState 3 == 2 && d.get LNG.GRP_CTL_RETRAIN_AUTO 3 == 1),
    [2, 3, 4, 6].all fun r => ran (.forceRetrain 3) (grp 3 r 0 0) (fun d => d.rxState 3 == 2),
    [0, 1].all fun r => ran (.rxReqWrite 3 2) (grp 3 r 0 0) (fun d => d.rxState 3 == 2 && d.get LNG.GRP_CTL_RX_REQ 3 == 2)
  ].all id = true := by decide +kernel

theorem test_rxReqWrite_off : (List.range 8).all (fun r =>
    ran (.rxReqWrite 3 0) (grp 3 r 0 0) (fun d => d.rxState 3 == 0) && ran (.rxReqWrite 3 1) (grp 3 r 0 0) (fun d => d.rxState 3 == 1) &&
    ran (.rxReqWrite 3 3) (grp 3 r 0 0) (fun d => d.rxState 3 == 1 && d.get LNG.GRP_CTL_RX_REQ 3 == 3)) = true := by decide +kernel

/-- A group whose transmitter is not held in OFF. -/
def txGrp (tx : Nat) (mode : Nat) (t : TxGrp) : State :=
  st fun d => (((d.set LNG.GRP_STAT_TX_STATE tx 3).set LNG.GRP_CTL_MODE mode 3).put FLT.STAT_RUNNING true).setTx 3 t

theorem wit_TransmitMoves : [
    !(txGrp 0 0 TxGrp.init).dev.txHeldOff 3 && !(txGrp 0 0 TxGrp.init).dev.shedding &&
      ran (.txReqWrite 3 2) (txGrp 0 0 TxGrp.init) (fun d => d.txState 3 == 2 && (d.txOf 3).seqStep == some (.full, 1)),
    ran (.txReqWrite 3 2) (txGrp 1 0 TxGrp.init) (fun d => d.txState 3 == 2 && (d.txOf 3).seqStep == some (.wake, 1)),
    ran (.txReqWrite 3 2) (txGrp 1 1 TxGrp.init) (fun d => d.txState 3 == 2 && (d.txOf 3).seqStep == some (.exit, 3)),
    ran (.txReqWrite 3 0) (txGrp 3 0 TxGrp.init) (fun d => d.txState 3 == 0),
    ran (.trainingStepEnd 3) (txGrp 2 0 { TxGrp.init with seqStep := some (.full, 1) }) (fun d => d.txState 3 == 2 &&
      (d.txOf 3).seqStep == some (.full, 2) && d.sent == [.prbs 3 [0x1FFF, 0x1FFE, 0x1FFD, 0x1FFC, 0x1FFB, 0x1FFA, 0x1FF9, 0x1FF8]]),
    (txGrp 2 0 { TxGrp.init with seqStep := some (.full, 3) }).dev.stepOver 3 &&
      ran (.trainingStepEnd 3) (txGrp 2 0 { TxGrp.init with seqStep := some (.full, 3) }) (fun d => d.txState 3 == 3),
    ran (.trainingStepEnd 3) (txGrp 3 0 TxGrp.init) (fun d => d == (txGrp 3 0 TxGrp.init).dev),
    ran (.markerPeriodStart 3) (txGrp 3 0 { TxGrp.init with mseq := 65535, idx := 4096 }) (fun d => (d.txOf 3).mseq == 0 && (d.txOf 3).idx == 0 &&
      (match d.sent with | .lanes 3 ps :: _ => ps.length == 8 && ps.all fun p => p.head? == some 0x4B | _ => false)),
    [0, 1, 2].all fun k : Fin 3 => ran (.roleIndex 3 k) (txGrp 3 0 TxGrp.init) (fun d => (d.txOf 3).idx == 4096 * (k.val + 1) &&
      d.sent.head? == some (.lanes 3 (List.replicate 8 (controlPayload 0x66 ((txGrp 3 0 TxGrp.init).dev.roleWord 3))))),
    ran (.roleWordSend 3) (txGrp 3 0 { TxGrp.init with changed := true }) (fun d => !(d.txOf 3).changed && d.sent.length == 1),
    ran (.restSend 3) (txGrp 3 0 { TxGrp.init with restWait := true }) (fun d => d.txState 3 == 1 &&
      (match d.sent with | [.lanes 3 ps] => ps.all fun p => p.head? == some 0x78 | _ => false)),
    ran (.forceTrain 3) (txGrp 3 0 TxGrp.init) (fun d => d.txState 3 == 2 && (d.txOf 3).seqStep == some (.full, 1) && d.get LNG.EVT_STAT_RETRAIN 3 == 1),
    (grp 3 4 0 0).dev.flag LNG.GRP_CTL_TRQ_EN 3 && ran (.trqTimer 3) (grp 3 4 0 0) (fun d => (d.txOf 3).trq && (d.txOf 3).changed && kept (grp 3 4 0 0).dev d [])
  ].all id = true := by decide +kernel

/-- A transmitter in RUN with three words queued for output 96, the second a V = 0 word. -/
def txWords (mode : Nat) : Dev := { (txGrp 3 mode TxGrp.init).dev with outQ := [((96, 0), [0x40000001, 0x00000002, 0x40000003])] }

theorem wit_LaneSending : [
    mapGet ((txWords 0).sendData 3 2).outQ (96, 0) [] == [0x40000003] &&
      ((txWords 0).sendData 3 2).sent == [.data 3 2 [(96, [0x40000001, 0])]] &&
      ((txWords 0).sendData 3 2).get2 LOG.CTR_LO_COUNT_L LOG.CTR_HI_COUNT_H 40 == 16,
    mapGet ((txWords 1).sendData 3 1).outQ (96, 0) [] == [0x40000003] &&
      ((txWords 1).sendData 3 1).sent == [.data 3 1 [(96, [0x40000001, 0])]],
    mapGet ((txWords 0).sendData 2 2).outQ (96, 0) [] == mapGet (txWords 0).outQ (96, 0) []
  ].all id = true := by decide +kernel

theorem wit_RoleWordChange : [
    (st fun d => d.put FLT.STAT_HEALTHY true).dev.roleSent != (0, true) && ran .roleWordChange (st fun d => d.put FLT.STAT_HEALTHY true) (fun d =>
      d.roleSeq == 1 && (List.range 37).all fun g => (d.txOf g).changed),
    ran (.elasticSlip 1151 true) State.reset (fun d => d.get LNG.CNT_SLIP_COUNT 35 == 1 && kept State.reset.dev d [(0x0010012C, 35)])
  ].all id = true := by decide +kernel

/-! ## Slots, crosspoint and takes -/

/-- A line of two streams of 24 words, EAV first, with line number `n`; M marks its first slot word. -/
def lineWords16 (n : Nat) : List Word :=
  let st : List Samp := [0x3FF, 0, 0, xyz false true true] ++ lnWords n ++ [0, 0] ++ List.replicate 16 0x040
  let ss := interleave [st, st]
  (List.range 16).map fun i => slotWord (ss.getD (3 * i) 0) (ss.getD (3 * i + 1) 0) (ss.getD (3 * i + 2) 0) (i == 0)

/-- An input stage that runs in a parser state, tracking lines of 48 words: it holds the line 5 and the head of the line 6. -/
def inp (parse : Nat) : State :=
  st fun d => { (((d.put SLP.IN_CFG_IN_EN true 1535).set SLP.IN_STAT_PARSE parse 1535).put SLP.IN_CFG_CRC_CHK true 1535).set SLP.IN_STAT_DET_FMT 1 1535
    with ins := [((1535, 0), { InStage.init with wpl := 48, s := 2, buf := lineWords16 5 ++ (lineWords16 6).take 6 })] }

/-- The same stage without an EAV at the expected position: V = 0 words and words of blanking. -/
def blind (parse : Nat) : State :=
  st fun _ => { (inp parse).dev with ins := [((1535, 0), { InStage.init with wpl := 48, s := 2, buf := 0 :: lineWords16 5 ++ List.replicate 6 (slotWord 0x040 0x040 0x040 false) })] }

theorem wit_InputParser : [
    ran (.inputEnable 1535 false) (inp 2) (fun d => d.get SLP.IN_CFG_IN_EN 1535 == 0 && d.get SLP.IN_STAT_PARSE 1535 == 0 && d.get SLP.IN_STAT_DET_FMT 1535 == 0),
    ran (.inputEnable 0 true) State.reset (fun d => d.get SLP.IN_CFG_IN_EN 0 == 1 && d.actReg 0x00300104 0 == State.reset.dev.reg 0x00300104 0),
    (inp 0).dev.flag SLP.IN_CFG_IN_EN 1535 && (inp 0).dev.nextEav 1535 == some (48, 2, false, true) && ran (.eavFound 1535) (inp 0) (fun d =>
      d.get SLP.IN_STAT_PARSE 1535 == 1 && d.get SLP.CNT_TRS_COUNT 1535 == 0),
    (inp 3).dev.nextEav 1535 == some (48, 2, false, true) && ran (.eavFound 1535) (inp 3) (fun d =>
      d.get SLP.IN_STAT_PARSE 1535 == 2 && d.get SLP.CNT_CRC_COUNT 1535 == 2),
    ran (.eavFound 0) State.reset (fun d => d == State.reset.dev),
    (blind 1).dev.nextPlace 1535 == some 48 && (blind 1).dev.nextEav 1535 == none && ran (.eavMiss 1535) (blind 1) (fun d =>
      d.get SLP.IN_STAT_PARSE 1535 == 0 && d.get SLP.CNT_TRS_COUNT 1535 == 1),
    ran (.eavMiss 1535) (blind 2) (fun d => d.get SLP.IN_STAT_PARSE 1535 == 3)
  ].all id = true := by decide +kernel

/-- A packet that the parser has found. -/
def pkt : AncPkt := ⟨9, false, false, 0x61, 0x02, false, [0x101, 0x102]⟩

/-- The parser has found a frame start, a payload ID and a packet. -/
def foundIn (d : Dev) : Dev := d.setIns 1535 { d.insOf 1535 with fresh := true, pids := [0x8907CA01], pkts := [pkt] }

/-- An input stage that captures ancillary packets to queue 12,288, filled up to `fill` of its four elements. -/
def capt (fill : Nat) : State :=
  st fun _ => withQ (((((((foundIn (inp 2).dev).put (SLP.ANC_FLT_EN 7) true 1535).put (SLP.ANC_FLT_CAP 7) true 1535).set (SLP.ANC_FLT_DID 7) 0x61 1535).set (SLP.ANC_FLT_SDID 7) 0x02 1535).fltCommit 1535 fltIn).put SLP.ANC_Q_CAP_EN true 1535)
    12288 false 4 2 fill |>.set SLP.ANC_Q_CAP_Q 12288 1535

theorem wit_InputReports : [
    (foundIn (inp 2).dev).locked 1535 && (inp 2).dev.syncAt 1535 == none && (fmtOf ((inp 2).dev.get SLP.IN_STAT_DET_FMT 1535)).isSome &&
      (foundIn (inp 2).dev).insOf 1535 != (inp 2).dev.insOf 1535 && ((foundIn (inp 2).dev).frameOfs 1535).1 == 0 &&
      ran (.inputFrameStart 1535) (on (foundIn (inp 2).dev)) (fun d => d.actReg 0x00300104 1535 == (inp 2).dev.reg 0x00300104 1535 &&
        d.get SLP.TA_OFS_VALID 1535 == 1 && d.get SLP.TA_OFS_OFS_LINES 1535 == 0 && d.get SLP.TA_OFS_NS_OFS_NS 1535 == 0),
    ran (.payloadIdPacket 1535) (on (foundIn (inp 2).dev)) (fun d => d.get SLP.PID_PID 1535 == 0x8907CA01 && d.get SLP.IN_STAT_PID_VALID 1535 == 1 &&
      d.get SLP.EVT_STAT_PID_CHG 1535 == 1 && (d.insOf 1535).pids == []),
    (capt 3).dev.ancMatch 1535 fltIn 7 pkt && (capt 3).dev.flag (SLP.ANC_FLT_CAP 7) 1535 && (capt 3).dev.qUsable 12288 false (ancRecord 1535 pkt).length &&
      (capt 3).dev.qFill 12288 == 3 && ran (.ancPacketCapture 1535) (capt 3) (fun d => d.get QM.Q_PROD_IDX 12288 == 4 && (d.insOf 1535).pkts == []),
    (capt 4).dev.qFill 12288 == (capt 4).dev.qSize 12288 && ran (.ancPacketCapture 1535) (capt 4) (fun d =>
      d.get QM.Q_PROD_IDX 12288 == 4 && d.get SLP.CNT_ANC_DROP_COUNT 1535 == 1)
  ].all id = true := by decide +kernel

/-- A running output whose source, input slot 3, has delivered a line start. -/
def fed (gen : Bool) (x : OutStage) (line : Nat) : State :=
  st fun _ => { ((outp 1 1 x).dev.set XP.SRC_STAT_SRC_ACT 3 7).put XP.SRC_STAT_GEN gen 7 with ins := [((3, 0), { InStage.init with seq := 4, eavT := 77, line := line, frameT := 5 })] }

theorem wit_OutputStage : [
    ran (.outputEnable 7 true) (outp 0 1 OutStage.init) (fun d => d.get SLP.OUT_CFG_OUT_EN 7 == 1 && (d.outOf 7).wait == some (-1) && !(d.outOf 7).run &&
      d.actReg 0x00200104 7 == d.reg 0x00200104 7),
    ran (.outputEnable 7 true) (outp 0 0 OutStage.init) (fun d => (d.outOf 7).wait == none && !fmtValid 0),
    ran (.outputEnable 7 false) (outp 1 1 { OutStage.init with run := true }) (fun d => d.get SLP.OUT_CFG_OUT_EN 7 == 0 && !(d.outOf 7).run &&
      d.takesOf 7 == [] && d.get XP.SRC_STAT_GEN 7 == 0 && d.get XP.SRC_STAT_CAUSE 7 == 0),
    (outp 1 1 { OutStage.init with wait := some (-2) }).dev.outRuns 7 && ran (.counterStart 7) (outp 1 1 { OutStage.init with wait := some (-2) }) (fun d =>
      (d.outOf 7).run && (d.outOf 7).wait == none && (d.outOf 7).line == 0 && (d.outOf 7).lineT == late.slotNow),
    ran (.counterStart 7) (outp 1 1 { OutStage.init with wait := some (-1) }) (fun d => d == (outp 1 1 { OutStage.init with wait := some (-1) }).dev),
    ran (.counterLineStart 7 []) (outp 1 1 { OutStage.init with run := true, line := 750, lineT := 9, span := 3 }) (fun d => (d.outOf 7).line == 1 && (d.outOf 7).lineT == 12),
    ran (.counterLineStart 7 []) (outp 1 1 { OutStage.init with run := true, line := 749 }) (fun d => (d.outOf 7).line == 750),
    ran (.counterFrameStart 7) (outp 1 1 { OutStage.init with run := true, line := 750 }) (fun d => (d.outOf 7).line == 0 && (d.outOf 7).frameT == late.cadNow),
    (fed false { OutStage.init with run := true, line := 5 } 9).dev.passing 7 && (fed false { OutStage.init with run := true, line := 5 } 9).dev.srcSeq 3 == 4 &&
      ran (.sourceLineStart 7 []) (fed false { OutStage.init with run := true, line := 5 } 9) (fun d => (d.outOf 7).line == 5 && (d.outOf 7).lineT == 77),
    ran (.sourceLineStart 7 []) (fed false { OutStage.init with run := true, line := 5 } 1) (fun d => (d.outOf 7).line == 0 && (d.outOf 7).frameT == 5),
    ran (.sourceLineStart 7 []) (fed true { OutStage.init with run := true, line := 5 } 9) (fun d => d.get XP.SRC_STAT_GEN 7 == 0 && (d.outOf 7).lineT == 77)
  ].all id = true := by decide +kernel

/-- A native group in UP whose slot 3 passes to output 7, whose group transmits. -/
def wired : State :=
  st fun _ => ((fed false { OutStage.init with run := true } 9).dev.set LNG.GRP_STAT_RX_STATE 5 0).set LNG.GRP_STAT_TX_STATE 3 0

theorem wit_SlotStreams : [
    wired.dev.rxState 0 == 5 && !wired.dev.compat 0 && !wired.dev.synced 3 && (wired.dev.outs.map (·.1.1)).count 7 == 1 && wired.dev.srcAct 7 == 3 &&
      wired.dev.passing 7 && !wired.dev.processed 7 && wired.dev.taken 7 && ran (.dataBlockRx 0 0 ⟨0x5, scrambled dataRaw, 0⟩) wired (fun d =>
        mapGet d.outQ (7, 0) [] == [0x0F1E2D3C]),
    fmtCodes.contains 1 && decide (0 < (accConst 1).2) && conforms (accConst 1).1 (accConst 1).2
      (packWords (accConst 1).1 (accConst 1).2 0 (some true) true (List.replicate 12 0x040)).1
  ].all id = true := by decide +kernel

/-- An output that passes slot 3. -/
def passes : State := fed false { OutStage.init with run := true, line := 5 } 9

theorem wit_Crosspoint : [
    passes.dev.outRuns 7,
    ran (.triggerChange 7) passes (fun d => d.get XP.SRC_STAT_TRIG 7 == b2n (passes.dev.trigCause 7 3 != 0) && d.srcAct 7 == 3),
    ran (.routeWrite .core 1663) State.reset (fun d => d.srcAct 0 == 1663 && d.get XP.ROUTE_SRC 0 == 1663),
    ran (.routeWrite .core 5) (st fun _ => passes.dev.set XP.OUT_SEL_SEL 7 0) (fun d => d.get XP.BLK_EVT_CLASS_VIOL == 1 && d.get BUS.EVT_STAT_VIOL == 1 &&
      d.srcAct 7 == 3 && d.get XP.ROUTE_SRC 7 == 2047),
    regs (.xpCntClr 1663) (st fun d => d.set XP.CNT_SUB_COUNT 9 1663) (fun d => d.get XP.CNT_SUB_COUNT 1663 == 0 && kept (st fun d => d.set XP.CNT_SUB_COUNT 9 1663).dev d [(0x00200110, 1663)])
  ].all id = true := by decide +kernel

theorem test_takeEntry_bytes : takeBytes ⟨2 ^ 48 - 1, 999999999, 1663, 2, 2047, true, false, true, 65535⟩ =
    [0xFF, 0xFF, 0xFF, 0xFF, 0xFF, 0xFF, 0xFF, 0xC9, 0x9A, 0x3B, 0x7F, 0x86, 0xFF, 0x2F, 0xFF, 0xFF] := by decide +kernel

theorem wit_TakeSubmission : [
    ran (.takeGo .host) (st fun _ => eng) (fun d => d.get HIF.TK_RES_BUSY 1 == 1 && d.submitted == [⟨.regs .host, eng.staged .host 0⟩] && kept eng d [(0x00C01024, 1)]),
    ran (.takeFlush .core) (st fun _ => (eng.set XP.OUT_SEL_SEL 7 0).setTakes 7 [tk none 1, tk (some (-1)) 0]) (fun d => d.takesOf 7 == [tk (some (-1)) 0]),
    eng.qUsable 12289 true 16 && eng.qFill 12289 == 1 && !eng.conFollows && ran (.takeRingEntry (takeBytes ⟨1, 2, 7, 0, 3, false, false, false, 0⟩)) (st fun _ => eng)
      (fun d => d.submitted == [⟨.ring, ⟨1, 2, 7, 0, 3, false, false, false, 0⟩⟩] && d.get QM.Q_CONS_IDX 12289 == 1),
    ran (.takeMessage (some [1, 2]) true) (st fun _ => { eng with takeMsgs := List.replicate 63 [] }) (fun d => d.takeMsgs.length == 64),
    regs (.takeMessage (some [1, 2]) true) (st fun _ => { eng with takeMsgs := List.replicate 64 [] }) (fun d => d.get HIF.TK_EVT_MSG_OVF == 1 && d.get HIF.TK_CNT_DROP_COUNT == 1)
  ].all id = true := by decide +kernel

/-- A message of one entry for every device, under key slot 2. -/
def msgBody : List Byte := [1, 1, 0xFF, 0xFF, 2, 0, 0, 0, 7, 0, 0, 0, 0, 0, 0, 0] ++ takeBytes ⟨1, 2, 7, 0, 3, false, false, false, 4⟩
def msgKey : List Byte := List.replicate 32 0x5A
def msgWith (bs : List Byte) : State :=
  st fun _ => { (eng.set KEY.SLOT_ATTR_STATE 1 2).set KEY.SLOT_ATTR_USAGE 3 2 with keys := [((2, 0), msgKey)], takeMsgs := [bs] }

theorem wit_TakeMessageChecks : [
    ran (.takeMessage none true) (msgWith [1, 1, 9, 0]) (fun d => d == { (msgWith [1, 1, 9, 0]).dev with takeMsgs := [] }),
    ran (.takeMessage none true) (msgWith [2, 1, 0, 0]) (fun d => d.takeMsgs == [] && d.takes == [] && d.get HIF.TK_EVT_AUTH_FAIL == 1 && d.get HIF.TK_CNT_AUTH_COUNT == 1)
  ].all id = true := by decide +kernel

theorem wit_TakeMessageChecks_hmac :
    let bs := [1, 1, 0, 0, 2, 0, 0, 0, 7, 0, 0, 0, 0, 0, 0, 0] ++ msgBody.drop 16
    let s := msgWith (bs ++ hmacSha256 msgKey bs)
    [(s.dev.keyUse 2 3 true).1 && s.dev.seqNew 2 7 && ran (.takeMessage none true) s (fun d => d.takeMsgs == [] && mapGet d.lastSeq (2, 0) none == some 7)].all id = true := by decide +kernel

/-- An entry of type `ty` for output 7 that comes first, submitted through registers. -/
def ent (ty src salvo : Nat) : TakeEntry := ⟨0, 999999999, 7, ty, src, false, false, false, salvo⟩
def sub (m : Master) (e : TakeEntry) (d : Dev) : State := on { d with submitted := [⟨.regs m, e⟩] }

theorem wit_TakeEntries : [
    !eng.conFollows && !eng.restarting && eng.outRuns 7 && fmtValid (eng.outFmt 7) && (ent 0 9 0).wf && eng.salvos == [] && ran .takeEntry (sub .core (ent 0 9 0) eng) (fun d =>
      (match d.takesOf 7 with | [t] => t.src == 9 && t.origin == .regs .core && t.due == some (eng.dueFrame (7, false) [] (takeInst (ent 0 9 0)) eng.timeTu false).1 | _ => false) &&
        d.get HIF.TK_RES_CODE 0 == 1 && d.get HIF.TK_RES_BUSY 0 == 0 && d.get HIF.TK_QSTAT_DEPTH 7 == 1 && d.submitted == []),
    !eng.salvoOver ⟨4, 0⟩ && (ent 1 1 4).wf && ran .armEntry (sub .core (ent 1 1 4) { eng.setTakes 7 [tk none 4] with salvos := [⟨4, 0⟩] }) (fun d => d.salvos == [] &&
      d.get HIF.TK_RES_CODE 0 == 1 && d.submitted == [] && (d.takesOf 7).all (·.due.isSome)),
    ran .cancelEntry (sub .host (ent 2 0 0) (eng.setTakes 7 [tk (some 1000) 0])) (fun d => d.takesOf 7 == [] && d.submitted == [] && d.get HIF.TK_RES_CODE 1 == 1) &&
      (ent 2 0 0).wf && !eng.committed 7 eng.timeTu (tk (some 1000) 0),
    ran .takeEntry (sub .core (ent 2 9 0) eng) (fun d => d == { eng with submitted := [⟨.regs .core, ent 2 9 0⟩] }),
    ran .armEntry (sub .core (ent 3 9 0) eng) (fun d => d == { eng with submitted := [⟨.regs .core, ent 3 9 0⟩] }),
    ran .cancelEntry (sub .core (ent 0 9 0) eng) (fun d => d == { eng with submitted := [⟨.regs .core, ent 0 9 0⟩] })
  ].all id = true := by decide +kernel

/-- The take engine at the counter's line `n`, with a take of frame 0 pending on output 7. -/
def atLine (n : Nat) (h : Option Int) : Dev :=
  { (eng.setOut 7 { OutStage.init with run := true, line := n }).setTakes 7 [tk (some 0) 0] with handover := h }

theorem wit_TakeExecution : [
    (atLine 6 none).nextTake 7 == some (tk (some 0) 0) && (atLine 6 none).takeDue 7 (tk (some 0) 0) && ran (.takeExecute 7) (on (atLine 6 none)) (fun d =>
      d.srcAct 7 == 5 && d.takesOf 7 == [] && d.get HIF.TK_EVT_EXEC == 1 && d.get HIF.TK_CNT_EXE_COUNT == 1 && d.get HIF.TK_QSTAT_LAST_CODE 7 == 2),
    !(atLine 5 none).takeDue 7 (tk (some 0) 0) && ran (.takeExecute 7) (on (atLine 5 none)) (fun d => d == atLine 5 none),
    decide ((atLine 6 none).swPoint 7 false 0 < 10 ^ 40) && ran (.takeExecute 7) (on (atLine 6 (some (10 ^ 40)))) (fun d =>
      d.get HIF.TK_EVT_DEFERRED == 1 && d.srcAct 7 == (atLine 6 none).srcAct 7)
  ].all id = true := by decide +kernel

/-- An unarmed salvo opened at an instant. -/
def opened (a : Int) : Dev := { eng.setTakes 7 [tk none 4] with salvos := [⟨4, a⟩] }

theorem wit_TakeEnds : [
    (opened (-(10 ^ 40))).salvoOver ⟨4, -(10 ^ 40)⟩ && ran (.salvoExpiry 4) (on (opened (-(10 ^ 40)))) (fun d => d.salvos == [] && d.takesOf 7 == []),
    !(opened 0).salvoOver ⟨4, 0⟩ && ran (.salvoExpiry 4) (on (opened 0)) (fun d => d == opened 0),
    ran (.takeEngineEnable true) State.reset (fun d => d.get HIF.TK_CTL_EN == 1 && kept State.reset.dev d [(0x00C01000, 0)]),
    ran (.takeEngineEnable false) (on (opened 0)) (fun d => d.get HIF.TK_CTL_EN == 0 && d.salvos == [] && d.takesOf 7 == []),
    regs .tkCntClr (st fun d => d.set HIF.TK_CNT_EXE_COUNT 3) (fun d => d.get HIF.TK_CNT_EXE_COUNT == 0)
  ].all id = true := by decide +kernel

/-! ## MACs, flows and queues -/

theorem wit_MacLinks : [
    (State.reset.dev.put MAC.PORT_CFG_AN_EN true 15).get MAC.PORT_CFG_PHY 15 == 0 && ran (.autoNegotiationDone 15) (on ((mac 63).put MAC.PORT_CFG_AN_EN true 15)) (fun d =>
      d.get MAC.STAT_AN_DONE 63 == 1 && d.get MAC.STAT_TRAIN_DONE 63 == 1),
    ran (.linkUp 63) (on (State.reset.dev.put MAC.STAT_RUN true 63)) (fun d => d.get MAC.STAT_LINK 63 == 1 && d.get MAC.EVT_STAT_LINK_UP 63 == 1),
    ran (.linkDown 63) (on (mac 63)) (fun d => d.get MAC.STAT_LINK 63 == 0 && d.get MAC.EVT_STAT_LINK_DOWN 63 == 1 && d.conds.contains ⟨124, 3, 0, 63⟩ && (d.mac 63).flight == none),
    State.reset.dev.get MAC.STAT_ACTIVE 60 == 1 && ran (.macEnable 60 true) State.reset (fun d => d.get MAC.STAT_RUN 60 == 1 && d.get MAC.CFG_EN 60 == 1),
    ran (.macEnable 63 false) (on (mac 63)) (fun d => d.get MAC.STAT_RUN 63 == 0 && d.get MAC.CFG_EN 63 == 0),
    regs (.linkRestart 63) (on ((mac 63).put MAC.STAT_AN_DONE true 63)) (fun d => d.get MAC.STAT_AN_DONE 63 == 0 && kept (mac 63) d [(0x00400180, 63)])
  ].all id = true := by decide +kernel

/-- A frame of `n` bytes. -/
def frame (n : Nat) : TxFrame := ⟨List.replicate n 7, 3, none, none⟩

/-- A MAC with a frame behind gates that never open, enabled or not. -/
def starved (en : Bool) : Dev :=
  { (mac 0).put MAC.GATE_CTL_GATE_EN en 0 with macs := [((0, 0), { MacUnit.init with offers := [frame 60], oper := some ⟨0, 160, [(0, 20)]⟩ })] }

theorem wit_MacTransmit : [
    (mac 0).ready 0 (frame 60) 64 && ran (.txFrameStart 0 []) (on { mac 0 with macs := [((0, 0), { MacUnit.init with offers := [frame 60] })] }) (fun d =>
      (d.mac 0).offers == [] && (d.mac 0).flight == some ⟨frame 60, late.time, late.cc, false⟩),
    (mac 0).maxLen 0 == 1522 && ran (.txFrameStart 0 []) (on { mac 0 with macs := [((0, 0), { MacUnit.init with offers := [frame 1519] })] }) (fun d =>
      (d.mac 0).offers == [] && (d.mac 0).flight == some ⟨frame 1518, late.time, late.cc, true⟩),
    ran (.txFrameStart 0 []) (on ((mac 0).put FLT.STAT_TRIP true)) (fun d => d == (mac 0).put FLT.STAT_TRIP true),
    ran (.txUnderrun 0 40) (on { (mac 0).set MAC.TX_CT_THR 31 0 with macs := [((0, 0), { MacUnit.init with flight := some ⟨frame 60, 0, late.cc, false⟩ })] }) (fun d =>
      (d.mac 0).flight == none && d.sent == [.frame 0 (List.replicate 40 7) true false true] && d.get MAC.EVT_STAT_TX_UNDERRUN 0 == 1 && d.get MAC.TX_CT_THR 0 == 32),
    ran (.txLinkDrop 0 (frame 60)) State.reset (fun d => d.get2 (MAC.CNT_LO_COUNT_L cTxLinkDrop) (MAC.CNT_HI_COUNT_H cTxLinkDrop) 0 == 1),
    (starved true).gateStarved 0 (frame 60) && ran (.txGateDrop 0 3) (on (starved true)) (fun d => (d.mac 0).offers == [] &&
      d.get MAC.EVT_STAT_TX_GATE_DROP 0 == 1 && d.get2 (MAC.CNT_LO_COUNT_L cTxGateDrop) (MAC.CNT_HI_COUNT_H cTxGateDrop) 0 == 1),
    ran (.txGateDrop 0 3) (on (starved false)) (fun d => d == starved false)
  ].all id = true := by decide +kernel

/-- A MAC whose gate schedule is enabled, with a cycle. -/
def gates (cycle : Nat) : Dev := { ((mac 1).put MAC.GATE_CTL_GATE_EN true 1).set MAC.GATE_CYCLE_CYCLE cycle 1 with time := 5 * 2 ^ 40 }
def oneList : GateList := ⟨0, 100, [(0x0F, 10), (0xF0, 10)]⟩

theorem wit_GateSchedule : [
    [64, 1000000000].all fun c => ran (.gateCfgChange 1) (on (gates c)) (fun d => d.get MAC.GATE_STAT_PENDING 1 == 1 && d.get MAC.GATE_STAT_CFG_ERR 1 == 0 &&
      (match (d.mac 1).pend with | some (g, x) => g == (gates c).adminList 1 && x % c == 0 && decide (1005 ≤ x) && decide (x < 1005 + c) | none => false)),
    ran (.gateCfgChange 1) (on (mac 1)) (fun d => d.get MAC.GATE_STAT_CFG_ERR 1 == 1 && d.get MAC.EVT_STAT_GATE_ERR 1 == 1),
    ran (.gateListChange 1) (on { mac 1 with macs := [((1, 0), { MacUnit.init with pend := some (oneList, 7) })] }) (fun d => (d.mac 1).oper == none),
    ran (.gateListChange 1) (on { mac 1 with time := 7 * 2 ^ 40, macs := [((1, 0), { MacUnit.init with pend := some (oneList, 7) })] }) (fun d => (d.mac 1).oper == some oneList &&
      (d.mac 1).pend == none && d.get MAC.GATE_STAT_OPER 1 == 1 && d.get MAC.EVT_STAT_GATE_CHG 1 == 1),
    regs (.gateEntryBoundary 1) (on { (mac 1).put MAC.GATE_CTL_GATE_EN true 1 with time := 90 * 2 ^ 40, macs := [((1, 0), { MacUnit.init with oper := some oneList })] }) (fun d =>
      d.get MAC.GATE_STAT_CUR_STATES 1 == 0xF0 && d.get MAC.GATE_STAT_CUR_IDX 1 == 1 && kept ((mac 1).put MAC.GATE_CTL_GATE_EN true 1) d [(0x0040017C, 1)])
  ].all id = true := by decide +kernel

/-- A MAC with a timestamp entry due and `n` stored. -/
def stamps (n : Nat) : Dev :=
  { mac 63 with macs := [((63, 0), { MacUnit.init with dues := [⟨5, false, false, false, 77⟩], tsq := List.replicate n ⟨1, false, false, false, 2⟩ })] }

theorem wit_MacTimestamps : [
    ran (.txTimestampEntry 63) (on (stamps 63)) (fun d => (d.mac 63).tsq.length == 64 && (d.mac 63).tsq.getLast? == some ⟨5, false, false, false, 77⟩ &&
      (d.mac 63).dues == [] && d.get (TIM.TSQ_0_FILL 63) == 64),
    ran (.txTimestampEntry 63) (on (stamps 64)) (fun d => (d.mac 63).tsq == List.replicate 64 ⟨1, false, false, false, 2⟩ && d.get TIM.EVT_STAT_TSQ_OVF == 1 && d.get TIM.CNT_TSQ_OVF_COUNT == 1),
    ran (.tsqPop 63) (on (stamps 64)) (fun d => (d.mac 63).tsq.length == 63 && d.get (TIM.TSQ_0_FILL 63) == 63),
    ran (.tsqPop 63) (on (stamps 0)) (fun d => (d.mac 63).tsq == [] && d.get (TIM.TSQ_0_FILL 63) == 0),
    regs (.macCntClr 63) (on (((mac 63).set (MAC.CNT_LO_COUNT_L 14) 3 63).set (MAC.CNT_HI_COUNT_H 0) 3 63)) (fun d =>
      (List.range 15).all (fun k => d.get2 (MAC.CNT_LO_COUNT_L k) (MAC.CNT_HI_COUNT_H k) 63 == 0) && d.get MAC.STAT_RUN 63 == 1)
  ].all id = true := by decide +kernel

/-- A broadcast frame of 64 bytes with its FCS, or with a wrong one. -/
def rxBytes (wrong : Nat) : List Byte :=
  let b := List.replicate 6 0xFF ++ [2, 0, 0, 0, 0, 1, 0x12, 0x34] ++ List.replicate 46 (0 : Byte)
  b ++ leBytes 4 ((crc32 b + wrong) % 2 ^ 32)
def rxInfo (held : Nat) : RxInfo := ⟨held, false⟩

theorem wit_MacReceive : [
    ran (.rxFrame 0 (rxBytes 0) (rxInfo 0)) State.reset (fun d => d == State.reset.dev),
    (mac 0).rxShare 0 == 524288 && (mac 0).addrOk 0 (beAt (rxBytes 0) 0 6) && ((mac 0).vlanOf 0 (ethParts ((rxBytes 0).take 60)).tag).isSome &&
      (rxBytes 0).length == 64 && crc32 ((rxBytes 0).take 60) == leNat ((rxBytes 0).drop 60) && ran (.rxFrame 0 (rxBytes 0) (rxInfo (524288 - 16384 - 64))) (on (mac 0)) (fun d =>
        d.get2 (MAC.CNT_LO_COUNT_L cRxFrames) (MAC.CNT_HI_COUNT_H cRxFrames) 0 == 1 && d.get2 (MAC.CNT_LO_COUNT_L cRxOctets) (MAC.CNT_HI_COUNT_H cRxOctets) 0 == 64),
    crc32 ((rxBytes 1).take 60) != leNat ((rxBytes 1).drop 60) && ran (.rxFrame 0 (rxBytes 1) (rxInfo 0)) (on (mac 0)) (fun d =>
      d.get2 (MAC.CNT_LO_COUNT_L cRxFcs) (MAC.CNT_HI_COUNT_H cRxFcs) 0 == 1 && kept (mac 0) d [(0x00400210, 0), (0x00400214, 0)])
  ].all id = true := by decide +kernel

/-- A context that runs. -/
def ctxOn (c : Nat) : Dev := { late.put FLW.CTX_STAT_RUN true c with flows := [((c, 0), { FlowCtx.init with run := true })] }
def egr : Dev := State.reset.dev.put (FLW.LEG_QOS_USE_DMAC 0) true 4096

/-- A running bundle whose video context holds a packet. -/
def playing : Dev :=
  { ((((ctxOn 9).set FLW.CTX_CTL_BUNDLE 383 9).set (FLW.BDL_CTL_FMT 383) 1).put (FLW.BDL_STAT_RUN 383) true) with
    flows := [((9, 0), { FlowCtx.init with run := true, pkts := [⟨7, 1, 90000, false, 0, 0, []⟩] })] }

/-- A bundle whose raster has had no complete line for `n` lines. -/
def waiting (n : Nat) : Dev :=
  ((late.put (FLW.BDL_STAT_PRESENT 383) true).put SLP.IN_STAT_PRESENT true 1535).setBdl 383 { BdlUnit.init with idle := n }

/-- A context of a bundle with a format, which has just received a packet on each leg. -/
def heard : Dev :=
  { ((ctxOn 9).set FLW.CTX_STAT_LEG_ACT 3 9).set (FLW.BDL_CTL_FMT 0) 1 with flows := [((9, 0), { FlowCtx.init with run := true, legAt := (10 ^ 15, 10 ^ 15) })] }

theorem wit_FlowContexts : [
    !State.reset.dev.ctxRuns 4095 && !State.reset.dev.ctxBad 4095 && ran (.contextEnable 4095 true) (on (State.reset.dev.set QM.Q_QUOTA_CELLS 100 4095)) (fun d =>
      d.get FLW.CTX_STAT_RUN 4095 == 1 && d.get FLW.CTX_CTL_EN 4095 == 1 && d.get QM.CELL_STAT_FREE == 262144 - 100),
    !egr.ctxBad 4096 && ran (.contextEnable 4096 true) (on egr) (fun d => d.get FLW.CTX_STAT_RUN 4096 == 1 && d.get FLW.CTX_STAT_WAIT 4096 == 1),
    ran (.contextEnable 9 false) (on ((ctxOn 9).set QM.Q_QUOTA_CELLS 100 9)) (fun d => d.get FLW.CTX_STAT_RUN 9 == 0 && d.flow 9 == FlowCtx.init && d.get QM.CELL_STAT_FREE == 262244),
    ran (.bundleEnable 383 true) (on (State.reset.dev.set (FLW.BDL_CTL_FMT 383) 1)) (fun d => d.get (FLW.BDL_STAT_RUN 383) == 1 && d.get (FLW.BDL_STAT_CFG_ERR 383) == 0),
    ran (.bundleEnable 383 false) (on (State.reset.dev.put (FLW.BDL_STAT_RUN 383) true)) (fun d => d.get (FLW.BDL_STAT_RUN 383) == 0 && d.get (FLW.BDL_STAT_PRESENT 383) == 0),
    playing.videoCtx 383 == some 9 && (match playing.bdlFmt 383 with | some f => playing.nextFrame 383 9 f == some (90000, none) | none => false) &&
      ran (.bundleFrame 383) (on playing) (fun d => (d.bdl 383).next == some (90000, none) && (d.genOf 1535).resume == some (d.genOf 1535).target),
    (late.setBdl 383 { BdlUnit.init with good := true }).get (FLW.BDL_STAT_PRESENT 383) == 0 &&
      ((late.setBdl 383 { BdlUnit.init with good := true }).bdlPresent 383).get (FLW.BDL_STAT_PRESENT 383) == 1,
    (waiting 65535).bdlTimedOut 383 && late.syncAt (1152 + 383) == none && ran (.bundleLineTimeout 383) (on (waiting 65535)) (fun d =>
      d.get (FLW.BDL_STAT_PRESENT 383) == 0 && d.get (FLW.BDL_EVT_ABSENT 383) == 1 && d.get SLP.IN_STAT_PRESENT 1535 == 0),
    !(waiting 0).bdlTimedOut 383 && ran (.bundleLineTimeout 383) (on (waiting 0)) (fun d => d == waiting 0),
    (ctxOn 9).legSilent 9 1 && regs (.legLoss 9 1) (on ((ctxOn 9).set FLW.CTX_STAT_LEG_ACT 3 9)) (fun d => d.get FLW.CTX_STAT_LEG_ACT 9 == 1 && d.get FLW.CTX_EVT_LEG_LOSS_1 9 == 1 &&
      kept (ctxOn 9) d [(0x005001A0, 9), (0x005001A4, 9)]),
    !heard.legSilent 9 1 && ran (.legLoss 9 1) (on heard) (fun d => d == heard)
  ].all id = true := by decide +kernel

/-- A context whose payload type a running context of the same bundle and role takes already. -/
def clash : Dev := ctxOn 9

theorem wit_FlowContexts_bad :
    [clash.ctxBad 10 && regs (.contextEnable 10 true) (on clash) (fun d => d.get FLW.CTX_STAT_RUN 10 == 0 && d.get FLW.CTX_STAT_CFG_ERR 10 == 1 && d.get FLW.CTX_EVT_CFG_ERR 10 == 1 &&
      kept clash d [(0x00500100, 10), (0x005001A0, 10), (0x005001A4, 10)])].all id = true := by decide +kernel

/-- An egress flow whose first leg runs to a MAC with its link up. -/
def egress (wait : Bool) : Dev :=
  ((ctxOn 4098).put FLW.CTX_STAT_WAIT wait 4098).put MAC.STAT_LINK true 0

/-- The flow's output slot has a format, and a row, a line's packets and the ticks of a packet wait there. -/
def ready (role : Nat) (start : Int) : Dev :=
  { ((egress false).set FLW.CTX_CTL_ROLE role 4098).set SLP.OUT_CFG_OUT_FMT 1 1152 with
    egrs := [((1152, 0), { EgrUnit.init with rows := [⟨0, false, start, start, List.replicate 4 0x200⟩], anc := [⟨false, start, [⟨false, 9, 0, 0, [0x161, 0x102]⟩]⟩] })],
    egAud := [((1, 0), List.replicate 48 (7, [1]))] }

/-- The flow's sequence number has advanced by 1, and its MAC has one frame of it. -/
def released (d e : Dev) : Bool :=
  mapGet e.flowSeq (1, 0) 0 == 1 && (match (e.mac 0).offers with | [x] => x.flow == some 4098 && x.tc == d.get (FLW.LEG_QOS_TC 0) 4098 | _ => false)

theorem wit_EgressFlows : [
    late.flowLegs 1 == [] && [Instr.videoPacketRelease 1, Instr.audioPacketRelease 1, Instr.ancPacketRelease 1].all fun c => ran c (on late) (fun d => d == late),
    (ready 0 (-(10 ^ 40))).flowLegs 1 == [4098] && (fmtOf ((ready 0 0).outFmt 1152)).isSome && ran (.videoPacketRelease 1) (on (ready 0 (-(10 ^ 40)))) (released (ready 0 0)),
    (ready 0 (10 ^ 40)).scheduled 4098 && ran (.videoPacketRelease 1) (on (ready 0 (10 ^ 40))) (fun d => d == ready 0 (10 ^ 40)),
    ran (.audioPacketRelease 1) (on (ready 2 0)) (fun d => released (ready 2 0) d && mapGet d.egAud (1, 0) [] == []),
    ran (.ancPacketRelease 1) (on (ready 4 1)) (fun d => released (ready 4 1) d && (d.egr 1152).anc == []),
    ran (.hostTxElement 0 ([60, 0, 0, 5] ++ List.replicate 80 9)) (on (((withQ State.reset.dev 12288 true 7 2 1).put MAC.STAT_LINK true 0 |>.put (FLW.HQ_TX_EN 0) true).set (FLW.HQ_TXQ 0) 12288)) (fun d =>
      match (d.mac 0).offers with | [x] => x.tc == 5 && x.bytes.take 60 == List.replicate 60 9 | _ => false),
    regs (.flwCntClr 12287) (on (State.reset.dev.set FLW.CNT_LOST_COUNT 4 12287)) (fun d => d.get FLW.CNT_LOST_COUNT 12287 == 0),
    regs .flwBlkCntClr (on (State.reset.dev.set FLW.CNT_TX_BAD_COUNT 4)) (fun d => d.get FLW.CNT_TX_BAD_COUNT == 0)
  ].all id = true := by decide +kernel

/-- A queue with one element not notified since the cc `c`, and a timer of 5 µs. -/
def notify (c : Nat) : Dev :=
  { ((withQ late 12288 false 4 2 1).put QM.Q_CFG_NOTIFY true 12288).set QM.Q_MOD_TIMER 5 12288 with qSince := [((12288, 0), (1, c))], restarting := true }

theorem wit_GeneralQueues : [
    [(4, 2), (11, 16)].all fun x => ran (.queueEnable 4095 true) (on ((State.reset.dev.set QM.Q_CFG_ESZ x.1 16383).set QM.Q_CFG_LOG_N x.2 16383)) (fun d =>
      d.get QM.Q_STAT_RUN 16383 == 1 && d.get QM.Q_STAT_CFG_ERR 16383 == 0),
    [(3, 2), (12, 16), (4, 1), (11, 17)].all fun x => ran (.queueEnable 4095 true) (on ((State.reset.dev.set QM.Q_CFG_ESZ x.1 16383).set QM.Q_CFG_LOG_N x.2 16383)) (fun d =>
      d.get QM.Q_STAT_RUN 16383 == 0 && d.get QM.Q_STAT_CFG_ERR 16383 == 1 && d.get QM.BLK_EVT_CFG_ERR == 1),
    ran (.queueEnable 0 false) (on (withQ State.reset.dev 12288 true 4 2 1)) (fun d => d.get QM.Q_STAT_RUN 12288 == 0 && d.get QM.Q_CFG_EN 12288 == 0),
    ran (.queueIndexWrite .host true 7) (on ((withQ State.reset.dev 12288 true 4 2 3).set QM.Q_CONS_IDX 3 12288 |>.set QM.Q_SEL_SEL 12288 1)) (fun d => d.get QM.Q_PROD_IDX 12288 == 7),
    ran (.queueIndexWrite .host false 7) (on ((withQ State.reset.dev 16383 false 4 2 7).set QM.Q_CONS_IDX 3 16383 |>.set QM.Q_SEL_SEL 16383 1)) (fun d =>
      d.get QM.Q_CONS_IDX 16383 == 7 && d.get QM.Q_PROD_IDX 16383 == 7),
    regs (.queueIndexWrite .host false 7) (on ((withQ State.reset.dev 12288 true 4 2 3).set QM.Q_SEL_SEL 12288 1)) (fun d => d.get QM.BLK_EVT_IDX_ERR == 1 && d.get QM.Q_CONS_IDX 12288 == 0),
    (withQ State.reset.dev 12288 true 4 2 1).qFill 12288 == 1 && ran (.queueElementConsume 0) (on (withQ State.reset.dev 12288 true 4 2 1)) (fun d => d.get QM.Q_CONS_IDX 12288 == 1),
    ran (.queueElementProduce 0 [1]) (on (withQ State.reset.dev 12288 false 4 2 3)) (fun d => d.get QM.Q_PROD_IDX 12288 == 4),
    (withQ State.reset.dev 12288 false 4 2 4).qFill 12288 == 4 && regs (.queueElementProduce 0 [1]) (on (withQ State.reset.dev 12288 false 4 2 4)) (fun d => d.get QM.Q_CNT_OVF_COUNT 12288 == 1 && d.get QM.Q_PROD_IDX 12288 == 4),
    ran (.queueNotifyTimer 0) (on (notify 0)) (fun d => mapGet d.qSince (12288, 0) (0, 0) == (0, 0) && d.msixDefer == 1),
    ran (.queueNotifyTimer 0) (on (notify (10 ^ 15 - 3999))) (fun d => d == notify (10 ^ 15 - 3999))
  ].all id = true := by decide +kernel

theorem wit_QueueCommands : [
    regs (.qCntClr 16383) (on (State.reset.dev.set QM.Q_CNT_OVF_COUNT 3 16383)) (fun d => d.get QM.Q_CNT_OVF_COUNT 16383 == 0),
    regs (.hwmClr 5) (on (State.reset.dev.set QM.Q_HWM_HWM 9 5)) (fun d => d.get QM.Q_HWM_HWM 5 == d.get QM.Q_STAT_FILL 5),
    regs (.idxClr 0) (on ((withQ State.reset.dev 12288 true 4 2 3).put QM.Q_CFG_EN false 12288)) (fun d => d.get QM.Q_PROD_IDX 12288 == 0 && d.get QM.Q_STAT_FILL 12288 == 0),
    ran (.idxClr 0) (on ((withQ State.reset.dev 12288 true 4 2 3).put QM.Q_CFG_EN true 12288)) (fun d => d == (withQ State.reset.dev 12288 true 4 2 3).put QM.Q_CFG_EN true 12288)
  ].all id = true := by decide +kernel

/-! ## The frame store and the Plotters -/

/-- The store ready, and synchroniser 511 on slot 1535 with a format of the reset cadence's rate. -/
def sync (run : Bool) (u : SyncUnit) : Dev :=
  { ((((State.reset.dev.put FS.BLK_STAT_READY true).set FS.SYNC_CTL_FMT 32 511).set FS.SYNC_CTL_SLOT 1535 511).put FS.SYNC_STAT_RUN run 511).set
      FS.BLK_STAT_UNITS_USED u.units with
    syncs := if u = SyncUnit.init then [] else [((511, 0), u)], syncOf := if run then [((1535, 0), 512)] else [] }

set_option maxRecDepth 100000 in
theorem wit_SyncStartStop : [
    (sync false SyncUnit.init).syncStartCode 511 == 0 && ran (.syncStart 511) (on (sync false SyncUnit.init)) (fun d => d.get FS.SYNC_STAT_RUN 511 == 1 &&
      d.get FS.SYNC_STAT_EMPTY 511 == 1 && d.syncAt 1535 == some 511 && d.get SLP.IN_STAT_PRESENT 1535 == 0 && d.get FS.BLK_STAT_UNITS_USED == storeUnits 32),
    State.reset.dev.syncStartCode 511 == 2 && regs (.syncStart 511) State.reset (fun d => d.get FS.SYNC_STAT_RUN 511 == 0 && d.get FS.SYNC_STAT_ERR 511 == 2 &&
      d.get FS.SYNC_EVT_CFG_ERR 511 == 1 && kept State.reset.dev d [(0x00700100, 511), (0x00700108, 511), (0x00700110, 511)]),
    ran (.syncStop 511) (on (sync true { SyncUnit.init with units := 4 })) (fun d => d.get FS.SYNC_STAT_RUN 511 == 0 && d.get FS.SYNC_CTL_EN 511 == 0 && d.syncAt 1535 == none &&
      d.syncUnit 511 == SyncUnit.init && d.get FS.BLK_STAT_UNITS_USED == 0),
    [true, false].all fun v => regs (.syncFreeze 511 v) (on (sync true SyncUnit.init)) (fun d => d.get FS.SYNC_CTL_FRZ 511 == b2n v && d.get FS.SYNC_STAT_FROZEN 511 == b2n v &&
      kept (sync true SyncUnit.init) d [(0x00700100, 511), (0x00700108, 511)])
  ].all id = true := by decide +kernel

def fr (buf : Nat) (due : Int) : SyncFrame := ⟨buf, 0, due, true, false, 0, []⟩

/-- A synchroniser that holds a frame, after some repeats; HOLD_TMO is 5. -/
def held (n : Nat) : Dev :=
  ((sync true { SyncUnit.init with playing := some (fr 2 4), repeats := n }).put FS.SYNC_STAT_HOLDING true 511).set FS.SYNC_HOLD_HOLD_TMO 5 511
    |>.commit FS.SYNC_HOLD_HOLD_TMO.off 511

theorem wit_SyncFrames : [
    (sync true { SyncUnit.init with frames := [fr 1 3, fr 2 4, fr 0 5] }).gangOf 511 == [511] &&
      ran (.syncFrameChoice 511 4) (on (sync true { SyncUnit.init with frames := [fr 1 3, fr 2 4, fr 0 5] })) (fun d => (d.syncUnit 511).choice == some (some 2)),
    ran (.syncFrameChoice 511 4) (on (sync true { SyncUnit.init with frames := [fr 0 5], playing := some (fr 1 2) })) (fun d => (d.syncUnit 511).choice == some none &&
      d.get FS.SYNC_EVT_REPEAT 511 == 1 && d.get FS.CNT_REPEAT_COUNT 511 == 1),
    ran (.syncFramePlay 511 4) (on (sync true { SyncUnit.init with frames := [fr 2 4], choice := some (some 2) })) (fun d => (d.syncUnit 511).playing == some (fr 2 4) &&
      d.get FS.SYNC_STAT_EMPTY 511 == 0 && d.get FS.SYNC_STAT_BUF 511 == 2 && d.get SLP.IN_STAT_PRESENT 1535 == 1),
    ran (.syncFrameIncomplete 511) (on (sync true { SyncUnit.init with frames := [fr 2 4, fr 1 5], writing := some 1 })) (fun d => (d.syncUnit 511).writing == none &&
      (d.syncUnit 511).frames == [fr 2 4] && d.get FS.SYNC_EVT_INCOMPLETE 511 == 1 && d.get FS.CNT_INCOMPLETE_COUNT 511 == 1),
    ran (.syncHoldTimeout 511) (on (held 4)) (fun d => d == held 4),
    ran (.syncHoldTimeout 511) (on (held 5)) (fun d =>
      d.get FS.SYNC_STAT_EMPTY 511 == 1 && d.get FS.SYNC_EVT_EMPTY 511 == 1 && (d.syncUnit 511).playing == none && d.get FS.SYNC_STAT_HOLDING 511 == 0)
  ].all id = true := by decide +kernel

/-- BAR2's first window at a store address. -/
def win (page : Nat) : Dev := State.reset.dev.set (FS.WIN_PAGE_PAGE 0) page

theorem wit_Bar2Access : [
    (win 0x83FFFF).bar2Addr 0xFFE + 4 == surfStart + 2 && runs (.bar2Write 0xFFE [some 1, some 2, some 3, none, some 5]) (on (win 0x83FFFF)) (fun t =>
      t.store == [(surfStart, 3), (surfStart + 2, 5)] && t.dev.get FS.BLK_EVT_WIN_WP == 1),
    runs (.bar2Read 0 4) { on (win 0x840000) with store := [(surfStart + 1, 9)] } (fun t => t.dev.bar2 == some ([0, 9, 0, 0], false)),
    (win (storeEnd / 4096 - 1)).bar2Addr 4096 == storeEnd && ran (.bar2Read 4092 4) (on (win (storeEnd / 4096 - 1))) (fun d => d.bar2 == some ([0, 0, 0, 0], false)) &&
      ran (.bar2Read 4093 4) (on (win (storeEnd / 4096 - 1))) (fun d => d.bar2 == some ([0xFF, 0xFF, 0xFF, 0xFF], true) && d.get FS.BLK_EVT_WIN_RANGE == 1),
    ran (.bar2Read 31 2) (on { win 0x840000 with ueGran := [surfStart / 32 + 1] }) (fun d => d.bar2 == some ([0xFF, 0xFF], true))
  ].all id = true := by decide +kernel

theorem wit_StoreErrors : [
    ran .eccCe State.reset (fun d => d.get FS.ECC_CNT_CE_COUNT == 1 && d.get FS.BLK_EVT_ECC_CE == 1 && d.rising == [Dev.devFault 140]),
    ran (.eccUe 47999999999 .scrub) State.reset (fun d => d.get FS.ECC_CNT_UE_COUNT == 1 && d.get FS.BLK_EVT_ECC_UE == 1 && d.ueGran.contains (47999999999 / 32) &&
      d.get FS.ECC_ADDR_LO_VALID == 1 && d.get FS.ECC_ADDR_LO_ADDR_L == 47999999999 / 32 % 2 ^ 27 && d.get FS.ECC_ADDR_HI_ADDR_H == 11),
    State.reset.dev.flag FS.SCRUB_CFG_EN && ran (.patrolScrub 3 [0, 32]) State.reset (fun d => d.get FS.ECC_CNT_CE_COUNT == 3 && d.get FS.ECC_CNT_UE_COUNT == 2),
    regs .fsCntClr (on (State.reset.dev.set FS.ECC_CNT_CE_COUNT 3)) (fun d => d.get FS.ECC_CNT_CE_COUNT == 0),
    regs .eccAddrClr (on (State.reset.dev.put FS.ECC_ADDR_LO_VALID true)) (fun d => d.get FS.ECC_ADDR_LO_VALID == 0),
    regs (.syncCntClr 511) (on (State.reset.dev.set FS.CNT_ANC_DROP_COUNT 3 511)) (fun d => d.get FS.CNT_ANC_DROP_COUNT 511 == 0)
  ].all id = true := by decide +kernel

/-- Engine 31 with a format of the reset cadence's rate. -/
def plt (run armed : Bool) : Dev :=
  { ((((State.reset.dev.put PLT.ENG_CFG_MODE true 31).set PLT.ENG_CFG_FMT 1 31).put FS.BLK_STAT_READY true).put PLT.ENG_STAT_RUN run 31).put PLT.ENG_STAT_ARMED armed 31
    with engArmed := if armed then [((31, 0), [31])] else [] }

theorem wit_EngineStartStop : [
    (plt false false).engStartCode 31 == 0 && !(plt false false).flag PLT.ENG_STAT_RUN 31,
    State.reset.dev.engStartCode 31 == 1 && ran (.engineStart 31) State.reset (fun d => d.get PLT.ENG_STAT_RUN 31 == 0 && d.get PLT.ENG_STAT_ERR 31 == 1 && d.get PLT.ENG_EVT_START_ERR 31 == 1),
    ran (.engineStop 31) (on (plt true false)) (fun d => d.get PLT.ENG_STAT_RUN 31 == 0 && d.get PLT.ENG_CTL_EN 31 == 0 && d.takesOf 1663 == [] && !(d.outOf 1663).run),
    ran (.engineCommit 31) (on (plt true false)) (fun d => d.get PLT.ENG_STAT_ARMED 31 == 1),
    ((plt true true).engCheck 31).1 == 1 && (plt true true).get PLT.ENG_STAT_ARMED 31 == 1
  ].all id = true := by decide +kernel

/-- Engine 31 armed with a coefficient that makes a phase sum to 513 (R269). -/
def pltBad : Dev := (plt true true).set PLT.COEF_DATA_COEF 1 (31 * 1024)

/-- Engine 31 with its raster under way, or not before an instant; the Logbook is frozen, since the store's hash is open (log 7). -/
def engAt (run : Bool) (target : Int) (steps : Nat) : Dev :=
  { (plt true false).put LOG.STAT_FROZEN true with ladder := steps, gens := [((1660, 0), { SrcGen.init with run := run, target := target })] }

theorem wit_EngineFrame : [
    (engAt true 0 2).shedding && runs (.engineFrame 31 []) (on (engAt true 0 2)) (fun t => t.dev.get PLT.ENG_FRAME_FRAME 31 == 1 && t.dev.get PLT.ENG_STAT_SHED 31 == 1),
    !(engAt true 0 0).shedding && (engAt true 0 0).engFmtOk 31,
    decide ((engAt false (10 ^ 40) 0).engFrameT 31 < 10 ^ 40) && ran (.engineFrame 31 []) (on (engAt false (10 ^ 40) 0)) (fun d => d == engAt false (10 ^ 40) 0)
  ].all id = true := by decide +kernel

theorem wit_EngineCoefficients : [
    ran (.coefDataAccess .core (some 0x7FF)) (on ((State.reset.dev.set PLT.ENG_SEL_SEL 31 0).set PLT.COEF_IDX_IDX 767 31)) (fun d => d.get PLT.COEF_DATA_COEF (31 * 1024 + 767) == 0x3FF &&
      d.get PLT.COEF_IDX_IDX 31 == 768),
    regs (.coefDataAccess .core (some 5)) (on ((State.reset.dev.set PLT.ENG_SEL_SEL 31 0).set PLT.COEF_IDX_IDX 1023 31)) (fun d => d.get PLT.COEF_IDX_IDX 31 == 0 && d.get PLT.COEF_DATA_COEF (31 * 1024 + 1023) == 0),
    ran (.coefDataAccess .core none) (on ((State.reset.dev.set PLT.ENG_SEL_SEL 31 0).set PLT.COEF_IDX_IDX 3 31)) (fun d => mapGet d.answer (0, 0) (0, false) == (512, false) && d.get PLT.COEF_IDX_IDX 31 == 4),
    ran (.coefDataAccess .core none) (on ((State.reset.dev.set PLT.ENG_SEL_SEL 31 0).set PLT.COEF_IDX_IDX 768 31)) (fun d => mapGet d.answer (0, 0) (0, false) == (0, false)),
    regs (.engineCntClr 31) (on (State.reset.dev.set PLT.ENG_CNT_OTC_COUNT 3 31)) (fun d => d.get PLT.ENG_CNT_OTC_COUNT 31 == 0)
  ].all id = true := by decide +kernel

theorem wit_EngineCommits_rejected : [
    (pltBad.engCheck 31).1 != 1 && ran (.engineCommitPoint 31) (on pltBad) (fun d => d.get PLT.ENG_STAT_RESULT 31 == (pltBad.engCheck 31).1 % 16 && d.get PLT.ENG_STAT_ARMED 31 == 0 &&
      d.get PLT.ENG_EVT_COMMIT_REJ 31 == 1 && d.act == [] && d.get PLT.ENG_CNT_REJ_COUNT 31 == 1),
    ran (.engineCommitPoint 31) (on { pltBad with commitAt := [((0, 31), some (10 ^ 40))] }) (fun d => d.get PLT.ENG_STAT_ARMED 31 == 1)
  ].all id = true := by decide +kernel

/-! ## Sound and time -/

/-- The matrix running, with an armed set. -/
def amx (armed : Bool) : Dev := (late.put AMX.BLK_STAT_RUN true).put AMX.BLK_STAT_ARMED armed
/-- Channel 27,647 with a source beyond the last channel. -/
def amxBad (d : Dev) : Dev := (d.put (AMX.SRC_EN 0) true 27647).set (AMX.SRC_SRC 0) 27648 27647
/-- Channel 27,647 with channel 5 at its first input. -/
def amxGood (d : Dev) : Dev := (d.put (AMX.SRC_EN 0) true 27647).set (AMX.SRC_SRC 0) 5 27647

/-- A commit or a start waits for an instant. -/
def amxAt (d : Dev) (t : Int) : Dev := { d with commitAt := [((1, 0), some t)] }

theorem wit_MatrixCommits : [
    ran .amxCommit (on (amx false)) (fun d => d.get AMX.BLK_STAT_ARMED == 1 && mapGet d.commitAt (1, 0) none == some (late.cadNow + nsTu 2000) &&
      kept (amx false) d [(0x00900010, 0)]),
    [late, amx true].all fun x => ran .amxCommit (on x) (fun d => d == x),
    [amx false, amxAt (amx true) (late.cadNow + 1)].all fun x => ran .amxCommitPoint (on x) (fun d => d == x),
    (amxAt (amxGood (amx true)) late.cadNow).amxReady && (amxGood (amx true)).amxCheck.1 == 1 && ran .amxCommitPoint (on (amxAt (amxGood (amx true)) late.cadNow)) (fun d =>
      d.get AMX.BLK_STAT_ARMED == 0 && d.get AMX.BLK_STAT_RESULT == 1 && d.get AMX.BLK_EVT_COMMIT_OK == 1 && d.actReg 0x00900100 27647 == d.reg 0x00900100 27647),
    (amxBad (amx true)).amxCheck == (2, 27647) && regs .amxCommitPoint (on (amxBad (amx true))) (fun d => d.get AMX.BLK_STAT_ARMED == 0 && d.get AMX.BLK_STAT_RESULT == 2 &&
      d.get AMX.BLK_STAT_FAIL_CH == 27647 && d.get AMX.BLK_EVT_COMMIT_REJ == 1 && d.get AMX.CNT_REJ_COUNT == 1)
  ].all id = true := by decide +kernel

theorem wit_MatrixEnable : [
    ran (.matrixEnable true) (on (amxGood late)) (fun d => d.get AMX.BLK_STAT_RUN == 0 && d.get AMX.BLK_CTL_EN == 1 && d.get AMX.BLK_STAT_RESULT == 1 &&
      mapGet d.commitAt (1, 0) none == some (late.cadNow + nsTu 2000)),
    regs (.matrixEnable true) (on (amxBad late)) (fun d => d.get AMX.BLK_STAT_RUN == 0 && d.get AMX.BLK_CTL_EN == 1 && d.get AMX.BLK_STAT_RESULT == 2 && d.get AMX.CNT_REJ_COUNT == 1),
    ran (.matrixEnable false) (on (amxAt late 7)) (fun d => d.get AMX.BLK_CTL_EN == 0 && mapGet d.commitAt (1, 0) none == none),
    [true, false].all fun en => regs (.matrixEnable en) (on (amx true)) (fun d => d.get AMX.BLK_CTL_EN == b2n en && d.get AMX.BLK_STAT_RUN == 1),
    let d := amxAt ((amxGood late).put AMX.BLK_CTL_EN true) late.cadNow
    d.amxReady && d.amxTurn.get AMX.BLK_STAT_RUN == 1 && (d.amxTurn.amxOut 27647).dlyFade == none,
    let d : Dev := { amx true with amx := [((5, 0), { AmxOut.init with out := 7 })] }
    d.amxTurn.get AMX.BLK_STAT_RUN == 0 && d.amxTurn.get AMX.BLK_STAT_ARMED == 0 && d.amxTurn.amx == [] && d.amxTurn.amxValue 5 == 0,
    late.amxTurn == late && (amxAt (late.put AMX.BLK_CTL_EN true) (late.cadNow + 1)).amxTurn == amxAt (late.put AMX.BLK_CTL_EN true) (late.cadNow + 1)
  ].all id = true := by decide +kernel

theorem wit_AudioFollow : [
    ran (.audioFollow 7) State.reset (fun d => d == State.reset.dev),
    ran (.audioFollow 7) (on { State.reset.dev with follow := [((7, 0), some (1535, true))] }) (fun d => d.follow == [] && d.get (AMX.SRC_SRC 0) 127 == 24575 && d.get (AMX.SRC_EN 0) 112 == 1 &&
      d.getAct (AMX.SRC_SRC 0) 127 == 24575 && d.getAct (AMX.SRC_EN 0) 112 == 1),
    ran (.audioFollow 7) (on { (State.reset.dev.put (AMX.SRC_EN 0) true 112) with follow := [((7, 0), some (1536, true))] }) (fun d => d.follow == [] && d.get (AMX.SRC_EN 0) 112 == 0 && d.getAct (AMX.SRC_EN 0) 112 == 0)
  ].all id = true := by decide +kernel

theorem wit_MatrixTicks : [
    ran (.matrixTick (2 ^ 32 + 5) [] []) State.reset (fun d => d.get AMX.TICK_LO_TICK_L == 5 && d.get AMX.TICK_HI_TICK_H == 1),
    let d : Dev := { State.reset.dev with amx := [((3, 0), { AmxOut.init with hist := [9, 8, 7], dly := 2 })] }
    (d.amxOut 3).hist[(d.amxOut 3).dly]? == some (7 : Int) && (d.amxOut 3).dlyFade == none
  ].all id = true := by decide +kernel

/-- A gang of four at port 0. -/
def gang : Dev := State.reset.dev.set AUD.PORT_CTL_GANG 3 0

theorem wit_AudioDirections : [
    gang.audLead 0 == 0 && gang.audGang 0 == [0, 1, 2, 3] && [true, false].all fun tx => decide (gang.audNch 0 tx ≤ gang.audSlots 0 tx) &&
      ran (.audioDirectionEnable 0 tx true) (on gang) (fun d => d.get (if tx then AUD.PORT_CTL_TX_EN else AUD.PORT_CTL_RX_EN) 0 == 1 && (d.audDir 0 tx).due &&
        !d.audRuns 0 tx) && [0, 1, 2, 3].all fun q => (gang.audStart 0 tx).audRuns q tx && (gang.audStart 0 tx).audDir q tx == AudDir.init,
    [true, false].all fun tx => let d0 : Dev := (gang.set AUD.TX_FMT_NCH 3 0).set AUD.RX_FMT_NCH 3 0
      decide (d0.audSlots 0 tx < d0.audNch 0 tx) && regs (.audioDirectionEnable 0 tx true) (on d0) (fun d => !d.audRuns 0 tx && d.get AUD.STAT_ERR 0 == (if tx then 1 else 2) &&
        d.get AUD.EVT_STAT_START_ERR 0 == 1),
    [true, false].all fun tx => ran (.audioDirectionEnable 0 tx false) (on ((gang.put AUD.STAT_TX_RUN true 3).put AUD.STAT_RX_RUN true 3)) (fun d => !d.audRuns 3 tx && d.audDir 3 tx == AudDir.init),
    gang.audLead 3 == 0 && [true, false].all fun tx => regs (.audioDirectionEnable 3 tx true) (on gang) (fun d => d.get (if tx then AUD.PORT_CTL_TX_EN else AUD.PORT_CTL_RX_EN) 3 == 1 &&
      kept gang d [(0x00A00100, 3)])
  ].all id = true := by decide +kernel

/-- Port 15 with a slave receiver that runs, in step or not. -/
def slave (sync : Bool) (state rate good : Nat) : Dev :=
  { ((((late.put AUD.RX_FMT_SLAVE true 15).put AUD.STAT_RX_RUN true 15).set AUD.SRC_STAT_STATE state 15).set AUD.SRC_STAT_RATE rate 15) with
    aud := [((15, 0), { AudPort.init with good := good, rx := { AudDir.init with sync := sync } })] }

theorem wit_AudioSync : [
    (slave false 0 0 0).audSlave 15 false && ran (.frameSyncRx 15 false 64 48000 []) (on (slave false 0 0 0)) (fun d => (d.audDir 15 false).sync),
    (slave true 0 0 0).audClocks 15 false != 63 && ran (.frameSyncRx 15 false 63 48000 []) (on (slave true 0 0 0)) (fun d => !(d.audDir 15 false).sync &&
      d.get AUD.EVT_STAT_FRAME_ERR 15 == 1 && d.get AUD.CNT_FRAME_ERR_COUNT 15 == 1),
    ran (.frameSyncMissing 15 false) (on (slave true 0 0 0)) (fun d => !(d.audDir 15 false).sync && d.get AUD.EVT_STAT_FRAME_ERR 15 == 1 && d.get AUD.CNT_FRAME_ERR_COUNT 15 == 1),
    [30000, 100000].all fun r => ran (.srcLock 15) (on (slave true 1 r 64)) (fun d => d.get AUD.SRC_STAT_STATE 15 == 2 && d.get AUD.EVT_STAT_SRC_LOCK 15 == 1),
    let d := (slave true 1 48000 64).mark .srcRate 15
    !d.lasted .srcRate 15 100000000 && ran (.srcLock 15) (on d) (fun e => e == d),
    (slave true 2 48000 64).lasted .frameSync 15 8000000000 && ran (.srcUnlock 15) (on (slave true 2 48000 64)) (fun d => d.get AUD.SRC_STAT_STATE 15 == 1 && d.get AUD.EVT_STAT_SRC_UNLOCK 15 == 1),
    let d := (slave true 2 48000 64).mark .frameSync 15
    ran (.srcUnlock 15) (on d) (fun e => e == d)
  ].all id = true := by decide +kernel

/-- A block at five seconds with the servo enabled on a source. -/
def tim (en input : Nat) : Dev := { (State.reset.dev.set TIM.SRV_CFG_EN en).set TIM.SRV_STAT_INPUT input with time := 5 * secUnits }

theorem wit_TimeSteps : [
    regs .timeSet (on (State.reset.dev.set TIM.SET_NS_NS 1000000000)) (fun d => d.get TIM.EVT_STAT_STEP_ERR == 1),
    ran .timeSet (on ((tim 0 0).set TIM.SET_NS_NS 999999999)) (fun d => d.time == 999999999 * 2 ^ 40 && d.get TIM.SRV_STAT_TIME_VALID == 1 && d.get TIM.EVT_STAT_STEP == 1 &&
      d.get TIM.CNT_STEP_COUNT == 1 && d.res == 0),
    ran .timeSet (on (((tim 0 0).put AMX.BLK_STAT_RUN true).set TIM.SET_NS_NS 999999999)) (fun d => d.res == (999999999 - 5000000000 : Int) * 65536),
    ran .timeAdj (on (((tim 0 0).put AMX.BLK_STAT_RUN true).set TIM.ADJ_NS (2 ^ 32 - 1))) (fun d => d.time == 5 * secUnits - 2 ^ 40 && d.res == -65536 && d.get TIM.EVT_STAT_STEP == 1),
    ran .cadSnap (on { tim 0 0 with res := 77 }) (fun d => d.res == 0 && d.time == 5 * secUnits && d.get TIM.EVT_STAT_SNAP == 1 && kept (tim 0 0) d [(0x00020004, 0)])
  ].all id = true := by decide +kernel

theorem wit_IncrLimits : [
    decide (State.reset.dev.incrNom * 1001 / 1000 < 2 ^ 48) && regs (.incrWrite true 0x141) State.reset (fun d => d.incr == 0x140 * 2 ^ 32 * 1001 / 1000),
    regs (.incrWrite false 0xFFFFFFFF) State.reset (fun d => d.incr == (if 0x140FFFFFFFF * 1000 ≤ State.reset.dev.incrNom * 1001 then 0x140FFFFFFFF else State.reset.dev.incrNom * 1001 / 1000)),
    regs (.incrWrite false 5) State.reset (fun d => d.incr == 0x14000000005),
    regs (.incrWrite true 0) State.reset (fun d => d.incr == (State.reset.dev.incrNom * 999 + 999) / 1000)
  ].all id = true := by decide +kernel

theorem wit_ServoSamples : [
    ran .srvPush (on (tim 0 1)) (fun d => d == tim 0 1) && ran (.ppsEdge 3 9) (on (tim 0 2)) (fun d => d == tim 0 2) && ran (.framePulse 3 9) (on (tim 0 3)) (fun d => d == tim 0 3),
    ran .srvPush (on ((tim 1 1).set TIM.SRV_OFS_HI_E_H 0xFFFF)) (fun d => d == { (tim 1 1).set TIM.SRV_OFS_HI_E_H 0xFFFF with sample := some (1, -(2 ^ 32)) }),
    let d0 : Dev := ((tim 1 2).set REF.STAT_SEL 3).set (REF.REFIN_CFG_KIND 3) 2
    ran (.ppsEdge 3 (65536 * 1000000003)) (on d0) (fun d => d == { d0 with sample := some (2, 3 * 65536) }),
    let d0 : Dev := ((tim 1 3).set REF.STAT_SEL 3).set (REF.REFIN_CFG_KIND 3) 1
    ran (.framePulse 3 (65536 * 20000003)) (on d0) (fun d => d.regs == d0.regs && (d.sample.map (·.1)) == some 3),
    regs .srvPush (on (tim 1 2)) (fun d => d.get TIM.EVT_STAT_SRV_IGN == 1 && d.get TIM.CNT_SRV_IGN_COUNT == 1),
    regs (.ppsEdge 3 9) (on (tim 1 2)) (fun d => d.get TIM.CNT_SRV_IGN_COUNT == 1),
    regs (.framePulse 3 9) (on (tim 1 3)) (fun d => d.get TIM.CNT_SRV_IGN_COUNT == 1)
  ].all id = true := by decide +kernel

theorem wit_ServoLoop : [
    ran .servoSample (on (tim 1 2)) (fun d => d == tim 1 2),
    regs .srvReset (on ((tim 1 2).set TIM.SRV_I_I 77)) (fun d => d.get TIM.SRV_I_I == 0),
    ran .servoSample (on { tim 1 2 with sample := some (1, 5) }) (fun d => d.sample == none && d.time == 5 * secUnits && d.get TIM.CNT_SRV_IGN_COUNT == 1 && kept (tim 1 2) d [(0x00020004, 0), (0x00020078, 0)]),
    ran .servoSample (on { tim 1 2 with sample := some (2, 65536), swPend := true }) (fun d => !d.swPend && d.sample == none && d.time == 5 * secUnits - 2 ^ 40 && d.get REF.EVT_STAT_SW_STEP == 1),
    (tim 1 2).get TIM.SRV_STEP_THR_THR == 1000000 && ran .servoSample (on { (tim 1 2).put TIM.SRV_CFG_STEP_EN true with sample := some (2, -1000001 * 65536) }) (fun d => d.sample == none &&
      d.get TIM.SRV_STAT_LOCKED == 0 && d.time == 5 * secUnits + 1000001 * 2 ^ 40),
    ran .servoSample (on { tim 1 2 with sample := some (2, 1000000 * 65536) }) (fun d => d.sample == none && d.time == 5 * secUnits &&
      toSigned 32 (d.get TIM.SRV_I_I) == 25600000 && toSigned 32 (d.get TIM.SRV_Y_Y) == 25600000),
    ran .servoSample (on { tim 1 2 with sample := some (2, -101 * 65536) }) (fun d => d.get TIM.SRV_STAT_LOCKED == 0)
  ].all id = true := by decide +kernel

/-- Trigger 7 at three seconds, with a period. -/
def trig (en period time : Nat) : Dev :=
  { ((State.reset.dev.set (TIM.TRIG_SEC_LO_SEC_L 7) 3).set (TIM.TRIG_SEC_HI_EN 7) en).set (TIM.TRIG_PER_PERIOD 7) period with time := time, prevTime := time - 1 }

theorem wit_CadencesAndTriggers : [
    decide (mapGet (tim 0 0).cadLast (3, 0) (-1) < (tim 0 0).cadIndex 3) && ran (.cadenceFrameStart 3) (on (tim 0 0)) (fun d => mapGet d.cadLast (3, 0) (-1) == (tim 0 0).cadIndex 3),
    ran (.cadenceFrameStart 3) (on { tim 0 0 with cadLast := [((3, 0), 250)] }) (fun d => d == { tim 0 0 with cadLast := [((3, 0), 250)] }) && (tim 0 0).cadIndex 3 == 250,
    ran (.triggerFire 7) (on (trig 0 0 (9 * secUnits))) (fun d => d == trig 0 0 (9 * secUnits)) && ran (.triggerFire 7) (on (trig 1 0 (3 * secUnits - 1))) (fun d => d == trig 1 0 (3 * secUnits - 1)),
    ran (.triggerFire 7) (on (trig 1 0 (3 * secUnits))) (fun d => (d.get TIM.EVT_STAT_TRIG).testBit 7 && d.get (TIM.TRIG_SEC_HI_EN 7) == 0 && d.get (TIM.TRIG_SEC_HI_LATE 7) == 0),
    ran (.triggerFire 7) (on (trig 1 1000000000 (9 * secUnits))) (fun d => (d.get TIM.EVT_STAT_TRIG).testBit 7 && d.get (TIM.TRIG_SEC_HI_EN 7) == 1 && d.trigTime 7 == 10 * secUnits)
  ].all id = true := by decide +kernel

/-! ## Lodestar and Consort -/

/-- Lodestar enabled in a state on a candidate, with the qualified ones given; candidate n has priority n + 1. -/
def ref (state sel qual : Nat) : Dev :=
  [(REF.PRI_PRI_0, 1), (REF.PRI_PRI_1, 2), (REF.PRI_PRI_2, 3), (REF.PRI_PRI_3, 4), (REF.PRI_PRI_4, 5), (REF.PRI_PRI_5, 6), (REF.CTL_EN, 1),
    (REF.STAT_STATE, state), (REF.STAT_SEL, sel), (REF.STAT_QUAL, qual), (REF.STAT_PRESENT, qual)].foldl (fun d x => d.set x.1 x.2) late

theorem wit_ReferenceSelection : [
    ran (.lodestarEnable false) (on (ref 2 3 8)) (fun d => d.get REF.CTL_EN == 0 && d.get REF.STAT_STATE == 0 && d.get REF.STAT_SEL == 7),
    ran (.lodestarEnable true) (on ((ref 0 7 0x30).put REF.CTL_EN false)) (fun d => d.get REF.CTL_EN == 1 && d.get REF.STAT_SEL == 4 && d.get REF.STAT_STATE == 1),
    (ref 2 3 1).refPick == some 0 && ran .referenceSelection (on (ref 2 3 1)) (fun d => d.get REF.STAT_SEL == 0 && d.get REF.STAT_STATE == 1 && d.get REF.STAT_L1_LOCK == 0 &&
      d.get REF.EVT_STAT_SEL_CHG == 1 && d.get TIM.SRV_STAT_INPUT == (ref 2 3 1).refInput (some 0) && d.get TIM.SRV_STAT_LOCKED == 0 && d.swPend),
    (ref 2 3 0).refPick == none && ran .referenceSelection (on (ref 2 3 0)) (fun d => d.get REF.STAT_STATE == 3 && d.get REF.STAT_SEL == 7 && d.get TIM.SRV_STAT_INPUT == 0 &&
      d.get REF.HOLD_F_F_AVG == ofSigned 32 (ref 2 3 0).fAvg && d.conds.contains (Dev.devFault 188)),
    ran .referenceSelection (on (ref 1 3 0)) (fun d => d.get REF.STAT_STATE == 0 && d.get REF.STAT_SEL == 7),
    ran .referenceSelection (on ((ref 1 3 0).put REF.STAT_HIST_OK true)) (fun d => d.get REF.STAT_STATE == 3),
    ran .referenceSelection (on (ref 2 3 8)) (fun d => d == ref 2 3 8),
    ran (.waitToRestore 0) (on (ref 2 3 1)) (fun d => d.get REF.STAT_SEL == 0 && d.get REF.STAT_STATE == 1),
    ran (.waitToRestore 0) (on (ref 2 3 8)) (fun d => d == ref 2 3 8)
  ].all id = true := by decide +kernel

/-- Input 3 takes frame pulses of the reset cadence, with 15 on time; or 10 MHz, whose PPS comes on input 2. -/
def pulses (run : Nat) : Dev := { late.set (REF.REFIN_CFG_KIND 3) 1 with cands := [((3, 0), { CandUnit.init with last := some 0, run := run })] }
def pps : Dev := { late.set (REF.REFIN_CFG_KIND 2) 2 with cands := [((2, 0), { CandUnit.init with run := 3 })] }

theorem wit_ReferenceCandidates : [
    !(pulses 15).pairBad 3 && (pulses 15).refKind 3 == 1 && ran (.refinEdge 3 (65536 * 20001000) 0) (on (pulses 15)) (fun d => d.candPresent 3),
    ran (.refinEdge 3 (65536 * 20001000 + 1) 0) (on ((pulses 15).set REF.STAT_PRESENT 8)) (fun d => !d.candPresent 3 && !d.candQual 3),
    !pps.pairBad 3 && pps.refKind 3 == 0 && [9999999, 10000001].all fun c => ran (.refinEdge 3 5 c) (on pps) (fun d => d.candPresent 2),
    ran (.refinLoss 3) (on (ref 2 3 8)) (fun d => !d.candPresent 3 && !d.candQual 3 && d.cand 3 == CandUnit.init && d.get REF.EVT_STAT_DISQ == 1),
    let d := (pulses 15).mark .cand 3
    ran (.refinLoss 3) (on d) (fun e => e == d),
    ran .ptpKeep (on late) (fun d => d.candPresent 4 && d.marked .cand 4 == late.cc && kept late d [(0x00030040, 0)]),
    ran .ptpKeepTimeout (on (ref 0 7 0x10)) (fun d => !d.candPresent 4 && !d.candQual 4),
    let d := (ref 0 7 0x10).mark .cand 4
    ran .ptpKeepTimeout (on d) (fun e => e == d),
    ran .requal (on (ref 2 3 0x3F)) (fun d => d.get REF.STAT_PRESENT == 0x3F && d.get REF.STAT_QUAL == 8)
  ].all id = true := by decide +kernel

theorem wit_ReferenceMeasurement : [
    ran (.lodestarMeasurement [(3, 5)] 7) State.reset (fun d => d == State.reset.dev),
    ran (.lodestarMeasurement [(3, 2560)] (-25600001)) (on { (ref 2 3 8).set REF.TIME_CFG_QUAL_T 2 with cands := [((3, 0), { CandUnit.init with good := 2 })] }) (fun d => d.get (REF.MEAS_VALID 0) == 0 &&
      d.get (REF.MEAS_VALID 3) == 1 && toSigned 24 (d.get (REF.MEAS_V 3)) == 100 && d.get (REF.MEAS_WIN_VIOL 3) == 0 && d.candQual 3 && toSigned 32 (d.get REF.L1_F_F) == -25600000)
  ].all id = true := by decide +kernel

theorem wit_ReferenceStates : [
    ran .l1Lock (on ((ref 1 3 8).put TIM.SRV_STAT_LOCKED true)) (fun d => d.get REF.STAT_L1_LOCK == 1 && d.get REF.STAT_STATE == 2 && d.get REF.STAT_PIN_STATE == 1 && d.get REF.EVT_STAT_STATE_CHG == 1),
    let d := (ref 1 3 8).mark .select 0
    ran .l1Lock (on d) (fun e => e == d),
    regs .l1Lock (on (ref 2 3 8)) (fun d => d.get REF.STAT_L1_LOCK == 1 && d.get REF.STAT_STATE == 2 && kept (ref 2 3 8) d [(0x00030040, 0)]),
    regs .histOk (on (ref 2 3 8)) (fun d => d.get REF.STAT_HIST_OK == 1 && d.get REF.STAT_PIN_STATE == 1 && kept (ref 2 3 8) d [(0x00030040, 0)]),
    let d := (ref 2 3 8).mark .lock 0
    [ref 3 7 0, d].all fun d => ran .histOk (on d) (fun e => e == d),
    ran .holdExpire (on { ref 3 7 0 with conds := [Dev.devFault 188] }) (fun d => d.get REF.STAT_STATE == 0 && d.get REF.STAT_HIST_OK == 0 && d.get REF.EVT_STAT_HOLD_EXPIRE == 1 &&
      d.conds.contains (Dev.devFault 189) && !d.conds.contains (Dev.devFault 188)) && (ref 3 7 0).get REF.L2_CFG_HOLD_MAX != 0,
    let d := (ref 3 7 0).mark .hold 0
    [(ref 3 7 0).set REF.L2_CFG_HOLD_MAX 0, d].all fun d => ran .holdExpire (on d) (fun e => e == d)
  ].all id = true := by decide +kernel

theorem wit_HoldoverModel : [
    [0xEC00#16, 0x6900#16].all fun t => let d0 := ((ref 2 3 8).put REF.CTL_COMP_EN true).set REF.MDL_C1_C1 0x7FFFFFFF
      ran (.holdoverModelUpdate t) (on d0) (fun d => d.get REF.STAT_TH_OK == 1 && d.get REF.TH_STAT_T == t.toNat && d.goodT == t.toInt && d.mdlM == d0.mdlAt t.toInt),
    [0xEBFF#16, 0x6901#16].all fun t => let d0 : Dev := { ref 2 3 8 with goodT := 99 }
      ran (.holdoverModelUpdate t) (on d0) (fun d => d.get REF.STAT_TH_OK == 0 && d.get REF.EVT_STAT_TH_FAULT == 1 && d.goodT == 99 && d.mdlM == 0 && d.conds.contains (Dev.devFault 190)),
    let d0 : Dev := { (((ref 2 3 8).put REF.STAT_TH_OK true).put REF.STAT_HIST_OK true).set REF.TH_STAT_T 0xEC00 with xSum := (-700, 60), learn := [((0, 0), (65534, 5))] }
    ran .learnRecord (on d0) (fun d => d.xSum == (0, 0) && mapGet d.learn (0, 0) (0, 0) == (65535, 5 + (-700 : Int) / 60)),
    ran .learnRecord (on { ref 3 7 0 with xSum := (5, 1) }) (fun d => d == ref 3 7 0),
    let d0 : Dev := { (ref 2 3 8).set REF.LRN_IDX_IDX 127 with learn := [((127, 0), (2, -7))] }
    ran (.lrnDataRead .host) (on d0) (fun d => mapGet d.answer (1, 0) (0, false) == (BitVec.ofInt 32 d0.lrnMean, false) && d.get REF.LRN_IDX_IDX == 0 && d.learn == d0.learn),
    ran .lrnClr (on { ref 2 3 8 with learn := [((127, 0), (2, -7))] }) (fun d => d.learn == [] && d.get REF.LRN_IDX_COUNT == 0),
    ran .ageDay (on (late.set REF.AGE_DAYS_DAYS 65535)) (fun d => d.get REF.AGE_DAYS_DAYS == 0 && d.marked .age 0 == late.cc && kept late d [(0x00030098, 0)]),
    ran .ageDay (on (late.mark .age 0)) (fun d => d == late.mark .age 0)
  ].all id = true := by decide +kernel

/-- Consort enabled in a state, its twin link running. -/
def con (state : Nat) : Dev := ((late.put CON.CTL_EN true).set CON.STAT_STATE state).set LNG.GRP_STAT_TX_STATE 3 36

/-- The same block with a timed condition that began a number of cc ago. -/
def since (d : Dev) (t : Timer) (n : Nat) : Dev := { d with marks := mapPut d.marks (t.code, 0) 0 (d.cc - n) }

theorem wit_ConsortStates : [
    ran (.consortEnable true) State.reset (fun d => d.get CON.CTL_EN == 1 && d.get CON.STAT_STATE == 1 && d.get CON.STAT_ROLE == 0),
    ran (.consortEnable false) (on { con 5 with units := [(1, [])], handover := some 5 }) (fun d => d.get CON.CTL_EN == 0 && d.get CON.STAT_STATE == 0 && d.get CON.STAT_PAIRED == 0 &&
      d.get CON.STAT_READY == 0 && d.units == [] && d.handover == none),
    ran (.pairTimeout false true) (on (con 1)) (fun d => d.get CON.STAT_STATE == 5 && d.get CON.STAT_ROLE == 1),
    ran (.pairTimeout true true) (on (con 1)) (fun d => d.get CON.STAT_STATE == 1 && d.get CON.EVT_STAT_LINK_FAULT == 1),
    ran (.pairTimeout false true) (on ((con 1).mark .pair 0)) (fun d => d.get CON.STAT_STATE == 1),
    (since (con 3) .beat 32000).beatLost && ran (.partnerLoss false true) (on (since (((con 3).put CON.CTL_AUTO_TAKE true).put CON.STAT_READY true) .beat 32000)) (fun d => d.get CON.STAT_STATE == 4 && d.get CON.STAT_ROLE == 1 && d.get CON.STAT_PAIRED == 0 &&
      d.get CON.STAT_DEFER == 1 && d.get CON.EVT_STAT_TAKEOVER == 1 && d.handover == some (nsTu 500000) && d.get CON.CNT_HB_MISS_COUNT == 4),
    ran (.partnerLoss true true) (on (con 3)) (fun d => d.get CON.STAT_STATE == 3 && d.get CON.EVT_STAT_LINK_FAULT == 1 && d.get CON.STAT_HB_OK == 0),
    let d := since ((con 3).set LNG.GRP_STAT_RX_STATE 5 36) .beat 31999
    !d.beatLost && ran (.partnerLoss false true) (on d) (fun e => e == d.twinPins false true),
    (con 3).ctrlOut && ran .ctrlTimeout (on ((con 3).put CON.STAT_READY true)) (fun d => d.get CON.STAT_STATE == 4 && d.handover == some (nsTu 500000)),
    let d := ((con 3).put CON.STAT_READY true).set CON.STAT_PTR_CTRL 1
    !d.ctrlOut && ran .ctrlTimeout (on d) (fun e => e == d),
    [1, 2, 3].all fun k => ran .forceActive (on (con k)) (fun d => d.get CON.STAT_STATE == 4 && d.get CON.CNT_TAKEOVER_COUNT == 1),
    [0, 4, 5].all fun k => ran .forceActive (on (con k)) (fun d => d == con k),
    ran .handoverComplete (on { con 4 with handover := some 5 }) (fun d => d == { con 4 with handover := some 5 }),
    ran .handoverComplete (on { (con 4).put CON.STAT_DEFER true with handover := some 0 }) (fun d => d.get CON.STAT_STATE == 5 && d.get CON.STAT_DEFER == 0 && d.handover == none),
    ran .join (on ((con 3).set CON.PTR_ID_STATE 5)) (fun d => d.get CON.STAT_STATE == 2 && d.get CON.STAT_REG_DONE == 0 && ((con 3).get CON.COPY_REGIONS).testBit (d.get CON.COPY_CUR)) &&
      (con 3).get CON.COPY_REGIONS != 0
  ].all id = true := by decide +kernel

set_option maxRecDepth 100000 in
theorem wit_ConsortYield : [
    ran .yieldCmd (on { ((con 5).set CON.PTR_ID_STATE 3).put CON.STAT_PTR_READY true with time := 7 * 2 ^ 40 }) (fun d => d.con.yieldTx == some (nsTu 101000)),
    ran .yieldCmd (on (con 3)) (fun d => d == con 3),
    ran .yieldInstant (on { con 5 with con := { ConUnit.init with yieldTx := some 9 } }) (fun d => d == { con 5 with con := { ConUnit.init with yieldTx := some 9 } }),
    ran .yieldInstant (on { con 5 with con := { ConUnit.init with yieldTx := some 0 } }) (fun d => d.get CON.STAT_STATE == 3 && d.get CON.STAT_ROLE == 2 && d.con.yieldTx == none && d.con.keep && d.roleHold &&
      d.handover == some (nsTu 500000)),
    ran .yieldInstant (on { (con 3).put CON.STAT_READY true with con := { ConUnit.init with yieldRx := some 0 } }) (fun d => d.get CON.STAT_STATE == 4 && d.handover == some (nsTu 500000) && d.con.yieldRx == none),
    [nsTu 490000, nsTu 490000 + 1].all fun h => let d : Dev := { con 3 with roleHold := true, handover := some h }
      d.roleSwitchDue == decide (h ≤ nsTu 490000) && ran .yieldRoleSwitch (on d) (fun e => e == { d with roleHold := !decide (h ≤ nsTu 490000) }),
    unitParse (unitBytes 0x12 (leBytes 6 1 ++ leBytes 4 5)) == some (0x12, leBytes 6 1 ++ leBytes 4 5) &&
      ran (.yieldRx (unitBytes 0x12 (leBytes 6 1 ++ leBytes 4 5))) (on (con 3)) (fun d => d.con.yieldRx == some (nsTu 1000000005))
  ].all id = true := by decide +kernel

set_option maxRecDepth 100000 in
theorem wit_ConsortUnits : [
    ran .heartbeatTx (on (con 3)) (fun d => d.con.hseqTx == 1 && (match d.units with | [(1, p)] => p.length == 52 && payNat p 0 4 == 1 && payNat p 6 2 == 0 | _ => false)),
    ran .heartbeatTx State.reset (fun d => d == State.reset.dev),
    unitNext [(0x20, [1]), (0x02, [2])] == some ((0x02, [2]), [(0x20, [1])]) && ran .consortUnitTx (on { con 3 with units := [(0x20, [1]), (0x02, [2])] }) (fun d => d.units == [(0x20, [1])] &&
      d.sent == [.unit (unitBytes 0x02 [2])]),
    unitParse [1, 2, 3] == none && ([.heartbeatRx [1, 2, 3] 0, .yieldRx [1, 2, 3], .journalRx [1, 2, 3], .digestRx [1, 2, 3], .reqRx [1, 2, 3] [], .stateRx [1, 2, 3], .snapRx [1, 2, 3], .abortRx [1, 2, 3]] : List Instr).all
      fun i => ran i (on (con 3)) (fun d => d.get CON.CNT_UNIT_ERR_COUNT == 1 && d.con == (con 3).con && kept (con 3) d [(0x00B00044, 0)]) && ran i State.reset (fun d => d.con == State.reset.dev.con && d.regs == [])
  ].all id = true := by decide +kernel

/-- A heartbeat's payload: HSEQ, the state with its flags, SYSID and CHART_ID. -/
def hb (seq flags sysid : Nat) : List Byte := leBytes 4 seq ++ [BitVec.ofNat 8 flags, 0] ++ leBytes 2 sysid ++ List.replicate 44 0

set_option maxRecDepth 100000 in
theorem wit_ConsortHeartbeats : [
    (con 1).twinId == 0 && (con 1).hbCompat (hb 9 0x81 0) && unitParse (unitBytes 1 (hb 9 0x81 0)) == some (1, hb 9 0x81 0) && ran (.heartbeatRx (unitBytes 1 (hb 9 0x81 0)) 0) (on (con 1)) (fun d =>
      d.con.hseqRx == some 9 && d.get CON.STAT_HB_OK == 1 && d.get CON.PTR_ID_SYSID == 0 && d.get CON.PTR_ID_STATE == 1 && d.get CON.STAT_STATE == 5 && d.get CON.STAT_PAIRED == 1),
    !(con 1).hbCompat (hb 9 0x81 3) && ran (.heartbeatRx (unitBytes 1 (hb 9 0x81 3)) 0) (on (con 1)) (fun d => d.get CON.EVT_STAT_PAIR_ERR == 1 && d.get CON.STAT_STATE == 1),
    ran (.heartbeatRx (unitBytes 1 (hb 9 0x81 0)) 0) (on { con 3 with con := { ConUnit.init with hseqRx := some 9 } }) (fun d => d.con.hseqRx == some 9 && d.con.echo == (0, 0)),
    ran .twinTimeSample (on { ((con 3).set TIM.SRV_CFG_EN 1).set TIM.SRV_STAT_INPUT 4 with con := { ConUnit.init with offsets := (-7, 2) } }) (fun d => d.con.offsets == (0, 0) && d.sample == some (4, -4)),
    ran .twinTimeSample (on ((con 3).mark .twinTime 0)) (fun d => d == (con 3).mark .twinTime 0)
  ].all id = true := by decide +kernel

def rec40 (seq : Nat) : List Byte := takeBytes ⟨1, 2, 7, 0, 3, false, false, false, 0⟩ ++ List.replicate 20 0 ++ leBytes 4 seq

/-- A standby with a received digest of frame 9 of cadence 15, whose last frame start is `k`. -/
def unmet (k : Int) : Dev := { con 3 with con := { ConUnit.init with peer := [⟨51, 15, 9, 1, 2⟩] }, cadLast := [((15, 0), k)] }

set_option maxRecDepth 100000 in
theorem wit_ConsortJournal : [
    (con 3).get CON.COPY_CUR != 8 && (rec40 1).length == 40 && ran (.journalRx (unitBytes 2 (rec40 1))) (on (con 3)) (fun d => d.get CON.JSEQ_RX_JSEQ == 1 && d.get CON.EVT_STAT_JRNL_GAP == 0),
    ran (.journalRx (unitBytes 2 (rec40 2))) (on (con 3)) (fun d => d.get CON.JSEQ_RX_JSEQ == 2 && d.get CON.EVT_STAT_JRNL_GAP == 1 && d.con.gap && d.get CON.CNT_JRNL_GAP_COUNT == 1),
    ran (.digestSend 51 15 (-1)) (on ((con 5).put CON.CTL_DIG_EN false)) (fun d => d == (con 5).put CON.CTL_DIG_EN false),
    let d0 : Dev := { (((con 5).put CON.CTL_DIG_EN true).put SLP.OUT_CFG_OUT_EN true 7).set SLP.OUT_CFG_OUT_FMT 1 7 with crcs := [((7, 0), ⟨[], none, [(9, 0x1234)]⟩)] }
    ((List.range 32).filterMap fun j => d0.digCrc 0 0 9 j) == [0x1234] && ran (.digestSend 0 0 9) (on d0) (fun d =>
      match d.units with | [(3, p)] => p.length == 16 && payNat p 0 1 == 0 && payNat p 1 1 == 0 && payNat p 12 4 == crc32 (leBytes 4 0x1234) | _ => false),
    ran (.digestRx (unitBytes 3 (List.replicate 16 3))) (on ((con 3).put CON.CTL_DIG_EN true)) (fun d => d.con.peer == [⟨3, 3, 0x03030303, 0x03030303, 0x03030303⟩]),
    (unmet 12).digOver 15 9 && ran (.digestTimeout 51 15 9) (on (unmet 12)) (fun d => d.get CON.EVT_STAT_DIG_MM == 1 && d.get CON.CNT_DIG_MM_COUNT == 1 &&
      d.get CON.MM_STAT_UNIT == 51 && d.get CON.MM_STAT_CAD == 15 && d.get CON.MM_STAT_VALID == 1 && d.get CON.MM_STAT_K_LO == 9),
    !(unmet 11).digOver 15 9 && ran (.digestTimeout 51 15 9) (on (unmet 11)) (fun d => d == unmet 11)
  ].all id = true := by decide +kernel

/-- A standby that copies region 3. -/
def copying (s : CopyShadow) : Dev := { (con 2).set CON.COPY_CUR 3 with con := { ConUnit.init with shadow := s } }
def snapUnit (crc : Nat) : List Byte := unitBytes 0x11 ([3, 0] ++ leBytes 2 5 ++ leBytes 8 4 ++ leBytes 4 77 ++ leBytes 4 crc)

set_option maxRecDepth 100000 in
theorem wit_ConsortCopy : [
    ran (.reqRx (unitBytes 0x10 [8]) [1, 2]) (on (con 5)) (fun d => d.con.snapSeq == 1 && d.con.serving == some 8 && (match d.units.getLast? with
      | some (0x11, q) => payNat q 0 1 == 8 && payNat q 16 4 == crc32 [1, 2] | _ => false)),
    let p : List Byte := [3, 0] ++ leBytes 2 5 ++ leBytes 8 0 ++ [1, 2, 3, 4]
    ran (.stateRx (unitBytes 0x20 p)) (on (copying CopyShadow.init)) (fun d => d.con.shadow.snap == some 5 && d.con.shadow.data.getLast? == some (0, [1, 2, 3, 4])),
    let s : CopyShadow := ⟨some 5, [(0, [1, 2, 3, 4])], none⟩
    imageOf s.data 4 == some [1, 2, 3, 4] && ran (.snapRx (snapUnit (crc32 [1, 2, 3, 4]))) (on (copying s)) (fun d => d.con.shadow == ⟨some 5, [(0, [1, 2, 3, 4])], some (4, 77)⟩) &&
      ran (.snapRx (snapUnit 1)) (on (copying s)) (fun d => d.con.shadow == CopyShadow.init && d.units == [(0x10, [3])]),
    ran (.abortRx (unitBytes 0x13 [3])) (on (copying ⟨some 5, [], none⟩)) (fun d => d.get CON.STAT_STATE == 3 && d.get CON.COPY_CUR == 15 && d.get CON.EVT_STAT_COPY_ABORT == 1 &&
      d.get CON.CNT_COPY_ABORT_COUNT == 1 && d.con.shadow == CopyShadow.init)
  ].all id = true := by decide +kernel

/-! ## The control plane -/

theorem wit_BusErrors : [
    [Master.core, .host, .loader, .consort].all fun m => State.reset.dev.busMaster m && ran (.decodeMiss m 0x00D00000 true) State.reset (fun d => mapGet d.answer (m.code, 0) (0, false) == (0xFFFFFFFF, true) &&
      d.get BUS.EVT_STAT_DECODE_MISS == 1 && d.get BUS.MISS_INFO_COUNT == 1 && d.get BUS.MISS_INFO_VALID == 1 && d.get BUS.MISS_INFO_MASTER == m.code && d.get BUS.MISS_INFO_WRITE == 1 &&
      d.get BUS.MISS_ADDR_OFS == 0xD00000),
    ran (.decodeMiss .core 0x00D00000 true) (on ((State.reset.dev.put BUS.MISS_INFO_VALID true).set BUS.MISS_INFO_COUNT 65535)) (fun d => d.get BUS.MISS_ADDR_OFS == 0 && d.get BUS.MISS_INFO_COUNT == 65535),
    !State.reset.dev.shutOut .host 0x00100000 && ran (.targetTimeout .host 0x00100000 false) State.reset (fun d => mapGet d.answer (1, 0) (0, false) == (0xFFFFFFFF, true) && d.get BUS.EVT_STAT_TMO == 1 &&
      d.rising == [⟨72, 3, 0, 0⟩]),
    regs .busClr (on ((State.reset.dev.put BUS.MISS_INFO_VALID true).set BUS.VIOL_INFO_COUNT 5)) (fun d => d.get BUS.MISS_INFO_VALID == 0 && d.get BUS.VIOL_INFO_COUNT == 0)
  ].all id = true := by decide +kernel

theorem wit_SelectRegisters :
    (([FLT.SRC_SEL_SEL, KEY.SLOT_SEL_SEL, EVT.SRC_SEL_SEL, LOG.CTR_SEL_SEL, LNG.GRP_SEL_SEL, XP.OUT_SEL_SEL,
      SLP.SLOT_SEL_SEL, MAC.PORT_SEL_SEL, FLW.FLOW_SEL_SEL, QM.Q_SEL_SEL, FS.SYNC_SEL_SEL, PLT.ENG_SEL_SEL, PLT.LAY_SEL_SEL,
      AMX.CH_SEL_SEL, AUD.PORT_SEL_SEL].map fun f : Fld => !State.reset.dev.shutOut .host f.off && ran (.selectWrite .host f.off 0xFFFFFFFF) State.reset (fun d => d.get f 1 == 2 ^ f.w - 1 && d.reg f.off 0 == 0 &&
        mapGet d.answer (1, 0) (0, false) == (0, false) && (match selRange f.off with | some (n, evt) => decide (2 ^ f.w ≤ n) || d.get evt == 1 | none => false)))).all id = true := by decide +kernel

theorem wit_RegisterWrites : [
    ran (.registerWrite .core 0x0002002C 0x89ABCDEF) State.reset (fun d => d.get TIM.ADJ_NS == 0x89ABCDEF && offsKept State.reset.dev d [0x0002002C, 0x00090100, 0x00090104]),
    ran (.registerWrite .core 0x00C01004 0xFFFFFFFF) State.reset (fun d => d.get HIF.TK_VLAN_VID == 4095 && offsKept State.reset.dev d [0x00C01004, 0x00090100, 0x00090104]),
    let d0 := State.reset.dev.put HIF.TK_CTL_EN true
    d0.get HIF.TK_VLAN_VID != 4095 && ran (.registerWrite .core 0x00C01004 0xFFFFFFFF) (on d0) (fun d => d.get HIF.TK_VLAN_VID == d0.get HIF.TK_VLAN_VID && d.get HIF.TK_EVT_CLASS_VIOL == 1 &&
      d.get BUS.EVT_STAT_VIOL == 1 && d.get BUS.VIOL_INFO_COUNT == 1 && offsKept d0 d [0x00C01030, 0x00070000, 0x0007000C, 0x00070010, 0x00090100, 0x00090104]),
    let d0 := (State.reset.dev.put BUS.EVT_STAT_DECODE_MISS true).put BUS.EVT_STAT_VIOL true
    ran (.registerWrite .sidePort 0x00070000 1) (on d0) (fun d => d.get BUS.EVT_STAT_DECODE_MISS == 0 && d.get BUS.EVT_STAT_VIOL == 1 && offsKept d0 d [0x00070000, 0x00090100, 0x00090104])
  ].all id = true := by decide +kernel

theorem wit_HoldingRegisters : [
    let d0 : Dev := { State.reset.dev with aclk := 0x123456789ABC }
    ran (.lowWordRead .host 0x0001002C) (on d0) (fun d => mapGet d.answer (1, 0) (0, false) == (0x56789ABC, false) && mapGet d.hold (1, 0x00010030) none == some 0x1234),
    ran (.lowWordRead .core 0x00020038) State.reset (fun d => mapGet d.answer (0, 0) (0, false) == (0, false) && mapGet d.hold (0, 0x0002003C) none == some 0x140),
    let d0 : Dev := { State.reset.dev with time := 0x500000003 * secUnits + 7 * 2 ^ 40 + 5 * 2 ^ 24 }
    ran (.timeFracRead .host) (on d0) (fun d => mapGet d.answer (1, 0) (0, false) == (5, false) && mapGet d.hold (1, 0x00020014) none == some 7 && mapGet d.hold (1, 0x00020018) none == some 3 &&
      mapGet d.hold (1, 0x0002001C) none == some 5)
  ].all id = true := by decide +kernel

/-- A region whose snapshot is complete. -/
def region (r : Nat) (data : List Byte) : Dev :=
  { (State.reset.dev.set CON.COPY_CUR r).set CON.STAT_STATE 2 with con := { ConUnit.init with shadow := ⟨some 5, [(0, data)], some (data.length, 77)⟩, gap := true } }

theorem wit_RegionCommit : [
    ran (.regionCommit []) State.reset (fun d => d == State.reset.dev),
    ran (.regionCommit []) (on (region 0 [1])) (fun d => (d.get CON.STAT_REG_DONE).testBit 0 && d.get CON.EVT_STAT_COPY_DONE == 1),
    runs (.regionCommit []) (on (region 5 [1, 2])) (fun t => (t.dev.get CON.STAT_REG_DONE).testBit 5 && memReads storeFill t.store surfStart 2 == [1, 2]),
    ran (.regionCommit []) (on (region 8 [1])) (fun d => (d.get CON.STAT_REG_DONE).testBit 8 && d.get CON.JSEQ_RX_JSEQ == 77 && !d.con.gap)
  ].all id = true := by decide +kernel

/-- Event source 0 pending, on vector 63 and pin 3. -/
def pend : Dev :=
  (((State.reset.dev.put FLT.SRC_STAT_REC true 5).set EVT.SRC_CFG_VEC 63 0).put EVT.SRC_CFG_VEC_EN true 0).set EVT.SRC_CFG_PINS 8 0 |>.set EVT.PIN_EN_EN 8

theorem wit_EventRouter : [
    pend.srcPending 0 && ran (.eventSourcePending 0) (on pend) (fun d => mapGet d.evtWas (0, 0) false && !d.vecArmed 63 && d.evtPins.testBit 3),
    ran (.vecAck 1 0x80000000) (on (State.reset.dev.set EVT.VEC_ARM_1_ARMED 0)) (fun d => d.vecArmed 63),
    let d0 := (State.reset.dev.set ⟨0x00C08804, 0, 32⟩ 0x80000000).setReg (0x00C08008 + 16 * 63) 0 77
    ran (.msixUnmask 63) (on d0) (fun d => (d.reg (0x00C0800C + 16 * 63) 0).toNat % 2 == 0 && d.get ⟨0x00C08804, 0, 32⟩ == 0 && d.sent == [.msix 63 0 77]),
    ran (.softSet 127) State.reset (fun d => d.get EVT.SOFT_IDX == 127 && d.soft == 2 ^ 127) && ran (.softClr 127) (on { State.reset.dev with soft := 2 ^ 127 + 1 }) (fun d => d.soft == 1)
  ].all id = true := by decide +kernel

set_option maxRecDepth 100000 in
theorem wit_Logbook : [
    [true, false].all fun v => regs (.freeze v) State.reset (fun d => d.get LOG.CTL_FREEZE == b2n v && d.get LOG.STAT_FROZEN == b2n v),
    (late.put LOG.STAT_BW_RUN true).windowOver && !State.reset.dev.windowOver,
    ran .bwWindowEnd State.reset (fun d => d == State.reset.dev)
  ].all id = true := by decide +kernel

set_option maxRecDepth 100000 in
theorem wit_ClocksAndCrossings : [
    ran (.clockMonitorWindow [.aclk, .audioBit 15] true) State.reset (fun d => d.get GLB.CLK_STAT_SYS_LOCK == 0 && d.get GLB.CLK_STAT_ACLK_OK == 0 && d.conds.contains (Dev.devFault 47) && d.conds.contains (Dev.devFault 12) &&
      allClocks.all fun c => d.conds.contains ⟨16 * (clockOwner c).1 + 6, 3, 0, (clockOwner c).2⟩ == ([Clock.aclk, .audioBit 15].contains c && State.reset.dev.clockRuns c)),
    ran .pclkLock (on { State.reset.dev with pclkReq := true }) (fun d => d.get GLB.CLK_STAT_PCLK_ON == 1 && !d.pclkReq) && ran .pclkLock State.reset (fun d => d == State.reset.dev),
    ran .pclkIdleTimeout (on (late.put GLB.CLK_STAT_PCLK_ON true)) (fun d => d.get GLB.CLK_STAT_PCLK_ON == 0) &&
      [late.mark .pclk 0, late.put PLT.ENG_CTL_EN true 31].all fun d => ran .pclkIdleTimeout (on d) (fun e => e == d),
    ran (.crossingSideReset 25 0 true 3) State.reset (fun d => mapGet d.absent (25, 0) false && (d.get GLB.XING_ABSENT_ABSENT).testBit 25 && d.rising == [] && kept State.reset.dev d [(0x00000110, 0)]),
    ran (.crossingSideReset 25 0 false 3) State.reset (fun d => d.rising == [⟨16 * xingClass 25 + 7, 3, 0, 0⟩] && d.get GLB.XING_LOST_COUNT == 3 && d.get GLB.XING_LAST_IDX == 25 && d.get GLB.XING_LAST_VALID == 1),
    ran (.crossingSideReset 25 0 false 0) State.reset (fun d => d.get GLB.XING_LOST_COUNT == 0 && d.rising.length == 1),
    ran (.crossingRestart 25 0) (on { State.reset.dev with absent := [((25, 0), true)] }) (fun d => !mapGet d.absent (25, 0) false && d.rising == [])
  ].all id = true := by decide +kernel

theorem wit_CounterClears : [
    regs (.lngCntClr 36) (on (State.reset.dev.set LNG.CNT_HDR_COUNT 3 36)) (fun d => d.get LNG.CNT_HDR_COUNT 36 == 0),
    regs .amxCntClr (on (State.reset.dev.set AMX.CNT_REJ_COUNT 3)) (fun d => d.get AMX.CNT_REJ_COUNT == 0),
    regs (.audCntClr 15) (on (State.reset.dev.setReg 0x00A00130 15 7)) (fun d => d.reg 0x00A00130 15 == 0),
    regs .timCntClr (on (State.reset.dev.set TIM.CNT_TSQ_OVF_COUNT 3)) (fun d => d.get TIM.CNT_TSQ_OVF_COUNT == 0),
    regs .conCntClr (on (State.reset.dev.setReg 0x00B00044 0 7)) (fun d => d.reg 0x00B00044 0 == 0),
    regs .fltCntClr (on (State.reset.dev.set FLT.SRC_CNT_COUNT 3 255)) (fun d => d.get FLT.SRC_CNT_COUNT 255 == 0),
    regs .xingCntClr (on (State.reset.dev.set GLB.XING_LOST_COUNT 3)) (fun d => d.get GLB.XING_LOST_COUNT == 0)
  ].all id = true := by decide +kernel

/-! ## Supervision, the side port and resets -/

theorem wit_FaultRecords : [
    ran (.faultRecord [] [⟨255, 2, 70000, 9⟩] []) State.reset (fun d => d.get FLT.SRC_STAT_REC 255 == 1 && d.get FLT.SRC_STAT_ACKED 255 == 0 && d.get FLT.SRC_STAT_EFF 255 == 1 && d.get FLT.SRC_STAT_LVL 255 == 2 &&
      d.get FLT.SRC_STAT_UNIT 255 == 4464 && d.get FLT.SRC_CNT_COUNT 255 == 1 && d.fltSeq == 1 && (match d.fltLog with | [x] => x.seq == 0 && x.src == 255 && x.sev == 1 && x.unit == 70000 && x.aux == 9 | _ => false)),
    let e : LogEnt := ⟨0, 0, 0, 0, false, false, 0, 0, 0, 0, 0, 0, false, 0⟩
    ran (.faultRecord [] [⟨0, 3, 0, 0⟩] []) (on { State.reset.dev with fltLog := List.replicate 64 e }) (fun d => d.fltLog.length == 64 && d.fltSeq == 0 && d.get FLT.BLK_EVT_LOG_FULL == 1)
  ].all id = true := by decide +kernel

/-- Source 255 recorded with an effective severity, its condition present or not. -/
def flt (cond eff : Nat) : Dev :=
  { (((State.reset.dev.put FLT.SRC_STAT_REC true 255).set FLT.SRC_STAT_COND cond 255).set FLT.SRC_STAT_EFF eff 255) with fltRecs := [((255, 0), ⟨eff, 0⟩)] }

theorem wit_FaultCommands : [
    regs (.srcAck 255) (on (flt 0 1)) (fun d => d.get FLT.SRC_STAT_ACKED 255 == 1 && kept (flt 0 1) d [(0x00010104, 255), (0x0001007C, 0), (0x0001000C, 0)]),
    ran (.srcAck 0) (on (flt 0 1)) (fun d => d == flt 0 1) && ran (.srcClr 0) (on (flt 0 1)) (fun d => d == flt 0 1),
    regs (.srcClr 255) (on (flt 1 1)) (fun d => d.get FLT.BLK_EVT_CLR_REFUSED == 1 && kept (flt 1 1) d [(0x00010004, 0)]),
    ran (.srcClr 255) (on (flt 0 5)) (fun d => d == flt 0 5),
    ran (.srcClr 255) (on (flt 0 4)) (fun d => d.get FLT.SRC_STAT_REC 255 == 0 && d.get FLT.SRC_STAT_EFF 255 == 0 && d.fltRecs == []),
    ran .ackAll (on (flt 1 1)) (fun d => d.get FLT.SRC_STAT_ACKED 255 == 1),
    ran .logClr (on (flt 1 1)) (fun d => d.fltLog == [] && d.get FLT.LOG_IDX_COUNT == 0),
    ran (.logDataRead .host) (on (({ flt 1 1 with fltLog := List.replicate 64 ⟨0, 0, 0, 0, false, false, 0, 0, 0, 0, 9, 8, false, 7⟩ }).set FLT.LOG_IDX_IDX 63 (Dev.logCh .host))) (fun d => mapGet d.answer (1, 0) (0, false) == (1792, false) && d.get FLT.LOG_IDX_IDX (Dev.logCh .host) == 0)
  ].all id = true := by decide +kernel

theorem wit_FaultInjection : [
    hasChecker 220 && ran (.srcInj 220) (on late) (fun d => mapGet d.injArmed (late.injTarget 220, 0) false && d.marked .inject (late.injTarget 220) == late.cc && d.regs == []),
    !hasChecker 124 && ran (.srcInj 124) State.reset (fun d => d == State.reset.dev),
    ran (.srcForce 220 true) State.reset (fun d => d == State.reset.dev),
    ran (.srcForce 124 true) State.reset (fun d => d.get FLT.SRC_CMD_FORCE 124 == 1 && d.get FLT.SRC_STAT_COND 124 == 1 && d.rising == [⟨124, 3, 0, 0⟩]),
    ran (.srcForce 124 false) (on { (State.reset.dev.put FLT.SRC_CMD_FORCE true 124) with conds := [⟨124, 3, 0, 5⟩] }) (fun d => d.get FLT.SRC_CMD_FORCE 124 == 0 && d.get FLT.SRC_STAT_COND 124 == 1 && d.rising == []),
    ran (.injStuck 220) (on { late with injArmed := [((220, 0), true)] }) (fun d => d.injArmed == [] && d.rising == [⟨15, 3, 0, 220⟩]),
    let d : Dev := { late.mark .inject 220 with injArmed := [((220, 0), true)] }
    [late, d].all fun d => ran (.injStuck 220) (on d) (fun e => e == d)
  ].all id = true := by decide +kernel

/-- The watchdog enabled on a device in RUNNING, with a restart count. -/
def dog (n : Nat) : Dev := ((late.put FLT.WDOG_CFG_EN true).put NVM.BOOT_STAT_RUNNING true).set FLT.WDOG_STAT_RST_CNT n

theorem wit_Watchdog : [
    ran (.wdogKick 0x0000A55A) (on (dog 3)) (fun d => d == { dog 3 with kickSeq := true }),
    ran (.wdogKick 0x00005AA5) (on { dog 3 with kickSeq := true }) (fun d => !d.kickSeq && d.get FLT.WDOG_STAT_RST_CNT == 0 && kept (dog 3) d [(0x00010024, 0)]),
    ran (.wdogKick 7) (on ((dog 3).set FLT.WDOG_STAT_BAD_KICK 65535)) (fun d => !d.kickSeq && d.get FLT.WDOG_STAT_BAD_KICK == 65535),
    [(dog 3).put FLT.WDOG_CFG_EN false, (dog 3).mark .kick 0].all fun d => !d.wdogDue && ran (.watchdogExpiry false) (on d) (fun e => e == d),
    ran (.watchdogExpiry true) (on (dog 15)) (fun d => d.wdogWait && d.get FLT.WDOG_STAT_RST_CNT == 15),
    ran (.watchdogExpiry false) (on (dog 3)) (fun d => d.restarting && d.get HIF.STAT_CTRL_UP == 0 && d.get FLT.WDOG_STAT_RST_CNT == 4)
  ].all id = true := by decide +kernel

/-- Twenty-four sensor readings of 50 °C, but the first `k` at another one. -/
def temps (k : Nat) (t : BitVec 12) : List (BitVec 12) := List.replicate k t ++ List.replicate (24 - k) 200

/-- The block at a step of the thermal ladder, with a shed threshold. -/
def steps (n h : Nat) : Dev := { late.set XP.BLK_STAT_SHED_H h with ladder := n }

set_option maxRecDepth 100000 in
theorem wit_ThermalSupervision : [
    ((temps 1 220).map BitVec.toInt |>.filter (Dev.sensorOk ((temps 1 220).map BitVec.toInt))).length == 24 && ran (.thermalSample (temps 1 220)) State.reset (fun d => d.get FLT.TJ_TJ == 220 && d.get FLT.TJ_VALID_CNT == 24 &&
      d.ladder == ladderNext 0 220),
    let ts := (List.replicate 24 (480 : BitVec 12)).map BitVec.toInt
    (ts.filter (Dev.sensorOk ts)).length == 24 && ts.all (· == 480),
    let ts := (temps 24 0x7FF).map BitVec.toInt
    ts.length == 24 && (ts.filter (Dev.sensorOk ts)).length == 0,
    ran .thermalTrip State.reset (fun d => d.get FLT.STAT_TRIP == 1 && d.get FLT.STAT_STEP == 4 && d.get FLT.STAT_SAFE_IDLE == 1 && d.get FLT.STAT_HEALTHY == 0 && d.conds.contains (Dev.devFault 31)),
    ran (.spSafeIdle true) State.reset (fun d => d.get FLT.SP_CTL_SAFE_IDLE == 1 && d.get FLT.STAT_SAFE_IDLE == 1) && ran (.spSafeIdle false) State.reset (fun d => d.get FLT.SP_CTL_SAFE_IDLE == 0 && d.get FLT.STAT_SAFE_IDLE == 0),
    (steps 3 7).shedDue && ran .shedStepTimer (on (steps 3 7)) (fun d => d.get XP.BLK_STAT_SHED_H == 7),
    (steps 0 0).shedDue && ran .shedStepTimer (on (steps 0 0)) (fun d => d.get XP.BLK_STAT_SHED_H == 0),
    !((steps 3 6).mark .shed 0).shedDue && ran .shedStepTimer (on ((steps 3 6).mark .shed 0)) (fun d => d == (steps 3 6).mark .shed 0)
  ].all id = true := by decide +kernel

set_option maxRecDepth 100000 in
theorem wit_SidePort : [
    ran (.sidePortWrite 0x0009 [1, 2, 3, 4]) State.reset (fun d => d == { State.reset.dev with spNack := true }) && ran (.sidePortRead 0x0002 5) State.reset (fun d => d == { State.reset.dev with spNack := true }),
    ran (.sidePortRead 0x0008 2) (on { State.reset.dev with spNack := true }) (fun d => !d.spNack && d.spData == [1, 10, 0, 0, 0, 0, 0, 0]),
    ran (.sidePortWrite 0x0008 [0, 5, 0xFF, 0xFF]) State.reset (fun d => !d.spNack && d.get FLT.CTL_INJ_SAFE == 0 && d.get FLT.CTL_SHED_STEP == 5),
    ran .devReset (on { (flt 1 5) with inReset := false }) (fun d => d == { (flt 1 5) with inReset := false }),
    !((flt 0 5).fltRecs.any fun e => decide (5 ≤ max e.2.real e.2.inj) && (flt 0 5).flag FLT.SRC_STAT_COND e.1.1) && (flt 0 5).inReset && !{ (flt 0 5) with inReset := false }.inReset
  ].all id = true := by decide +kernel

set_option maxRecDepth 100000 in
theorem wit_ControlSide : [
    ran .controlSideDown (on { eng.setTakes 7 [tk none 4, tk (some 3) 0] with salvos := [⟨4, 0⟩], dmaFly := [] }) (fun d => d.restarting && d.get HIF.STAT_CTRL_UP == 0 && d.salvos == [] && d.submitted == [] && d.mbxReqs == [] &&
      d.takesLost == 2 && d.get KEY.STAT_STAGE == 1 && d.get XP.OUT_SEL_SEL 0 == 0 && d.takesOf 7 == []),
    ran .controlSideUp (on { State.reset.dev with inReset := false, restarting := true, takesLost := 2, mbxLost := true }) (fun d => !d.restarting && d.get HIF.STAT_CTRL_UP == 1 && d.get CON.STAT_CTRL == 1 && d.get MGT.STAT_FW_RUN == 1 &&
      d.get MGT.STAT_BOOTROM == 0 && d.get MGT.EVT_STAT_CTRL_UP == 1 && d.takesLost == 0 && d.get HIF.TK_CNT_LOST_COUNT == 2 && d.get HIF.TK_EVT_LOST == 1 && d.get MGT.EVT_STAT_MBX_LOST == 1),
    ran .controlSideUp State.reset (fun d => d == State.reset.dev)
  ].all id = true := by decide +kernel

set_option maxRecDepth 100000 in
theorem wit_HostInterface : [
    ran (.hostReset true) (on (((mac 0).set XP.OUT_SEL_SEL 7 1).setReg (0x00C0800C + 16 * 63) 0 0)) (fun d => d.get HIF.EVT_STAT_LINK_RST == 1 && d.get HIF.STAT_LINK_UP == 0 && d.conds.contains (Dev.devFault 252) &&
      d.get XP.OUT_SEL_SEL 1 == 0 && (d.reg (0x00C0800C + 16 * 63) 0).toNat == 1),
    ran (.hostReset false) State.reset (fun d => d.rising == [Dev.devFault 252]),
    ran (.pcieLinkUp 5 4) (on { State.reset.dev with conds := [Dev.devFault 252] }) (fun d => d.get HIF.STAT_LINK_UP == 1 && d.get HIF.STAT_SPEED == 5 && d.get HIF.STAT_WIDTH == 4 && !d.conds.contains (Dev.devFault 252))
  ].all id = true := by decide +kernel

set_option maxRecDepth 100000 in
theorem wit_DeviceResets : [
    ran .aonPowerUp (on { mac 0 with railLost := true }) (fun d => d.regs == [] && d.inReset && d.rising == [Dev.devFault 44]),
    ran .alwaysOnRailLoss State.reset (fun d => d.railLost && d.inReset),
    ran .deviceResetAssert (on ((dog 3).set FLT.SRC_CNT_COUNT 9 255)) (fun d => d.inReset && d.get NVM.BOOT_STAT_RUNNING == 0 && d.get FLT.SRC_CNT_COUNT 255 == 9 && d.get FLT.WDOG_STAT_RST_CNT == 0),
    ran (.powerGoodFall 3) State.reset (fun d => d.inReset && !d.pg.getLsbD 3 && d.conds.contains ⟨44, 3, 0, 3⟩),
    ran (.deviceResetRelease 0xE true true true) State.reset (fun d => d.inReset && d.pg == 0xE),
    State.reset.dev.inReset
  ].all id = true := by decide +kernel

/-! ## Images -/

/-- The fingerprint of the public key whose point is the base point: the first 32 bytes of its SHA-384. -/
def fpG : List Byte := beBytes 32 0x8c4f262412b7f9ed867606705a130de5212fd048fbaf8c3842f4a240f4b45ba0

/-- A firmware image of four bytes, signed for slot 0 with the secret key 1 (computed outside Lean). -/
def fwImg : List Byte := beBytes 260 0x01020304454e564c0100000004000000000000000000000000000000000000000000000004aa87ca22be8b05378eb1c71ef320ad746e1d3b628ba79b9859f741e082542a385502f25dbf55296c3a545e3872760ab73617de4a96262c6f5d9e98bf9292dc29f8f41dbd289a147ce9da3113b5f0b8c00a60b1ce1d7e819d7a431d7c90ea0e5f000000aa87ca22be8b05378eb1c71ef320ad746e1d3b628ba79b9859f741e082542a385502f25dbf55296c3a545e3872760ab7926282806ac19c67b8bdd61776806243297ec6a8489f4b9afee4ddaaf70d8a88b4e611e209c80c2bf552cccf51716b6600000000000000000000000000000000000000000000000000000000

/-- A Chart image of one section that holds END, signed likewise. -/
def chartImg : List Byte := beBytes 340 0x4f434854010001003412cdab34121e005400000000000000000000000000000000000000000000000000000000000000000000000000000000000000000000000100000004000000000000000000000000000400454e564c0200000054000000000000000000000000000000000000000000000004aa87ca22be8b05378eb1c71ef320ad746e1d3b628ba79b9859f741e082542a385502f25dbf55296c3a545e3872760ab73617de4a96262c6f5d9e98bf9292dc29f8f41dbd289a147ce9da3113b5f0b8c00a60b1ce1d7e819d7a431d7c90ea0e5f000000aa87ca22be8b05378eb1c71ef320ad746e1d3b628ba79b9859f741e082542a385502f25dbf55296c3a545e3872760ab7778eb789a77770b4cd0b6daa42971f3b0b1fcb54f4d45f9eed86374febd314f84792734abb23e815f005ed0d2e61766c00000000000000000000000000000000000000000000000000000000

/-- An image of eight bytes that is no Chart, signed likewise. -/
def oddImg : List Byte := beBytes 264 0x0505050505050505454e564c0200000008000000000000000000000000000000000000000000000004aa87ca22be8b05378eb1c71ef320ad746e1d3b628ba79b9859f741e082542a385502f25dbf55296c3a545e3872760ab73617de4a96262c6f5d9e98bf9292dc29f8f41dbd289a147ce9da3113b5f0b8c00a60b1ce1d7e819d7a431d7c90ea0e5f000000aa87ca22be8b05378eb1c71ef320ad746e1d3b628ba79b9859f741e082542a385502f25dbf55296c3a545e3872760ab78891c7119b17f8de6d460208d39ce5b3e59760a4414bbd90f6f71e3714d43b61d9411cfd96baa4128bccd6257ec4098c00000000000000000000000000000000000000000000000000000000

/-- A calibration set of one WRITE record. -/
def calImg : List Byte := beBytes 28 0x4f43414c010000000c00000015689af901000c000000100000000000

/-- A boot header of generation 5. -/
def hdrOld : List Byte := beBytes 64 0x4f42484405000000040100005401000000000000000000000000000000000000000000000000000000000000000000000000000000000000000000006525064a

/-- A boot header of generation 6. -/
def hdrNew : List Byte := beBytes 64 0x4f42484406000000040100005401000000000000000000000000000000000000000000000000000000000000000000000000000000000000000000001c11b96c

/-- A key header of generation 7. -/
def keyHdr : List Byte := beBytes 64 0x4f4b59530700000000000000000000000000000000000000000000000000000000000000000000000000000000000000000000000000000000000000d0a747eb

/-- A state with bytes in the NVM, at rising places. -/
def nv (ws : List (Nat × List Byte)) (d : Dev) : State :=
  { State.reset with nvm := (ws.flatMap fun x => withOffsets x.1 x.2).filter fun c => c.2 != nvmFill, dev := d }

/-- A state with an image programmed into the NVM. -/
def imaged (a : Nat) (img : List Byte) (d : Dev) : State := { State.reset with nvm := memWrites nvmFill [] a img, dev := d }

theorem imaged_read (a n : Nat) (img : List Byte) (d : Dev) (h : img.length = n) : (imaged a img d).nvmRead a n = img := by
  subst h; exact memReads_memWrites nvmFill img [] a

/-- A block whose slot 0 holds that fingerprint, with the lengths of a boot header. -/
def signed (fw chart : Nat) : Dev := { late with keys := [((0, 0), fpG)], bootHdr := (5, fw, chart) }

/-! ## Start -/

/-- The block with the card controller on the NVM's bus. -/
def owned : Dev := State.reset.dev.put NVM.BOOT_STAT_NVM_OWN true

/-- An entry of the first-fault log. -/
def logE : LogEnt := ⟨9, 255, 3, 3, false, false, 0, 0, 0, 0, 70000, 9, false, 7⟩

theorem wit_NvmCommands : [
    runs (.nvmOwnChange false true [(0, [1])]) State.reset (fun t => t == State.reset),
    ran (.nvmOwnChange true true []) State.reset (fun d => d.get NVM.BOOT_STAT_NVM_OWN == 1 && d.get NVM.EVT_STAT_OWN_CHG == 1 && d.rising == [Dev.devFault 239]),
    runs (.nvmOwnChange false false [(0x6200000, [5, 0xFF])]) (on owned) (fun t => t.nvm == [(0x6200000, 5)] && t.dev.get NVM.BOOT_STAT_NVM_OWN == 0 && t.dev.get NVM.EVT_STAT_OWN_CHG == 1),
    runs (.sectorWriteDone (.erase 6)) (nv [(0x5FFFF, [1, 2]), (0x6FFFF, [3, 4])] State.reset.dev) (fun t => t.nvm == [(0x5FFFF, 1), (0x70000, 4)]),
    runs (.sectorWriteDone (.erase 0x61F)) (nv [(0x61FFFFF, [1, 2])] State.reset.dev) (fun t => t.nvm == [(0x6200000, 2)]),
    runs (.sectorWriteDone (.program 0x60 [1, 0xFF])) (nv [(0x60001, [2])] State.reset.dev) (fun t => t.nvm == [(0x60000, 1)]),
    [NvmWrite.erase 2, .erase 5, .erase 0x620, .program 0x20 [1], .program 0x5F [1], .program 0x6200 [1]].all fun w => runs (.sectorWriteDone w) (nv [(0x20000, [2]), (0x5FFFF, [3])] State.reset.dev) (fun t => t == nv [(0x20000, [2]), (0x5FFFF, [3])] State.reset.dev),
    runs (.restoreFactory false) (nv [(0x5FFFF, [1, 2]), (0x9FFFF, [3, 4])] State.reset.dev) (fun t => t.dev.restoring && t.nvm == [(0x5FFFF, 1), (0xA0000, 4)]),
    ran (.restoreFactory true) State.reset (fun d => d.get NVM.EVT_STAT_RESTORE_FAIL == 1 && !d.restoring),
    (calSet (memReads nvmFill (nv [(factoryCal, calImg)] State.reset.dev).nvm factoryCal calSize)).isSome &&
      runs (.restoreComplete true) (nv [(factoryCal, calImg)] { State.reset.dev with restoring := true }) (fun t => !t.dev.restoring),
    runs (.restoreComplete false) (on { State.reset.dev with restoring := true }) (fun t => !t.dev.restoring && t.dev.get NVM.EVT_STAT_RESTORE_FAIL == 1),
    runs (.restoreComplete true) State.reset (fun t => t == State.reset)
  ].all id = true := by decide +kernel

/-- Firmware that has the NVM's bus, with one entry of the fault log that it has not copied. -/
def fwUp : Dev := { late.put MGT.STAT_FW_RUN true with restarting := false, fltLog := [logE] }
/-- Sector 0 of the fault log with generation 7 and one entry. -/
def logOne (d : Dev) : State := nv [(0xC0000, leBytes 4 0x474C464F ++ leBytes 4 7), (0xC0020, [1, 2])] d

theorem wit_NvmFirmware : [
    (on fwUp).firmwareRuns && !fwUp.wdogWait && (logOne fwUp).logCurrent == some 0 && (logOne fwUp).logFree 0 == some 1 &&
      runs (.sectorWriteDone .faultLog) (logOne fwUp) (fun t => memReads nvmFill t.nvm 0xC0040 32 == logE.bytes && t.dev.logCopied == 10),
    [NvmWrite.faultLog, .userCal []].all (fun w => runs (.sectorWriteDone w) (logOne late) (fun t => t == logOne late)) &&
      runs (.sectorWriteDone .faultLog) (logOne { fwUp with logCopied := 10 }) (fun t => t == logOne { fwUp with logCopied := 10 }),
    (on fwUp).logCurrent == none && !((on fwUp).nvm.any fun c => decide (0xC0000 ≤ c.1)) &&
      runs (.sectorWriteDone .faultLog) (nv [(0xC0FFF, [3])] fwUp) (fun t => t.nvm == [] && t.dev == fwUp),
    decide ((fwUp.calImage []).length ≤ calSize) && !fwUp.restoring &&
      runs (.sectorWriteDone (.userCal [])) (nv [(userCal + 90, [3])] fwUp) (fun t => memReads nvmFill t.nvm userCal (fwUp.calImage []).length == fwUp.calImage [] &&
        t.dev == fwUp.mark .userCal 0),
    runs (.sectorWriteDone (.userCal [])) (on (fwUp.mark .userCal 0)) (fun t => t == on (fwUp.mark .userCal 0))
  ].all id = true := by decide +kernel

theorem wit_BootSequence : [
    regs .bootHeaderSelect (on owned) (fun d => d.get NVM.BOOT_STAT_OWN_WAIT == 1 && kept owned d [(0x00040000, 0)]),
    pickHeader 0x4448424F ((State.reset).nvmRead (bootBase 0) 64) (State.reset.nvmRead (bootBase 1) 64) == none && ran .bootHeaderSelect State.reset (fun d => d.bootHalt && d.conds.contains (Dev.devFault 221)),
    let s := nv [(bootBase 0, hdrOld), (bootBase 1, hdrNew), (keysBase 0, keyHdr)] State.reset.dev
    pickHeader 0x4448424F (s.nvmRead (bootBase 0) 64) (s.nvmRead (bootBase 1) 64) == some 1 && pickHeader 0x53594B4F (s.nvmRead (keysBase 0) 64) (s.nvmRead (keysBase 1) 64) == some 0 &&
      s.dev.get KEY.STAT_DEBUG == 0,
    ran .bootHeaderSelect (nv [(bootBase 0, hdrOld)] State.reset.dev) (fun d => d.get NVM.BOOT_STAT_HDR == 0 && d.bootHdr == (5, 260, 340) && d.get NVM.BOOT_STAT_STEP == 3),
    ran .firmwareVerifyDone State.reset (fun d => d.bootHalt && d.conds.contains (Dev.devFault 221)),
    ran .firmwareVerifyDone (on { State.reset.dev with bootHalt := true }) (fun d => d == { State.reset.dev with bootHalt := true }),
    ran (.hbmTrainingDone 0) State.reset (fun d => d.get FS.BLK_STAT_READY == 1 && d.get GLB.CLK_STAT_HCLK_LOCK == 3 && d.get NVM.BOOT_STAT_STEP == 6),
    ran (.hbmTrainingDone 3) State.reset (fun d => d.get FS.BLK_STAT_READY == 0 && d.conds.contains ⟨142, 3, 0, 0⟩ && d.conds.contains ⟨142, 3, 0, 1⟩),
    ran (.calibrationApply 900) (on (State.reset.dev.put NVM.BOOT_STAT_RUNNING true)) (fun d => d == State.reset.dev.put NVM.BOOT_STAT_RUNNING true),
    (calSet ((nv [(userCal, calImg)] State.reset.dev).nvmRead userCal calSize)).isSome && ran (.calibrationApply 750) (nv [(userCal, calImg)] State.reset.dev) (fun d => d.get NVM.BOOT_STAT_CAL_USER == 1 &&
      d.get NVM.BOOT_STAT_CAL_NONE == 0 && d.get NVM.BOOT_STAT_STEP == 7),
    ran (.calibrationApply 750) (nv [(factoryCal, calImg)] State.reset.dev) (fun d => d.get NVM.BOOT_STAT_CAL_USER == 0 && d.get NVM.EVT_STAT_CAL_FALLBACK == 1 && d.vcore == 750),
    ran (.calibrationApply 900) State.reset (fun d => d.get NVM.BOOT_STAT_CAL_NONE == 1 && d.get NVM.EVT_STAT_CAL_NONE == 1 && d.vcore == 800)
  ].all id = true := by decide +kernel

/-- The firmware image at its place verifies, and the boot ROM runs it. -/
theorem wit_FirmwareVerifies : (imaged fwBase fwImg (signed 260 0)).nvmRead fwBase 260 = fwImg ∧ (envelopeOk (signed 260 0) 1 fwImg).1 = true :=
  ⟨imaged_read _ _ _ _ (by decide +kernel), by decide +kernel⟩

/-- A block that a host boot gave a Chart. -/
def hostBoot (img : List Byte) : Dev := { (signed 0 0).put NVM.BOOT_STAT_BOOT_SRC true with bootChart := img }

/-- The other image verifies as a Chart's envelope. -/
theorem wit_OddImage : (envelopeOk (hostBoot oddImg) 2 oddImg).1 = true := by decide +kernel

/-- A block past phase A whose Chart has ended, with a reference wait. -/
def ended (wait : Nat) : Dev := { late with chartDone := true, loader := some ⟨[], [], 64, 0, true, true, false, false⟩, refWait := wait }

theorem wit_ChartPhases : [
    ran (.chartPhaseA 3) State.reset (fun d => d.get NVM.BOOT_STAT_CHART_RES == 4 && d.get NVM.EVT_STAT_CHART_FAIL == 1 && d.loader == none && d.conds.contains (Dev.devFault 238)),
    chartFormatBad (oddImg.take 8) == some 0,
    ran (.chartPhaseA 0) (on (hostBoot chartImg)) (fun d => d.get NVM.BOOT_STAT_CHART_RES == 1 && d.get GLB.SYSID_SYSID == 0x1234 && d.get CON.CHART_ID_ID == 0xABCD1234 && d.refWait == 30 &&
      d.loader == some ⟨chartImg.take 84, [], 64, 1, false, false, false, false⟩),
    ran (.chartPhaseA 3) (on (ended 0)) (fun d => d == ended 0) && ran (.chartPhaseA 3) (on { State.reset.dev with bootHalt := true }) (fun d => d == { State.reset.dev with bootHalt := true }),
    ran (.phaseB 3) State.reset (fun d => d == { State.reset.dev with chartHeld := true }),
    ran (.phaseB 3) (on (ended 0)) (fun d => d.get NVM.BOOT_STAT_RUNNING == 1 && d.get NVM.BOOT_STAT_CHART_RES == 3 && d.get NVM.BOOT_STAT_PHASE_B == 1 && d.loader == none && d.get NVM.BOOT_STAT_STEP == 12),
    ran .refWaitExpiry (on (ended 30)) (fun d => d.get NVM.BOOT_STAT_UNREF == 1 && d.get NVM.BOOT_STAT_RUNNING == 1),
    [ended 0, (ended 30).mark .refWait 0, (ended 30).set REF.STAT_STATE 2].all fun d => ran .refWaitExpiry (on d) (fun e => e == d)
  ].all id = true := by decide +kernel

/-- A loader whose buffer holds records from an offset on. -/
def ldr (bs : List Byte) : Loader := ⟨[], withOffsets 80 bs, 100, 0, false, false, false, false⟩

/-- The block with a loader. -/
def ld (l : Loader) : Dev := { late with loader := some l }

/-- The record stands at the loader's front, as RecordAt says. -/
def recAt (d : Dev) (l : Loader) (r : List Byte) : Bool :=
  d.loader == some l && d.loaderFree l && (l.buf.take r.length).map (·.2) == r && leAt r 2 2 == r.length && recOk r && d.condMet (leAt r 1 1)

/-- The record is at the front, and its command does as `p` says. -/
def rec (i : Instr) (l : Loader) (r : List Byte) (p : State → Bool) : Bool := recAt (ld l) l r && runs i (on (ld l)) p

theorem wit_ChartRecords : [
    let r : List Byte := [1, 0, 12, 0, 0x2C, 0, 2, 0, 5, 6, 7, 8]
    rec .chartWrite (ldr r) r (fun t => t.dev.get TIM.ADJ_NS == 0x08070605 && t.dev.loader == some (pastRecord (ldr r) 12) && t.dev.get NVM.CHART_POS_POS == 80),
    let r : List Byte := [2, 0, 16, 0, 0x20, 0, 2, 0, 5, 6, 7, 8, 9, 10, 11, 12]
    rec .chartWriteSeq (ldr r) r (fun t => t.dev.get TIM.SET_NS_NS == 0x08070605 && t.dev.get TIM.SET_SEC_LO_SEC_L == 0x0C0B0A09),
    let r : List Byte := [3, 0, 16, 0, 0x2C, 0, 2, 0, 5, 6, 7, 8, 9, 10, 11, 12]
    rec .chartWriteFifo (ldr r) r (fun t => t.dev.get TIM.ADJ_NS == 0x0C0B0A09),
    let r : List Byte := [4, 0, 16, 0, 0x2C, 0, 2, 0, 0xFF, 0, 0, 0, 9, 10, 11, 12]
    rec .chartModify (ldr r) r (fun t => t.dev.reg 0x0002002C 0 == 9),
    let r : List Byte := [5, 0, 20, 0, 0x2C, 0, 2, 0, 0xFF, 0, 0, 0, 0, 1, 0, 0, 0, 0, 0, 0]
    rec .chartPoll (ldr r) r (fun t => t.dev.loader == some (pastRecord (ldr r) 20)),
    let r : List Byte := [5, 0, 20, 0, 0x2C, 0, 2, 0, 0xFF, 0, 0, 0, 1, 0, 0, 0, 9, 0, 0, 0]
    rec .chartPoll (ldr r) r (fun t => t.dev.loader == some { ldr r with polled := true }) &&
      rec .chartPoll { ldr r with polled := true } r (fun t => t.dev.loader == none && t.dev.get NVM.BOOT_STAT_CHART_RES == 9) &&
      rec .chartPollTimeout (ldr r) r (fun t => t.dev == ld (ldr r)) && rec .chartPollTimeout { ldr r with polled := true } r (fun t => t.dev.loader == none && t.dev.get NVM.BOOT_STAT_CHART_RES == 9 && t.dev.conds.contains (Dev.devFault 238)),
    let r : List Byte := [5, 0, 20, 0, 0x2C, 0, 2, 0, 0xFF, 0, 0, 0, 1, 0, 0, 0, 0, 0, 0, 0]
    rec .chartPoll (ldr r) r (fun t => t.dev.loader == none && t.dev.get NVM.BOOT_STAT_CHART_RES == 9),
    let r : List Byte := [6, 1, 8, 0, 9, 0, 0, 0]
    rec .chartWait (ldr r) r (fun t => t.dev.loader == some { ldr r with polled := true } && t.dev.marked .chart 0 == late.cc) &&
      rec .chartWait { ldr r with polled := true } r (fun t => t.dev.loader == some (pastRecord { ldr r with polled := true } 8)),
    let r : List Byte := [7, 0, 16, 0] ++ leBytes 8 surfStart ++ [1, 0, 0, 4]
    rec .chartStore (ldr r) r (fun t => t.store == [(surfStart, 1), (surfStart + 3, 4)]),
    let r : List Byte := [7, 0, 16, 0] ++ leBytes 8 (storeEnd - 4) ++ [1, 0, 0, 4]
    rec .chartStore (ldr r) r (fun t => t.store == [(storeEnd - 4, 1), (storeEnd - 1, 4)]),
    let r : List Byte := [7, 0, 16, 0] ++ leBytes 8 (surfStart - 1) ++ [1, 0, 0, 4]
    rec .chartStore (ldr r) r (fun t => t.store == [] && t.dev.get NVM.BOOT_STAT_CHART_RES == 8),
    let r : List Byte := [8, 0, 4, 0]
    rec .chartPhase (ldr r) r (fun t => t.dev.chartDone && t.dev.get NVM.BOOT_STAT_CHART_RES == 2 && t.dev.loader == some { pastRecord (ldr r) 4 with phased := true, phaseB := false }) &&
      rec .chartPhase { ldr r with phased := true } r (fun t => t.dev.loader == none && t.dev.get NVM.BOOT_STAT_CHART_RES == 7),
    let r : List Byte := [10, 0, 12, 0, 0x27, 4, 0, 0, 1, 2, 3, 4]
    rec .chartTune (ldr r) r (fun t => mapGet t.dev.tunes (1063, 0) [] == [1, 2, 3, 4]),
    let r : List Byte := [0, 0, 4, 0]
    rec .chartEnd (ldr r) r (fun t => t.dev.chartDone && t.dev.get NVM.BOOT_STAT_CHART_RES == 2) &&
      rec .chartEnd { ldr r with phaseB := true } r (fun t => t.dev.get NVM.BOOT_STAT_RUNNING == 1 && t.dev.get NVM.BOOT_STAT_CHART_RES == 3) &&
      rec .chartEnd (ldr (r ++ r)) r (fun t => t.dev.loader == none && t.dev.get NVM.BOOT_STAT_CHART_RES == 7)
  ].all id = true := by decide +kernel

/-! ## The mailbox, staging, keys and DMA -/

/-- A request of 64 bytes: CMD, TAG 0x0201, LEN and parameters. -/
def msg (cmd len : Nat) (ps : List Byte) : MbxMsg :=
  ⟨false, leBytes 2 cmd ++ [1, 2] ++ leBytes 2 len ++ [0, 0] ++ ps ++ List.replicate (56 - ps.length) 0⟩

/-- Its response: CMD and TAG, the length and the status, and results. -/
def rsp (cmd len status : Nat) (rs : List Byte) : MbxMsg :=
  ⟨false, leBytes 2 cmd ++ [1, 2] ++ leBytes 2 len ++ leBytes 2 status ++ rs ++ List.replicate (56 - rs.length) 0⟩

/-- A block with firmware running and requests waiting. -/
def mb (ms : List MbxMsg) (d : Dev) : Dev := { d.put MGT.STAT_BOOTROM false with mbxReqs := ms }

/-- A block that boots from the host, its boot ROM running, with requests waiting. -/
def rom (host : Bool) (ms : List MbxMsg) : Dev := { (signed 0 0).put MGT.STAT_BOOTROM true |>.put NVM.BOOT_STAT_BOOT_SRC host with mbxReqs := ms }

theorem wit_Mailbox : [
    mbxServes State.reset.dev .core && ran (.mailboxGo .core) (on (State.reset.dev.set (MGT.MBX_REQ_DATA 15) 7)) (fun d => d.get MGT.MBX_STAT_BUSY == 1 &&
      d.mbxReqs == [⟨false, List.replicate 60 0 ++ [7, 0, 0, 0]⟩]),
    let d0 := State.reset.dev.put MGT.MBX_STAT_BUSY true
    mbxServes d0 .host && regs (.mailboxGo .host) (on d0) (fun d => d.get MGT.EVT_STAT_MBX_BUSY == 1 && kept d0 d [(0x00060004, 0)]),
    !mbxServes State.reset.dev .debug && ran (.mailboxGo .debug) State.reset (fun d => d == State.reset.dev),
    let d0 := ((withQ State.reset.dev 12290 true 6 2 1).put MGT.MBX_CFG_RING_EN true).set MGT.MBX_CFG_REQ_Q 12290
    d0.qUsable 12290 true 64 && d0.qFill 12290 == 1 && ran (.mailboxRingRequest (List.replicate 64 9)) (on d0) (fun d => d.mbxReqs == [⟨true, List.replicate 64 9⟩]),
    ran (.mailboxRingRequest (List.replicate 64 9)) State.reset (fun d => d == State.reset.dev),
    ran .mailboxResponse (on { State.reset.dev.put MGT.MBX_STAT_BUSY true with mbxRsps := [rsp 1 0 0 (List.replicate 56 3)] }) (fun d => d.mbxRsps == [] && d.get MGT.MBX_STAT_BUSY == 0 &&
      d.get MGT.EVT_STAT_MBX_DONE == 1 && d.get (MGT.MBX_RSP_DATA 0) == 0x02010001 && d.get (MGT.MBX_RSP_DATA 15) == 0x03030303),
    !mbxListed 0x50 && ran .mailboxResponse (on (mb [msg 0x50 0 []] State.reset.dev)) (fun d => d.mbxReqs == [] && d.get MGT.MBX_STAT_BUSY == 0 && d.get (MGT.MBX_RSP_DATA 1) == 0x00010000),
    ran .mailboxResponse State.reset (fun d => d == State.reset.dev)
  ].all id = true := by decide +kernel

theorem wit_MailboxCommands : [
    ran .getInfo (on (mb [msg 0x50 0 [], msg 1 0 []] State.reset.dev)) (fun d => d.mbxReqs == [msg 0x50 0 []] && d.mbxRsps.length == 1),
    ran .echo (on (mb [msg 2 3 [7, 8, 9, 10]] State.reset.dev)) (fun d => d.mbxReqs == [] && d.mbxRsps == [rsp 2 3 stOk [7, 8, 9]]),
    [(0x10, Instr.bootLoad none), (0x11, .bootStart), (0x20, .stageWrite none), (0x21, .stageVerify), (0x22, .activate), (0x23, .activateCancel), (0x30, .keyReplace none false false),
      (0x40, .nvmRead)].all fun x => ran x.2 (on (rom false [msg x.1 0 []])) (fun d => d == { rom false [] with mbxRsps := [rsp x.1 0 stNotReady []] }),
    ran (.bootLoad (some [1, 2])) (on (rom true [msg 0x10 17 [1, 0, 0, 0, 0, 0, 0, 0, 0, 2]])) (fun d => d.bootChart == [1, 2] && d.mbxRsps == [rsp 0x10 0 stOk []]),
    ran (.bootLoad (some fwImg)) (on (rom true [msg 0x10 17 [0, 0, 0, 0, 0, 0, 0, 0, 0, 4, 1]])) (fun d => d.bootFw == fwImg && d.mbxRsps == [rsp 0x10 0 stOk []]),
    ran (.bootLoad (some [1, 2])) (on (rom true [msg 0x10 17 [0, 0, 0, 0, 0, 0, 0, 0, 0, 2]])) (fun d => d.bootFw == [] && d.mbxRsps == [rsp 0x10 0 stVerifyFail []]),
    ran (.bootLoad (some [1, 2])) (on (rom true [msg 0x10 17 [2, 0, 0, 0, 0, 0, 0, 0, 0, 2]])) (fun d => d.bootFw == [] && d.bootChart == [] && d.mbxRsps == [rsp 0x10 0 stBadParam []]),
    ran (.bootLoad none) (on (rom true [msg 0x10 17 [1, 0, 0, 0, 0, 0, 0, 0, 0, 2]])) (fun d => d.mbxRsps == [rsp 0x10 0 stDmaErr []]),
    ran .bootStart (on (rom true [msg 0x11 0 []])) (fun d => d.bootGo && d.mbxRsps == [rsp 0x11 0 stOk []]),
    ran .nvmRead (on (mb [msg 0x40 16 [0, 0, 0, 0, 1, 0, 0x10]] State.reset.dev)) (fun d => d.sent == [] && d.mbxRsps == [rsp 0x40 0 stBadParam []]),
    [[0xFF, 0xFF, 9, 0, 2], [0xFF, 0xFF, 0x0B, 0, 1]].all fun p => ran .nvmRead (on (mb [msg 0x40 16 p] State.reset.dev)) (fun d => d.sent == [] && d.mbxRsps == [rsp 0x40 0 stDenied []]),
    [([0xFF, 0xFF, 9, 0, 1], 0x9FFFF), ([0, 0, 0x0C, 0, 1], 0xC0000)].all fun p => ran .nvmRead (nv [(p.2, [6])] (mb [msg 0x40 16 p.1] State.reset.dev)) (fun d =>
      d.sent == [.hostWrite 0 [6]] && d.mbxRsps == [rsp 0x40 0 stOk []])
  ].all id = true := by decide +kernel

/-- The staged image, its length shown, at a stage with a TYPE. -/
def staging (len stage type : Nat) (ms : List MbxMsg) : Dev :=
  { mb ms (((signed 0 0).set KEY.STAGE_LEN_LEN len).set KEY.STAT_STAGE stage) with stageType := type }

theorem wit_Staging : [
    runs (.stageWrite (some [1, 2, 3, 4])) (nv [(stagingBase, [9, 9, 9, 9, 9]), (stagingBase + 0x10000, [9])] (staging 0 2 1 [msg 0x20 8 [0, 0, 0, 0, 4]])) (fun t => t.dev.get KEY.STAGE_LEN_LEN == 4 &&
      t.dev.get KEY.STAT_STAGE == 1 && t.dev.mbxRsps == [rsp 0x20 0 stOk []] && t.nvm == (nv [(stagingBase, [1, 2, 3, 4]), (stagingBase + 0x10000, [9])] State.reset.dev).nvm),
    ran (.stageWrite none) (on (staging 0 3 1 [msg 0x20 8 [0, 0, 0, 0, 4]])) (fun d => d.mbxRsps == [rsp 0x20 0 stBusy []]),
    ran .stageVerify (on (staging 0 1 0 [msg 0x21 4 []])) (fun d => d.mbxRsps.length == 1),
    ran .stageVerify (nv [(stagingBase, [1, 2, 3, 4, 1, 0])] (staging 256 1 0 [msg 0x21 4 [0, 1]])) (fun d => d.get KEY.STAT_STAGE == 1 && d.get KEY.EVT_STAT_VERIFY_FAIL == 1),
    let d0 := { (staging 4 2 1 [msg 0x22 10 [2, 0, 0, 0, 0, 0, 0, 0, 1]]).put TIM.SRV_STAT_TIME_VALID true with time := 1000065536 * 2 ^ 40 }
    d0.actStatus 2000065536 == stOk && ran .activate (on d0) (fun d => d.get KEY.STAT_STAGE == 3 && d.get KEY.EVT_STAT_ACT_SCHED == 1 && d.actInstant == 2000065536 &&
      d.mbxRsps == [rsp 0x22 0 stOk []]),
    ran .activate (on (staging 4 2 1 [msg 0x22 10 [2]])) (fun d => d.mbxRsps == [rsp 0x22 0 stNotReady []]),
    ran .activateCancel (on (staging 4 2 1 [msg 0x23 0 []])) (fun d => d.mbxRsps == [rsp 0x23 0 stDenied []]),
    ran .activateCancel (on ((staging 4 3 1 [msg 0x23 0 []]).set KEY.ACT_NS_NS 10000000)) (fun d => d.get KEY.STAT_STAGE == 2 && d.get KEY.STAT_ACT_RESULT == 2 && d.mbxRsps == [rsp 0x23 0 stOk []]),
    ran .activateCancel (on ((staging 4 3 1 [msg 0x23 0 []]).set KEY.ACT_NS_NS 9999999)) (fun d => d.get KEY.STAT_STAGE == 3 && d.mbxRsps == [rsp 0x23 0 stBusy []])
  ].all id = true := by decide +kernel

/-- The firmware image staged whole verifies as TYPE 1, and the Chart image as TYPE 2. -/
theorem wit_StagedImages : (imaged stagingBase fwImg (staging 260 1 0 [msg 0x21 4 [4, 1]])).nvmRead stagingBase 260 = fwImg ∧
    leAt (fwImg.drop 4) 4 1 = 1 ∧ (envelopeOk (staging 260 1 0 [msg 0x21 4 [4, 1]]) 1 fwImg).1 = true ∧
    (imaged stagingBase chartImg { staging 340 4 2 [] with actLen := 340 }).nvmRead stagingBase 340 = chartImg ∧
    (envelopeOk { staging 340 4 2 [] with actLen := 340 } 2 chartImg).1 = true ∧
    (envelopeOk { staging 260 4 1 [] with actLen := 260 } 1 fwImg).1 = true :=
  ⟨imaged_read _ _ _ _ (by decide +kernel), by decide +kernel, by decide +kernel, imaged_read _ _ _ _ (by decide +kernel), by decide +kernel, by decide +kernel⟩

theorem wit_Activation : [
    ran (.activationInstant false) (on (staging 4 2 1 [])) (fun d => d == staging 4 2 1 []),
    ran (.activationInstant false) (on ((staging 4 3 1 []).set KEY.ACT_NS_NS 1)) (fun d => d == (staging 4 3 1 []).set KEY.ACT_NS_NS 1),
    ran (.activationInstant true) (on (staging 4 3 1 [])) (fun d => d == staging 4 3 1 []),
    ran (.activationInstant false) (on (staging 4 3 2 [])) (fun d => d.get KEY.STAT_STAGE == 4 && d.actLen == 4),
    runs (.activationInstant false) (nv [(fwBase - 1, [1, 2]), (stagingBase - 1, [3, 4])] ((staging 4 3 1 []).put NVM.BOOT_STAT_RUNNING true)) (fun t => t.dev.get KEY.STAT_STAGE == 4 && t.dev.restarting &&
      t.dev.get MGT.STAT_BOOTROM == 1 && t.dev.actLen == 4 && t.nvm == [(fwBase - 1, 1), (stagingBase, 4)]),
    ran (.activationComplete true) (on (staging 4 3 1 [])) (fun d => d == staging 4 3 1 []),
    runs (.activationComplete false) (on (staging 4 4 1 [])) (fun t => t.dev.get KEY.STAT_STAGE == 1 && t.dev.bootHalt && t.dev.conds.contains (Dev.devFault 221))
  ].all id = true := by decide +kernel

/-- An unsigned package for slot 31: USAGE 2, OWNER 1, REPL 2, unwrapped, of generation 1. -/
def pkg31 : List Byte :=
  leBytes 4 0x504B4B4F ++ [31, 2, 1, 2, 0xFF, 0xFF, 0, 0, 1, 0, 0, 0] ++ List.replicate 12 0 ++ List.replicate 32 5 ++ List.replicate 20 0

/-- KEY_REPLACE asked for a package of 80 bytes, slot 31 holding a key with REPL 2. -/
def kr : Dev :=
  mb [msg 0x30 17 [31, 0, 0, 0, 0, 0, 0, 0, 0, 80]] ((((State.reset.dev.set KEY.SLOT_ATTR_STATE 1 31).set KEY.SLOT_ATTR_REPL 2 31).set KEY.SLOT_ATTR_OWNER 1 31).set KEY.SLOT_ATTR_USAGE 1 31)

theorem wit_KeyCommands : [
    !pkgFormed kr (0 :: pkg31.tail) 31 && ran (.keyReplace (some (0 :: pkg31.tail)) true false) (on kr) (fun d => d.get KEY.EVT_STAT_REPL_FAIL == 1 && d.keys == kr.keys && d.rising == [⟨223, 3, 0, 31⟩] &&
      d.mbxRsps == [rsp 0x30 0 stBadParam []]),
    pkgFormed (kr.put KEY.STAT_DEBUG true) pkg31 31 && ran (.keyReplace (some pkg31) false true) (on (kr.put KEY.STAT_DEBUG true)) (fun d => d.get KEY.EVT_STAT_REPL_FAIL == 1 && d.keys == kr.keys &&
      d.mbxRsps == [rsp 0x30 0 stDenied []]),
    pkgFormed kr pkg31 31 && !kr.flag KEY.STAT_DEBUG && pkgAuthorised kr pkg31 31 && (pkgKey kr pkg31 31).1 == some (List.replicate 32 5) && runs (.keyReplace (some pkg31) false true) (on kr) (fun t =>
      t.dev.get KEY.SLOT_ATTR_STATE 31 == 1 && t.dev.get KEY.SLOT_ATTR_USAGE 31 == 2 && t.dev.get KEY.SLOT_GEN_GEN 31 == 1 && t.dev.get KEY.EVT_STAT_REPLACED == 1 && t.dev.get KEY.STAT_COPY == 1 &&
      t.dev.mbxRsps == [rsp 0x30 0 stOk []]),
    regs .debugRequest State.reset (fun d => d.get KEY.DBG_CTL_REQ == 1) && regs .debugClear (on (State.reset.dev.put KEY.DBG_CTL_REQ true)) (fun d => d.get KEY.DBG_CTL_REQ == 0)
  ].all id = true := by decide +kernel

/-- A descriptor: host address 0, a store address, a length, DIR 0. -/
def desc (a len : Nat) : List Byte := leBytes 8 0 ++ leBytes 8 a ++ leBytes 4 len ++ List.replicate 12 0

/-- The DMA engine enabled with one descriptor waiting and `n` in flight. -/
def dma (n : Nat) : Dev :=
  { (((withQ State.reset.dev 12291 true 5 2 1).put HIF.DMA_CTL_EN true).set HIF.DMA_CTL_DESC_Q 12291) with dmaFly := List.replicate n ⟨0, false, 0, 0⟩ }

theorem wit_DmaEngine : [
    ran (.dmaDescriptor (desc 0 1) (some [1])) State.reset (fun d => d == State.reset.dev) && ran (.dmaDescriptor (desc 0 1) (some [1])) (on (dma 4)) (fun d => d == dma 4),
    (dma 3).qUsable 12291 true 32 && (dma 3).qFill 12291 == 1 && [0, 16777217].all fun n => ran (.dmaDescriptor (desc surfStart n) none) (on (dma 3)) (fun d => d.dmaFly.length == 4 &&
      (match d.dmaFly.getLast? with | some j => j.status == 5 && j.moved == 0 | none => false) && d.get HIF.DMA_STAT_INFLIGHT == 4),
    [surfStart, storeEnd - 2].all fun a => runs (.dmaDescriptor (desc a 2) (some [7, 8])) (on (dma 0)) (fun t => t.store == [(a, 7), (a + 1, 8)] && t.dev.dmaFly.length == 1),
    ran .dmaComplete State.reset (fun d => d == State.reset.dev),
    ran .dmaComplete (on { (dma 2).set HIF.DMA_STAT_CNT_ERR 65535 with dmaFly := [⟨0, false, 5, 0⟩, ⟨1, false, 0, 2⟩] }) (fun d => d.dmaFly == [⟨1, false, 0, 2⟩] && d.get HIF.DMA_STAT_INFLIGHT == 1 &&
      d.get HIF.EVT_STAT_DMA_ERR == 1 && d.get HIF.DMA_STAT_CNT_ERR == 65535)
  ].all id = true := by decide +kernel

/-! ## The whole machine -/

theorem wit_CommandsComplete : [
    runs (.bar2Write 0 [some 7]) State.reset (fun t => t.pending == [] && t.nvm == []),
    runs (.sectorWriteDone (.program 0 [7])) { State.reset with pending := [.devReset] } (fun t => t.nvm == [(0, 7)] && t.store == [] && t.pending == [.devReset])
  ].all id = true := by decide +kernel

theorem wit_StepRunsFront : (match step { State.reset with pending := [.wdogKick 0x0000A55A, .ackAll] } with
    | .next t => t.pending == [.ackAll] && t.dev.kickSeq
    | _ => false) = true := by decide +kernel

/-- One idle step of a block. -/
def idled (d : Dev) (p : Dev → Bool) : Bool :=
  match step (on d) with
  | .next t => p t.dev
  | _ => false

theorem wit_IdleCycle : [
    idled State.reset.dev (fun d => d.cc == 1 && d.time == 0 && d.aclk == 0),
    idled { State.reset.dev.put GLB.CLK_STAT_SYS_LOCK true with inReset := false, cc := 31 } (fun d => d.cc == 32 && d.aclk == 1 && d.time == State.reset.dev.incr && d.time != 0),
    idled { State.reset.dev.put GLB.CLK_STAT_SYS_LOCK true with inReset := false, time := 2 ^ 48 * secUnits - 1 } (fun d => decide (d.time < secUnits))
  ].all id = true := by decide +kernel

theorem wit_StepKeepsMemories : (State.reset.memWf && match step { State.reset with pending := [.bar2Write 0xFFFFFFF [some 7]] } with
    | .next t => t.memWf
    | _ => false) = true := by decide +kernel

theorem wit_SoftSources : [
    State.reset.dev.busMaster .core && !State.reset.dev.shutOut .core 0x00080008 && !State.reset.dev.chartHeld && ran (.registerWrite .core 0x00080008 0x17F) State.reset (fun d => d.soft == 2 ^ 127),
    ran (.registerWrite .core 0x00080008 0x27F) (on { State.reset.dev with soft := 2 ^ 127 + 1 }) (fun d => d.soft == 1),
    ran (.registerWrite .core 0x00080008 0x300) State.reset (fun d => d.soft == 1)
  ].all id = true := by decide +kernel

theorem wit_EmptyOffsets : [
    onBus 0x00000FFC && (findReg 0x00000FFC).isNone && !inMsix 0x00000FFC && !inPba 0x00000FFC && !State.reset.dev.shutOut .core 0x00000FFC && ran (.registerWrite .core 0x00000FFC 7) State.reset (fun d =>
      d.get BUS.EVT_STAT_DECODE_MISS == 0 && (d.reg 0x00000FFC 0).toNat == 0) && ran (.lowWordRead .core 0x00000FFC) State.reset (fun d => d.get BUS.EVT_STAT_DECODE_MISS == 0)
  ].all id = true := by decide +kernel

/-! ## The table's bits and the queue -/

/-- No row of the table gives bits, so no word spells a command. -/
theorem test_decode_none : ([0, 8, 32, 64].all fun n => (decodeTableWord n 1).isNone && State.reset.withFetchWord n 1 == State.reset) = true := by
  decide +kernel

/-! ## Commands that no sender can form -/

theorem test_ill_formed : (Instr.wf (.registerWrite .core (2 ^ 24) 0) || Instr.wf (.selectWrite .core (2 ^ 24) 0) || Instr.wf (.lowWordRead .core (2 ^ 24)) ||
    Instr.wf (.decodeMiss .core (2 ^ 24) true) || Instr.wf (.targetTimeout .core (2 ^ 24) true) || Instr.wf (.alignBlockRx 0 []) || Instr.wf (.roleBlockRx 0 []) ||
    Instr.wf (.restBlockRx 0 []) || Instr.wf (.exitBlockRx 0 []) || Instr.wf (.takeRingEntry []) || Instr.wf (.txLinkDrop 0 ⟨[], 8, none, none⟩) ||
    Instr.wf (.bar2Read 0xFFFFFFF 2) || Instr.wf (.bar2Write 0xFFFFFFF [none, none])) = false := by
  decide +kernel

/-- A take entry with a field beyond its bits. -/
theorem test_ill_formed_entry : (TakeEntry.wf ⟨2 ^ 48, 0, 0, 0, 0, false, false, false, 0⟩ || TakeEntry.wf ⟨0, 2 ^ 32, 0, 0, 0, false, false, false, 0⟩ ||
    TakeEntry.wf ⟨0, 0, 2048, 0, 0, false, false, false, 0⟩ || TakeEntry.wf ⟨0, 0, 0, 4, 0, false, false, false, 0⟩ ||
    TakeEntry.wf ⟨0, 0, 0, 0, 2048, false, false, false, 0⟩ || TakeEntry.wf ⟨0, 0, 0, 0, 0, false, false, false, 65536⟩) = false := by
  decide +kernel

theorem test_ill_formed_more : (Instr.wf (.heartbeatRx [] 0) || Instr.wf (.yieldRx []) || Instr.wf (.journalRx []) || Instr.wf (.digestRx []) ||
    Instr.wf (.reqRx [] []) || Instr.wf (.stateRx []) || Instr.wf (.snapRx []) || Instr.wf (.abortRx []) ||
    Instr.wf (.regionCommit [(2 ^ 24, 0)]) || Instr.wf (.faultRecord [⟨256, 1, 0, 0⟩] [] []) || Instr.wf (.faultRecord [] [⟨0, 0, 0, 0⟩] []) ||
    Instr.wf (.faultRecord [] [] [⟨0, 4, 0, 0⟩]) || Instr.wf (.faultRecord [⟨0, 1, 65536, 0⟩] [] []) || Instr.wf (.faultRecord [⟨0, 1, 0, 256⟩] [] []) || Instr.wf (.thermalSample []) ||
    Instr.wf (.nvmOwnChange true false [(0, [])]) || Instr.wf (.sectorWriteDone (.program 32768 [])) || Instr.wf (.sectorWriteDone (.erase 2048)) ||
    Instr.wf (.sectorWriteDone (.program 0 (List.replicate 4097 0))) || Instr.wf (.sectorWriteDone (.userCal [(666, [])])) ||
    Instr.wf (.sectorWriteDone (.userCal [(0, [1])])) || Instr.wf (.mailboxRingRequest []) || Instr.wf (.dmaDescriptor [] none)) = false := by
  decide +kernel

theorem test_well_formed : (Instr.wf (.registerWrite .core (2 ^ 24 - 4) 0) && Instr.wf (.bar2Read 0xFFFFFFF 1) && TakeEntry.wf ⟨2 ^ 48 - 1, 0, 2047, 3, 2047, true, true, true, 65535⟩ &&
    Instr.wf (.sectorWriteDone (.erase 2047)) && Instr.wf (.sectorWriteDone .faultLog)) = true := by decide +kernel

theorem wit_FramesMedia : [
    runs (.elasticSlip 1151 true) State.reset (fun t => t.dev.regs.length == 1 && t.dev.regs.all fun e => Win.lng.has e.1.1),
    runs (.trqTimer 36) State.reset (fun t => t.dev.regs == [])
  ].all id = true := by decide +kernel

theorem wit_FramesTimeAndControl : runs .pclkLock (on { State.reset.dev with pclkReq := true }) (fun t => t.dev.regs.all fun e => Win.glb.has e.1.1) = true := by decide +kernel

end
end

section
/-!
Proofs, the windows that commands leave alone: the two statements leave out that a notification whose vector is masked sets the vector's
pending bit (R436, R440), which lies in the HIF window.
-/

namespace Sys2Proof.Machine

/-- A state in which general queue 0 (queue 12288) is the mailbox's request queue, runs, notifies at every element and holds one of 64
bytes to consume; its vector is masked, as every vector is after reset (R440). -/
def maskedQueue : State :=
  let q := 12288
  let d := ((State.reset.dev.set QM.Q_CFG_DIR 1 q).set QM.Q_CFG_ESZ 6 q).set QM.Q_CFG_LOG_N 2 q
  let d := ((d.set QM.Q_CFG_NOTIFY 1 q).set QM.Q_STAT_RUN 1 q).set QM.Q_PROD_IDX 1 q
  { State.reset with dev := (d.set MGT.MBX_CFG_RING_EN 1).set MGT.MBX_CFG_REQ_Q q }

/-- A next state in which the first register of the PBA differs has not left the HIF window alone. -/
theorem not_onlyWindows {s t : State} {ws : List Win} (hw : ∀ w ∈ ws, w.has 0x00C08800 = false)
    (h : t.dev.reg 0x00C08800 0 ≠ s.dev.reg 0x00C08800 0) : ¬ OnlyWindows s.dev t.dev ws := fun k => h (k _ _ hw)

/-- Refutes O52: QUEUE_ELEMENT_CONSUME notifies through a masked vector and so sets a bit of the PBA, outside the LOG and QM windows. -/
theorem not_framesMedia : ¬ Obligations.FramesMedia := fun h =>
  not_onlyWindows (by decide) (by decide +kernel) (h (.queueElementConsume 0) maskedQueue _ rfl)

/-- Refutes O53: MAILBOX_RING_REQUEST consumes its element and notifies through a masked vector, which sets a bit of the PBA, outside the
LOG and QM windows. -/
theorem not_framesTimeAndControl : ¬ Obligations.FramesTimeAndControl := fun h =>
  not_onlyWindows (by decide) (by decide +kernel) (h (.mailboxRingRequest (List.replicate 64 0)) maskedQueue _ rfl)

end Sys2Proof.Machine
end

section
/-!
Proofs, accesses of a bus master (chapter 0 and chapter 17): the algebra of `OffsKept`, what the host's accesses count, and what a write
and a read that reach a window do.
-/

namespace Sys2Proof.Machine

/-! ## Registers kept by offset -/

namespace OffsKept

variable {d e f : Dev} {k : List Nat}

theorem refl (d : Dev) (k : List Nat) : OffsKept d d k := fun _ _ _ => rfl

theorem trans (h : OffsKept d e k) (h' : OffsKept e f k) : OffsKept d f k := fun o c n => (h' o c n).trans (h o c n)

/-- A change of anything but the registers. -/
theorem of_regs (h : e.regs = d.regs) : OffsKept d e k := fun o c _ => by
  unfold Dev.reg
  rw [h]

theorem mono {k' : List Nat} (h : OffsKept d e k) (s : ∀ x ∈ k, x ∈ k') : OffsKept d e k' := fun o c n => h o c fun m => n (s _ m)

/-- What is kept but for listed registers is kept but for their offsets. -/
theorem of_kept {x : List Key} (h : RegsKept d e x) (s : ∀ y ∈ x, y.1 ∈ k) : OffsKept d e k := fun o c n =>
  h o c fun m => n (s (o, c) m)

theorem set (d : Dev) (f : Fld) (v ch : Nat) (h : f.off ∈ k) : OffsKept d (d.set f v ch) k := fun _ _ n =>
  Dev.reg_set_ne d f v (.inl fun e => n (e ▸ h))

theorem logAdd (d : Dev) (i n : Nat) (h : 0x00090100 ∈ k) (h' : 0x00090104 ∈ k) : OffsKept d (d.logAdd i n) k :=
  of_kept (RegsKept.logAdd (k := [(0x00090100, i), (0x00090104, i)]) d i n (by simp) (by simp)) (by simp [h, h'])

theorem bwAdd (d : Dev) (i n : Nat) : OffsKept d (d.bwAdd i n) k := of_kept (RegsKept.bwAdd (k := []) d i n) (by simp)

/-- A field of a register that is kept. -/
theorem field (h : OffsKept d e k) (f : Fld) (ch : Nat) (n : f.off ∉ k) : e.get f ch = d.get f ch := by
  unfold Dev.get
  rw [h _ _ n]

end OffsKept

namespace Dev

/-! ## What the host's accesses count -/

/-- The offsets of the two halves of a Logbook counter. -/
abbrev ctrOffs : List Nat := [0x00090100, 0x00090104]

theorem bwAdd_eq (d : Dev) (i n : Nat) : ∃ b, d.bwAdd i n = { d with bwAcc := b } := by
  unfold bwAdd
  split
  · exact ⟨_, rfl⟩
  · exact ⟨d.bwAcc, rfl⟩

theorem hostCount_eq (d : Dev) (m : Master) (wr : Bool) : ∃ r b, d.hostCount m wr = { d with regs := r, bwAcc := b } := by
  unfold hostCount
  split
  · obtain ⟨r, hr⟩ := OnlyRegs.logAdd d (if wr then 1745 else 1744) 1
    obtain ⟨b, hb⟩ := bwAdd_eq (d.logAdd (if wr then 1745 else 1744) 1) (if wr then 266 else 267) 4
    exact ⟨r, b, by rw [hb, hr]⟩
  · exact ⟨d.regs, d.bwAcc, rfl⟩

/-- The counters of the Logbook alone change (Table 20.1). -/
theorem hostCount_kept (d : Dev) (m : Master) (wr : Bool) : OffsKept d (d.hostCount m wr) ctrOffs := by
  unfold hostCount
  split
  · exact (OffsKept.logAdd d _ _ (by decide) (by decide)).trans (OffsKept.bwAdd _ _ _)
  · exact .refl _ _

section
variable (d : Dev) (m : Master) (wr : Bool)

@[simp] theorem hostCount_hold : (d.hostCount m wr).hold = d.hold := by obtain ⟨r, b, h⟩ := hostCount_eq d m wr; rw [h]
@[simp] theorem hostCount_rising : (d.hostCount m wr).rising = d.rising := by obtain ⟨r, b, h⟩ := hostCount_eq d m wr; rw [h]
@[simp] theorem hostCount_time : (d.hostCount m wr).time = d.time := by obtain ⟨r, b, h⟩ := hostCount_eq d m wr; rw [h]
@[simp] theorem hostCount_res : (d.hostCount m wr).res = d.res := by obtain ⟨r, b, h⟩ := hostCount_eq d m wr; rw [h]
@[simp] theorem hostCount_aclk : (d.hostCount m wr).aclk = d.aclk := by obtain ⟨r, b, h⟩ := hostCount_eq d m wr; rw [h]
@[simp] theorem hostCount_restarting : (d.hostCount m wr).restarting = d.restarting := by
  obtain ⟨r, b, h⟩ := hostCount_eq d m wr; rw [h]
@[simp] theorem hostCount_restoring : (d.hostCount m wr).restoring = d.restoring := by
  obtain ⟨r, b, h⟩ := hostCount_eq d m wr; rw [h]
@[simp] theorem hostCount_chartHeld : (d.hostCount m wr).chartHeld = d.chartHeld := by
  obtain ⟨r, b, h⟩ := hostCount_eq d m wr; rw [h]

end

@[simp] theorem shutOut_hostCount (d : Dev) (m n : Master) (wr : Bool) (off : Nat) :
    (d.hostCount m wr).shutOut n off = d.shutOut n off := by simp [shutOut]

/-! What an answer and a pulsed fault leave alone. `(rfl)` makes each a rewrite with a proof of its own: compared by unfolding, two blocks
that differ in one field cost a comparison of all of them. -/

@[simp] theorem respond_get (d : Dev) (m : Master) (v : Word) (err : Bool) (f : Fld) (ch : Nat) :
    (d.respond m v err).get f ch = d.get f ch := (rfl)
@[simp] theorem respond_rising (d : Dev) (m : Master) (v : Word) (err : Bool) : (d.respond m v err).rising = d.rising := (rfl)
@[simp] theorem raise_rising (d : Dev) (f : Fld) (ch : Nat) : (d.raise f ch).rising = d.rising := (rfl)
@[simp] theorem raise_answer (d : Dev) (f : Fld) (ch : Nat) : (d.raise f ch).answer = d.answer := (rfl)

@[simp] theorem pulseFault_get (d : Dev) (x : FaultAt) (f : Fld) (ch : Nat) : (d.pulseFault x).get f ch = d.get f ch := (rfl)
@[simp] theorem pulseFault_answer (d : Dev) (x : FaultAt) : (d.pulseFault x).answer = d.answer := (rfl)
@[simp] theorem pulseFault_rising (d : Dev) (x : FaultAt) : (d.pulseFault x).rising = d.rising ++ [x] := (rfl)

/-- What a master is answered, read back. -/
@[simp] theorem respond_answer (d : Dev) (m : Master) (v : Word) (err : Bool) :
    mapGet (d.respond m v err).answer (m.code, 0) (0, false) = (v, err) := mapGet_mapPut_self ..

/-! ## Writes -/

/-- The block as a write that reaches a window finds it: counted, and answered without an error (R2, R3). -/
def written (d : Dev) (m : Master) : Dev := (d.hostCount m true).respond m 0 false

/-- What a write of the debug port adds: a fault of kind DBG of the block's class, and no register (Table 15.3). -/
def dbgFault (d : Dev) (m : Master) (off : Nat) : Dev :=
  if m = .debug && off < 0x00F00000 then d.pulseFault ⟨16 * busClass off + 11, 3, 0, 0⟩ else d

/-- A write that reaches a window. -/
theorem busWrite_onBus {d : Dev} {m : Master} {off : Nat} (v : Word) (hm : d.busMaster m = true) (hb : onBus off = true)
    (hs : d.shutOut m off = false) : d.busWrite m off v = ((d.written m).regWrite m off v).dbgFault m off := by
  simp [busWrite, hm, hb, hs, written, dbgFault]

theorem written_kept (d : Dev) (m : Master) : OffsKept d (d.written m) ctrOffs := (hostCount_kept d m true).trans (.of_regs rfl)

section
variable (d : Dev) (m : Master) (off : Nat)

@[simp] theorem written_restoring : (d.written m).restoring = d.restoring := hostCount_restoring ..
@[simp] theorem written_chartHeld : (d.written m).chartHeld = d.chartHeld := hostCount_chartHeld ..
theorem written_answer : mapGet (d.written m).answer (m.code, 0) (0, false) = (0, false) := respond_answer ..

@[simp] theorem dbgFault_regs : (d.dbgFault m off).regs = d.regs := by unfold dbgFault; split <;> rfl
@[simp] theorem dbgFault_answer : (d.dbgFault m off).answer = d.answer := by unfold dbgFault; split <;> rfl
@[simp] theorem dbgFault_restoring : (d.dbgFault m off).restoring = d.restoring := by unfold dbgFault; split <;> rfl
@[simp] theorem dbgFault_chartHeld : (d.dbgFault m off).chartHeld = d.chartHeld := by unfold dbgFault; split <;> rfl

@[simp] theorem dbgFault_reg (o ch : Nat) : (d.dbgFault m off).reg o ch = d.reg o ch := by unfold reg; rw [dbgFault_regs]
@[simp] theorem dbgFault_get (f : Fld) (ch : Nat) : (d.dbgFault m off).get f ch = d.get f ch := by unfold get; rw [dbgFault_reg]

end

/-- An offset without a register ignores the write (R4). -/
theorem regWrite_none {d : Dev} {m : Master} {off : Nat} (v : Word) (hx : inMsix off = false) (hr : findReg off = none) :
    d.regWrite m off v = d := by
  simp [regWrite, hx, hr]

/-- The mailbox registers alone turn a master's access away (R441). -/
theorem mbxShut_out (d : Dev) (m : Master) {off : Nat} (wr : Bool) (h : off < 0x00060008 ∨ 0x00070000 ≤ off) :
    d.mbxShut m off wr = false := by
  have : (decide (0x00060008 ≤ off) && decide (off < 0x00070000)) = false := by
    rw [Bool.and_eq_false_iff, decide_eq_false_iff_not, decide_eq_false_iff_not]
    omega
  simp only [mbxShut, this, Bool.false_and]

/-- A write that reaches a register which is no select register. -/
theorem regWrite_reg {d : Dev} {m : Master} {off ch : Nat} {r : RegRow} (v : Word) (hx : inMsix off = false)
    (hb : off < 0x00060008 ∨ 0x00070000 ≤ off) (hr : findReg off = some r) (hs : selRange off = none) (hc : d.busCh m r = some ch) :
    d.regWrite m off v = (d.storeReg m r off ch v).followWrite d m off ch v := by
  simp [regWrite, hx, mbxShut_out d m true hb, hr, hs, hc]

/-- A write that reaches a select register (R15). -/
theorem regWrite_sel {d : Dev} {m : Master} {off : Nat} {r : RegRow} (v : Word) (hx : inMsix off = false)
    (hb : off < 0x00060008 ∨ 0x00070000 ≤ off) (hr : findReg off = some r) (hs : (selRange off).isSome = true) :
    d.regWrite m off v = d.selWrite m r v := by
  simp [regWrite, hx, mbxShut_out d m true hb, hr, hs]

/-! ## Reads -/

/-- A read that reaches a window and finds no held word. -/
theorem busRead_onBus {d : Dev} {m : Master} {off : Nat} (hm : d.busMaster m = true) (hb : onBus off = true)
    (hs : d.shutOut m off = false) (hx : inMsix off = false) (hp : inPba off = false)
    (hh : mapGet d.hold (m.code, off) none = none) (hz : (d.hostCount m false).mbxShut m off false = false) :
    (d.busRead m off).2 =
      ((d.hostCount m false).readEffect m off).respond m ((d.hostCount m false).peek m off) false := by
  simp [busRead, hm, hb, hs, regRead, hx, hp, hh, hz]

/-- A read that the mailbox registers turn away reads 0 (R441). -/
theorem busRead_mbxShut {d : Dev} {m : Master} {off : Nat} (hm : d.busMaster m = true) (hb : onBus off = true)
    (hs : d.shutOut m off = false) (hx : inMsix off = false) (hp : inPba off = false)
    (hz : (d.hostCount m false).mbxShut m off false = true) :
    (d.busRead m off).2 = (d.hostCount m false).respond m 0 false := by
  simp [busRead, hm, hb, hs, regRead, hx, hp, hz]

theorem peek_none {d : Dev} {m : Master} {off : Nat} (hr : findReg off = none) : d.peek m off = 0 := by
  simp [peek, hr]

/-- At an offset without a register a read does nothing beside answering, but for the latch of a holding register. -/
theorem readEffect_regs {d : Dev} {m : Master} {off : Nat} (hr : findReg off = none) : (d.readEffect m off).regs = d.regs := by
  have out (o : Nat) (h : (findReg o).isSome = true) : off ≠ o := fun e => by rw [← e, hr] at h; exact absurd h (by decide)
  unfold readEffect
  rw [if_neg (out _ (by decide)), if_neg (out 0x000300B0 (by decide)), if_neg (out 0x0001021C (by decide)),
    if_neg (out 0x00800134 (by decide))]
  split <;> rfl

end Dev

/-! ## The commands -/

/-- No restore follows where none was started. -/
theorem State.afterRestore_same {s : State} {was : Bool} (h : s.dev.restoring = was) : s.afterRestore was = s := by
  unfold State.afterRestore
  rw [h]
  cases was <;> rfl

/-- Where a register write starts no restore and no phase B, nothing follows it in the memories. -/
theorem State.afterWrite_same {s : State} {was : Bool} (hr : s.dev.restoring = was) (hc : s.dev.chartHeld = false) :
    s.afterWrite was = s := by
  simp [State.afterWrite, State.afterRestore_same hr, hc]

theorem runsTo_registerWrite {m : Master} {off : Nat} {v : Word} {s : State} {P : Dev → Prop}
    (hr : (s.dev.busWrite m off v).restoring = s.dev.restoring) (hc : (s.dev.busWrite m off v).chartHeld = false)
    (h : P (s.dev.busWrite m off v)) : RunsTo (.registerWrite m off v) s P :=
  ⟨_, congrArg Host.Outcome.next (State.afterWrite_same (s := s.onDev (·.busWrite m off v)) hr hc), h⟩

theorem runsTo_lowWordRead {m : Master} {off : Nat} {s : State} {P : Dev → Prop} (h : P (s.dev.busRead m off).2) :
    RunsTo (.lowWordRead m off) s P := ⟨_, rfl, h⟩

/-! ## Offsets without a register (R4) -/

/-- A write to an offset that holds no register counts, is answered, and changes nothing else. -/
theorem busWrite_none {d : Dev} {m : Master} {off : Nat} (v : Word) (hm : d.busMaster m = true) (hb : onBus off = true)
    (hr : findReg off = none) (hx : inMsix off = false) (hs : d.shutOut m off = false) :
    d.busWrite m off v = (d.written m).dbgFault m off := by
  rw [Dev.busWrite_onBus v hm hb hs, Dev.regWrite_none v hx hr]

/-- A read of an offset that holds no register answers 0 and leaves every register but the counters. -/
theorem busRead_none {d : Dev} {m : Master} {off : Nat} (hm : d.busMaster m = true) (hb : onBus off = true)
    (hr : findReg off = none) (hx : inMsix off = false) (hp : inPba off = false) (hs : d.shutOut m off = false)
    (hh : mapGet d.hold (m.code, off) none = none) :
    ∃ e : Dev, (d.busRead m off).2 = e.respond m 0 false ∧ e.regs = (d.hostCount m false).regs := by
  cases hz : (d.hostCount m false).mbxShut m off false with
  | true => exact ⟨_, Dev.busRead_mbxShut hm hb hs hx hp hz, rfl⟩
  | false => exact ⟨_, Dev.peek_none hr ▸ Dev.busRead_onBus hm hb hs hx hp hh hz, Dev.readEffect_regs hr⟩

/-- Settles O60: the write finds no register, and the read's word and its effect are those of an empty offset; the counters of the Logbook
alone change, and they hold no decode miss. -/
theorem emptyOffsets : Obligations.EmptyOffsets := by
  intro m off v s hm hb hr hx hp hs hc
  have miss {e : Dev} (h : OffsKept s.dev e Dev.ctrOffs) : e.get BUS.EVT_STAT_DECODE_MISS = s.dev.get BUS.EVT_STAT_DECODE_MISS :=
    h.field _ _ (by decide)
  refine ⟨?_, fun hh => ?_⟩
  · have e := busWrite_none v hm hb hr hx hs
    have k : OffsKept s.dev ((s.dev.written m).dbgFault m off) Dev.ctrOffs :=
      (Dev.written_kept s.dev m).trans (.of_regs (Dev.dbgFault_regs ..))
    apply runsTo_registerWrite <;> rw [e]
    · simp
    · simpa using hc
    · exact ⟨k, by rw [Dev.dbgFault_answer]; exact Dev.written_answer .., miss k⟩
  · obtain ⟨e, h, hregs⟩ := busRead_none hm hb hr hx hp hs hh
    have k : OffsKept s.dev (e.respond m 0 false) Dev.ctrOffs := (Dev.hostCount_kept s.dev m false).trans (.of_regs hregs)
    apply runsTo_lowWordRead
    rw [h]
    exact ⟨k, Dev.respond_answer .., miss k⟩

end Sys2Proof.Machine
end

section
/-!
Proofs, accesses that reach no register and select registers (R2, R3, R15 to R17, R431, R432).
-/

namespace Sys2Proof.Machine

namespace Dev

/-! ## The captures of the interconnect (R432) -/

theorem busMiss_event (d : Dev) (m off : Nat) (wr : Bool) : (d.busMiss m off wr).get BUS.EVT_STAT_DECODE_MISS = 1 :=
  get_set_self _ _ _ _ (by decide)

theorem busMiss_count (d : Dev) (m off : Nat) (wr : Bool) :
    (d.busMiss m off wr).get BUS.MISS_INFO_COUNT = min (2 ^ 16 - 1) (d.get BUS.MISS_INFO_COUNT + 1) := by
  have hlt (n : Nat) : min (2 ^ BUS.MISS_INFO_COUNT.w - 1) n % 2 ^ BUS.MISS_INFO_COUNT.w = min (2 ^ 16 - 1) n :=
    Nat.mod_eq_of_lt (Nat.lt_of_le_of_lt (Nat.min_le_left ..) (by decide))
  cases hv : !d.flag BUS.MISS_INFO_VALID <;>
    simp (disch := decide) only [busMiss, hv, when_true, when_false, count, put_eq, raise_eq, get_set_off, get_set_fld, get_set_self,
      hlt]

/-- The first miss after a clear is captured. -/
theorem busMiss_first {d : Dev} (m off : Nat) (wr : Bool) (h : d.get BUS.MISS_INFO_VALID = 0) :
    (d.busMiss m off wr).get BUS.MISS_INFO_VALID = 1 ∧ (d.busMiss m off wr).get BUS.MISS_INFO_MASTER = m % 8 ∧
      (d.busMiss m off wr).get BUS.MISS_INFO_WRITE = b2n wr ∧ (d.busMiss m off wr).get BUS.MISS_ADDR_OFS = off % 2 ^ 24 := by
  have hv : (!d.flag BUS.MISS_INFO_VALID) = true := by simp [flag, h]
  have hw : b2n wr % 2 ^ BUS.MISS_INFO_WRITE.w = b2n wr := by cases wr <;> rfl
  simp (disch := decide) only [busMiss, hv, when_true, count, put_eq, raise_eq, get_set_off, get_set_fld, get_set_self, hw]
  exact ⟨rfl, rfl, trivial, rfl⟩

/-- A later miss leaves the capture. -/
theorem busMiss_later {d : Dev} (m off : Nat) (wr : Bool) (h : d.get BUS.MISS_INFO_VALID = 1) :
    (d.busMiss m off wr).get BUS.MISS_INFO_VALID = 1 ∧ (d.busMiss m off wr).get BUS.MISS_ADDR_OFS = d.get BUS.MISS_ADDR_OFS := by
  have hv : (!d.flag BUS.MISS_INFO_VALID) = false := by simp [flag, h]
  simp (disch := decide) only [busMiss, hv, when_false, count, raise_eq, get_set_off, get_set_fld, h, and_self]

/-- A capture stands after every miss. -/
theorem busMiss_valid (d : Dev) (m off : Nat) (wr : Bool) : (d.busMiss m off wr).get BUS.MISS_INFO_VALID = 1 := by
  have hlt : d.get BUS.MISS_INFO_VALID < 2 := bitsOf_lt ..
  by_cases h : d.get BUS.MISS_INFO_VALID = 0
  · exact (busMiss_first m off wr h).1
  · exact (busMiss_later m off wr (by omega)).1

/-- BUS.CMD.CLR zeroes the four registers of the captures. -/
theorem busClear_reg (d : Dev) : ∀ o ∈ [0x00070004, 0x00070008, 0x0007000C, 0x00070010], d.busClear.reg o 0 = 0 := by
  have e : d.busClear = (((d.setReg 0x00070004 0 0).setReg 0x00070008 0 0).setReg 0x0007000C 0 0).setReg 0x00070010 0 0 := rfl
  simp (disch := decide) [e, reg_setReg_self, reg_setReg_ne]

theorem busClear_kept (d : Dev) : RegsKept d d.busClear [(0x00070004, 0), (0x00070008, 0), (0x0007000C, 0), (0x00070010, 0)] :=
  (((RegsKept.setReg d _ _ _ (by decide)).trans (.setReg _ _ _ _ (by decide))).trans (.setReg _ _ _ _ (by decide))).trans
    (.setReg _ _ _ _ (by decide))

theorem busClear_only (d : Dev) : OnlyRegs d d.busClear := OnlyRegs.foldl _ (fun _ _ => .setReg _ _ _ _) _ _

/-! ## An event raised where a condition holds -/

theorem raiseIf_reg_off (d : Dev) (b : Bool) (f : Fld) {ch off' ch' : Nat} (h : off' ≠ f.off) :
    (d.raiseIf b f ch).reg off' ch' = d.reg off' ch' := by
  cases b
  · rfl
  · exact reg_set_ne d f 1 (.inl h)

theorem raiseIf_get_off (d : Dev) (b : Bool) (f : Fld) {g : Fld} {ch ch' : Nat} (h : g.off ≠ f.off) :
    (d.raiseIf b f ch).get g ch' = d.get g ch' := by
  unfold get
  rw [raiseIf_reg_off d b f h]

theorem raiseIf_true (d : Dev) {b : Bool} (f : Fld) {ch : Nat} (h : b = true) : d.raiseIf b f ch = d.raise f ch := by
  rw [raiseIf, if_pos h]

end Dev

theorem masterCode_lt (m : Master) : m.code < 8 := by cases m <;> decide

/-- A meaning that concerns the block alone, with the block that it leaves. -/
theorem runsTo_go {i : Instr} {s : State} {f : Dev → Dev} {e : Dev} {P : Dev → Prop} (hi : exec i s = s.go f) (he : f s.dev = e)
    (h : P e) : RunsTo i s P := ⟨_, hi, he ▸ h⟩

/-- A meaning that changes registers alone. -/
theorem regsTo_go {i : Instr} {s : State} {f : Dev → Dev} {P : Dev → Prop} (hi : exec i s = s.go f)
    (ho : OnlyRegs s.dev (f s.dev)) (h : P (f s.dev)) : RegsTo i s P := by
  obtain ⟨r, hr⟩ := ho
  exact ⟨r, hi.trans (by rw [State.go_eq, hr]), hr ▸ h⟩

/-- BUS_CLR empties both captures. -/
theorem runsTo_busClr (s : State) : RegsTo .busClr s fun d => (∀ f ∈ [BUS.MISS_INFO_VALID, BUS.MISS_INFO_COUNT, BUS.MISS_ADDR_OFS,
    BUS.VIOL_INFO_VALID, BUS.VIOL_INFO_COUNT, BUS.VIOL_ADDR_OFS], d.get f = 0) ∧
      RegsKept s.dev d [(0x00070004, 0), (0x00070008, 0), (0x0007000C, 0), (0x00070010, 0)] := by
  refine regsTo_go rfl s.dev.busClear_only ⟨fun f hf => ?_, s.dev.busClear_kept⟩
  have hz : s.dev.busClear.reg f.off 0 = 0 := s.dev.busClear_reg f.off (by
    revert f
    decide)
  unfold Dev.get
  rw [hz, bitsOf_eq]
  simp

/-- What a decode miss leaves to be read. -/
theorem decodeMiss_captured {m : Master} (off : Nat) (wr : Bool) {s : State} (hm : s.dev.busMaster m = true) (hp : m ≠ .sidePort) :
    RunsTo (.decodeMiss m off wr) s fun d =>
      mapGet d.answer (m.code, 0) (0, false) = (0xFFFFFFFF, true) ∧ d.get BUS.EVT_STAT_DECODE_MISS = 1 ∧
      d.get BUS.MISS_INFO_COUNT = min (2 ^ 16 - 1) (s.dev.get BUS.MISS_INFO_COUNT + 1) ∧ d.get BUS.MISS_INFO_VALID = 1 ∧
      (s.dev.get BUS.MISS_INFO_VALID = 0 → d.get BUS.MISS_INFO_MASTER = m.code ∧ d.get BUS.MISS_INFO_WRITE = b2n wr ∧
        d.get BUS.MISS_ADDR_OFS = off % 2 ^ 24) ∧
      (s.dev.get BUS.MISS_INFO_VALID = 1 → d.get BUS.MISS_ADDR_OFS = s.dev.get BUS.MISS_ADDR_OFS) := by
  have k := s.dev.hostCount_kept m wr
  generalize he : s.dev.hostCount m wr = e at k
  refine runsTo_go (e := (e.busMiss m.code off wr).respondMiss m) rfl (by simp [hm, Dev.miss, hp, he]) ?_
  simp only [Dev.respondMiss, Dev.respond_get, Dev.respond_answer]
  refine ⟨trivial, e.busMiss_event .., ?_, e.busMiss_valid .., fun hv => ?_, fun hv => ?_⟩
  · rw [e.busMiss_count, k.field _ _ (by decide)]
  · obtain ⟨-, hma, hwr, hof⟩ := Dev.busMiss_first m.code off wr ((k.field BUS.MISS_INFO_VALID 0 (by decide)).trans hv)
    exact ⟨hma.trans (Nat.mod_eq_of_lt (masterCode_lt m)), hwr, hof⟩
  · exact (Dev.busMiss_later m.code off wr ((k.field BUS.MISS_INFO_VALID 0 (by decide)).trans hv)).2.trans
      (k.field BUS.MISS_ADDR_OFS 0 (by decide))

/-- A target time-out is answered as the default target answers, with the event and the fault of the target's class. -/
theorem runsTo_targetTimeout {m : Master} {off : Nat} (wr : Bool) {s : State} (hm : s.dev.busMaster m = true)
    (hs : s.dev.shutOut m off = false) : RunsTo (.targetTimeout m off wr) s fun d =>
      mapGet d.answer (m.code, 0) (0, false) = (0xFFFFFFFF, true) ∧ d.get BUS.EVT_STAT_TMO = 1 ∧
      d.rising = s.dev.rising ++ [⟨16 * busClass off + 8, 3, 0, 0⟩] := by
  have hs' : ((s.dev.hostCount m wr).respondMiss m).shutOut m off = false := (Dev.shutOut_hostCount ..).trans hs
  refine runsTo_go rfl
    (e := (((s.dev.hostCount m wr).respondMiss m).raise BUS.EVT_STAT_TMO).pulseFault ⟨16 * busClass off + 8, 3, 0, 0⟩)
    (by simp [hm, hs']) ⟨?_, ?_, ?_⟩
  · rw [Dev.pulseFault_answer, Dev.raise_answer]
    exact Dev.respond_answer ..
  · rw [Dev.pulseFault_get]
    exact Dev.get_set_self _ _ _ _ (by decide)
  · rw [Dev.pulseFault_rising, Dev.raise_rising, Dev.respondMiss, Dev.respond_rising, Dev.hostCount_rising]

/-! ## Select registers (R15 to R17) -/

/-- What makes a field a select field: it is the first of its register's row, and the register has a range whose event is a bit of another
register; no select register lies among the mailbox's, the vectors' or the counters'. -/
def selField (f : Fld) : Bool :=
  onBus f.off && !inMsix f.off && (decide (f.off < 0x00060008) || decide (0x00070000 ≤ f.off)) && !Dev.ctrOffs.contains f.off &&
    (f.lo == 0) && decide (f.w ≤ 32) &&
    match findReg f.off, selRange f.off with
    | some ⟨off, _, _, _, _, g :: _⟩, some (_, evt) =>
      off == f.off && g.lo == 0 && g.w == f.w && evt.off != f.off && decide (evt.lo < 32) && evt.w == 1
    | _, _ => false

/-- The select registers of Table 0.6. -/
def selFields : List Fld := [FLT.SRC_SEL_SEL, KEY.SLOT_SEL_SEL, EVT.SRC_SEL_SEL, LOG.CTR_SEL_SEL, LNG.GRP_SEL_SEL, XP.OUT_SEL_SEL,
  SLP.SLOT_SEL_SEL, MAC.PORT_SEL_SEL, FLW.FLOW_SEL_SEL, QM.Q_SEL_SEL, FS.SYNC_SEL_SEL, PLT.ENG_SEL_SEL, PLT.LAY_SEL_SEL,
  AMX.CH_SEL_SEL, AUD.PORT_SEL_SEL]

theorem selFields_ok : ∀ f ∈ selFields, selField f = true := by decide

/-- A write that reaches a select register stores the value in the master's copy, and raises the range's event where the value is out of
range (R15, R17). -/
theorem regWrite_selField {f : Fld} (hf : selField f = true) : f.lo = 0 ∧ f.w ≤ 32 ∧ onBus f.off = true ∧ f.off ∉ Dev.ctrOffs ∧
    ∃ n evt, selRange f.off = some (n, evt) ∧ evt.off ≠ f.off ∧ evt.lo < 32 ∧ evt.w = 1 ∧ ∀ (d : Dev) (m : Master) (v : Word),
      d.regWrite m f.off v = (d.set f (v.toNat % 2 ^ f.w) m.code).raiseIf (decide (n ≤ v.toNat % 2 ^ f.w)) evt := by
  obtain ⟨o, lo, w⟩ := f
  simp only [selField, Bool.and_eq_true, Bool.not_eq_true', Bool.or_eq_true, decide_eq_true_eq, beq_iff_eq,
    List.contains_eq_mem, decide_eq_false_iff_not] at hf
  obtain ⟨⟨⟨⟨⟨⟨hb, hx⟩, hm⟩, hc⟩, rfl⟩, hw⟩, h⟩ := hf
  split at h
  · next off _ _ _ _ g gs n evt hr hs =>
    simp only [Bool.and_eq_true, decide_eq_true_eq, beq_iff_eq, bne_iff_ne] at h
    obtain ⟨⟨⟨⟨⟨rfl, hg⟩, hgw⟩, he⟩, hl⟩, h1⟩ := h
    refine ⟨rfl, hw, hb, hc, n, evt, hs, he, hl, h1, fun d m v => ?_⟩
    rw [Dev.regWrite_sel v hx hm hr (by rw [hs]; rfl), Dev.selWrite, hs]
    simp [hg, hgw, bitsOf_eq]
  · exact absurd h (by decide)

theorem selectWrite_runs {f : Fld} (hf : selField f = true) {m : Master} (v : Word) {s : State} (hm : s.dev.busMaster m = true)
    (hs : s.dev.shutOut m f.off = false) : RunsTo (.selectWrite m f.off v) s fun d =>
      d.get f m.code = v.toNat % 2 ^ f.w ∧ (∀ k, k ≠ m.code → d.reg f.off k = s.dev.reg f.off k) ∧
        mapGet d.answer (m.code, 0) (0, false) = (0, false) ∧
        ∀ n evt, selRange f.off = some (n, evt) → n ≤ v.toNat % 2 ^ f.w → d.get evt = 1 := by
  obtain ⟨hlo, hw, hb, hc, n, evt, hr, he, hl, h1, hd⟩ := regWrite_selField hf
  refine runsTo_go rfl (e := (((s.dev.written m).set f (v.toNat % 2 ^ f.w) m.code).raiseIf (decide (n ≤ v.toNat % 2 ^ f.w)) evt).dbgFault
    m f.off) ?_ ⟨?_, fun k hk => ?_, ?_, fun n' evt' hr' hn => ?_⟩
  · simp only [hr, Option.isSome_some, if_true, Dev.busWrite_onBus v hm hb hs, hd]
  · rw [Dev.dbgFault_get, Dev.raiseIf_get_off _ _ _ (Ne.symm he), Dev.get_set_self _ _ _ _ (by omega), Nat.mod_mod]
  · rw [Dev.dbgFault_reg, Dev.raiseIf_reg_off _ _ _ (Ne.symm he), Dev.reg_set_ne _ _ _ (.inr hk), s.dev.written_kept m _ _ hc]
  · rw [Dev.dbgFault_answer, (OnlyRegs.raiseIf _ _ _ _).get_answer, Dev.set_answer]
    exact Dev.written_answer ..
  · rw [hr, Option.some.injEq, Prod.mk.injEq] at hr'
    obtain ⟨rfl, rfl⟩ := hr'
    rw [Dev.dbgFault_get, Dev.raiseIf_true _ _ (decide_eq_true hn), Dev.raise_eq, Dev.get_set_self _ _ _ _ (by omega), h1]
    rfl

/-- Settles O33: the captures of the interconnect and the select registers, clause by clause. -/
theorem busAccess : Obligations.BusAccess :=
  ⟨fun _ off wr s hm => ⟨decodeMiss_captured off wr hm, runsTo_targetTimeout wr hm, runsTo_busClr s⟩,
    fun _ v _ hm f hf hs => selectWrite_runs (selFields_ok f hf) v hm hs⟩

end Sys2Proof.Machine
end

section
/-!
Proofs, register writes by class and reads that latch (R6 to R8, R317).
-/

namespace Sys2Proof.Machine

/-- The register at an offset is one that every master reaches without a select register; it is no select, mailbox or vector
register. -/
structure PlainReg (off : Nat) (r : RegRow) : Prop where
  onBus : onBus off = true
  msix : inMsix off = false
  pba : inPba off = false
  mbx : off < 0x00060008 ∨ 0x00070000 ≤ off
  row : findReg off = some r
  range : selRange off = none
  sel : r.sel = .none
  log : r.off ≠ 0x00010028

/-- While the control side runs, no access is shut out (R434). -/
theorem shutOut_running {d : Dev} (m : Master) (off : Nat) (h : d.restarting = false) : d.shutOut m off = false := by
  simp [Dev.shutOut, h]

namespace PlainReg

variable {off : Nat} {r : RegRow}

theorem busCh (h : PlainReg off r) (d : Dev) (m : Master) : d.busCh m r = some 0 := by
  simp [Dev.busCh, h.sel, h.log]

theorem peek (h : PlainReg off r) (d : Dev) (m : Master) : d.peek m off = d.readWord m r off 0 := by
  simp [Dev.peek, h.row, h.busCh]

/-- A write that changes registers alone: what it stores, with what follows it, is the block that it leaves. -/
theorem runsTo_write (h : PlainReg off r) {m : Master} {v : Word} {s : State} {e : Dev} {P : Dev → Prop}
    (hm : s.dev.busMaster m = true) (hc : s.dev.chartHeld = false) (hr : s.dev.restarting = false)
    (he : ((s.dev.written m).storeReg m r off 0 v).followWrite (s.dev.written m) m off 0 v = e)
    (ho : OnlyRegs (s.dev.written m) e) (hP : P (e.dbgFault m off)) : RunsTo (.registerWrite m off v) s P := by
  have k : s.dev.busWrite m off v = e.dbgFault m off := by
    rw [Dev.busWrite_onBus v hm h.onBus (shutOut_running m off hr), Dev.regWrite_reg v h.msix h.mbx h.row h.range (h.busCh _ m), he]
  apply runsTo_registerWrite <;> rw [k]
  · rw [Dev.dbgFault_restoring, ho.get_restoring, Dev.written_restoring]
  · rw [Dev.dbgFault_chartHeld, ho.get_chartHeld, Dev.written_chartHeld, hc]
  · exact hP

/-- A read that finds no held word answers the register's word, and does what its read does beside. -/
theorem busRead (h : PlainReg off r) {d : Dev} {m : Master} (hm : d.busMaster m = true) (hr : d.restarting = false)
    (hh : mapGet d.hold (m.code, off) none = none) :
    (d.busRead m off).2 = ((d.hostCount m false).readEffect m off).respond m ((d.hostCount m false).peek m off) false :=
  Dev.busRead_onBus hm h.onBus (shutOut_running m off hr) h.msix h.pba hh (Dev.mbxShut_out _ m false h.mbx)

end PlainReg

/-! ## Writes by class (R7, R8) -/

theorem bitsOf_full (v : Word) : bitsOf v 0 32 = v.toNat := by
  rw [bitsOf_eq, Nat.pow_zero, Nat.div_one]
  exact Nat.mod_eq_of_lt v.isLt

/-- A live field takes the value. -/
theorem storeReg_adjNs (d : Dev) (m : Master) (v : Word) :
    d.storeReg m ⟨0x0002002C, 0, 1, .none, 0, [⟨0, 32, .rw, .live⟩]⟩ 0x0002002C 0 v = d.set TIM.ADJ_NS v.toNat := by
  rw [← bitsOf_full v]
  rfl

/-- The take engine owns its static fields. -/
theorem ownerRuns_tkVlan (d : Dev) : d.ownerRuns 0x00C01004 0 0 = d.flag HIF.TK_CTL_EN := rfl

/-- A static field takes the value while its owner does not run. -/
theorem storeReg_tkVlan_stopped {d : Dev} (m : Master) (v : Word) (h : d.flag HIF.TK_CTL_EN = false) :
    d.storeReg m ⟨0x00C01004, 0, 1, .none, 0, [⟨0, 12, .rw, .static⟩]⟩ 0x00C01004 0 v = d.set HIF.TK_VLAN_VID (bitsOf v 0 12) := by
  have e : ([⟨0, 12, .rw, .static⟩] : List FieldRow).foldl (d.storeField 0x00C01004 0 v) (d, false) =
      if d.ownerRuns 0x00C01004 0 0 then (d, false || bitsOf v 0 12 != d.get HIF.TK_VLAN_VID)
      else (d.set HIF.TK_VLAN_VID (bitsOf v 0 12), false) := rfl
  rw [ownerRuns_tkVlan, h] at e
  simp [Dev.storeReg, e]

/-- A static field of a running owner keeps its value, with the events of the owner and of the bus. -/
theorem storeReg_tkVlan_running {d : Dev} (m : Master) {v : Word} (h : d.flag HIF.TK_CTL_EN = true)
    (hv : bitsOf v 0 12 ≠ d.get HIF.TK_VLAN_VID) :
    d.storeReg m ⟨0x00C01004, 0, 1, .none, 0, [⟨0, 12, .rw, .static⟩]⟩ 0x00C01004 0 v =
      if m = .sidePort then d.raise HIF.TK_EVT_CLASS_VIOL else (d.raise HIF.TK_EVT_CLASS_VIOL).busViol m.code 0x00C01004 := by
  have e : ([⟨0, 12, .rw, .static⟩] : List FieldRow).foldl (d.storeField 0x00C01004 0 v) (d, false) =
      if d.ownerRuns 0x00C01004 0 0 then (d, false || bitsOf v 0 12 != d.get HIF.TK_VLAN_VID)
      else (d.set HIF.TK_VLAN_VID (bitsOf v 0 12), false) := rfl
  have hx : violField 0x00C01004 = some HIF.TK_EVT_CLASS_VIOL := by decide
  rw [ownerRuns_tkVlan, h] at e
  simp [Dev.storeReg, e, hv, hx]

namespace Dev

theorem busViol_event (d : Dev) (m off : Nat) : (d.busViol m off).get BUS.EVT_STAT_VIOL = 1 := get_set_self _ _ _ _ (by decide)

theorem busViol_count (d : Dev) (m off : Nat) :
    (d.busViol m off).get BUS.VIOL_INFO_COUNT = min (2 ^ 16 - 1) (d.get BUS.VIOL_INFO_COUNT + 1) := by
  have hlt (n : Nat) : min (2 ^ BUS.VIOL_INFO_COUNT.w - 1) n % 2 ^ BUS.VIOL_INFO_COUNT.w = min (2 ^ 16 - 1) n :=
    Nat.mod_eq_of_lt (Nat.lt_of_le_of_lt (Nat.min_le_left ..) (by decide))
  cases hv : !d.flag BUS.VIOL_INFO_VALID <;>
    simp (disch := decide) only [busViol, hv, when_true, when_false, count, raise_eq, get_set_off, get_set_fld, get_set_self, hlt]

/-- The capture of a class violation lies in three registers of BUS (Table 17.13). -/
theorem busViol_kept (d : Dev) (m off : Nat) : OffsKept d (d.busViol m off) [0x00070000, 0x0007000C, 0x00070010] := by
  have hc : OffsKept d (d.when (!d.flag BUS.VIOL_INFO_VALID) fun d =>
      (((d.set BUS.VIOL_INFO_MASTER m).raise BUS.VIOL_INFO_WRITE).raise BUS.VIOL_INFO_VALID).set BUS.VIOL_ADDR_OFS off)
      [0x00070000, 0x0007000C, 0x00070010] := by
    cases !d.flag BUS.VIOL_INFO_VALID
    · exact .refl _ _
    · exact (((OffsKept.set _ _ _ _ (by decide)).trans (.set _ _ _ _ (by decide))).trans (.set _ _ _ _ (by decide))).trans
        (.set _ _ _ _ (by decide))
  exact (hc.trans (.set _ _ _ _ (by decide))).trans (.set _ _ _ _ (by decide))

theorem busViol_only (d : Dev) (m off : Nat) : OnlyRegs d (d.busViol m off) := by
  refine ((OnlyRegs.when d _ _ ?_).trans (.count _ _ _ _)).trans (.raise _ _ _)
  exact (((OnlyRegs.set _ _ _ _).trans (.raise _ _ _)).trans (.raise _ _ _)).trans (.set _ _ _ _)

/-- An event field clears where the word written has its bits set (R7, code wc). -/
def clearWritten (d : Dev) (f : Fld) (v : Word) : Dev := d.set f (d.get f - (d.get f &&& bitsOf v f.lo f.w))

theorem clearWritten_only (d : Dev) (f : Fld) (v : Word) : OnlyRegs d (d.clearWritten f v) := .set _ _ _ _

/-- An event bit is cleared by a written 1 and kept by a written 0. -/
theorem clearWritten_get {d : Dev} {f : Fld} (v : Word) (hw : f.w = 1) (hl : f.lo < 32) :
    (d.clearWritten f v).get f = if v.toNat.testBit f.lo then 0 else d.get f := by
  have hg : d.get f < 2 := by
    have : d.get f < 2 ^ f.w := bitsOf_lt ..
    rwa [hw] at this
  have hv : bitsOf v f.lo f.w = (v.toNat.testBit f.lo).toNat := by
    rw [bitsOf_eq, hw, Nat.toNat_testBit, Nat.pow_one]
  rw [clearWritten, get_set_self _ _ _ _ (by omega), hv, hw]
  cases v.toNat.testBit f.lo
  · simp [Nat.mod_eq_of_lt hg]
  · rcases Nat.lt_succ_iff_lt_or_eq.mp hg with h | h
    · simp [Nat.lt_one_iff.mp h]
    · simp [h]

/-- Another field of the register keeps its value. -/
theorem clearWritten_get_ne {d : Dev} {f g : Fld} (v : Word) (hf : f.lo + f.w ≤ 32) (h : f.lo + f.w ≤ g.lo ∨ g.lo + g.w ≤ f.lo) :
    (d.clearWritten f v).get g = d.get g := get_set_fld _ _ _ _ _ _ hf h

/-- The three events of BUS are cleared one by one. -/
theorem storeReg_busEvents (d : Dev) (m : Master) (v : Word) :
    d.storeReg m ⟨0x00070000, 0, 1, .none, 0, [⟨0, 1, .wc, .none⟩, ⟨1, 1, .wc, .none⟩, ⟨2, 1, .wc, .none⟩]⟩ 0x00070000 0 v =
      ((d.clearWritten BUS.EVT_STAT_DECODE_MISS v).clearWritten BUS.EVT_STAT_TMO v).clearWritten BUS.EVT_STAT_VIOL v := rfl

end Dev

/-! ### The three registers -/

theorem plain_adjNs : PlainReg 0x0002002C ⟨0x0002002C, 0, 1, .none, 0, [⟨0, 32, .rw, .live⟩]⟩ := by constructor <;> decide
theorem plain_tkVlan : PlainReg 0x00C01004 ⟨0x00C01004, 0, 1, .none, 0, [⟨0, 12, .rw, .static⟩]⟩ := by constructor <;> decide
theorem plain_busEvents : PlainReg 0x00070000
    ⟨0x00070000, 0, 1, .none, 0, [⟨0, 1, .wc, .none⟩, ⟨1, 1, .wc, .none⟩, ⟨2, 1, .wc, .none⟩]⟩ := by constructor <;> decide

/-- What a write has left is kept by the fault of the debug port, and but for the counters' offsets by what came before. -/
theorem OffsKept.of_written {d e : Dev} {m : Master} {off : Nat} {k : List Nat} (h : OffsKept (d.written m) e k)
    (hk : Dev.ctrOffs ⊆ k) : OffsKept d (e.dbgFault m off) k :=
  (((d.written_kept m).mono hk).trans h).trans (.of_regs (Dev.dbgFault_regs ..))

theorem written_get (d : Dev) (m : Master) (f : Fld) (h : f.off ∉ Dev.ctrOffs) : (d.written m).get f = d.get f :=
  (d.written_kept m).field f 0 h

section
variable {m : Master} (v : Word) {s : State} (hm : s.dev.busMaster m = true) (hc : s.dev.chartHeld = false)
  (hr : s.dev.restarting = false)
include hm hc hr

theorem write_adjNs : RunsTo (.registerWrite m 0x0002002C v) s fun d => d.get TIM.ADJ_NS = v.toNat ∧
    OffsKept s.dev d [0x0002002C, 0x00090100, 0x00090104] := by
  refine plain_adjNs.runsTo_write hm hc hr (e := (s.dev.written m).set TIM.ADJ_NS v.toNat) ?_ (.set _ _ _ _) ⟨?_, ?_⟩
  · rw [storeReg_adjNs]
    rfl
  · rw [Dev.dbgFault_get, Dev.get_set_self _ _ _ _ (by decide)]
    exact Nat.mod_eq_of_lt v.isLt
  · exact .of_written (.set _ _ _ _ (by decide)) (by decide)

theorem write_tkVlan_stopped (h : s.dev.get HIF.TK_CTL_EN = 0) : RunsTo (.registerWrite m 0x00C01004 v) s fun d =>
    d.get HIF.TK_VLAN_VID = v.toNat % 2 ^ 12 ∧ OffsKept s.dev d [0x00C01004, 0x00090100, 0x00090104] := by
  have hf : (s.dev.written m).flag HIF.TK_CTL_EN = false := by
    simp [Dev.flag, written_get _ _ HIF.TK_CTL_EN (by decide), h]
  refine plain_tkVlan.runsTo_write hm hc hr (e := (s.dev.written m).set HIF.TK_VLAN_VID (bitsOf v 0 12)) ?_ (.set _ _ _ _) ⟨?_, ?_⟩
  · rw [storeReg_tkVlan_stopped m v hf]
    rfl
  · rw [Dev.dbgFault_get, Dev.get_set_self _ _ _ _ (by decide), bitsOf_eq]
    simp [HIF.TK_VLAN_VID]
  · exact .of_written (.set _ _ _ _ (by decide)) (by decide)

theorem write_tkVlan_running (h : s.dev.get HIF.TK_CTL_EN = 1) (hv : v.toNat % 2 ^ 12 ≠ s.dev.get HIF.TK_VLAN_VID) :
    RunsTo (.registerWrite m 0x00C01004 v) s fun d => d.get HIF.TK_VLAN_VID = s.dev.get HIF.TK_VLAN_VID ∧
      d.get HIF.TK_EVT_CLASS_VIOL = 1 ∧
      (m ≠ .sidePort → d.get BUS.EVT_STAT_VIOL = 1 ∧
        d.get BUS.VIOL_INFO_COUNT = min (2 ^ 16 - 1) (s.dev.get BUS.VIOL_INFO_COUNT + 1)) ∧
      OffsKept s.dev d [0x00C01030, 0x00070000, 0x0007000C, 0x00070010, 0x00090100, 0x00090104] := by
  have hf : (s.dev.written m).flag HIF.TK_CTL_EN = true := by
    simp [Dev.flag, written_get _ _ HIF.TK_CTL_EN (by decide), h]
  have hn : bitsOf v 0 12 ≠ (s.dev.written m).get HIF.TK_VLAN_VID := by
    rw [written_get _ _ _ (by decide), bitsOf_eq, Nat.pow_zero, Nat.div_one]
    exact hv
  have hraise : ((s.dev.written m).raise HIF.TK_EVT_CLASS_VIOL).get HIF.TK_EVT_CLASS_VIOL = 1 := Dev.get_set_self _ _ _ _ (by decide)
  have kraise : OffsKept (s.dev.written m) ((s.dev.written m).raise HIF.TK_EVT_CLASS_VIOL)
      [0x00C01030, 0x00070000, 0x0007000C, 0x00070010, 0x00090100, 0x00090104] := .set _ _ _ _ (by decide)
  have hstore := storeReg_tkVlan_running m hf hn
  by_cases hp : m = .sidePort
  · rw [if_pos hp] at hstore
    refine plain_tkVlan.runsTo_write hm hc hr (by rw [hstore]; rfl) (.raise _ _ _)
      ⟨?_, ?_, fun h => absurd hp h, .of_written kraise (by decide)⟩
    · rw [Dev.dbgFault_get, kraise.field _ _ (by decide), written_get _ _ _ (by decide)]
    · rw [Dev.dbgFault_get, hraise]
  · rw [if_neg hp] at hstore
    have kviol := Dev.busViol_kept ((s.dev.written m).raise HIF.TK_EVT_CLASS_VIOL) m.code 0x00C01004
    refine plain_tkVlan.runsTo_write hm hc hr (by rw [hstore]; rfl) ((OnlyRegs.raise _ _ _).trans (Dev.busViol_only _ _ _))
      ⟨?_, ?_, fun _ => ⟨?_, ?_⟩, .of_written (kraise.trans (kviol.mono (by decide))) (by decide)⟩
    · rw [Dev.dbgFault_get, kviol.field _ _ (by decide), kraise.field _ _ (by decide), written_get _ _ _ (by decide)]
    · rw [Dev.dbgFault_get, kviol.field _ _ (by decide), hraise]
    · rw [Dev.dbgFault_get, Dev.busViol_event]
    · rw [Dev.dbgFault_get, Dev.busViol_count, Dev.raise_eq, Dev.get_set_off _ _ _ _ _ _ (by decide), written_get _ _ _ (by decide)]

theorem write_busEvents : RunsTo (.registerWrite m 0x00070000 v) s fun d =>
    d.get BUS.EVT_STAT_DECODE_MISS = (if v.toNat.testBit 0 then 0 else s.dev.get BUS.EVT_STAT_DECODE_MISS) ∧
    d.get BUS.EVT_STAT_TMO = (if v.toNat.testBit 1 then 0 else s.dev.get BUS.EVT_STAT_TMO) ∧
    d.get BUS.EVT_STAT_VIOL = (if v.toNat.testBit 2 then 0 else s.dev.get BUS.EVT_STAT_VIOL) ∧
    OffsKept s.dev d [0x00070000, 0x00090100, 0x00090104] := by
  have ho := (((s.dev.written m).clearWritten_only BUS.EVT_STAT_DECODE_MISS v).trans (Dev.clearWritten_only _ BUS.EVT_STAT_TMO v)).trans
    (Dev.clearWritten_only _ BUS.EVT_STAT_VIOL v)
  refine plain_busEvents.runsTo_write hm hc hr (by rw [Dev.storeReg_busEvents]; rfl) ho ⟨?_, ?_, ?_, .of_written ?_ (by decide)⟩
  · rw [Dev.dbgFault_get, Dev.clearWritten_get_ne v (by decide) (by decide), Dev.clearWritten_get_ne v (by decide) (by decide),
      Dev.clearWritten_get v rfl (by decide), written_get _ _ _ (by decide)]
    rfl
  · rw [Dev.dbgFault_get, Dev.clearWritten_get_ne v (by decide) (by decide), Dev.clearWritten_get v rfl (by decide),
      Dev.clearWritten_get_ne v (by decide) (by decide), written_get _ _ _ (by decide)]
    rfl
  · rw [Dev.dbgFault_get, Dev.clearWritten_get v rfl (by decide), Dev.clearWritten_get_ne v (by decide) (by decide),
      Dev.clearWritten_get_ne v (by decide) (by decide), written_get _ _ _ (by decide)]
    rfl
  · exact ((OffsKept.set _ _ _ _ (by decide)).trans (.set _ _ _ _ (by decide))).trans (.set _ _ _ _ (by decide))

end

/-! ## Reads that latch (R6, R317) -/

theorem putBits_bitsOf_zero {x : Word} {w : Nat} (hw : w ≤ 32) (h : x.toNat < 2 ^ w) : putBits 0 0 w (bitsOf x 0 w) = x := by
  apply BitVec.eq_of_toNat_eq
  rw [putBits_toNat _ _ _ _ (by omega), bitsOf_eq, Nat.pow_zero, Nat.div_one, Nat.mod_mod, Nat.mod_eq_of_lt h]
  simp

/-- A register of one field at bit 0 reads as its live value, where that fits the field. -/
theorem readWord_one {d : Dev} {m : Master} {r : RegRow} {off w : Nat} (hr : r.fields = [⟨0, w, .rs, .none⟩])
    (hf : fieldHere off 0 0 = true) (hw : w ≤ 32) (h : (d.liveWord m off 0).toNat < 2 ^ w) :
    d.readWord m r off 0 = d.liveWord m off 0 := by
  have e : d.readWord m r off 0 = putBits 0 0 w (bitsOf (d.liveWord m off 0) 0 w) := by
    simp [Dev.readWord, hr, hf]
  rw [e, putBits_bitsOf_zero hw h]

/-- What `PlainReg` asks of an offset, computed. -/
def isPlain (off : Nat) : Bool :=
  onBus off && !inMsix off && !inPba off && (decide (off < 0x00060008) || decide (0x00070000 ≤ off)) && (selRange off).isNone &&
    (findReg off).any fun r => r.sel == .none && r.off != 0x00010028

theorem plainReg_of_isPlain {off : Nat} (h : isPlain off = true) : ∃ r, PlainReg off r := by
  simp only [isPlain, Bool.and_eq_true, Bool.not_eq_true', Bool.or_eq_true, decide_eq_true_eq, Option.isNone_iff_eq_none,
    Option.any_eq_true, beq_iff_eq, bne_iff_ne] at h
  obtain ⟨⟨⟨⟨⟨hb, hx⟩, hp⟩, hm⟩, hs⟩, r, hr, hsel, hlog⟩ := h
  exact ⟨r, hb, hx, hp, hm, hr, hs, hsel, hlog⟩

/-- A plain register reads the same where its live value is the same. -/
theorem PlainReg.peek_congr {off : Nat} {r : RegRow} (h : PlainReg off r) {d e : Dev} {m : Master}
    (hl : e.liveWord m off 0 = d.liveWord m off 0) : e.peek m off = d.peek m off := by
  rw [h.peek, h.peek, Dev.readWord, Dev.readWord, hl]

/-- The counts of the host's accesses show in no register of the four pairs. -/
theorem liveWord_hostCount (d : Dev) (m : Master) (wr : Bool) : ∀ off ∈ [0x0001002C, 0x00020030, 0x00020038, 0x00020068],
    (d.hostCount m wr).liveWord m off 0 = d.liveWord m off 0 ∧
      (d.hostCount m wr).liveWord m (off + 4) 0 = d.liveWord m (off + 4) 0 := by
  have k {o : Nat} (h : o ∉ Dev.ctrOffs) : (d.hostCount m wr).reg o 0 = d.reg o 0 := d.hostCount_kept m wr _ _ h
  have ha : (d.hostCount m wr).aclk = d.aclk := d.hostCount_aclk m wr
  have hres : (d.hostCount m wr).res = d.res := d.hostCount_res m wr
  simp only [List.forall_mem_cons]
  refine ⟨⟨congrArg (BitVec.ofNat 32) ha, congrArg (fun a => BitVec.ofNat 32 (a / 2 ^ 32 % 65536)) ha⟩,
    ⟨k (by decide), k (by decide)⟩, ⟨k (by decide), k (by decide)⟩, ⟨congrArg (fun a : Int => BitVec.ofInt 32 (a / 65536)) hres,
      congrArg (fun a : Int => BitVec.ofInt 32 (a / 65536 / 2 ^ 32)) hres⟩, nofun⟩

@[simp] theorem Dev.latch_time (d : Dev) (m : Master) (off : Nat) : (d.latch m off).time = d.time := (rfl)
@[simp] theorem Dev.respond_hold (d : Dev) (m : Master) (v : Word) (err : Bool) : (d.respond m v err).hold = d.hold := (rfl)

theorem Dev.latch_hold (d : Dev) (m : Master) (off : Nat) :
    (d.latch m off).hold = mapPut d.hold (m.code, off) none (some (d.peek m off)) := (rfl)

/-- A holding register, read back after it is filled. -/
theorem Dev.latch_same (d : Dev) (m : Master) (off : Nat) :
    mapGet (d.latch m off).hold (m.code, off) none = some (d.peek m off) := by
  rw [Dev.latch_hold]
  exact mapGet_mapPut_self d.hold (m.code, off) none (some (d.peek m off))

theorem Dev.latch_ne (d : Dev) (m : Master) {off o : Nat} (h : o ≠ off) :
    mapGet (d.latch m off).hold (m.code, o) none = mapGet d.hold (m.code, o) none := by
  rw [Dev.latch_hold]
  exact mapGet_mapPut_ne (fun e => h (Prod.mk.inj e).2) d.hold none (some (d.peek m off)) none

/-- A low word's read answers it and latches the high word (R6). -/
theorem read_lowWord {m : Master} {off : Nat} {s : State} (ho : off ∈ [0x0001002C, 0x00020030, 0x00020038, 0x00020068])
    (hm : s.dev.busMaster m = true) (hr : s.dev.restarting = false) (hh : mapGet s.dev.hold (m.code, off) none = none) :
    RunsTo (.lowWordRead m off) s fun d => mapGet d.answer (m.code, 0) (0, false) = (s.dev.peek m off, false) ∧
      mapGet d.hold (m.code, off + 4) none = some (s.dev.peek m (off + 4)) := by
  have hp : ∀ o ∈ [0x0001002C, 0x00020030, 0x00020038, 0x00020068],
      (isPlain o && isPlain (o + 4) && isLowWord o && o != 0x00020010) = true := by decide
  have hp := hp off ho
  simp only [Bool.and_eq_true, bne_iff_ne] at hp
  obtain ⟨⟨⟨h0, h4⟩, hl⟩, hne⟩ := hp
  obtain ⟨r, h0⟩ := plainReg_of_isPlain h0
  obtain ⟨r', h4⟩ := plainReg_of_isPlain h4
  obtain ⟨l0, l4⟩ := liveWord_hostCount s.dev m false off ho
  apply runsTo_lowWordRead
  rw [h0.busRead hm hr hh, Dev.readEffect, if_neg hne, if_pos hl]
  exact ⟨by rw [Dev.respond_answer, h0.peek_congr l0], by rw [Dev.respond_hold, Dev.latch_same, h4.peek_congr l4]⟩

/-! ### TIME_FRAC (R317) -/

section
variable (d : Dev) (m : Master)

theorem peek_timeFrac : d.peek m 0x00020010 = BitVec.ofNat 32 (d.time / 2 ^ 24 % 65536) := by
  have h : PlainReg 0x00020010 ⟨0x00020010, 0, 1, .none, 0, [⟨0, 16, .rs, .none⟩]⟩ := by constructor <;> decide
  rw [h.peek]
  refine readWord_one (w := 16) rfl (by decide) (by decide) ?_
  exact Nat.lt_of_le_of_lt (Nat.mod_le ..) (Nat.mod_lt _ (by decide))

theorem peek_timeNs : d.peek m 0x00020014 = BitVec.ofNat 32 d.timeNs := by
  have h : PlainReg 0x00020014 ⟨0x00020014, 0, 1, .none, 0, [⟨0, 32, .rs, .none⟩]⟩ := by constructor <;> decide
  rw [h.peek]
  exact readWord_one (w := 32) rfl (by decide) (by decide) (BitVec.isLt _)

theorem peek_timeSecLo : d.peek m 0x00020018 = BitVec.ofNat 32 d.timeSec := by
  have h : PlainReg 0x00020018 ⟨0x00020018, 0, 1, .none, 0, [⟨0, 32, .rs, .none⟩]⟩ := by constructor <;> decide
  rw [h.peek]
  exact readWord_one (w := 32) rfl (by decide) (by decide) (BitVec.isLt _)

theorem peek_timeSecHi : d.peek m 0x0002001C = BitVec.ofNat 32 (d.timeSec / 2 ^ 32 % 65536) := by
  have h : PlainReg 0x0002001C ⟨0x0002001C, 0, 1, .none, 0, [⟨0, 16, .rs, .none⟩]⟩ := by constructor <;> decide
  rw [h.peek]
  refine readWord_one (w := 16) rfl (by decide) (by decide) ?_
  exact Nat.lt_of_le_of_lt (Nat.mod_le ..) (Nat.mod_lt _ (by decide))

end

/-- A read of TIME_FRAC answers the fraction and latches the nanoseconds and the seconds of the same instant (R317). -/
theorem read_timeFrac {m : Master} {s : State} (hm : s.dev.busMaster m = true) (hr : s.dev.restarting = false)
    (hh : mapGet s.dev.hold (m.code, 0x00020010) none = none) : RunsTo (.timeFracRead m) s fun d =>
      mapGet d.answer (m.code, 0) (0, false) = (BitVec.ofNat 32 (s.dev.time / 2 ^ 24 % 65536), false) ∧
      mapGet d.hold (m.code, 0x00020014) none = some (BitVec.ofNat 32 s.dev.timeNs) ∧
      mapGet d.hold (m.code, 0x00020018) none = some (BitVec.ofNat 32 s.dev.timeSec) ∧
      mapGet d.hold (m.code, 0x0002001C) none = some (BitVec.ofNat 32 (s.dev.timeSec / 2 ^ 32 % 65536)) := by
  obtain ⟨r, h⟩ := plainReg_of_isPlain (off := 0x00020010) (by decide)
  have ht : (s.dev.hostCount m false).time = s.dev.time := s.dev.hostCount_time m false
  refine runsTo_go (f := fun d => (d.busRead m 0x00020010).2) rfl (h.busRead hm hr hh) ?_
  generalize s.dev.hostCount m false = c at ht
  rw [Dev.readEffect, if_pos rfl, Dev.respond_answer, Dev.respond_hold, peek_timeFrac, ht]
  refine ⟨rfl, ?_, ?_, ?_⟩
  · rw [Dev.latch_ne _ _ (by decide), Dev.latch_ne _ _ (by decide), Dev.latch_same, peek_timeNs, Dev.timeNs, ht]
    rfl
  · rw [Dev.latch_ne _ _ (by decide), Dev.latch_same, peek_timeSecLo, Dev.timeSec, Dev.latch_time, ht]
    rfl
  · rw [Dev.latch_same, peek_timeSecHi, Dev.timeSec, Dev.latch_time, Dev.latch_time, ht]
    rfl

/-- Settles O34: the three registers stand for the classes, the four pairs and TIME_FRAC for the reads that latch. -/
theorem registerAccess : Obligations.RegisterAccess :=
  ⟨fun _ v _ hm hc hr => ⟨write_adjNs v hm hc hr, write_tkVlan_stopped v hm hc hr, write_tkVlan_running v hm hc hr,
      write_busEvents v hm hc hr⟩,
    fun _ _ hm hr => ⟨fun _ ho hh => read_lowWord ho hm hr hh, read_timeFrac hm hr⟩⟩

end Sys2Proof.Machine
end

section
/-!
Proofs, every command completes (R2): what a command spares of the frame store and the NVM, operation by operation, and the commands
that may write them.
-/

namespace Sys2Proof.Machine

/-- The queue stands as it was; so does the frame store where `st` holds, and the NVM where `nv` holds. -/
def Spares (st nv : Bool) (s t : State) : Prop :=
  t.pending = s.pending ∧ (st = true → t.store = s.store) ∧ (nv = true → t.nvm = s.nvm)

namespace Spares

variable {st nv : Bool} {s t u : State}

theorem refl (s : State) : Spares st nv s s := ⟨rfl, fun _ => rfl, fun _ => rfl⟩

theorem trans (h : Spares st nv s t) (k : Spares st nv t u) : Spares st nv s u :=
  ⟨k.1.trans h.1, fun e => (k.2.1 e).trans (h.2.1 e), fun e => (k.2.2 e).trans (h.2.2 e)⟩

/-- What spares a memory spares it where less is asked. -/
theorem mono {st' nv' : Bool} (h : Spares st nv s t) (hs : st' = true → st = true) (hn : nv' = true → nv = true) : Spares st' nv' s t :=
  ⟨h.1, fun e => h.2.1 (hs e), fun e => h.2.2 (hn e)⟩

/-- What writes neither memory spares whatever is asked. -/
theorem of_both (h : Spares true true s t) : Spares st nv s t := h.mono (fun _ => rfl) (fun _ => rfl)

/-- What writes no more than the frame store. -/
theorem of_nvm (h : Spares false true s t) (hs : st = false) : Spares st nv s t := by
  subst hs
  exact h.mono id fun _ => rfl

/-- What writes no more than the NVM. -/
theorem of_store (h : Spares true false s t) (hn : nv = false) : Spares st nv s t := by
  subst hn
  exact h.mono (fun _ => rfl) id

/-! ## The shared operations -/

theorem dev (s : State) (d : Dev) : Spares st nv s { s with dev := d } := ⟨rfl, fun _ => rfl, fun _ => rfl⟩

theorem onDev (s : State) (f : Dev → Dev) : Spares st nv s (s.onDev f) := dev s _

theorem answer (s : State) (cmd status : Nat) (data : List Byte) : Spares st nv s (s.answer cmd status data) := onDev s _

theorem program (s : State) (a : Nat) (bs : List Byte) : Spares st false s (s.nvmProgram a bs) := ⟨rfl, fun _ => rfl, nofun⟩

theorem erase (s : State) (a n : Nat) : Spares st false s (s.nvmErase a n) := ⟨rfl, fun _ => rfl, nofun⟩

theorem writeStore (s : State) (a : Nat) (bs : List Byte) : Spares false nv s (s.writeStore a bs) :=
  ⟨State.writeStore_pending .., nofun, fun _ => State.writeStore_nvm ..⟩

theorem withNvm {f : State → State} (h : Spares st nv s (f s)) : Spares st nv s (s.withNvm f) := by
  unfold State.withNvm
  split
  · exact onDev s _
  · exact h

theorem mbxRun {cmd : Nat} {rom : Bool} {f : State → State} (h : Spares st nv s (f s)) : Spares st nv s (s.mbxRun cmd rom f) := by
  unfold State.mbxRun
  split
  · exact refl s
  · split
    · exact onDev s _
    · exact h

theorem foldl {α : Type} {f : State → α → State} (h : ∀ t x, Spares st nv t (f t x)) (l : List α) :
    ∀ s, Spares st nv s (l.foldl f s) := by
  induction l with
  | nil => exact refl
  | cons x l ih => exact fun s => (h s x).trans (ih _)

/-! ## The NVM's own operations: the frame store is spared -/

theorem restoreBegin (s : State) (w : Bool) : Spares true false s (s.restoreBegin w) :=
  ⟨(State.restoreBegin_keeps s w).2.1, fun _ => (State.restoreBegin_keeps s w).1, nofun⟩

theorem afterRestore (s : State) (was : Bool) : Spares true false s (s.afterRestore was) :=
  ⟨(State.afterRestore_keeps s was).2.1, fun _ => (State.afterRestore_keeps s was).1, nofun⟩

theorem sectorWrite (s : State) (w : NvmWrite) : Spares true false s (s.sectorWrite w) :=
  ⟨(State.sectorWrite_keeps s w).2.1, fun _ => (State.sectorWrite_keeps s w).1, nofun⟩

theorem keyRefuse (s : State) (slot status : Nat) : Spares st nv s (s.keyRefuse slot status) := (onDev s _).trans (answer ..)

theorem keyReplace (s : State) (pkg key : List Byte) (slot : Nat) (rb : Bool) : Spares true false s (s.keyReplace pkg key slot rb) := by
  unfold State.keyReplace
  extract_lets d none' x y gen rec' image head t usage d2 d3 d4 d5
  have ht : Spares true false s t := ((erase s _ _).trans (program ..)).trans (program ..)
  split
  · exact (ht.trans (dev t _)).trans (answer ..)
  · exact (ht.trans (erase ..)).trans (answer ..)

theorem keyCheck (s : State) (pkg : List Byte) (slot len : Nat) (w rb : Bool) : Spares true false s (s.keyCheck pkg slot len w rb) := by
  unfold State.keyCheck
  extract_lets d x
  split
  · exact keyRefuse ..
  split
  · exact keyRefuse ..
  split
  · exact keyRefuse ..
  split
  · exact (dev s x.2).trans (keyRefuse ..)
  split
  · exact (dev s x.2).trans (keyRefuse ..)
  · exact withNvm ((dev s x.2).trans (keyReplace ..))

theorem stageWrite (s : State) (data : Option (List Byte)) : Spares true false s (s.stageWrite data) := by
  unfold State.stageWrite
  extract_lets d off len again
  split
  · exact answer ..
  split
  · exact answer ..
  split
  · exact answer ..
  split
  · exact answer ..
  split
  · exact (onDev s _).trans (answer ..)
  split
  · exact (onDev s _).trans (answer ..)
  · exact withNvm ((((erase s _ _).trans (program ..)).trans (onDev ..)).trans (answer ..))

theorem newHeader (s : State) (a b : Nat) : Spares true false s (s.newHeader a b) := by
  unfold State.newHeader
  extract_lets k gen h
  exact ((erase s _ _).trans (program ..)).trans (onDev ..)

theorem activation (s : State) : Spares true false s s.activation := by
  unfold State.activation
  extract_lets d t
  split
  · split
    · exact (onDev s _).trans (withNvm (erase ..))
    · exact onDev s _
  · exact onDev s _

theorem stageDone (s : State) (done : Bool) : Spares st nv s (s.stageDone done) := onDev s _

theorem activationEnd (s : State) (copied : Bool) : Spares true false s (s.activationEnd copied) := by
  unfold State.activationEnd
  extract_lets d len img x good s2 t
  have h : Spares true false s s2 := dev s _
  split
  · split
    · exact ((((h.trans (erase ..)).trans (program ..)).trans (newHeader ..)).trans (onDev ..)).trans (stageDone ..)
    · exact ((h.trans (erase ..)).trans (stageDone ..)).trans (onDev ..)
  · split
    · exact (((h.trans (erase ..)).trans (program ..)).trans (newHeader ..)).trans (stageDone ..)
    · exact (h.trans (erase ..)).trans (stageDone ..)

/-! ## Operations that spare both memories -/

theorem stageVerify (s : State) : Spares true true s s.stageVerify := by
  unfold State.stageVerify
  extract_lets len
  split
  · exact answer ..
  · apply withNvm
    extract_lets img type x good t
    split
    · exact ((dev s x.2).trans (onDev ..)).trans (answer ..)
    · exact ((dev s x.2).trans (onDev ..)).trans (answer ..)

theorem chartStart (s : State) : Spares true true s s.chartStart := by
  obtain ⟨d, h⟩ := State.chartStart_same s
  rw [h]
  exact dev s d

/-! ## The frame store's own operations: the NVM is spared -/

theorem dmaMove (s : State) (elem : List Byte) (data : Option (List Byte)) : Spares false true s (s.dmaMove elem data).2.2 := by
  unfold State.dmaMove
  extract_lets a n
  split
  · exact refl s
  split
  · unfold State.dmaIn
    extract_lets bs d
    split
    · exact dev s d
    · exact (dev s d).trans (writeStore ..)
  · exact dev s _

theorem syncLine (s : State) (slot : Nat) (l : LineIn) : Spares false true s (s.syncLine slot l) := by
  unfold State.syncLine
  extract_lets d
  split
  · exact refl s
  · extract_lets u code
    split
    · exact ⟨rfl, nofun, fun _ => rfl⟩
    · exact refl s

/-! ## The Chart loader -/

/-- A record's effect by its OP (Table 16.8): STORE alone writes the frame store; WAIT, STORE and TUNE leave the NVM. -/
theorem recApply (s : State) (r : List Byte) (again : Bool) (hs : leAt r 0 1 = 7 → st = false)
    (hn : leAt r 0 1 ∉ [6, 7, 10] → nv = false) : Spares st nv s (s.recApply r again).2 := by
  unfold State.recApply
  split
  · next h =>
    refine of_nvm ?_ (hs h)
    split
    · exact writeStore ..
    · exact refl s
  · next h7 =>
    by_cases h : leAt r 0 1 = 6 ∨ leAt r 0 1 = 10
    · have hr : (s.dev.recEffect r again).2.restoring = s.dev.restoring := by
        rcases h with h | h <;> simp [Dev.recEffect, h, Dev.tune]
      rw [State.afterRestore_same (s := { s with dev := (s.dev.recEffect r again).2 }) hr]
      exact dev s _
    · refine of_store ((dev s _).trans (afterRestore ..)) (hn ?_)
      simp only [List.mem_cons, List.not_mem_nil, or_false]
      omega

/-- The record that the loader applies is of a wanted OP, and no END or PHASE. -/
theorem op_of_record {d e : Dev} {l here next : Loader} {pos : Nat} {r : List Byte} {want : Nat → Bool}
    (h : d.loadPlan l want = .record e here next pos r) : want (leAt r 0 1) = true ∧ leAt r 0 1 ≠ 0 ∧ leAt r 0 1 ≠ 8 := by
  unfold Dev.loadPlan at h
  split at h
  · exact absurd h nofun
  extract_lets a len b at h
  split at h
  · exact absurd h nofun
  split at h
  · exact absurd h nofun
  unfold Dev.recordPlan at h
  extract_lets pos' r' next' d' at h
  split at h
  · exact absurd h nofun
  · next hw =>
    split at h
    · unfold Dev.endMet at h
      split at h <;> exact absurd h nofun
    · next h0 =>
      split at h
      · unfold Dev.phaseMet at h
        split at h
        · exact absurd h nofun
        split at h <;> exact absurd h nofun
      · next h8 =>
        split at h
        · exact absurd h nofun
        · injection h with _ _ _ _ hr
          subst hr
          exact ⟨by simpa using hw, h0, h8⟩

/-- What the loader's next record spares, by the OPs that are wanted. -/
theorem loadRecord (s : State) {want : Nat → Bool} (hs : want 7 = true → st = false)
    (hn : ∀ op, want op = true → op ∉ [0, 6, 7, 8, 10] → nv = false) : Spares st nv s (s.loadRecord want).2 := by
  unfold State.loadRecord
  split
  · exact refl s
  split
  · exact refl s
  · exact dev s _
  · next d here next pos r h =>
    obtain ⟨hw, h0, h8⟩ := op_of_record h
    refine ((dev s d).trans (recApply _ r here.polled (fun e => hs (e ▸ hw)) fun e => hn _ hw ?_)).trans (onDev ..)
    simp only [List.mem_cons, List.not_mem_nil, or_false] at e ⊢
    omega

theorem loadRun (n : Nat) (s : State) : Spares false false s (s.loadRun n) := ⟨(State.loadRun_keeps n s).1, nofun, nofun⟩

theorem loadAll (s : State) : Spares false false s s.loadAll := ⟨(State.loadAll_keeps s).1, nofun, nofun⟩

end Spares

/-! ## The commands -/

/-- The command answers a next state that spares what is asked. -/
def Ends (st nv : Bool) (i : Instr) (s : State) : Prop := ∃ t, exec i s = .next t ∧ Spares st nv s t

namespace Ends

variable {st nv : Bool} {i : Instr} {s t : State}

/-- A command that changes the block alone. -/
theorem block {d : Dev} (e : exec i s = .next { s with dev := d }) : Ends true true i s := ⟨_, e, Spares.dev s d⟩

theorem bar2Read (o : Fin 0x10000000) (len : Nat) : Ends true true (.bar2Read o len) s := ⟨_, rfl, Spares.dev s _⟩

theorem bar2Write (o : Fin 0x10000000) (bytes : List (Option Byte)) : Ends false true (.bar2Write o bytes) s :=
  ⟨_, rfl, rfl, nofun, fun _ => rfl⟩

theorem eavFound (slot : SlpSlot) : Ends false true (.eavFound slot) s := by
  show ∃ t, execEavFound slot s = .next t ∧ _
  unfold execEavFound
  extract_lets s1 s2
  have h1 : Spares false true s s1 := by
    show Spares false true s (if _ then _ else _)
    split
    · exact .dev s _
    · exact .refl s
  split
  · refine ⟨_, rfl, Spares.trans (t := s2) ?_ (.dev s2 _)⟩
    show Spares false true s (match s1.dev.endingLine slot with | some l => s1.syncLine slot l | none => s1)
    split
    · exact h1.trans (.syncLine ..)
    · exact h1
  · exact ⟨_, rfl, h1⟩

theorem engineFrame (e : Eng) (late : List (Fin 16 × Nat)) : Ends false true (.engineFrame e late) s := by
  show ∃ t, execEngineFrame e late s = .next t ∧ _
  unfold execEngineFrame
  extract_lets d lt fk g d1 next d2 pics
  split
  · split
    · exact ⟨_, rfl, .dev s _⟩
    · exact ⟨_, rfl, rfl, nofun, fun _ => rfl⟩
  · exact ⟨_, rfl, .refl s⟩

theorem matrixTick (n : Nat) (ports : List (Port × List Bool)) (elems : List (Port × List Byte)) :
    Ends false true (.matrixTick n ports elems) s := ⟨_, rfl, rfl, nofun, fun _ => rfl⟩

theorem regionCommit (writes : List (Nat × Word)) : Ends false true (.regionCommit writes) s := by
  show ∃ t, execRegionCommit writes s = .next t ∧ _
  unfold execRegionCommit
  split
  · exact ⟨_, rfl, (Spares.writeStore s _ _).trans (.dev _ _)⟩
  · exact ⟨_, rfl, .refl s⟩

theorem dmaDescriptor (elem : List Byte) (data : Option (List Byte)) : Ends false true (.dmaDescriptor elem data) s := by
  show ∃ t, execDmaDescriptor elem data s = .next t ∧ _
  unfold execDmaDescriptor
  extract_lets d x r job
  split
  · split
    · exact ⟨_, rfl, ((Spares.dev s x.2).trans (.dmaMove ..)).trans (.onDev ..)⟩
    · exact ⟨_, rfl, .dev s x.2⟩
  · exact ⟨_, rfl, .refl s⟩

theorem registerWrite (m : Master) (off : Nat) (v : Word) : Ends false false (.registerWrite m off v) s :=
  ⟨_, rfl, (Spares.onDev s _).trans ⟨(State.afterWrite_keeps _ _).1, nofun, nofun⟩⟩

theorem nvmOwnChange (level writing : Bool) (card : List (Nat × List Byte)) : Ends true false (.nvmOwnChange level writing card) s := by
  refine ⟨_, rfl, ?_⟩
  split
  · exact .refl s
  split
  · exact .onDev s _
  · exact (Spares.onDev s _).trans (.foldl (fun t w => .program t w.1 w.2) card _)

theorem bootHeaderSelect : Ends true true .bootHeaderSelect s := by
  refine ⟨_, rfl, ?_⟩
  split
  · exact .onDev s _
  · exact .onDev s _

theorem firmwareVerifyDone : Ends true true .firmwareVerifyDone s := by
  refine ⟨_, rfl, ?_⟩
  split
  · exact .refl s
  split
  · split
    · exact .onDev s _
    · exact .refl s
  split
  · exact .onDev s _
  · exact .onDev s _

theorem calibrationApply (mv : Nat) : Ends true true (.calibrationApply mv) s := by
  refine ⟨_, rfl, ?_⟩
  split
  · exact .refl s
  split
  · exact .onDev s _
  · exact .onDev s _

/-- A record that is none of STORE: the frame store is spared. -/
theorem chartWrites {want : Nat → Bool} (e : exec i s = .next (s.loadRecord want).2) (h : want 7 = false) : Ends true false i s :=
  ⟨_, e, .loadRecord s (fun k => by rw [h] at k; exact absurd k (by decide)) fun _ _ _ => rfl⟩

/-- WAIT, PHASE, TUNE and END spare both memories. -/
theorem chartSteps {op : Nat} (e : exec i s = .next (s.loadRecord (· == op)).2) (h : op ∈ [0, 6, 8, 10]) : Ends true true i s := by
  refine ⟨_, e, .loadRecord s (fun k => ?_) fun o ho hn => ?_⟩
  · rw [← beq_iff_eq.1 k] at h
    exact absurd h (by decide)
  · rw [beq_iff_eq.1 ho] at hn
    exact absurd ((by decide : ([0, 6, 8, 10] : List Nat) ⊆ [0, 6, 7, 8, 10]) h) hn

theorem chartStore : Ends false true .chartStore s := ⟨_, rfl, .loadRecord s (fun _ => rfl) (by simp)⟩

theorem chartPhaseA (n : Nat) : Ends false false (.chartPhaseA n) s := by
  refine ⟨_, rfl, ?_⟩
  split
  · exact .refl s
  split
  · exact .loadRun n s
  split
  · exact (Spares.chartStart s).of_both.trans (.loadRun n _)
  · exact .refl s

theorem refWaitExpiry : Ends false false .refWaitExpiry s := by
  refine ⟨_, rfl, ?_⟩
  split
  · exact (Spares.onDev s _).trans (.loadAll _)
  · exact .refl s

theorem restoreComplete (verified : Bool) : Ends true false (.restoreComplete verified) s := by
  refine ⟨_, rfl, ?_⟩
  split
  · exact .refl s
  split
  · exact .onDev s _
  · exact ((Spares.erase s _ _).trans (.program ..)).trans (.onDev ..)

theorem bootLoad (data : Option (List Byte)) : Ends true true (.bootLoad data) s := by
  refine ⟨_, rfl, .mbxRun ?_⟩
  extract_lets r target len
  split
  · exact (Spares.dev s _).trans (.answer ..)
  split
  · exact .answer ..
  split
  · exact .answer ..
  · next bs =>
    extract_lets s1 x
    have h1 : Spares true true s s1 := .onDev s _
    split
    · exact h1.trans (.answer ..)
    split
    · exact h1.trans ((Spares.onDev s1 _).trans (.answer ..))
    split
    · exact h1.trans ((Spares.dev s1 _).trans (.answer ..))
    · exact h1.trans ((Spares.dev s1 _).trans (.answer ..))

theorem bootStart : Ends true true .bootStart s := by
  refine ⟨_, rfl, .mbxRun ?_⟩
  extract_lets r
  split
  · exact (Spares.onDev s _).trans (.answer ..)
  · exact (Spares.dev s _).trans (.answer ..)

theorem keyReplace (pkg : Option (List Byte)) (w rb : Bool) : Ends true false (.keyReplace pkg w rb) s := by
  refine ⟨_, rfl, .mbxRun ?_⟩
  split
  · exact .answer ..
  · exact (Spares.onDev s _).trans (.keyCheck ..)

theorem nvmRead : Ends true true .nvmRead s := by
  refine ⟨_, rfl, .mbxRun ?_⟩
  extract_lets off len
  split
  · exact .answer ..
  split
  · exact .answer ..
  · exact .withNvm ((Spares.onDev s _).trans (.answer ..))

theorem activationInstant (w : Bool) : Ends true false (.activationInstant w) s := by
  show ∃ t, execActivationInstant w s = .next t ∧ _
  unfold execActivationInstant
  split
  · exact ⟨_, rfl, .activation s⟩
  · exact ⟨_, rfl, .refl s⟩

theorem activationComplete (copied : Bool) : Ends true false (.activationComplete copied) s := by
  show ∃ t, execActivationComplete copied s = .next t ∧ _
  unfold execActivationComplete
  split
  · exact ⟨_, rfl, .withNvm (.activationEnd s copied)⟩
  · exact ⟨_, rfl, .refl s⟩

theorem sectorWriteDone (w : NvmWrite) : Ends true false (.sectorWriteDone w) s := ⟨_, rfl, (Spares.sectorWrite s w).trans (.onDev ..)⟩

theorem phaseB (n : Nat) : Ends false false (.phaseB n) s := ⟨_, rfl, (Spares.onDev s _).trans (.loadRun _ _)⟩

theorem restoreFactory (w : Bool) : Ends true false (.restoreFactory w) s := ⟨_, rfl, .restoreBegin s w⟩

theorem getInfo : Ends true true .getInfo s := ⟨_, rfl, .mbxRun (.answer ..)⟩

theorem echo : Ends true true .echo s := ⟨_, rfl, .mbxRun (.answer ..)⟩

theorem stageWrite (x : Option (List Byte)) : Ends true false (.stageWrite x) s := ⟨_, rfl, .mbxRun (.stageWrite s x)⟩

theorem stageVerify : Ends true true .stageVerify s := ⟨_, rfl, .mbxRun (.stageVerify s)⟩

theorem activate : Ends true true .activate s := ⟨_, rfl, .mbxRun (.onDev ..)⟩

theorem activateCancel : Ends true true .activateCancel s := ⟨_, rfl, .mbxRun (.onDev ..)⟩

/-- What the statement says of a command: it completes, and what it does not spare it may write. -/
theorem complete {S N : Prop} (h : Ends st nv i s) (hs : st = false → S) (hn : nv = false → N) :
    ∃ t, exec i s = .next t ∧ t.pending = s.pending ∧ (t.store ≠ s.store → S) ∧ (t.nvm ≠ s.nvm → N) := by
  obtain ⟨t, e, hp, ht, hv⟩ := h
  refine ⟨t, e, hp, fun c => hs ?_, fun c => hn ?_⟩
  · cases st
    · rfl
    · exact absurd (ht rfl) c
  · cases nv
    · rfl
    · exact absurd (hv rfl) c

end Ends

/-- Settles O54: the commands that are more than a change of the block, one by one, with what they spare of the two memories. -/
theorem commandsComplete : Obligations.CommandsComplete := by
  intro i s
  cases i with
  | bar2Read o len => exact (Ends.bar2Read o len).complete nofun nofun
  | bar2Write o b => exact (Ends.bar2Write o b).complete (fun _ => by simp) nofun
  | eavFound o => exact (Ends.eavFound o).complete (fun _ => by simp) nofun
  | engineFrame e f => exact (Ends.engineFrame e f).complete (fun _ => by simp) nofun
  | matrixTick n p e => exact (Ends.matrixTick n p e).complete (fun _ => by simp) nofun
  | regionCommit w => exact (Ends.regionCommit w).complete (fun _ => by simp) nofun
  | dmaDescriptor e x => exact (Ends.dmaDescriptor e x).complete (fun _ => by simp) nofun
  | registerWrite m o v => exact (Ends.registerWrite m o v).complete (fun _ => by simp) (fun _ => by simp)
  | nvmOwnChange l w c => exact (Ends.nvmOwnChange l w c).complete nofun (fun _ => by simp)
  | sectorWriteDone w => exact (Ends.sectorWriteDone w).complete nofun (fun _ => by simp)
  | bootHeaderSelect => exact Ends.bootHeaderSelect.complete nofun nofun
  | firmwareVerifyDone => exact Ends.firmwareVerifyDone.complete nofun nofun
  | calibrationApply mv => exact (Ends.calibrationApply mv).complete nofun nofun
  | chartPhaseA n => exact (Ends.chartPhaseA n).complete (fun _ => by simp) (fun _ => by simp)
  | chartWrite => exact (Ends.chartWrites rfl rfl).complete nofun (fun _ => by simp)
  | chartWriteSeq => exact (Ends.chartWrites rfl rfl).complete nofun (fun _ => by simp)
  | chartWriteFifo => exact (Ends.chartWrites rfl rfl).complete nofun (fun _ => by simp)
  | chartModify => exact (Ends.chartWrites rfl rfl).complete nofun (fun _ => by simp)
  | chartPoll => exact (Ends.chartWrites rfl rfl).complete nofun (fun _ => by simp)
  | chartWait => exact (Ends.chartSteps rfl (by decide)).complete nofun nofun
  | chartStore => exact Ends.chartStore.complete (fun _ => by simp) nofun
  | chartPhase => exact (Ends.chartSteps rfl (by decide)).complete nofun nofun
  | chartTune => exact (Ends.chartSteps rfl (by decide)).complete nofun nofun
  | chartEnd => exact (Ends.chartSteps rfl (by decide)).complete nofun nofun
  | refWaitExpiry => exact Ends.refWaitExpiry.complete (fun _ => by simp) (fun _ => by simp)
  | phaseB n => exact (Ends.phaseB n).complete (fun _ => by simp) (fun _ => by simp)
  | restoreFactory w => exact (Ends.restoreFactory w).complete nofun (fun _ => by simp)
  | restoreComplete v => exact (Ends.restoreComplete v).complete nofun (fun _ => by simp)
  | getInfo => exact Ends.getInfo.complete nofun nofun
  | echo => exact Ends.echo.complete nofun nofun
  | bootLoad x => exact (Ends.bootLoad x).complete nofun nofun
  | bootStart => exact Ends.bootStart.complete nofun nofun
  | stageWrite x => exact (Ends.stageWrite x).complete nofun (fun _ => by simp)
  | stageVerify => exact Ends.stageVerify.complete nofun nofun
  | activate => exact Ends.activate.complete nofun nofun
  | activateCancel => exact Ends.activateCancel.complete nofun nofun
  | keyReplace p w b => exact (Ends.keyReplace p w b).complete nofun (fun _ => by simp)
  | nvmRead => exact Ends.nvmRead.complete nofun nofun
  | activationInstant w => exact (Ends.activationInstant w).complete nofun (fun _ => by simp)
  | activationComplete c => exact (Ends.activationComplete c).complete nofun (fun _ => by simp)
  | _ => exact (Ends.block rfl).complete nofun nofun

end Sys2Proof.Machine
end

section
/-!
Proofs, messages and queue elements: what a vector's message, an element of a general queue and its notification change beside the
registers of their own windows (R209 to R211, R434, R436).
-/

namespace Sys2Proof.Machine

/-- Registers from `lo` up to `hi` read as before, and nothing else differs but what counts, messages, notifications and pulsed faults
change. -/
def Notes (lo hi : Nat) (d e : Dev) : Prop :=
  SameRegs lo hi d e ∧
    ∃ r b s m q f, e = { d with regs := r, bwAcc := b, sent := s, msixDefer := m, qSince := q, rising := f }

namespace Notes

variable {lo hi : Nat} {d e f : Dev}

theorem refl (lo hi : Nat) (d : Dev) : Notes lo hi d d := ⟨.refl lo hi d, _, _, _, _, _, _, rfl⟩

theorem trans (h : Notes lo hi d e) (k : Notes lo hi e f) : Notes lo hi d f := by
  obtain ⟨hs, _, _, _, _, _, _, rfl⟩ := h
  obtain ⟨ks, r, b, s, m, q, x, rfl⟩ := k
  exact ⟨hs.trans ks, r, b, s, m, q, x, rfl⟩

theorem when (b : Bool) (g : Dev → Dev) (h : Notes lo hi d (g d)) : Notes lo hi d (d.when b g) := by
  cases b
  · exact refl lo hi d
  · exact h

theorem foldl {α : Type} (g : Dev → α → Dev) (h : ∀ d x, Notes lo hi d (g d x)) (l : List α) : ∀ d, Notes lo hi d (l.foldl g d) := by
  induction l with
  | nil => exact refl lo hi
  | cons x l ih => exact fun d => (h d x).trans (ih _)

/-- A change of registers outside the window alone. -/
theorem of_only (h : OnlyRegs d e) (k : SameRegs lo hi d e) : Notes lo hi d e := by
  obtain ⟨r, rfl⟩ := h
  exact ⟨k, r, _, _, _, _, _, rfl⟩

theorem set (d : Dev) (x : Fld) (v ch : Nat) (h : x.off < lo ∨ hi ≤ x.off) : Notes lo hi d (d.set x v ch) :=
  of_only (.set ..) (.set _ _ _ _ h)

theorem put (d : Dev) (x : Fld) (b : Bool) (ch : Nat) (h : x.off < lo ∨ hi ≤ x.off) : Notes lo hi d (d.put x b ch) := set _ _ _ _ h

theorem raise (d : Dev) (x : Fld) (ch : Nat) (h : x.off < lo ∨ hi ≤ x.off) : Notes lo hi d (d.raise x ch) := set _ _ _ _ h

theorem raiseIf (d : Dev) (b : Bool) (x : Fld) (ch : Nat) (h : x.off < lo ∨ hi ≤ x.off) : Notes lo hi d (d.raiseIf b x ch) := by
  cases b
  · exact refl lo hi d
  · exact raise _ _ _ h

theorem count (d : Dev) (x : Fld) (n ch : Nat) (h : x.off < lo ∨ hi ≤ x.off) : Notes lo hi d (d.count x n ch) := set _ _ _ _ h

theorem pulseFault (d : Dev) (x : FaultAt) : Notes lo hi d (d.pulseFault x) := ⟨.of_regs rfl, _, _, _, _, _, _, rfl⟩

theorem emit (d : Dev) (x : Emission) : Notes lo hi d (d.emit x) := ⟨.of_regs rfl, _, _, _, _, _, _, rfl⟩

theorem bwAdd (d : Dev) (i n : Nat) : Notes lo hi d (d.bwAdd i n) := by
  obtain ⟨b, h⟩ := d.bwAdd_eq i n
  exact ⟨.bwAdd d i n, _, b, _, _, _, _, h⟩

/-! ## Messages (R434, R436) -/

section
variable (hl : 0x00090110 < lo ∨ hi ≤ 0x00090000)
include hl

theorem logAdd (d : Dev) (i n : Nat) : Notes lo hi d (d.logAdd i n) := of_only (.logAdd ..) (.logAdd _ _ _ hl)

variable (hp : hi ≤ 0x00C08800)
include hp

/-- A message is counted and sent, or sets a bit of the PBA. -/
theorem sendMsix (d : Dev) (v : Nat) : Notes lo hi d (d.sendMsix v) := by
  unfold Dev.sendMsix
  extract_lets base masked
  split
  · exact set _ _ _ _ (.inr (by simp only []; omega))
  · exact ((logAdd hl _ _ _).trans (bwAdd ..)).trans (emit ..)

theorem triggerVec (d : Dev) (v : Nat) : Notes lo hi d (d.triggerVec v) := by
  unfold Dev.triggerVec
  split
  · exact ⟨.of_regs rfl, _, _, _, _, _, _, rfl⟩
  · exact sendMsix hl hp d v

/-- The messages that waited leave. -/
theorem deferredVecs (d : Dev) : Notes lo hi d d.deferredVecs := by
  have h : Notes lo hi d { d with msixDefer := 0 } := ⟨.of_regs rfl, _, _, _, _, _, _, rfl⟩
  exact h.trans (foldl _ (fun d i => sendMsix hl hp d i) _ _)

/-! ## Elements of general queues (R209 to R211) -/

theorem qDue (d : Dev) (q : Nat) : Notes lo hi d (d.qDue q) := by
  unfold Dev.qDue
  split
  · exact trans ⟨.of_regs rfl, _, _, _, _, _, _, rfl⟩ (triggerVec hl hp _ _)
  · exact refl lo hi d

theorem qNotify (d : Dev) (q : Nat) : Notes lo hi d (d.qNotify q) :=
  trans ⟨.of_regs rfl, _, _, _, _, _, _, rfl⟩ (qDue hl hp _ _)

omit hl hp in
theorem qWriteBack (d : Dev) (q i : Nat) : Notes lo hi d (d.qWriteBack q i) := by
  refine when _ _ ?_
  unfold Dev.qWrite
  split
  · exact emit ..
  · exact (bwAdd ..).trans (emit ..)

variable (hq : hi ≤ 0x00600000 ∨ 0x00700000 ≤ lo)
include hq

omit hl hp in
/-- Registers of QM lie outside the window. -/
theorem qm_outside {x : Fld} (h : 0x00600000 ≤ x.off ∧ x.off < 0x00700000) : x.off < lo ∨ hi ≤ x.off := by omega

omit hl hp in
theorem qRef (d : Dev) : Notes lo hi d d.qRef := (raise _ _ _ (qm_outside hq (by decide))).trans (pulseFault ..)

omit hl hp in
theorem qStatus (d : Dev) (q : Nat) : Notes lo hi d (d.qStatus q) :=
  ((set _ _ _ _ (qm_outside hq (by decide))).trans (put _ _ _ _ (qm_outside hq (by decide)))).trans
    (set _ _ _ _ (qm_outside hq (by decide)))

/-- What follows the move of an index: the status, the write-back and the notification. -/
theorem qMoved (d : Dev) (x : Fld) (v q i : Nat) (h : 0x00600000 ≤ x.off ∧ x.off < 0x00700000) :
    Notes lo hi d ((((d.set x v q).qStatus q).qWriteBack q i).qNotify q) :=
  (((set _ _ _ _ (qm_outside hq h)).trans (qStatus hq _ _)).trans (qWriteBack ..)).trans (qNotify hl hp _ _)

theorem qProduce (d : Dev) (q : Nat) (bs : List Byte) : Notes lo hi d (d.qProduce q bs).2 := by
  have hw (e : Dev) (a : Nat) : Notes lo hi e (e.qWrite q a bs) := by
    unfold Dev.qWrite
    split
    · exact emit ..
    · exact (bwAdd ..).trans (emit ..)
  unfold Dev.qProduce
  split
  · split
    · exact count _ _ _ _ (qm_outside hq (by decide))
    · exact (hw _ _).trans (qMoved hl hp hq _ _ _ _ _ (by decide))
  · exact qRef hq d

theorem qConsume (d : Dev) (q size : Nat) : Notes lo hi d (d.qConsume q size).2 := by
  unfold Dev.qConsume
  split
  · split
    · exact refl lo hi d
    · exact (when _ _ (bwAdd ..)).trans (qMoved hl hp hq _ _ _ _ _ (by decide))
  · exact qRef hq d

end

/-! ## What such a change leaves alone -/

theorem get_act (h : Notes lo hi d e) : e.act = d.act := by obtain ⟨-, _, _, _, _, _, _, rfl⟩ := h; rfl
theorem get_outs (h : Notes lo hi d e) : e.outs = d.outs := by obtain ⟨-, _, _, _, _, _, _, rfl⟩ := h; rfl
theorem get_takes (h : Notes lo hi d e) : e.takes = d.takes := by obtain ⟨-, _, _, _, _, _, _, rfl⟩ := h; rfl
theorem get_takesLost (h : Notes lo hi d e) : e.takesLost = d.takesLost := by obtain ⟨-, _, _, _, _, _, _, rfl⟩ := h; rfl
theorem get_restarting (h : Notes lo hi d e) : e.restarting = d.restarting := by obtain ⟨-, _, _, _, _, _, _, rfl⟩ := h; rfl

/-- A field of the window reads as before. -/
theorem get (h : Notes lo hi d e) (x : Fld) (ch : Nat) (a : lo ≤ x.off) (b : x.off < hi) : e.get x ch = d.get x ch := h.1.get x ch a b

end Notes

end Sys2Proof.Machine
end

section
/-!
Proofs, the control side, the host interface and the resets of the device (chapters 17 and 21): what a reset of registers leaves, what
each of the operations leaves beside the registers, and the commands.
-/

namespace Sys2Proof.Machine

namespace Dev

/-! ## Registers at their reset words -/

theorem reg_resetReg_self (d : Dev) (off ch : Nat) : (d.resetReg off ch).reg off ch = resetWord off ch := by
  simp [reg, resetReg, mapGet, mapFind_mapDel_self]

theorem reg_resetReg_ne (d : Dev) {off ch off' ch' : Nat} (h : off' ≠ off ∨ ch' ≠ ch) :
    (d.resetReg off ch).reg off' ch' = d.reg off' ch' := by
  have hk : (off', ch') ≠ (off, ch) := fun e => h.elim (· (Prod.mk.inj e).1) (· (Prod.mk.inj e).2)
  simp only [reg, resetReg, mapGet, mapFind_mapDel_ne hk]

/-- Registers that are reset together read their reset words, and every other one reads as before. -/
theorem reg_resetRegs (offs : List Nat) (ch off' ch' : Nat) : ∀ d : Dev,
    (d.resetRegs offs ch).reg off' ch' = if off' ∈ offs ∧ ch' = ch then resetWord off' ch' else d.reg off' ch' := by
  induction offs with
  | nil => intro d; simp [resetRegs]
  | cons o offs ih =>
    intro d
    have e : d.resetRegs (o :: offs) ch = (d.resetReg o ch).resetRegs offs ch := rfl
    rw [e, ih]
    by_cases hm : off' ∈ offs ∧ ch' = ch
    · simp [hm]
    · rw [if_neg hm]
      by_cases ho : off' = o ∧ ch' = ch
      · obtain ⟨rfl, rfl⟩ := ho
        simp [reg_resetReg_self]
      · rw [reg_resetReg_ne d (by omega), if_neg]
        rw [List.mem_cons]
        tauto

theorem reg_resetRegs_in {offs : List Nat} {off : Nat} (d : Dev) (ch : Nat) (h : off ∈ offs) :
    (d.resetRegs offs ch).reg off ch = resetWord off ch := by
  rw [reg_resetRegs, if_pos ⟨h, rfl⟩]

theorem resetRegs_kept (d : Dev) (offs : List Nat) (ch : Nat) : OffsKept d (d.resetRegs offs ch) offs := fun off ch' h => by
  rw [reg_resetRegs, if_neg fun e => h e.1]

/-- A field that reads 0, and is 0 after reset, reads 0 still. -/
theorem get_resetRegs_zero {d : Dev} (offs : List Nat) {f : Fld} (ch : Nat) {ch' : Nat}
    (hr : bitsOf (resetWord f.off ch') f.lo f.w = 0) (h : d.get f ch' = 0) : (d.resetRegs offs ch).get f ch' = 0 := by
  unfold get
  rw [reg_resetRegs]
  split
  · exact hr
  · exact h

end Dev

/-- Nothing but registers, active copies and holding registers differs. -/
def OnlyCopies (d e : Dev) : Prop := ∃ r a h, e = { d with regs := r, act := a, hold := h }

namespace OnlyCopies

variable {d e f : Dev}

theorem trans (h : OnlyCopies d e) (k : OnlyCopies e f) : OnlyCopies d f := by
  obtain ⟨_, _, _, rfl⟩ := h
  obtain ⟨r, a, x, rfl⟩ := k
  exact ⟨r, a, x, rfl⟩

theorem of_only (h : OnlyRegs d e) : OnlyCopies d e := by
  obtain ⟨r, rfl⟩ := h
  exact ⟨r, _, _, rfl⟩

theorem resetRegs (offs : List Nat) (ch : Nat) : ∀ d : Dev, OnlyCopies d (d.resetRegs offs ch) := by
  induction offs with
  | nil => exact fun d => ⟨_, _, _, rfl⟩
  | cons o offs ih => exact fun d => trans (e := d.resetReg o ch) ⟨_, _, _, rfl⟩ (ih _)

theorem get_dmaFly (h : OnlyCopies d e) : e.dmaFly = d.dmaFly := by obtain ⟨_, _, _, rfl⟩ := h; rfl
theorem get_rising (h : OnlyCopies d e) : e.rising = d.rising := by obtain ⟨_, _, _, rfl⟩ := h; rfl

end OnlyCopies

/-- The salvos, what is submitted and the takes lost stand as they were. -/
structure SameEntries (d e : Dev) : Prop where
  salvos : e.salvos = d.salvos
  submitted : e.submitted = d.submitted
  lost : e.takesLost = d.takesLost

namespace SameEntries

variable {d e f : Dev}

theorem trans (h : SameEntries d e) (k : SameEntries e f) : SameEntries d f :=
  ⟨k.salvos.trans h.salvos, k.submitted.trans h.submitted, k.lost.trans h.lost⟩

theorem of_copies (h : OnlyCopies d e) : SameEntries d e := by
  obtain ⟨_, _, _, rfl⟩ := h
  exact ⟨rfl, rfl, rfl⟩

end SameEntries

namespace Dev

/-! ## The copies of a bus master and the DMA engine (R433, R447) -/

/-- The registers of which each bus master has its own copy. -/
def masterOffs : List Nat := selOffsets ++ [0x00C01010, 0x00C01014, 0x00C01018, 0x00C0101C, 0x00C01024]

/-- The holding registers of a master given up. -/
def dropHold (d : Dev) (m : Nat) : Dev := { d with hold := d.hold.filter fun e => e.1.1 != m }

theorem dropHold_get (d : Dev) (m : Nat) (f : Fld) (ch : Nat) : (d.dropHold m).get f ch = d.get f ch := (rfl)

theorem dropHold_regs (d : Dev) (m : Nat) : (d.dropHold m).regs = d.regs := (rfl)
theorem dropHold_only (d : Dev) (m : Nat) : OnlyCopies d (d.dropHold m) := ⟨_, _, _, rfl⟩

theorem masterReset_eq_dropHold (d : Dev) (m : Master) : d.masterReset m = (d.resetRegs masterOffs m.code).dropHold m.code := by
  simp only [masterReset, dropHold, masterOffs]

theorem masterReset_kept (d : Dev) (m : Master) : OffsKept d (d.masterReset m) masterOffs := by
  rw [masterReset_eq_dropHold]
  exact (d.resetRegs_kept _ _).trans (.of_regs (dropHold_regs _ _))

theorem masterReset_only (d : Dev) (m : Master) : OnlyCopies d (d.masterReset m) := by
  rw [masterReset_eq_dropHold]
  exact (OnlyCopies.resetRegs _ _ d).trans (dropHold_only _ _)

theorem get_masterReset_zero {d : Dev} (m : Master) {f : Fld} {ch : Nat} (hr : bitsOf (resetWord f.off ch) f.lo f.w = 0)
    (h : d.get f ch = 0) : (d.masterReset m).get f ch = 0 := by
  rw [masterReset_eq_dropHold, dropHold_get]
  exact get_resetRegs_zero _ _ hr h

/-- A master's own copy reads its reset word. -/
theorem get_masterReset_own (d : Dev) (m : Master) {f : Fld} (h : f.off ∈ masterOffs) :
    (d.masterReset m).get f m.code = bitsOf (resetWord f.off m.code) f.lo f.w := by
  rw [masterReset_eq_dropHold, dropHold_get, get, reg_resetRegs_in d _ h]

/-- The two registers of the DMA engine that its reset clears. -/
def dmaOffs : List Nat := [0x00C02000, 0x00C02004]

/-- The descriptors in flight given up. -/
def dropFly (d : Dev) : Dev := { d with dmaFly := [] }

theorem dropFly_get (d : Dev) (f : Fld) (ch : Nat) : d.dropFly.get f ch = d.get f ch := (rfl)
theorem dropFly_regs (d : Dev) : d.dropFly.regs = d.regs := (rfl)
theorem dropFly_same (d : Dev) : SameEntries d d.dropFly := ⟨rfl, rfl, rfl⟩
theorem dropFly_dmaFly (d : Dev) : d.dropFly.dmaFly = [] := (rfl)

theorem dmaReset_eq_dropFly (d : Dev) : d.dmaReset = (d.resetRegs dmaOffs).dropFly := by simp only [dmaReset, dropFly, dmaOffs]

theorem dmaReset_kept (d : Dev) : OffsKept d d.dmaReset dmaOffs := by
  rw [dmaReset_eq_dropFly]
  exact (d.resetRegs_kept _ _).trans (.of_regs (dropFly_regs _))

/-- The DMA engine stops. -/
theorem dmaReset_en (d : Dev) : d.dmaReset.get HIF.DMA_CTL_EN = 0 := by
  rw [dmaReset_eq_dropFly, dropFly_get, get, reg_resetRegs_in d _ (by decide)]
  decide

theorem dmaReset_dmaFly (d : Dev) : d.dmaReset.dmaFly = [] := by
  rw [dmaReset_eq_dropFly, dropFly_dmaFly]

theorem dmaReset_same (d : Dev) : SameEntries d d.dmaReset := by
  rw [dmaReset_eq_dropFly]
  exact (SameEntries.of_copies (.resetRegs _ _ d)).trans (dropFly_same _)

/-! ## The control side goes down (R36, R135, R444) -/

/-- A field cleared in listed instances, one by one, reads 0 there. -/
theorem get_foldl_set_zero {f : Fld} (hf : f.lo + f.w ≤ 32) {ch : Nat} (l : List Nat) : ∀ d : Dev, ch ∈ l ∨ d.get f ch = 0 →
    (l.foldl (fun d m => d.set f 0 m) d).get f ch = 0 := by
  induction l with
  | nil => intro d h; exact h.resolve_left List.not_mem_nil
  | cons m l ih =>
    intro d h
    refine ih _ ?_
    by_cases hm : ch = m
    · exact .inr (by rw [hm, get_set_self _ _ _ _ hf, Nat.zero_mod])
    · rw [get_set_reg _ _ _ _ _ _ (.inr hm)]
      exact h.imp (fun k => (List.mem_cons.1 k).resolve_left hm) id

theorem foldl_setTakes_lost (l : List Nat) : ∀ d : Dev, (l.foldl (fun d o => d.setTakes o []) d).takesLost = d.takesLost := by
  induction l with
  | nil => exact fun _ => rfl
  | cons o l ih => exact fun d => ih (d.setTakes o [])

/-- The block with no pending take, no salvo and nothing submitted. -/
def dropEntries (d : Dev) : Dev := { d with salvos := [], submitted := [], takeMsgs := [] }

/-- Every master's submission is over. -/
def busyDown (d : Dev) : Dev := [0, 1, 2, 3, 4, 5].foldl (fun d m => d.set HIF.TK_RES_BUSY 0 m) d

theorem busyDown_only (d : Dev) : OnlyRegs d d.busyDown := OnlyRegs.foldl _ (fun _ _ => .set _ _ _ _) _ _

/-- The takes that are pending are counted as lost (R135). -/
def countLost (d : Dev) : Dev := { d with takesLost := d.takesLost + d.takesCount fun _ _ => true }

theorem takesDiscard_eq_dropEntries (d : Dev) :
    d.takesDiscard = ((d.countLost.takeOuts.foldl (fun d o => d.setTakes o []) d.countLost).busyDown).dropEntries := by
  simp only [takesDiscard, busyDown, countLost, dropEntries]

theorem takesDiscard_salvos (d : Dev) : d.takesDiscard.salvos = [] := by rw [takesDiscard_eq_dropEntries]; rfl

theorem takesDiscard_submitted (d : Dev) : d.takesDiscard.submitted = [] := by rw [takesDiscard_eq_dropEntries]; rfl

/-- Every pending take is counted as lost. -/
theorem takesDiscard_takesLost (d : Dev) : d.takesDiscard.takesLost = d.takesLost + d.takesCount fun _ _ => true := by
  rw [takesDiscard_eq_dropEntries, dropEntries, (busyDown_only _).get_takesLost, foldl_setTakes_lost, countLost]

/-- No master's submission stays busy. -/
theorem takesDiscard_busy (d : Dev) {m : Nat} (h : m < 6) : d.takesDiscard.get HIF.TK_RES_BUSY m = 0 := by
  have hm : m ∈ [0, 1, 2, 3, 4, 5] := List.mem_range.2 h
  rw [takesDiscard_eq_dropEntries]
  exact get_foldl_set_zero (f := HIF.TK_RES_BUSY) (by decide) _ _ (.inl hm)

/-- A scheduled activation that the fall of the control side comes before (R464). -/
def actLost (d : Dev) : Dev := d.when (d.get KEY.STAT_STAGE == 3) fun d => (d.set KEY.STAT_ACT_RESULT 3).raise KEY.EVT_STAT_ACT_LOST

/-- The staging registers that start over (R461). -/
def stageOffs : List Nat := [0x00050014, 0x00050018, 0x0005001C, 0x00050020]

/-- The staged image given up. -/
def dropStage (d : Dev) : Dev := { d with stageLast := none, stageType := 0 }

theorem dropStage_get (d : Dev) (f : Fld) (ch : Nat) : d.dropStage.get f ch = d.get f ch := (rfl)
theorem dropStage_regs (d : Dev) : d.dropStage.regs = d.regs := (rfl)
theorem dropStage_same (d : Dev) : SameEntries d d.dropStage := ⟨rfl, rfl, rfl⟩

theorem stageReset_eq_dropStage (d : Dev) : d.stageReset = ((d.actLost.set KEY.STAT_STAGE 1).resetRegs stageOffs).dropStage := by
  simp only [stageReset, dropStage, stageOffs, actLost]

/-- Staging starts over. -/
theorem stageReset_stage (d : Dev) : d.stageReset.get KEY.STAT_STAGE = 1 := by
  rw [stageReset_eq_dropStage, dropStage_get, (resetRegs_kept _ _ _).field _ _ (by decide), get_set_self _ _ _ _ (by decide)]
  rfl

/-- The registers of the staging area, its status and its event are all that its reset changes. -/
theorem stageReset_kept (d : Dev) : OffsKept d d.stageReset (0x00050004 :: 0x00050008 :: stageOffs) := by
  have ha : OffsKept d d.actLost (0x00050004 :: 0x00050008 :: stageOffs) := by
    unfold actLost
    cases d.get KEY.STAT_STAGE == 3
    · exact .refl _ _
    · exact (OffsKept.set _ _ _ _ (by decide)).trans (.set _ _ _ _ (by decide))
  rw [stageReset_eq_dropStage]
  exact ((ha.trans (.set _ _ _ _ (by decide))).trans ((resetRegs_kept _ _ _).mono (by decide))).trans (.of_regs (dropStage_regs _))

theorem stageReset_same (d : Dev) : SameEntries d d.stageReset := by
  have hs : OnlyRegs d (d.actLost.set KEY.STAT_STAGE 1) :=
    (OnlyRegs.when _ _ _ ((OnlyRegs.set _ _ _ _).trans (.raise _ _ _))).trans (.set _ _ _ _)
  rw [stageReset_eq_dropStage]
  exact (SameEntries.of_copies ((OnlyCopies.of_only hs).trans (.resetRegs _ _ _))).trans (dropStage_same _)

/-- The mailbox registers that the fall of the control side resets. -/
def mbxOffs : List Nat := [0x00060000, 0x0006000C, 0x00060010] ++ (List.range 16).map fun k => 0x00060140 + 4 * k

/-- The mailbox and the copies of the control side's masters are reset, and the control side shows as down. -/
def mastersDown (d : Dev) : Dev := (((d.resetRegs mbxOffs).masterReset .core).masterReset .dma).masterReset .consort

/-- The control side shows as down. -/
def showDown (d : Dev) : Dev := (d.put HIF.STAT_CTRL_UP false).put CON.STAT_CTRL false

/-- What waits for the firmware given up. -/
def agentsDown (d : Dev) : Dev :=
  { d with restarting := true, mbxLost := d.mbxLost || !d.mbxReqs.isEmpty || !d.mbxRsps.isEmpty, mbxReqs := [], mbxRsps := [],
           loader := none, restoring := false }

theorem agentsDown_get (d : Dev) (f : Fld) (ch : Nat) : d.agentsDown.get f ch = d.get f ch := (rfl)
theorem agentsDown_same (d : Dev) : SameEntries d d.agentsDown := ⟨rfl, rfl, rfl⟩
theorem agentsDown_dmaFly (d : Dev) : d.agentsDown.dmaFly = d.dmaFly := (rfl)

/-- The control side restarts, and no message waits. -/
theorem agentsDown_mailbox (d : Dev) :
    d.agentsDown.restarting = true ∧ d.agentsDown.mbxReqs = [] ∧ d.agentsDown.mbxRsps = [] := ⟨rfl, rfl, rfl⟩

theorem ctlDown_eq_agentsDown (d : Dev) :
    d.ctlDown = d.takesDiscard.stageReset.dmaReset.mastersDown.showDown.agentsDown := by
  simp only [ctlDown, agentsDown, mastersDown, mbxOffs, showDown]

theorem mastersDown_kept (d : Dev) : OffsKept d d.mastersDown (mbxOffs ++ masterOffs) := by
  have hm (e : Dev) (m : Master) : OffsKept e (e.masterReset m) (mbxOffs ++ masterOffs) :=
    (e.masterReset_kept m).mono fun _ => List.mem_append_right _
  exact ((((d.resetRegs_kept _ _).mono fun _ => List.mem_append_left _).trans (hm _ _)).trans (hm _ _)).trans (hm _ _)

theorem mastersDown_only (d : Dev) : OnlyCopies d d.mastersDown :=
  (((OnlyCopies.resetRegs _ _ d).trans (masterReset_only _ _)).trans (masterReset_only _ _)).trans (masterReset_only _ _)

theorem mastersDown_zero {d : Dev} {f : Fld} {ch : Nat} (hr : bitsOf (resetWord f.off ch) f.lo f.w = 0) (h : d.get f ch = 0) :
    d.mastersDown.get f ch = 0 :=
  get_masterReset_zero _ hr (get_masterReset_zero _ hr (get_masterReset_zero _ hr (get_resetRegs_zero _ _ hr h)))

/-- The firmware's own select copies are reset. -/
theorem mastersDown_core (d : Dev) {f : Fld} (h : f.off ∈ masterOffs) (hr : bitsOf (resetWord f.off Master.core.code) f.lo f.w = 0) :
    d.mastersDown.get f Master.core.code = 0 :=
  get_masterReset_zero _ hr (get_masterReset_zero _ hr ((get_masterReset_own _ _ h).trans hr))

theorem showDown_kept (d : Dev) : OffsKept d d.showDown [0x00C00000, 0x00B00008] :=
  (OffsKept.set _ _ _ _ (by decide)).trans (.set _ _ _ _ (by decide))

theorem showDown_only (d : Dev) : OnlyRegs d d.showDown := (OnlyRegs.put _ _ _ _).trans (.put _ _ _ _)

/-- The control side is down, for the host and for Consort. -/
theorem showDown_status (d : Dev) : d.showDown.get HIF.STAT_CTRL_UP = 0 ∧ d.showDown.get CON.STAT_CTRL = 0 := by
  constructor <;> simp (disch := decide) only [showDown, put_eq, get_set_off, get_set_self] <;> rfl

/-- Behind the discarded takes the fall of the control side leaves the take engine's lists alone. -/
theorem ctlDown_same (d : Dev) : SameEntries d.takesDiscard d.ctlDown := by
  rw [ctlDown_eq_agentsDown]
  exact ((((stageReset_same _).trans (dmaReset_same _)).trans (.of_copies (mastersDown_only _))).trans
    (.of_copies (.of_only (showDown_only _)))).trans (agentsDown_same _)

theorem ctlDown_dmaFly (d : Dev) : d.ctlDown.dmaFly = [] := by
  rw [ctlDown_eq_agentsDown, agentsDown_dmaFly, (showDown_only _).get_dmaFly, (mastersDown_only _).get_dmaFly, dmaReset_dmaFly]

end Dev

/-- CONTROL_SIDE_DOWN. -/
theorem runsTo_controlSideDown (s : State) : RunsTo .controlSideDown s fun d =>
    d.restarting = true ∧ d.get HIF.STAT_CTRL_UP = 0 ∧ d.get CON.STAT_CTRL = 0 ∧
      d.salvos = [] ∧ d.submitted = [] ∧ d.mbxReqs = [] ∧ d.mbxRsps = [] ∧ d.dmaFly = [] ∧ d.get HIF.DMA_CTL_EN = 0 ∧
      (∀ m < 6, d.get HIF.TK_RES_BUSY m = 0) ∧ d.get KEY.STAT_STAGE = 1 ∧ d.get XP.OUT_SEL_SEL Master.core.code = 0 ∧
      d.takesLost = s.dev.takesLost + s.dev.takesCount fun _ _ => true := by
  have hsame := s.dev.ctlDown_same
  have hdown := s.dev.ctlDown_eq_agentsDown
  obtain ⟨hrestart, hreqs, hrsps⟩ := s.dev.takesDiscard.stageReset.dmaReset.mastersDown.showDown.agentsDown_mailbox
  have hbusy : ∀ m < 6, bitsOf (resetWord 0x00C01024 m) 8 1 = 0 := by decide
  refine runsTo_go (f := Dev.ctlDown) rfl rfl ⟨hdown ▸ hrestart, ?_, ?_, hsame.salvos.trans (Dev.takesDiscard_salvos _),
    hsame.submitted.trans (Dev.takesDiscard_submitted _), hdown ▸ hreqs, hdown ▸ hrsps, Dev.ctlDown_dmaFly _, ?_, fun m hm => ?_,
    ?_, ?_, hsame.lost.trans (Dev.takesDiscard_takesLost _)⟩
  all_goals rw [hdown, Dev.agentsDown_get]
  · exact (Dev.showDown_status _).1
  · exact (Dev.showDown_status _).2
  all_goals rw [(Dev.showDown_kept _).field _ _ (by decide)]
  · rw [(Dev.mastersDown_kept _).field _ _ (by decide)]
    exact Dev.dmaReset_en _
  · refine Dev.mastersDown_zero (hbusy m hm) ?_
    rw [(Dev.dmaReset_kept _).field _ _ (by decide), (Dev.stageReset_kept _).field _ _ (by decide)]
    exact Dev.takesDiscard_busy _ hm
  · rw [(Dev.mastersDown_kept _).field _ _ (by decide), (Dev.dmaReset_kept _).field _ _ (by decide)]
    exact Dev.stageReset_stage _
  · exact Dev.mastersDown_core _ (by decide) (by decide)

end Sys2Proof.Machine
end

section
/-!
Proofs, the control side comes up (R36, R135, R434, R444).
-/

namespace Sys2Proof.Machine

namespace Dev

/-- The control side no longer restarts. -/
def restarted (d : Dev) : Dev := { d with restarting := false, actRestart := false }

/-- The control side shows as up, and its firmware as running. -/
def showUp (d : Dev) : Dev :=
  ((((d.put HIF.STAT_CTRL_UP true).put CON.STAT_CTRL true).raise MGT.EVT_STAT_CTRL_UP).put MGT.STAT_BOOTROM false).put MGT.STAT_FW_RUN true

theorem showUp_only (d : Dev) : OnlyRegs d d.showUp :=
  ((((OnlyRegs.put _ _ _ _).trans (.put _ _ _ _)).trans (.raise _ _ _)).trans (.put _ _ _ _)).trans (.put _ _ _ _)

theorem showUp_kept (d : Dev) : OffsKept d d.showUp [0x00C00000, 0x00B00008, 0x00060004, 0x00060000] :=
  ((((OffsKept.set _ _ _ _ (by decide)).trans (.set _ _ _ _ (by decide))).trans (.set _ _ _ _ (by decide))).trans
    (.set _ _ _ _ (by decide))).trans (.set _ _ _ _ (by decide))

theorem showUp_status (d : Dev) : d.showUp.get HIF.STAT_CTRL_UP = 1 ∧ d.showUp.get CON.STAT_CTRL = 1 ∧
    d.showUp.get MGT.STAT_FW_RUN = 1 ∧ d.showUp.get MGT.STAT_BOOTROM = 0 ∧ d.showUp.get MGT.EVT_STAT_CTRL_UP = 1 := by
  refine ⟨?_, ?_, ?_, ?_, ?_⟩ <;>
    simp (disch := decide) only [showUp, put_eq, raise_eq, get_set_off, get_set_fld, get_set_self] <;> rfl

/-- No take counts as lost any more. -/
def dropLost (d : Dev) : Dev := { d with takesLost := 0 }

theorem dropLost_get (d : Dev) (f : Fld) (ch : Nat) : d.dropLost.get f ch = d.get f ch := (rfl)
theorem dropLost_regs (d : Dev) : d.dropLost.regs = d.regs := (rfl)

/-- The takes lost are counted, and reported where there were some (R135). -/
def reportLost (d : Dev) : Dev := (d.dropLost.count HIF.TK_CNT_LOST_COUNT d.takesLost).raiseIf (d.takesLost != 0) HIF.TK_EVT_LOST

theorem reportLost_only (d : Dev) : OnlyRegs d.dropLost d.reportLost := (OnlyRegs.count _ _ _ _).trans (.raiseIf _ _ _ _)

theorem reportLost_fields (d : Dev) :
    d.reportLost.takesLost = 0 ∧ d.reportLost.restarting = d.restarting ∧ d.reportLost.mbxLost = d.mbxLost := by
  have h := d.reportLost_only
  exact ⟨h.get_takesLost, h.get_restarting, h.get_mbxLost⟩

theorem reportLost_kept (d : Dev) : OffsKept d d.reportLost [0x00C01054, 0x00C01030] :=
  ((OffsKept.of_regs (dropLost_regs d)).trans (.set _ _ _ _ (by decide))).trans
    fun _ _ n => raiseIf_reg_off _ _ _ fun e => n (by rw [e]; decide)

theorem reportLost_count (d : Dev) :
    d.reportLost.get HIF.TK_CNT_LOST_COUNT = sat32 (d.get HIF.TK_CNT_LOST_COUNT + d.takesLost) := by
  rw [reportLost, raiseIf_get_off _ _ _ (by decide), count, get_set_self _ _ _ _ (by decide), dropLost_get]
  exact Nat.mod_eq_of_lt (Nat.lt_of_le_of_lt (Nat.min_le_left _ _) (by decide))

theorem reportLost_event (d : Dev) (h : 0 < d.takesLost) : d.reportLost.get HIF.TK_EVT_LOST = 1 := by
  rw [reportLost, raiseIf_true _ _ (bne_iff_ne.2 (by omega)), raise_eq, get_set_self _ _ _ _ (by decide)]
  rfl

/-- No message of the mailbox counts as lost any more. -/
def dropMbxLost (d : Dev) : Dev := { d with mbxLost := false }

/-- Messages of the mailbox that were lost are reported. -/
def reportMbx (d : Dev) : Dev := d.dropMbxLost.raiseIf d.mbxLost MGT.EVT_STAT_MBX_LOST

theorem reportMbx_only (d : Dev) : OnlyRegs d.dropMbxLost d.reportMbx := .raiseIf _ _ _ _

theorem reportMbx_fields (d : Dev) : d.reportMbx.takesLost = d.takesLost ∧ d.reportMbx.restarting = d.restarting := by
  have h := d.reportMbx_only
  exact ⟨h.get_takesLost, h.get_restarting⟩

/-- No other field than the event itself is touched. -/
theorem reportMbx_get (d : Dev) (f : Fld) (ch : Nat) (h : f.off ≠ 0x00060004 ∨ 3 ≤ f.lo) : d.reportMbx.get f ch = d.get f ch := by
  unfold reportMbx
  cases d.mbxLost
  · rfl
  · rw [raiseIf_true _ _ rfl, raise_eq]
    rcases h with h | h
    · exact get_set_off _ _ _ _ _ _ h
    · exact get_set_fld _ _ _ _ _ _ (by decide) (.inl h)

theorem reportMbx_event (d : Dev) (h : d.mbxLost = true) : d.reportMbx.get MGT.EVT_STAT_MBX_LOST = 1 := by
  rw [reportMbx, raiseIf_true _ _ h, raise_eq, get_set_self _ _ _ _ (by decide)]
  rfl

/-- Whether the control side is held where it is. -/
def ctlHeld (d : Dev) : Bool := d.flag FLT.WDOG_STAT_HELD || d.haltHold || d.inReset || d.bootHalt

theorem ctlUp_held (d : Dev) (h : d.ctlHeld = true) : d.ctlUp = d := if_pos h

theorem ctlUp_free (d : Dev) (h : d.ctlHeld = false) :
    d.ctlUp = d.restarted.showUp.reportLost.reportMbx.deferredVecs := by
  have h' : (d.flag FLT.WDOG_STAT_HELD || d.haltHold || d.inReset || d.bootHalt) = false := h
  simp only [ctlUp, h', showUp, restarted, reportLost, dropLost, reportMbx, dropMbxLost]
  rfl

/-- The messages that waited touch no register between the LOG counters and the PBA. -/
theorem deferredVecs_above (d : Dev) : Notes 0x00090111 0x00C08800 d d.deferredVecs := .deferredVecs (.inl (by decide)) (by decide) d

/-- The messages that waited touch no register before the LOG counters. -/
theorem deferredVecs_below (d : Dev) : Notes 0 0x00090000 d d.deferredVecs := .deferredVecs (.inr (by decide)) (by decide) d

end Dev

/-- CONTROL_SIDE_UP where nothing holds the control side. -/
theorem runsTo_controlSideUp (s : State) (hf : s.dev.ctlHeld = false) : RunsTo .controlSideUp s fun d =>
    d.restarting = false ∧ d.get HIF.STAT_CTRL_UP = 1 ∧ d.get CON.STAT_CTRL = 1 ∧
      d.get MGT.STAT_FW_RUN = 1 ∧ d.get MGT.STAT_BOOTROM = 0 ∧ d.get MGT.EVT_STAT_CTRL_UP = 1 ∧ d.takesLost = 0 ∧
      d.get HIF.TK_CNT_LOST_COUNT = sat32 (s.dev.get HIF.TK_CNT_LOST_COUNT + s.dev.takesLost) ∧
      (0 < s.dev.takesLost → d.get HIF.TK_EVT_LOST = 1) ∧ (s.dev.mbxLost = true → d.get MGT.EVT_STAT_MBX_LOST = 1) := by
  have hshow := s.dev.restarted.showUp_only
  obtain ⟨hup, hctrl, hrun, hrom, hev⟩ := s.dev.restarted.showUp_status
  have hkept := s.dev.restarted.showUp_kept
  have hlost : s.dev.restarted.showUp.takesLost = s.dev.takesLost := hshow.get_takesLost
  have hrestart : s.dev.restarted.showUp.restarting = false := hshow.get_restarting
  have hmbx : s.dev.restarted.showUp.mbxLost = s.dev.mbxLost := hshow.get_mbxLost
  have hcount : s.dev.restarted.showUp.get HIF.TK_CNT_LOST_COUNT = s.dev.get HIF.TK_CNT_LOST_COUNT := hkept.field _ _ (by decide)
  refine runsTo_go (f := Dev.ctlUp) rfl (Dev.ctlUp_free _ hf) ?_
  generalize s.dev.restarted.showUp = a at *
  obtain ⟨hzero, hrestart', hmbx'⟩ := a.reportLost_fields
  obtain ⟨hzero', hrestart''⟩ := a.reportLost.reportMbx_fields
  have habove := a.reportLost.reportMbx.deferredVecs_above
  have hbelow := a.reportLost.reportMbx.deferredVecs_below
  have hother (f : Fld) (hx : f.off ≠ 0x00060004 ∨ 3 ≤ f.lo) (hn : f.off ∉ [0x00C01054, 0x00C01030]) :
      a.reportLost.reportMbx.get f = a.get f :=
    (Dev.reportMbx_get _ _ _ hx).trans (a.reportLost_kept.field _ _ hn)
  refine ⟨?_, ?_, ?_, ?_, ?_, ?_, ?_, ?_, fun h => ?_, fun h => ?_⟩
  · rw [habove.get_restarting, hrestart'', hrestart', hrestart]
  · rw [habove.get _ _ (by decide) (by decide), hother _ (by decide) (by decide), hup]
  · rw [habove.get _ _ (by decide) (by decide), hother _ (by decide) (by decide), hctrl]
  · rw [hbelow.get _ _ (by decide) (by decide), hother _ (by decide) (by decide), hrun]
  · rw [hbelow.get _ _ (by decide) (by decide), hother _ (by decide) (by decide), hrom]
  · rw [hbelow.get _ _ (by decide) (by decide), hother _ (by decide) (by decide), hev]
  · rw [habove.get_takesLost, hzero', hzero]
  · rw [habove.get _ _ (by decide) (by decide), Dev.reportMbx_get _ _ _ (by decide), Dev.reportLost_count, hcount, hlost]
  · rw [habove.get _ _ (by decide) (by decide), Dev.reportMbx_get _ _ _ (by decide)]
    exact Dev.reportLost_event _ (hlost ▸ h)
  · rw [hbelow.get _ _ (by decide) (by decide)]
    exact Dev.reportMbx_event _ (hmbx'.trans (hmbx.trans h))

end Sys2Proof.Machine
end

section
/-!
Proofs, the host interface (R426, R428, Table 21.6) and what a fault's condition changes (R384).
-/

namespace Sys2Proof.Machine

/-- Nothing but registers, conditions and faults to be recorded differs. -/
def OnlyFaults (d e : Dev) : Prop := ∃ r c f, e = { d with regs := r, conds := c, rising := f }

namespace OnlyFaults

variable {d e f : Dev}

theorem trans (h : OnlyFaults d e) (k : OnlyFaults e f) : OnlyFaults d f := by
  obtain ⟨_, _, _, rfl⟩ := h
  obtain ⟨r, c, x, rfl⟩ := k
  exact ⟨r, c, x, rfl⟩

theorem of_only (h : OnlyRegs d e) : OnlyFaults d e := by
  obtain ⟨r, rfl⟩ := h
  exact ⟨r, _, _, rfl⟩

theorem raiseFault (d : Dev) (x : FaultAt) : OnlyFaults d (d.raiseFault x) := by
  unfold Dev.raiseFault
  split
  · exact ⟨_, _, _, rfl⟩
  · exact trans ⟨_, _, _, rfl⟩ (of_only (.refreshCond _ _))

theorem dropFault (d : Dev) (x : FaultAt) : OnlyFaults d (d.dropFault x) := trans ⟨_, _, _, rfl⟩ (of_only (.refreshCond _ _))

theorem pulseFault (d : Dev) (x : FaultAt) : OnlyFaults d (d.pulseFault x) := ⟨_, _, _, rfl⟩

theorem get_dmaFly (h : OnlyFaults d e) : e.dmaFly = d.dmaFly := by obtain ⟨_, _, _, rfl⟩ := h; rfl
theorem get_funcMask (h : OnlyFaults d e) : e.funcMask = d.funcMask := by obtain ⟨_, _, _, rfl⟩ := h; rfl
theorem get_inReset (h : OnlyFaults d e) : e.inReset = d.inReset := by obtain ⟨_, _, _, rfl⟩ := h; rfl
theorem get_pg (h : OnlyFaults d e) : e.pg = d.pg := by obtain ⟨_, _, _, rfl⟩ := h; rfl

end OnlyFaults

namespace Dev

/-- A dropped condition is absent. -/
theorem dropFault_not_mem (d : Dev) (x : FaultAt) : x ∉ (d.dropFault x).conds := by
  rw [dropFault, (OnlyRegs.refreshCond _ _).get_conds]
  simp

/-- A condition that rises or falls leaves every register but the sources' status. -/
theorem raiseFault_kept (d : Dev) (x : FaultAt) : OffsKept d (d.raiseFault x) [0x00010104] :=
  .of_kept (RegsKept.raiseFault (k := [(0x00010104, x.src)]) d x (by simp)) (by simp)

theorem dropFault_kept (d : Dev) (x : FaultAt) : OffsKept d (d.dropFault x) [0x00010104] :=
  .of_kept (RegsKept.dropFault (k := [(0x00010104, x.src)]) d x (by simp)) (by simp)

/-! ## The reset of the host interface (R428) -/

/-- The MSI-X table. -/
def tableOffs : List Nat := (List.range 256).map fun i => 0x00C08000 + 4 * i

/-- The PBA and the captured and armed flags that the host interface's reset clears. -/
def armedOffs : List Nat := [0x00C08800, 0x00C08804, 0x00080060, 0x00080064]

/-- No function mask, and no message that waits. -/
def dropMask (d : Dev) : Dev := { d with funcMask := false, msixDefer := 0 }

theorem dropMask_get (d : Dev) (f : Fld) (ch : Nat) : d.dropMask.get f ch = d.get f ch := (rfl)
theorem dropMask_reg (d : Dev) (off ch : Nat) : d.dropMask.reg off ch = d.reg off ch := (rfl)
theorem dropMask_dmaFly (d : Dev) : d.dropMask.dmaFly = d.dmaFly := (rfl)
theorem dropMask_rising (d : Dev) : d.dropMask.rising = d.rising := (rfl)
theorem dropMask_funcMask (d : Dev) : d.dropMask.funcMask = false := (rfl)

theorem hostReset_eq_dropMask (d : Dev) :
    d.hostReset = ((((d.masterReset .host).dmaReset).resetRegs tableOffs).resetRegs armedOffs).dropMask := by
  simp only [hostReset, dropMask, tableOffs, armedOffs]

theorem dropFly_rising (d : Dev) : d.dropFly.rising = d.rising := (rfl)

theorem hostReset_rising (d : Dev) : d.hostReset.rising = d.rising := by
  rw [hostReset_eq_dropMask, dropMask_rising, (OnlyCopies.resetRegs _ _ _).get_rising, (OnlyCopies.resetRegs _ _ _).get_rising,
    dmaReset_eq_dropFly, dropFly_rising, (OnlyCopies.resetRegs _ _ _).get_rising, (masterReset_only _ _).get_rising]

theorem hostReset_funcMask (d : Dev) : d.hostReset.funcMask = false := by rw [hostReset_eq_dropMask, dropMask_funcMask]

/-- The DMA engine's work ends. -/
theorem hostReset_dmaFly (d : Dev) : d.hostReset.dmaFly = [] := by
  rw [hostReset_eq_dropMask, dropMask_dmaFly, (OnlyCopies.resetRegs _ _ _).get_dmaFly, (OnlyCopies.resetRegs _ _ _).get_dmaFly,
    dmaReset_dmaFly]

theorem mem_tableOffs {off : Nat} (h : off ∈ tableOffs) : 0x00C08000 ≤ off := by
  obtain ⟨i, -, rfl⟩ := List.mem_map.1 h
  omega

/-- A register below the MSI-X table that is no master's copy, nor the DMA engine's, nor an armed flag, stays. -/
theorem hostReset_get (d : Dev) (f : Fld) (ch : Nat) (h : f.off < 0x00C08000) (hn : f.off ∉ masterOffs ++ dmaOffs ++ armedOffs) :
    d.hostReset.get f ch = d.get f ch := by
  simp only [List.mem_append, not_or] at hn
  obtain ⟨⟨hm, hd⟩, ha⟩ := hn
  have ht : f.off ∉ tableOffs := fun k => absurd (mem_tableOffs k) (by omega)
  rw [hostReset_eq_dropMask, dropMask_get, (resetRegs_kept _ _ _).field _ _ ha, (resetRegs_kept _ _ _).field _ _ ht,
    (dmaReset_kept _).field _ _ hd, (masterReset_kept _ _).field _ _ hm]

/-- The host's own copy of a master's register is at reset. -/
theorem hostReset_host (d : Dev) {f : Fld} (h : f.off ∈ masterOffs) (hd : f.off ∉ dmaOffs)
    (hr : bitsOf (resetWord f.off Master.host.code) f.lo f.w = 0) : d.hostReset.get f Master.host.code = 0 := by
  rw [hostReset_eq_dropMask, dropMask_get]
  refine get_resetRegs_zero _ _ hr (get_resetRegs_zero _ _ hr ?_)
  rw [(dmaReset_kept _).field _ _ hd, get_masterReset_own _ _ h, hr]

/-- A vector's control word masks it after reset (R440). -/
theorem resetWord_vectorControl {v : Nat} (h : v < 64) : resetWord (0x00C0800C + 16 * v) 0 = 1 := by
  have hs : ∀ v < 64, resetSpecial (0x00C0800C + 16 * v) 0 = some 1 := by decide
  simp only [resetWord, hs v h]
  rfl

/-- Every vector is masked. -/
theorem hostReset_vectorControl (d : Dev) {v : Nat} (h : v < 64) : d.hostReset.reg (0x00C0800C + 16 * v) 0 = 1 := by
  have ht : 0x00C0800C + 16 * v ∈ tableOffs := List.mem_map.2 ⟨3 + 4 * v, List.mem_range.2 (by omega), by omega⟩
  have ha : 0x00C0800C + 16 * v ∉ armedOffs := by
    simp only [armedOffs, List.mem_cons, List.not_mem_nil, or_false]
    omega
  rw [hostReset_eq_dropMask, dropMask_reg, resetRegs_kept _ _ _ _ _ ha, reg_resetRegs_in _ _ ht, resetWord_vectorControl h]

/-- The interface reset, with its event. -/
def hostLinkReset (d : Dev) : Dev := d.hostReset.raise HIF.EVT_STAT_LINK_RST

/-- The link down. -/
def linkDown (d : Dev) : Dev := d.clear [HIF.STAT_LINK_UP, HIF.STAT_SPEED, HIF.STAT_WIDTH]

theorem linkDown_only (d : Dev) : OnlyRegs d d.linkDown := .clear ..

theorem linkDown_kept (d : Dev) : OffsKept d d.linkDown [0x00C00000] :=
  .of_kept (RegsKept.clear (k := [(0x00C00000, 0)]) _ _ (by decide) d) (by simp)

theorem linkDown_up (d : Dev) : d.linkDown.get HIF.STAT_LINK_UP = 0 := by
  simp (disch := decide) only [linkDown, clear, List.foldl_cons, List.foldl_nil, get_set_fld, get_set_self]
  rfl

end Dev

/-- What LINK_RST leaves in the host interface. -/
structure HostIsReset (d : Dev) : Prop where
  event : d.get HIF.EVT_STAT_LINK_RST = 1
  dmaFly : d.dmaFly = []
  funcMask : d.funcMask = false
  masked : ∀ v < 64, (d.reg (0x00C0800C + 16 * v) 0).toNat = 1
  select : d.get XP.OUT_SEL_SEL Master.host.code = 0

namespace HostIsReset

variable {d e : Dev}

theorem hostLinkReset (d : Dev) : HostIsReset d.hostLinkReset where
  event := (Dev.get_set_self _ _ _ _ (by decide)).trans rfl
  dmaFly := (OnlyRegs.raise _ _ _).get_dmaFly.trans (Dev.hostReset_dmaFly _)
  funcMask := (OnlyRegs.raise _ _ _).get_funcMask.trans (Dev.hostReset_funcMask _)
  masked v h := by
    have hne : 0x00C0800C + 16 * v ≠ HIF.EVT_STAT_LINK_RST.off := by
      simp only [HIF.EVT_STAT_LINK_RST]
      omega
    rw [Dev.hostLinkReset, Dev.raise_eq, Dev.reg_set_ne _ _ _ (.inl hne), Dev.hostReset_vectorControl _ h]
    rfl
  select := (Dev.get_set_off _ _ _ _ _ _ (by decide)).trans (Dev.hostReset_host _ (by decide) (by decide) (by decide))

/-- A change of the link's status and of the sources' status alone keeps it. -/
theorem kept (h : HostIsReset d) (k : OffsKept d e [0x00C00000, 0x00010104]) (hd : e.dmaFly = d.dmaFly) (hf : e.funcMask = d.funcMask) :
    HostIsReset e where
  event := (k.field _ _ (by decide)).trans h.event
  dmaFly := hd.trans h.dmaFly
  funcMask := hf.trans h.funcMask
  masked v hv := by
    rw [k _ _ (by simp only [List.mem_cons, List.not_mem_nil, or_false]; omega)]
    exact h.masked v hv
  select := (k.field _ _ (by decide)).trans h.select

end HostIsReset

/-- What HOST_RESET does, in the two parts of the interface and the link. -/
theorem exec_hostReset (down : Bool) (s : State) : exec (.hostReset down) s = s.go fun d =>
    if down then d.hostLinkReset.linkDown.raiseFault (Dev.devFault 252) else d.hostLinkReset.pulseFault (Dev.devFault 252) := by
  have h : exec (.hostReset down) s = execHostReset down s := rfl
  simp only [h, execHostReset, Dev.hostLinkReset, Dev.linkDown]

/-- HOST_RESET with the link down. -/
theorem runsTo_hostReset_down (s : State) : RunsTo (.hostReset true) s fun d =>
    HostIsReset d ∧ d.get HIF.STAT_LINK_UP = 0 ∧ Dev.devFault 252 ∈ d.conds := by
  have hf := OnlyFaults.raiseFault s.dev.hostLinkReset.linkDown (Dev.devFault 252)
  have hd := s.dev.hostLinkReset.linkDown_only
  have hk := s.dev.hostLinkReset.linkDown.raiseFault_kept (Dev.devFault 252)
  refine runsTo_go (exec_hostReset true s) (if_pos rfl) ⟨?_, ?_, Dev.raiseFault_mem _ _⟩
  · exact (HostIsReset.hostLinkReset _).kept (((Dev.linkDown_kept _).mono (by decide)).trans (hk.mono (by decide)))
      (hf.get_dmaFly.trans hd.get_dmaFly) (hf.get_funcMask.trans hd.get_funcMask)
  · exact (hk.field _ _ (by decide)).trans (Dev.linkDown_up _)

/-- HOST_RESET with the link up. -/
theorem runsTo_hostReset_up (s : State) : RunsTo (.hostReset false) s fun d =>
    HostIsReset d ∧ d.get HIF.STAT_LINK_UP = s.dev.get HIF.STAT_LINK_UP ∧ d.rising = s.dev.rising ++ [Dev.devFault 252] := by
  have hr : s.dev.hostLinkReset.rising = s.dev.rising := (OnlyRegs.raise _ _ _).get_rising.trans (Dev.hostReset_rising _)
  have hu : s.dev.hostLinkReset.get HIF.STAT_LINK_UP = s.dev.get HIF.STAT_LINK_UP :=
    (Dev.get_set_off _ _ _ _ _ _ (by decide)).trans (Dev.hostReset_get _ _ _ (by decide) (by decide))
  refine runsTo_go (exec_hostReset false s) (if_neg Bool.false_ne_true) ?_
  have hs := HostIsReset.hostLinkReset s.dev
  generalize s.dev.hostLinkReset = a at hr hu hs
  have hf := OnlyFaults.pulseFault a (Dev.devFault 252)
  exact ⟨hs.kept (.of_regs rfl) hf.get_dmaFly hf.get_funcMask, (Dev.pulseFault_get ..).trans hu, by rw [Dev.pulseFault_rising, hr]⟩

/-- PCIE_LINK_UP. -/
theorem runsTo_pcieLinkUp (speed width : Fin 8) (s : State) : RunsTo (.pcieLinkUp speed width) s fun d =>
    d.get HIF.STAT_LINK_UP = 1 ∧ d.get HIF.STAT_SPEED = speed ∧ d.get HIF.STAT_WIDTH = width ∧ Dev.devFault 252 ∉ d.conds := by
  refine runsTo_go (f := fun d =>
    (((d.put HIF.STAT_LINK_UP true).set HIF.STAT_SPEED speed).set HIF.STAT_WIDTH width).dropFault (Dev.devFault 252)) rfl rfl ?_
  have hk (f : Fld) (h : f.off = 0x00C00000) (x : Dev) : (x.dropFault (Dev.devFault 252)).get f = x.get f :=
    (x.dropFault_kept _).field f 0 (by rw [h]; decide)
  refine ⟨(hk _ rfl _).trans ?_, (hk _ rfl _).trans ?_, (hk _ rfl _).trans ?_, Dev.dropFault_not_mem _ _⟩
  · simp (disch := decide) only [Dev.put_eq, Dev.get_set_fld, Dev.get_set_self]
    rfl
  · simp (disch := decide) only [Dev.get_set_fld, Dev.get_set_self]
    exact Nat.mod_eq_of_lt speed.isLt
  · simp (disch := decide) only [Dev.get_set_self]
    exact Nat.mod_eq_of_lt width.isLt

end Sys2Proof.Machine
end

section
/-!
Proofs, the resets of the device (R378, R400 to R403, R457, R497, Table 22.6).
-/

namespace Sys2Proof.Machine

/-- A map whose entries are filtered by their keys. -/
theorem mapGet_filter {α : Type} (p : Key → Bool) (m : Map α) (k : Key) (dflt : α) :
    mapGet (m.filter fun e => p e.1) k dflt = if p k then mapGet m k dflt else dflt := by
  have hf : mapFind k (m.filter fun e => p e.1) = if p k then mapFind k m else none := by
    induction m with
    | nil => simp [mapFind]
    | cons e m ih =>
      by_cases hk : e.1 = k
      · cases hp : p k <;> simp [mapFind, hk, hp, ih]
      · cases hp : p e.1 <;> simp [mapFind, hk, hp, ih]
  unfold mapGet
  rw [hf]
  split <;> rfl

theorem b2n_mod (b : Bool) : b2n b % 2 ^ 1 = b2n b := by cases b <;> rfl

namespace Dev

/-- A field of one bit read as a flag. -/
theorem b2n_flag (d : Dev) (f : Fld) (ch : Nat) (h : f.w = 1) : b2n (d.flag f ch) = d.get f ch := by
  have hlt : d.get f ch < 2 ^ f.w := bitsOf_lt _ _ _
  rw [h] at hlt
  unfold flag
  have : d.get f ch = 0 ∨ d.get f ch = 1 := by omega
  rcases this with h0 | h1
  · rw [h0]; rfl
  · rw [h1]; rfl

/-! ## A device reset (R378, R497) -/

/-- The block at reset but for the always-on domain. -/
def resetBlock (d : Dev) : Dev :=
  { Dev.reset with
    regs := d.regs.filter fun e => aonKept e.1.1
    conds := d.conds.filter fun f => decide (f.src < 48)
    injArmed := d.injArmed, kickSeq := d.kickSeq, fltLog := d.fltLog, fltSeq := d.fltSeq, logCopied := d.logCopied, aclk := d.aclk, ladder := d.ladder
    spData := d.spData, spNack := d.spNack, pg := d.pg, railLost := d.railLost
    ueGran := d.ueGran, cc := d.cc, marks := d.marks, drawn := d.drawn, sent := d.sent }

theorem resetBlock_fields (d : Dev) : d.resetBlock.inReset = true ∧ d.resetBlock.fltRecs = [] ∧ d.resetBlock.fltLog = d.fltLog ∧
    d.resetBlock.takes = [] ∧ d.resetBlock.keys = Dev.reset.keys ∧ d.resetBlock.pg = d.pg := ⟨rfl, rfl, rfl, rfl, rfl, rfl⟩

theorem resetBlock_regs (d : Dev) : d.resetBlock.regs = d.regs.filter fun e => aonKept e.1.1 := (rfl)

/-- A register of the always-on domain stays; every other one is at reset. -/
theorem resetBlock_reg (d : Dev) (off ch : Nat) :
    d.resetBlock.reg off ch = if aonKept off then d.reg off ch else resetWord off ch := by
  unfold reg
  rw [resetBlock_regs, mapGet_filter fun k => aonKept k.1]

theorem resetBlock_get (d : Dev) (f : Fld) (ch : Nat) (h : aonKept f.off = true) : d.resetBlock.get f ch = d.get f ch := by
  unfold get
  rw [resetBlock_reg, if_pos h]

theorem resetBlock_zero (d : Dev) (f : Fld) (ch : Nat) (h : aonKept f.off = false) (hr : bitsOf (resetWord f.off ch) f.lo f.w = 0) :
    d.resetBlock.get f ch = 0 := by
  unfold get
  rw [resetBlock_reg, h, if_neg Bool.false_ne_true, hr]

/-- What a device reset writes back into registers at reset: the bad kicks, the shed threshold and the bus's owner. -/
def keepFields (r : Dev) (bad h : Nat) (own : Bool) : Dev :=
  ((r.set FLT.WDOG_STAT_BAD_KICK bad).set XP.BLK_STAT_SHED_H h).put NVM.BOOT_STAT_NVM_OWN own

/-- The sources' conditions shown. -/
def showConds (r : Dev) : Dev := (r.conds.map (·.src) ++ r.flagSet FLT.SRC_CMD_FORCE).foldl (fun d s => d.refreshCond s) r

/-- The block's status cleared, and the classes' records with it. -/
def clearStat (r : Dev) : Dev :=
  (List.range 16).foldl (fun d c => d.setReg (0x00010040 + 4 * c) 0 0)
    (r.clear [FLT.STAT_SEV_MAX, FLT.STAT_HEALTHY, FLT.STAT_FAULT, FLT.STAT_TRIP, FLT.STAT_RUNNING, FLT.STAT_CLS_ANY])

/-- Safe-idle and the ladder's step shown. -/
def showSafe (r : Dev) : Dev := (r.put FLT.STAT_SAFE_IDLE (r.flag FLT.SP_CTL_SAFE_IDLE)).set FLT.STAT_STEP r.ladder

theorem deviceReset_eq_showSafe (d : Dev) : d.deviceReset =
    (d.resetBlock.keepFields (d.get FLT.WDOG_STAT_BAD_KICK) (d.get XP.BLK_STAT_SHED_H)
      (d.flag NVM.BOOT_STAT_NVM_OWN)).showConds.clearStat.showSafe := by
  simp only [deviceReset, resetBlock, keepFields, showConds, clearStat, showSafe]

theorem keepFields_only (r : Dev) (bad h : Nat) (own : Bool) : OnlyRegs r (r.keepFields bad h own) :=
  ((OnlyRegs.set _ _ _ _).trans (.set _ _ _ _)).trans (.put _ _ _ _)

theorem keepFields_kept (r : Dev) (bad h : Nat) (own : Bool) :
    OffsKept r (r.keepFields bad h own) [0x00010024, 0x00200008, 0x00040000] :=
  ((OffsKept.set _ _ _ _ (by decide)).trans (.set _ _ _ _ (by decide))).trans (.set _ _ _ _ (by decide))

theorem showConds_only (r : Dev) : OnlyRegs r r.showConds := OnlyRegs.foldl _ (fun _ _ => .refreshCond _ _) _ _

theorem showConds_kept (r : Dev) : OffsKept r r.showConds [0x00010104] := by
  have h (l : List Nat) : ∀ x : Dev, OffsKept x (l.foldl (fun d s => d.refreshCond s) x) [0x00010104] := by
    induction l with
    | nil => exact fun x => .refl x _
    | cons s l ih => exact fun x => (OffsKept.set _ _ _ _ (by decide)).trans (ih _)
  exact h _ r

theorem clearStat_only (r : Dev) : OnlyRegs r r.clearStat :=
  (OnlyRegs.clear ..).trans (OnlyRegs.foldl _ (fun _ _ => .setReg _ _ _ _) _ _)

/-- The classes' registers, one by one: every other register stays. -/
theorem clearClasses_kept (l : List Nat) : ∀ r : Dev, ∀ off ch, (∀ c ∈ l, off ≠ 0x00010040 + 4 * c) →
    (l.foldl (fun d c => d.setReg (0x00010040 + 4 * c) 0 0) r).reg off ch = r.reg off ch := by
  induction l with
  | nil => exact fun _ _ _ _ => rfl
  | cons c l ih =>
    intro r off ch h
    exact (ih _ off ch fun x hx => h x (List.mem_cons_of_mem _ hx)).trans
      (reg_setReg_ne _ _ (.inl (h c (List.mem_cons_self ..))))

/-- Beside the classes' registers the clearing reaches STAT alone. -/
theorem clearStat_get (r : Dev) (f : Fld) (ch : Nat) (h : f.off < 0x00010040 ∨ 0x00010080 ≤ f.off) :
    r.clearStat.get f ch = (r.clear [FLT.STAT_SEV_MAX, FLT.STAT_HEALTHY, FLT.STAT_FAULT, FLT.STAT_TRIP, FLT.STAT_RUNNING,
      FLT.STAT_CLS_ANY]).get f ch := by
  unfold get clearStat
  rw [clearClasses_kept _ _ _ _ fun c hc => by have := List.mem_range.1 hc; omega]

theorem clearStat_other (r : Dev) (f : Fld) (ch : Nat) (h : f.off < 0x0001000C ∨ 0x00010080 ≤ f.off ∨
    (0x0001000C < f.off ∧ f.off < 0x00010040)) : r.clearStat.get f ch = r.get f ch := by
  rw [clearStat_get r f ch (by omega)]
  refine (OffsKept.of_kept (k := [0x0001000C]) (RegsKept.clear (k := [(0x0001000C, 0)]) _ _ (by decide) r) (by simp)).field f ch ?_
  simp only [List.mem_cons, List.not_mem_nil, or_false]
  omega

theorem clearStat_status (r : Dev) : r.clearStat.get FLT.STAT_RUNNING = 0 ∧ r.clearStat.get FLT.STAT_HEALTHY = 0 := by
  constructor <;> rw [clearStat_get _ _ _ (by decide)] <;>
    simp (disch := decide) only [clear, List.foldl_cons, List.foldl_nil, get_set_fld, get_set_self] <;> rfl

theorem showSafe_only (r : Dev) : OnlyRegs r r.showSafe := (OnlyRegs.put _ _ _ _).trans (.set _ _ _ _)

theorem showSafe_kept (r : Dev) : OffsKept r r.showSafe [0x0001000C] :=
  (OffsKept.set _ _ _ _ (by decide)).trans (.set _ _ _ _ (by decide))

theorem showSafe_status (r : Dev) : r.showSafe.get FLT.STAT_RUNNING = r.get FLT.STAT_RUNNING ∧
    r.showSafe.get FLT.STAT_HEALTHY = r.get FLT.STAT_HEALTHY := by
  constructor <;> simp (disch := decide) only [showSafe, put_eq, get_set_fld]

/-- Behind the block at reset, a device reset changes registers alone. -/
theorem deviceReset_only (d : Dev) : OnlyRegs d.resetBlock d.deviceReset := by
  rw [deviceReset_eq_showSafe]
  exact (((keepFields_only _ _ _ _).trans (showConds_only _)).trans (clearStat_only _)).trans (showSafe_only _)

theorem deviceReset_inReset (d : Dev) : d.deviceReset.inReset = true := d.deviceReset_only.get_inReset

/-- STAT says that the block neither runs nor is healthy. -/
theorem deviceReset_status (d : Dev) : d.deviceReset.get FLT.STAT_RUNNING = 0 ∧ d.deviceReset.get FLT.STAT_HEALTHY = 0 := by
  rw [deviceReset_eq_showSafe]
  generalize (d.resetBlock.keepFields _ _ _).showConds = r
  obtain ⟨hr, hh⟩ := r.clearStat.showSafe_status
  obtain ⟨hr', hh'⟩ := r.clearStat_status
  exact ⟨hr.trans hr', hh.trans hh'⟩

/-- A field that is no source's or class's status reads what was written back there. -/
theorem deviceReset_kept_fields (d : Dev) (f : Fld) (ch : Nat) (h : f.off < 0x0001000C ∨ 0x00010108 ≤ f.off ∨
    (0x0001000C < f.off ∧ f.off < 0x00010040)) : d.deviceReset.get f ch =
      (d.resetBlock.keepFields (d.get FLT.WDOG_STAT_BAD_KICK) (d.get XP.BLK_STAT_SHED_H) (d.flag NVM.BOOT_STAT_NVM_OWN)).get f ch := by
  rw [deviceReset_eq_showSafe, (showSafe_kept _).field _ _ (by simp only [List.mem_cons, List.not_mem_nil, or_false]; omega),
    clearStat_other _ _ _ (by omega), (showConds_kept _).field _ _ (by simp only [List.mem_cons, List.not_mem_nil, or_false]; omega)]

/-- A field of the always-on domain beside the sources' and classes' status is kept. -/
theorem deviceReset_aon (d : Dev) (f : Fld) (ch : Nat) (h : 0x00010108 ≤ f.off ∨ (0x0001000C < f.off ∧ f.off < 0x00010040))
    (hn : f.off ∉ [0x00010024, 0x00200008, 0x00040000]) (ha : aonKept f.off = true) : d.deviceReset.get f ch = d.get f ch := by
  rw [deviceReset_kept_fields _ _ _ (.inr h), (keepFields_kept _ _ _ _).field _ _ hn, resetBlock_get _ _ _ ha]

theorem deviceReset_bootStat (d : Dev) : d.deviceReset.get NVM.BOOT_STAT_RUNNING = 0 ∧
    d.deviceReset.get NVM.BOOT_STAT_NVM_OWN = d.get NVM.BOOT_STAT_NVM_OWN := by
  rw [deviceReset_kept_fields _ _ _ (by decide), deviceReset_kept_fields _ _ _ (by decide)]
  constructor
  · simp (disch := decide) only [keepFields, put_eq, get_set_fld]
    exact resetBlock_zero _ _ _ (by decide) (by decide)
  · simp (disch := decide) only [keepFields, put_eq, get_set_self]
    exact (b2n_mod _).trans (b2n_flag _ _ _ rfl)

/-- The watchdog's restarts start over, and its bad kicks do not. -/
theorem deviceReset_watchdog (d : Dev) : d.deviceReset.get FLT.WDOG_STAT_BAD_KICK = d.get FLT.WDOG_STAT_BAD_KICK ∧
    d.deviceReset.get FLT.WDOG_STAT_RST_CNT = 0 := by
  rw [deviceReset_kept_fields _ _ _ (by decide), deviceReset_kept_fields _ _ _ (by decide)]
  constructor
  · simp (disch := decide) only [keepFields, put_eq, get_set_off, get_set_self]
    exact Nat.mod_eq_of_lt (bitsOf_lt _ _ _)
  · simp (disch := decide) only [keepFields, put_eq, get_set_off, get_set_fld]
    exact resetBlock_zero _ _ _ (by decide) (by decide)

end Dev

/-- DEVICE_RESET_ASSERT. -/
theorem runsTo_deviceResetAssert (s : State) : RunsTo .deviceResetAssert s fun d => d.inReset = true ∧ d.fltRecs = [] ∧
    d.fltLog = s.dev.fltLog ∧
    d.get NVM.BOOT_STAT_RUNNING = 0 ∧ d.get FLT.STAT_RUNNING = 0 ∧ d.get FLT.STAT_HEALTHY = 0 ∧
    d.get NVM.BOOT_STAT_NVM_OWN = s.dev.get NVM.BOOT_STAT_NVM_OWN ∧
    (∀ src, d.get FLT.SRC_CNT_COUNT src = s.dev.get FLT.SRC_CNT_COUNT src) ∧
    d.get FLT.WDOG_STAT_BAD_KICK = s.dev.get FLT.WDOG_STAT_BAD_KICK ∧ d.get FLT.WDOG_STAT_RST_CNT = 0 ∧
    d.get KEY.DBG_CTL_REQ = s.dev.get KEY.DBG_CTL_REQ ∧ d.takes = [] ∧ d.keys = Dev.reset.keys := by
  have ho := s.dev.deviceReset_only
  obtain ⟨-, hrecs, hlog, htakes, hkeys, -⟩ := s.dev.resetBlock_fields
  obtain ⟨hrun, hown⟩ := s.dev.deviceReset_bootStat
  obtain ⟨hstat, hhealthy⟩ := s.dev.deviceReset_status
  obtain ⟨hbad, hrst⟩ := s.dev.deviceReset_watchdog
  exact runsTo_go (f := Dev.deviceReset) rfl rfl ⟨s.dev.deviceReset_inReset, ho.get_fltRecs.trans hrecs, ho.get_fltLog.trans hlog,
    hrun, hstat, hhealthy, hown, fun src => s.dev.deviceReset_aon _ _ (by decide) (by decide) (by decide), hbad, hrst,
    s.dev.deviceReset_aon _ _ (by decide) (by decide) (by decide), ho.get_takes.trans htakes, ho.get_keys.trans hkeys⟩

/-! ## The rails and the power-good inputs (R400, Table 22.6) -/

/-- ALWAYS_ON_RAIL_LOSS. -/
theorem runsTo_alwaysOnRailLoss (s : State) : RunsTo .alwaysOnRailLoss s fun d => d.railLost = true ∧ d.inReset = true := by
  have h := s.dev.deviceReset_inReset
  refine runsTo_go (f := fun d => { d.deviceReset with railLost := true }) rfl rfl ?_
  generalize s.dev.deviceReset = a at h
  exact ⟨rfl, h⟩

/-- AON_POWER_UP. -/
theorem runsTo_aonPowerUp (s : State) : RunsTo .aonPowerUp s fun d => d.regs = [] ∧ d.inReset = true ∧ d.fltLog = [] ∧
    d.rising = if s.dev.railLost then [Dev.devFault 44] else [] := by
  refine runsTo_go (f := Dev.aonReset) rfl rfl ?_
  unfold Dev.aonReset
  cases s.dev.railLost <;> exact ⟨rfl, rfl, rfl, rfl⟩

namespace Dev

/-- A device reset with a power-good input low. -/
def powerLow (d : Dev) (k : Fin 4) : Dev := { d with pg := d.pg &&& ~~~(1#4 <<< k.val) }

theorem powerLow_inReset (d : Dev) (k : Fin 4) : (d.powerLow k).inReset = d.inReset := (rfl)
theorem powerLow_pg (d : Dev) (k : Fin 4) : (d.powerLow k).pg = d.pg &&& ~~~(1#4 <<< k.val) := (rfl)

theorem powerLow_level (d : Dev) (k : Fin 4) : (d.powerLow k).pg.getLsbD k = false := by
  rw [powerLow_pg]
  simp

end Dev

/-- POWER_GOOD_FALL. -/
theorem runsTo_powerGoodFall (k : Fin 4) (s : State) : RunsTo (.powerGoodFall k) s fun d =>
    d.inReset = true ∧ d.pg.getLsbD k = false ∧ ⟨44, 3, 0, k.val⟩ ∈ d.conds := by
  have hf := OnlyFaults.raiseFault (s.dev.deviceReset.powerLow k) ⟨44, 3, 0, k⟩
  refine runsTo_go (f := fun d => (d.deviceReset.powerLow k).raiseFault ⟨44, 3, 0, k⟩) rfl rfl
    ⟨?_, ?_, Dev.raiseFault_mem _ _⟩
  · rw [hf.get_inReset, Dev.powerLow_inReset, Dev.deviceReset_inReset]
  · rw [hf.get_pg, Dev.powerLow_level]

end Sys2Proof.Machine
end

section
/-!
Proofs, device reset ends (R400, R401, R403, R457), and the settling of O42.
-/

namespace Sys2Proof.Machine

namespace Dev

/-- The power-good inputs at given levels. -/
def withPg (d : Dev) (pg : BitVec 4) : Dev := { d with pg := pg }

theorem withPg_get (d : Dev) (pg : BitVec 4) (f : Fld) (ch : Nat) : (d.withPg pg).get f ch = d.get f ch := (rfl)
theorem withPg_inReset (d : Dev) (pg : BitVec 4) : (d.withPg pg).inReset = d.inReset := (rfl)
theorem withPg_pg (d : Dev) (pg : BitVec 4) : (d.withPg pg).pg = pg := (rfl)

/-- The loss of power at the inputs that are high is over. -/
def powerBack (d : Dev) (pg : BitVec 4) : Dev :=
  (List.range 4).foldl (fun d k => if pg.getLsbD k then d.dropFault ⟨44, 3, 0, k⟩ else d) d

/-- It changes conditions, and their sources' status. -/
theorem powerBack_faults (d : Dev) (pg : BitVec 4) : OnlyFaults d (d.powerBack pg) ∧ OffsKept d (d.powerBack pg) [0x00010104] := by
  have h (l : List Nat) : ∀ x : Dev,
      OnlyFaults x (l.foldl (fun d k => if pg.getLsbD k then d.dropFault ⟨44, 3, 0, k⟩ else d) x) ∧
        OffsKept x (l.foldl (fun d k => if pg.getLsbD k then d.dropFault ⟨44, 3, 0, k⟩ else d) x) [0x00010104] := by
    induction l with
    | nil => exact fun x => ⟨.of_only (.refl x), .refl x _⟩
    | cons k l ih =>
      intro x
      rw [List.foldl_cons]
      cases pg.getLsbD k
      · exact ih x
      · exact ⟨(OnlyFaults.dropFault _ _).trans (ih _).1, (dropFault_kept _ _).trans (ih _).2⟩
  exact h _ d

/-- Device reset is over. -/
def unreset (d : Dev) : Dev := { d with inReset := false }

theorem unreset_inReset (d : Dev) : d.unreset.inReset = false := (rfl)
theorem unreset_get (d : Dev) (f : Fld) (ch : Nat) : d.unreset.get f ch = d.get f ch := (rfl)

/-- The straps are sampled, the clocks of step 2 start, and the boot ROM. -/
def sampleStraps (d : Dev) (bootSrc twinId nvmOwn : Bool) : Dev :=
  (((((((d.put NVM.BOOT_STAT_BOOT_SRC bootSrc).put NVM.BOOT_STAT_TWIN_ID twinId).put NVM.BOOT_STAT_NVM_OWN nvmOwn).put
    NVM.BOOT_STAT_OWN_WAIT nvmOwn).put MGT.STAT_BOOTROM true).set NVM.BOOT_STAT_STEP 2).put GLB.CLK_STAT_SYS_LOCK true).put
      GLB.CLK_STAT_ACLK_OK true

/-- Debug mode holds where it was requested (R457). -/
def holdDebug (d : Dev) (dbg : Bool) : Dev := (d.put KEY.STAT_DEBUG dbg).when dbg fun d => d.raiseFault (devFault 222)

/-- The die's own key slot holds a fingerprint. -/
def withRoot (d : Dev) (fp : List Byte) : Dev := { d with keys := [((0, 0), fp)] }

theorem withRoot_inReset (d : Dev) (fp : List Byte) : (d.withRoot fp).inReset = d.inReset := (rfl)
theorem withRoot_keys (d : Dev) (fp : List Byte) : (d.withRoot fp).keys = [((0, 0), fp)] := (rfl)
theorem withRoot_get (d : Dev) (fp : List Byte) (f : Fld) (ch : Nat) : (d.withRoot fp).get f ch = d.get f ch := (rfl)

/-- The fingerprint that the die holds outside debug mode, and in it (R449). -/
def rootPrint (debug : Bool) : List Byte := if debug then Config.testRoot else Config.prodRoot

theorem rootSlot_eq_withRoot (d : Dev) : d.rootSlot =
    (d.withRoot (rootPrint (d.flag KEY.STAT_DEBUG))).set KEY.SLOT_FP_FP (leNat ((rootPrint (d.flag KEY.STAT_DEBUG)).take 4)) := by
  simp only [rootSlot, withRoot, rootPrint]

theorem deviceRelease_eq_rootSlot (d : Dev) (bootSrc twinId nvmOwn : Bool) : d.deviceRelease bootSrc twinId nvmOwn =
    ((d.unreset.sampleStraps bootSrc twinId nvmOwn).holdDebug
      ((d.unreset.sampleStraps bootSrc twinId nvmOwn).flag KEY.DBG_CTL_REQ)).rootSlot := by
  simp only [deviceRelease, unreset, sampleStraps, holdDebug]

theorem sampleStraps_only (d : Dev) (b t n : Bool) : OnlyRegs d (d.sampleStraps b t n) :=
  (((((((OnlyRegs.put _ _ _ _).trans (.put _ _ _ _)).trans (.put _ _ _ _)).trans (.put _ _ _ _)).trans (.put _ _ _ _)).trans
    (.set _ _ _ _)).trans (.put _ _ _ _)).trans (.put _ _ _ _)

theorem sampleStraps_status (d : Dev) (b t n : Bool) : (d.sampleStraps b t n).get NVM.BOOT_STAT_BOOT_SRC = b2n b ∧
    (d.sampleStraps b t n).get NVM.BOOT_STAT_TWIN_ID = b2n t ∧ (d.sampleStraps b t n).get NVM.BOOT_STAT_NVM_OWN = b2n n ∧
    (d.sampleStraps b t n).get NVM.BOOT_STAT_STEP = 2 ∧ (d.sampleStraps b t n).get MGT.STAT_BOOTROM = 1 := by
  refine ⟨?_, ?_, ?_, ?_, ?_⟩ <;> simp (disch := decide) only [sampleStraps, put_eq, get_set_off, get_set_fld, get_set_self]
  · exact b2n_mod b
  · exact b2n_mod t
  · exact b2n_mod n
  · rfl
  · rfl

theorem sampleStraps_request (d : Dev) (b t n : Bool) : (d.sampleStraps b t n).get KEY.DBG_CTL_REQ = d.get KEY.DBG_CTL_REQ := by
  simp (disch := decide) only [sampleStraps, put_eq, get_set_off]

theorem holdDebug_faults (d : Dev) (dbg : Bool) : OnlyFaults d (d.holdDebug dbg) := by
  cases dbg
  · exact .of_only (.put _ _ _ _)
  · exact (OnlyFaults.of_only (.put _ _ _ _)).trans (.raiseFault _ _)

theorem holdDebug_kept (d : Dev) (dbg : Bool) : OffsKept (d.put KEY.STAT_DEBUG dbg) (d.holdDebug dbg) [0x00010104] := by
  cases dbg
  · exact .refl _ _
  · exact raiseFault_kept _ _

theorem holdDebug_debug (d : Dev) (dbg : Bool) : (d.holdDebug dbg).get KEY.STAT_DEBUG = b2n dbg := by
  rw [(holdDebug_kept _ _).field _ _ (by decide), put_eq, get_set_self _ _ _ _ (by decide)]
  exact b2n_mod dbg

theorem holdDebug_get (d : Dev) (dbg : Bool) (f : Fld) (h : f.off ≠ 0x00050008) (h' : f.off ∉ [0x00010104]) :
    (d.holdDebug dbg).get f = d.get f := by
  rw [(holdDebug_kept _ _).field _ _ h', put_eq, get_set_off _ _ _ _ _ _ h]

theorem rootSlot_get (d : Dev) (f : Fld) (h : f.off ≠ 0x00050108) : d.rootSlot.get f = d.get f := by
  rw [rootSlot_eq_withRoot, get_set_off _ _ _ _ _ _ h, withRoot_get]

theorem rootSlot_inReset (d : Dev) : d.rootSlot.inReset = d.inReset := by
  rw [rootSlot_eq_withRoot, (OnlyRegs.set _ _ _ _).get_inReset, withRoot_inReset]

/-- The key that the die holds. -/
theorem rootSlot_key (d : Dev) : mapGet d.rootSlot.keys (0, 0) [] = rootPrint (d.flag KEY.STAT_DEBUG) := by
  rw [rootSlot_eq_withRoot, (OnlyRegs.set _ _ _ _).get_keys, withRoot_keys]
  rfl

/-- What the end of device reset leaves. -/
theorem deviceRelease_status (d : Dev) (bootSrc twinId nvmOwn : Bool) : (d.deviceRelease bootSrc twinId nvmOwn).inReset = false ∧
    (d.deviceRelease bootSrc twinId nvmOwn).get NVM.BOOT_STAT_BOOT_SRC = b2n bootSrc ∧
    (d.deviceRelease bootSrc twinId nvmOwn).get NVM.BOOT_STAT_TWIN_ID = b2n twinId ∧
    (d.deviceRelease bootSrc twinId nvmOwn).get NVM.BOOT_STAT_NVM_OWN = b2n nvmOwn ∧
    (d.deviceRelease bootSrc twinId nvmOwn).get NVM.BOOT_STAT_STEP = 2 ∧
    (d.deviceRelease bootSrc twinId nvmOwn).get MGT.STAT_BOOTROM = 1 ∧
    (d.deviceRelease bootSrc twinId nvmOwn).get KEY.STAT_DEBUG = d.get KEY.DBG_CTL_REQ ∧
    mapGet (d.deviceRelease bootSrc twinId nvmOwn).keys (0, 0) [] = rootPrint (d.flag KEY.DBG_CTL_REQ) := by
  have hreset := (d.unreset.sampleStraps_only bootSrc twinId nvmOwn).get_inReset.trans d.unreset_inReset
  obtain ⟨hsrc, htwin, hown, hstep, hrom⟩ := d.unreset.sampleStraps_status bootSrc twinId nvmOwn
  have hreq := (d.unreset.sampleStraps_request bootSrc twinId nvmOwn).trans (d.unreset_get _ _)
  rw [deviceRelease_eq_rootSlot]
  generalize d.unreset.sampleStraps bootSrc twinId nvmOwn = a at *
  have hflag : a.flag KEY.DBG_CTL_REQ = d.flag KEY.DBG_CTL_REQ := by rw [flag, flag, hreq]
  have hother (f : Fld) (h : f.off ≠ 0x00050108) (h' : f.off ≠ 0x00050008) (h'' : f.off ∉ [0x00010104]) :
      (a.holdDebug (a.flag KEY.DBG_CTL_REQ)).rootSlot.get f = a.get f :=
    (rootSlot_get _ _ h).trans (holdDebug_get _ _ _ h' h'')
  have hdebug : (a.holdDebug (a.flag KEY.DBG_CTL_REQ)).get KEY.STAT_DEBUG = a.get KEY.DBG_CTL_REQ :=
    (holdDebug_debug _ _).trans (b2n_flag _ _ _ rfl)
  refine ⟨?_, ?_, ?_, ?_, ?_, ?_, ?_, ?_⟩
  · rw [rootSlot_inReset, (holdDebug_faults _ _).get_inReset, hreset]
  · rw [hother _ (by decide) (by decide) (by decide), hsrc]
  · rw [hother _ (by decide) (by decide) (by decide), htwin]
  · rw [hother _ (by decide) (by decide) (by decide), hown]
  · rw [hother _ (by decide) (by decide) (by decide), hstep]
  · rw [hother _ (by decide) (by decide) (by decide), hrom]
  · rw [rootSlot_get _ _ (by decide), hdebug, hreq]
  · rw [rootSlot_key, flag, hdebug, ← flag, hflag]

end Dev

/-- RST_N rises: the levels at the power-good inputs, and the end of device reset where every one is high. -/
theorem exec_deviceResetRelease (pg : BitVec 4) (bootSrc twinId nvmOwn : Bool) (s : State) :
    exec (.deviceResetRelease pg bootSrc twinId nvmOwn) s = s.go fun d =>
      if pg = 0xF && ((d.withPg pg).powerBack pg).inReset then
        ((d.withPg pg).powerBack pg).deviceRelease bootSrc twinId nvmOwn
      else (d.withPg pg).powerBack pg := by
  have h : exec (.deviceResetRelease pg bootSrc twinId nvmOwn) s = execDeviceResetRelease pg bootSrc twinId nvmOwn s := rfl
  simp only [h, execDeviceResetRelease, Dev.withPg, Dev.powerBack]
  rfl

/-- DEVICE_RESET_RELEASE with every power-good input high. -/
theorem runsTo_deviceResetRelease (bootSrc twinId nvmOwn : Bool) (s : State) (hs : s.dev.inReset = true) :
    RunsTo (.deviceResetRelease 0xF bootSrc twinId nvmOwn) s fun d =>
      d.inReset = false ∧ d.get NVM.BOOT_STAT_BOOT_SRC = b2n bootSrc ∧ d.get NVM.BOOT_STAT_TWIN_ID = b2n twinId ∧
      d.get NVM.BOOT_STAT_NVM_OWN = b2n nvmOwn ∧ d.get NVM.BOOT_STAT_STEP = 2 ∧ d.get MGT.STAT_BOOTROM = 1 ∧
      d.get KEY.STAT_DEBUG = s.dev.get KEY.DBG_CTL_REQ ∧
      (mapGet d.keys (0, 0) [] = if s.dev.flag KEY.DBG_CTL_REQ then Config.testRoot else Config.prodRoot) := by
  obtain ⟨hfaults, hkept⟩ := (s.dev.withPg 0xF).powerBack_faults 0xF
  have hreset : ((s.dev.withPg 0xF).powerBack 0xF).inReset = true :=
    (hfaults.get_inReset.trans (Dev.withPg_inReset _ _)).trans hs
  have hreq : ((s.dev.withPg 0xF).powerBack 0xF).get KEY.DBG_CTL_REQ = s.dev.get KEY.DBG_CTL_REQ :=
    (hkept.field _ _ (by decide)).trans (Dev.withPg_get _ _ _ _)
  refine runsTo_go (exec_deviceResetRelease _ _ _ _ s) (if_pos (by rw [hreset]; rfl)) ?_
  generalize (s.dev.withPg 0xF).powerBack 0xF = a at hreq
  have h := a.deviceRelease_status bootSrc twinId nvmOwn
  rwa [Dev.flag, hreq, ← Dev.flag] at h

/-- DEVICE_RESET_RELEASE with a power-good input low. -/
theorem runsTo_deviceResetRelease_low (pg : BitVec 4) (bootSrc twinId nvmOwn : Bool) (s : State) (hpg : pg ≠ 0xF) :
    RunsTo (.deviceResetRelease pg bootSrc twinId nvmOwn) s fun d => d.inReset = s.dev.inReset ∧ d.pg = pg := by
  obtain ⟨hfaults, -⟩ := (s.dev.withPg pg).powerBack_faults pg
  refine runsTo_go (exec_deviceResetRelease _ _ _ _ s) (if_neg (by rw [decide_eq_false hpg]; exact Bool.false_ne_true))
    ⟨hfaults.get_inReset.trans (Dev.withPg_inReset _ _), hfaults.get_pg.trans (Dev.withPg_pg _ _)⟩

/-- A statement about what a meaning leaves follows from a stronger one. -/
theorem RunsTo.imp {i : Instr} {s : State} {P Q : Dev → Prop} (h : RunsTo i s P) (k : ∀ d, P d → Q d) : RunsTo i s Q := by
  obtain ⟨d, hd, hp⟩ := h
  exact ⟨d, hd, k d hp⟩

/-- HOST_RESET, both ways. -/
theorem runsTo_hostReset (s : State) (down : Bool) : RunsTo (.hostReset down) s fun d =>
    HostIsReset d ∧ (down = true → d.get HIF.STAT_LINK_UP = 0 ∧ Dev.devFault 252 ∈ d.conds) ∧
      (down = false → d.get HIF.STAT_LINK_UP = s.dev.get HIF.STAT_LINK_UP ∧ d.rising = s.dev.rising ++ [Dev.devFault 252]) := by
  cases down
  · exact (runsTo_hostReset_up s).imp fun _ ⟨h, k⟩ => ⟨h, nofun, fun _ => k⟩
  · exact (runsTo_hostReset_down s).imp fun _ ⟨h, k⟩ => ⟨h, fun _ => k, nofun⟩

/-- Settles O42: the control side, the host interface and the resets of the device, each by what its operations leave. -/
theorem resets : Obligations.Resets := by
  unfold Obligations.Resets
  refine ⟨fun s => ⟨runsTo_controlSideDown s, fun hheld hhalt hreset hboot => runsTo_controlSideUp s ?_, fun h => ?_⟩,
    fun s => ⟨fun down => (runsTo_hostReset s down).imp fun _ ⟨h, hdown, hup⟩ =>
        ⟨h.event, h.dmaFly, h.funcMask, h.masked, h.select, hdown, hup⟩,
      fun speed width => runsTo_pcieLinkUp speed width s, rfl⟩,
    fun s => ⟨runsTo_aonPowerUp s, runsTo_alwaysOnRailLoss s, runsTo_deviceResetAssert s, fun k => runsTo_powerGoodFall k s,
      fun bootSrc twinId nvmOwn hs => runsTo_deviceResetRelease bootSrc twinId nvmOwn s hs,
      fun pg bootSrc twinId nvmOwn hpg => runsTo_deviceResetRelease_low pg bootSrc twinId nvmOwn s hpg⟩⟩
  · simp [Dev.ctlHeld, hheld, hhalt, hreset, hboot]
  · refine runsTo_go (f := Dev.ctlUp) rfl (Dev.ctlUp_held _ ?_) rfl
    rcases h with h | h | h | h <;> simp [Dev.ctlHeld, h]

end Sys2Proof.Machine
end

section
/-!
Proofs, the output stages (chapters 3 and 4): what the words that leave a stage change, and the relation that says of an operation that an
output's raster counter and the active copies stand as they were, with the registers that it spares.
-/

namespace Sys2Proof.Machine

/-! ## Words on their way -/

namespace Dev

/-- Words go into their output slot's CRC while Consort runs (R366). -/
def slotCrcs (d : Dev) (o : Nat) (ws : List Word) : Dev := if d.flag CON.CTL_EN then ws.foldl (crcWord o) d else d

/-- Words wait behind those that left an output slot before. -/
def queueWords (d : Dev) (o : Nat) (ws : List Word) : Dev :=
  { d with outQ := mapPut d.outQ (o, 0) [] (mapGet d.outQ (o, 0) [] ++ ws) }

theorem outPush_eq_slotCrcs (d : Dev) (o : Nat) (ws : List Word) : d.outPush o ws =
    if !(d.slotCrcs o ws).taken o then d.slotCrcs o ws
    else if 1152 ≤ o then egrTake o (ws.length + 1) ((d.slotCrcs o ws).queueWords o ws) else (d.slotCrcs o ws).queueWords o ws := (rfl)

end Dev

/-- Nothing but words that left output slots, their CRCs and the packet outputs' rows differs. -/
def OnlyWords (d e : Dev) : Prop := ∃ q c g, e = { d with outQ := q, crcs := c, egrs := g }

namespace OnlyWords

variable {d e f : Dev}

theorem refl (d : Dev) : OnlyWords d d := ⟨_, _, _, rfl⟩

theorem trans (h : OnlyWords d e) (k : OnlyWords e f) : OnlyWords d f := by
  obtain ⟨_, _, _, rfl⟩ := h
  obtain ⟨q, c, g, rfl⟩ := k
  exact ⟨q, c, g, rfl⟩

theorem setCrc (d : Dev) (o : Nat) (x : SlotCrc) : OnlyWords d (d.setCrc o x) := ⟨_, _, _, rfl⟩
theorem setEgr (d : Dev) (o : Nat) (u : EgrUnit) : OnlyWords d (d.setEgr o u) := ⟨_, _, _, rfl⟩

theorem when (b : Bool) (g : Dev → Dev) (h : OnlyWords d (g d)) : OnlyWords d (d.when b g) := by
  cases b
  · exact refl d
  · exact h

theorem crcWord (o : Nat) (d : Dev) (w : Word) : OnlyWords d (Dev.crcWord o d w) :=
  (when _ _ (setCrc ..)).trans (setCrc ..)

theorem crcWords (o : Nat) (ws : List Word) : ∀ d, OnlyWords d (ws.foldl (Dev.crcWord o) d) := by
  induction ws with
  | nil => exact refl
  | cons w ws ih => exact fun d => (crcWord o d w).trans (ih _)

theorem egrLine (d : Dev) (o : Nat) (l : LineIn) (ws : List Samp) : OnlyWords d (d.egrLine o l ws) := by
  unfold Dev.egrLine
  split
  · exact refl d
  · split
    · exact setEgr ..
    · exact refl d

theorem egrTake (o n : Nat) : ∀ d, OnlyWords d (Dev.egrTake o n d) := by
  induction n with
  | zero => exact refl
  | succ n ih =>
    intro d
    unfold Dev.egrTake
    split
    · exact refl d
    · exact (trans ⟨_, _, _, rfl⟩ (egrLine ..)).trans (ih _)

theorem slotCrcs (d : Dev) (o : Nat) (ws : List Word) : OnlyWords d (d.slotCrcs o ws) := by
  unfold Dev.slotCrcs
  split
  · exact crcWords o ws d
  · exact refl d

theorem queueWords (d : Dev) (o : Nat) (ws : List Word) : OnlyWords d (d.queueWords o ws) := ⟨_, _, _, rfl⟩

theorem outPush (d : Dev) (o : Nat) (ws : List Word) : OnlyWords d (d.outPush o ws) := by
  refine (slotCrcs d o ws).trans ?_
  rw [Dev.outPush_eq_slotCrcs]
  generalize d.slotCrcs o ws = a
  split
  · exact refl a
  · split
    · exact (queueWords ..).trans (egrTake ..)
    · exact queueWords ..

theorem get_regs (h : OnlyWords d e) : e.regs = d.regs := by obtain ⟨_, _, _, rfl⟩ := h; rfl
theorem get_act (h : OnlyWords d e) : e.act = d.act := by obtain ⟨_, _, _, rfl⟩ := h; rfl
theorem get_outs (h : OnlyWords d e) : e.outs = d.outs := by obtain ⟨_, _, _, rfl⟩ := h; rfl
theorem get_syncOf (h : OnlyWords d e) : e.syncOf = d.syncOf := by obtain ⟨_, _, _, rfl⟩ := h; rfl
theorem get_ins (h : OnlyWords d e) : e.ins = d.ins := by obtain ⟨_, _, _, rfl⟩ := h; rfl
theorem get_slips (h : OnlyWords d e) : e.slips = d.slips := by obtain ⟨_, _, _, rfl⟩ := h; rfl

end OnlyWords

/-! ## An output's stage -/

namespace Dev

theorem outOf_setOut_self (d : Dev) (o : Nat) (x : OutStage) : (d.setOut o x).outOf o = x := mapGet_mapPut_self ..

theorem outOf_setOut_ne (d : Dev) {o p : Nat} (x : OutStage) (h : p ≠ o) : (d.setOut o x).outOf p = d.outOf p :=
  mapGet_mapPut_ne (fun e => h (Prod.mk.inj e).1) ..

theorem outOf_of_outs {d e : Dev} (h : e.outs = d.outs) (o : Nat) : e.outOf o = d.outOf o := by rw [outOf, outOf, h]

theorem setOut_regs (d : Dev) (o : Nat) (x : OutStage) : (d.setOut o x).regs = d.regs := (rfl)
theorem setOut_get (d : Dev) (o : Nat) (x : OutStage) (f : Fld) (ch : Nat) : (d.setOut o x).get f ch = d.get f ch := (rfl)
theorem setOut_reg (d : Dev) (o : Nat) (x : OutStage) (off ch : Nat) : (d.setOut o x).reg off ch = d.reg off ch := (rfl)

end Dev

/-- The raster counter of an output: whether it runs or waits, and where it stands. -/
def OutStage.counter (x : OutStage) : Bool × Option Int × Nat × Nat × Int := (x.run, x.wait, x.line, x.lineT, x.frameT)

/-- The counter, and whether a substitute runs. -/
def OutStage.raster (x : OutStage) : Bool × (Bool × Option Int × Nat × Nat × Int) := (x.sub, x.counter)

/-- An operation leaves what `π` takes of an output's stage, the active copies below the ancillary filters' and the registers at the offsets
of `P`. -/
structure Steady {α : Type} (π : OutStage → α) (o : Nat) (P : Nat → Prop) (d e : Dev) : Prop where
  stage : π (e.outOf o) = π (d.outOf o)
  act : ∀ off ch, off < 0x00300120 → e.actReg off ch = d.actReg off ch
  regs : ∀ off ch, P off → e.reg off ch = d.reg off ch

namespace Steady

variable {α : Type} {π : OutStage → α} {o : Nat} {P : Nat → Prop} {d e f : Dev}

theorem refl (d : Dev) : Steady π o P d d := ⟨rfl, fun _ _ _ => rfl, fun _ _ _ => rfl⟩

theorem trans (h : Steady π o P d e) (k : Steady π o P e f) : Steady π o P d f :=
  ⟨k.stage.trans h.stage, fun off ch n => (k.act off ch n).trans (h.act off ch n), fun off ch p => (k.regs off ch p).trans (h.regs off ch p)⟩

theorem mono {Q : Nat → Prop} (h : Steady π o P d e) (k : ∀ off, Q off → P off) : Steady π o Q d e :=
  ⟨h.stage, h.act, fun off ch p => h.regs off ch (k off p)⟩

/-- Where a substitute runs is left out. -/
theorem counter (h : Steady OutStage.raster o P d e) : Steady OutStage.counter o P d e := ⟨(Prod.mk.inj h.stage).2, h.act, h.regs⟩

theorem of_outs (ha : e.act = d.act) (ho : e.outs = d.outs) (hr : ∀ off ch, P off → e.reg off ch = d.reg off ch) : Steady π o P d e :=
  ⟨by rw [Dev.outOf_of_outs ho], fun off ch _ => by rw [Dev.actReg, Dev.actReg, ha], hr⟩

theorem of_words (h : OnlyWords d e) : Steady π o P d e :=
  of_outs h.get_act h.get_outs fun off ch _ => by rw [Dev.reg, Dev.reg, h.get_regs]

theorem of_only (h : OnlyRegs d e) (hr : ∀ off ch, P off → e.reg off ch = d.reg off ch) : Steady π o P d e :=
  of_outs h.get_act h.get_outs hr

theorem set (d : Dev) (x : Fld) (v ch : Nat) (h : ¬ P x.off) : Steady π o P d (d.set x v ch) :=
  of_only (.set ..) fun _ _ p => Dev.reg_set_ne d x v (.inl fun c => h (c ▸ p))

theorem put (d : Dev) (x : Fld) (b : Bool) (ch : Nat) (h : ¬ P x.off) : Steady π o P d (d.put x b ch) := set _ _ _ _ h
theorem raise (d : Dev) (x : Fld) (ch : Nat) (h : ¬ P x.off) : Steady π o P d (d.raise x ch) := set _ _ _ _ h
theorem count (d : Dev) (x : Fld) (n ch : Nat) (h : ¬ P x.off) : Steady π o P d (d.count x n ch) := set _ _ _ _ h

theorem raiseIf (d : Dev) (b : Bool) (x : Fld) (ch : Nat) (h : ¬ P x.off) : Steady π o P d (d.raiseIf b x ch) := by
  cases b
  · exact refl d
  · exact raise _ _ _ h

theorem when (b : Bool) (g : Dev → Dev) (h : Steady π o P d (g d)) : Steady π o P d (d.when b g) := by
  cases b
  · exact refl d
  · exact h

theorem ite (c : Prop) [Decidable c] (h : Steady π o P d e) (k : Steady π o P d f) : Steady π o P d (if c then e else f) := by
  split
  · exact h
  · exact k

theorem pulseFault (d : Dev) (x : FaultAt) : Steady π o P d (d.pulseFault x) := of_outs rfl rfl fun _ _ _ => rfl

theorem logAdd (d : Dev) (i n : Nat) (h : ¬ P 0x00090100) (h' : ¬ P 0x00090104) : Steady π o P d (d.logAdd i n) :=
  of_only (.logAdd ..) fun off ch p => OffsKept.logAdd (k := [0x00090100, 0x00090104]) d i n (by simp) (by simp) off ch fun m => by
    rcases List.mem_cons.1 m with rfl | m
    · exact h p
    · exact h' (List.mem_singleton.1 m ▸ p)

theorem setOut (d : Dev) (x : OutStage) (h : π x = π (d.outOf o)) : Steady π o P d (d.setOut o x) :=
  ⟨by rw [Dev.outOf_setOut_self, h], fun _ _ _ => rfl, fun _ _ _ => rfl⟩

theorem setAct (d : Dev) (off ch : Nat) (v : Word) (h : 0x00300120 ≤ off) : Steady π o P d (d.setAct off ch v) :=
  ⟨rfl, fun _ _ n => Dev.actReg_setAct_ne d v (.inl (by omega)), fun _ _ _ => rfl⟩

theorem foldl {β : Type} (g : Dev → β → Dev) (l : List β) (h : ∀ d, ∀ x ∈ l, Steady π o P d (g d x)) :
    ∀ d, Steady π o P d (l.foldl g d) := by
  induction l with
  | nil => exact refl
  | cons x l ih =>
    exact fun d => (h d x (List.mem_cons_self ..)).trans (ih (fun d y m => h d y (List.mem_cons_of_mem _ m)) _)

/-- A field of a register that is spared. -/
theorem get (h : Steady π o P d e) (x : Fld) (ch : Nat) (p : P x.off) : e.get x ch = d.get x ch := by
  rw [Dev.get, Dev.get, h.regs _ _ p]

end Steady

end Sys2Proof.Machine
end

section
/-!
Proofs, the output stages: what each operation of chapter 4 leaves of the raster counter, the active copies and the registers, and the
status that it shows.
-/

namespace Sys2Proof.Machine

/-- The registers that the substitute trigger, the generator and the active source of an output change: the LOG counter, the crosspoint's
status, events and counts, and the output stage's status and events. -/
def stageOffs : List Nat :=
  [0x00090100, 0x00090104, 0x00200004, 0x00200008, 0x00200108, 0x0020010C, 0x00200110, 0x00300190, 0x00300194]

/-- A register beside those. -/
abbrev BesideStage (off : Nat) : Prop := off ∉ stageOffs

/-- The registers that the begin and the end of a substitute change. -/
def subOffs : List Nat := [0x00090100, 0x00090104, 0x00200008, 0x0020010C, 0x00200110]

/-- A register beside those. -/
abbrev BesideSub (off : Nat) : Prop := off ∉ subOffs

theorem BesideStage.besideSub {off : Nat} (h : BesideStage off) : BesideSub off := fun m =>
  h ((by decide : ∀ x ∈ subOffs, x ∈ stageOffs) off m)

namespace Steady

variable {o : Nat} {P : Nat → Prop}

theorem outPush {α : Type} {π : OutStage → α} (d : Dev) (ws : List Word) : Steady π o P d (d.outPush o ws) := of_words (.outPush ..)

theorem procFlush (d : Dev) : Steady OutStage.raster o P d (d.procFlush o) := by
  unfold Dev.procFlush
  refine ite _ (refl d) (.trans ?_ (outPush _ _))
  exact setOut d _ rfl

theorem carry (d : Dev) (ws : List Word) : Steady OutStage.raster o P d (d.carry o ws) := by
  unfold Dev.carry
  exact ite _ (ite _ (setOut _ _ rfl) (outPush ..)) (refl d)

theorem shiftTicks (d : Dev) : Steady OutStage.raster o P d (d.shiftTicks o) := setOut _ _ rfl

theorem subNum {α : Type} {π : OutStage → α} (d : Dev) (up : Bool) : Steady π o BesideSub d (d.subNum up) := set _ _ _ _ (by decide)

/-- The count of outputs that substitute, the event and the LOG counter follow. -/
theorem subStart (d : Dev) : Steady OutStage.counter o BesideSub d (d.subStart o) := by
  unfold Dev.subStart
  refine (procFlush d).counter.trans ?_
  generalize d.procFlush o = a
  refine .trans (.trans (.trans (.trans ?_ (subNum _ _)) (logAdd _ _ _ (by decide) (by decide))) (raise _ _ _ (by decide)))
    (count _ _ _ _ (by decide))
  exact setOut a _ rfl

theorem subEnd (d : Dev) : Steady OutStage.counter o BesideSub d (d.subEnd o) := by
  unfold Dev.subEnd
  refine ite _ (.trans (.trans ?_ (subNum _ _)) (raise _ _ _ (by decide))) (refl d)
  exact setOut d _ rfl

theorem setGen {α : Type} {π : OutStage → α} (d : Dev) (b : Bool) : Steady π o BesideStage d (d.setGen o b) := by
  unfold Dev.setGen
  have h : Steady π o BesideStage d (d.put XP.SRC_STAT_GEN b o) := put _ _ _ _ (by decide)
  exact ite _ (h.trans (put _ _ _ _ (by decide))) h

theorem genStart (d : Dev) : Steady OutStage.raster o BesideStage d (d.genStart o) := by
  unfold Dev.genStart
  refine ite _ (refl d) ?_
  have h (y : OutStage) (hy : y.raster = ((d.procFlush o).outOf o).raster) :
      Steady OutStage.raster o BesideStage d (((d.procFlush o).setOut o y).setGen o true) :=
    ((procFlush d).trans (setOut _ _ hy)).trans (setGen _ _)
  refine ite _ (.trans ?_ (raise _ _ _ (by decide))) ?_
  · exact h _ rfl
  · exact h _ rfl

theorem genEnd (d : Dev) : Steady OutStage.raster o BesideStage d (d.genEnd o) := by
  unfold Dev.genEnd
  have h := setGen (π := OutStage.raster) (o := o) d false
  exact ite _ (ite _ (h.trans (raise _ _ _ (by decide))) h) (refl d)

theorem refreshCause {α : Type} {π : OutStage → α} (d : Dev) : Steady π o BesideStage d (d.refreshCause o) := set _ _ _ _ (by decide)

theorem refreshSrc {α : Type} {π : OutStage → α} (d : Dev) : Steady π o BesideStage d (d.refreshSrc o) := by
  unfold Dev.refreshSrc
  extract_lets s na new a b proc c
  have ha : Steady π o BesideStage d a :=
    (((put _ _ _ _ (by decide)).trans (put _ _ _ _ (by decide))).trans (put _ _ _ _ (by decide))).trans (put _ _ _ _ (by decide))
  have hb : Steady π o BesideStage a b := (put _ _ _ _ (by decide)).trans (raiseIf _ _ _ _ (by decide))
  have hc : Steady π o BesideStage b c := (put _ _ _ _ (by decide)).trans (set _ _ _ _ (by decide))
  have h := (ha.trans hb).trans hc
  exact ite _ ((h.trans (put _ _ _ _ (by decide))).trans (put _ _ _ _ (by decide))) h

end Steady

namespace Dev

/-! ## The substitute trigger's evaluation, step by step (R120, R122) -/

/-- Shedding and T as an output shows them, with the events of shedding. -/
def showTrig (d : Dev) (o : Nat) (sh t : Bool) : Dev :=
  (((d.raiseIf (sh && !d.flag XP.SRC_STAT_SHED o) XP.EVT_STAT_SHED_ON o).raiseIf (!sh && d.flag XP.SRC_STAT_SHED o)
    XP.EVT_STAT_SHED_OFF o).put XP.SRC_STAT_SHED sh o).put XP.SRC_STAT_TRIG t o

/-- A rise of T restarts the count of clean frames, and an output without a generator substitutes at once. -/
def actTrig (d : Dev) (o : Nat) (t : Bool) : Dev :=
  let d := d.when t fun d => d.setOut o { d.outOf o with clean := none }
  d.when (t && d.outRuns o && !fmtValid (d.outFmt o) && !(d.outOf o).sub) (·.subStart o)

theorem evalTrig_eq_actTrig (d : Dev) (o : Nat) : d.evalTrig o =
    ((((d.showTrig o (decide (d.srcAct o < 1664) && d.shedOut o (d.srcAct o)) (d.trigCause o (d.srcAct o) != 0)).actTrig o
      (d.trigCause o (d.srcAct o) != 0)).refreshSrc o).refreshCause o) := (rfl)

end Dev

namespace Steady

variable {o : Nat} {P : Nat → Prop}

theorem showTrig {α : Type} {π : OutStage → α} (d : Dev) (sh t : Bool) : Steady π o BesideStage d (d.showTrig o sh t) := by
  unfold Dev.showTrig
  exact (((raiseIf _ _ _ _ (by decide)).trans (raiseIf _ _ _ _ (by decide))).trans (put _ _ _ _ (by decide))).trans (put _ _ _ _ (by decide))

theorem actTrig (d : Dev) (t : Bool) : Steady OutStage.counter o BesideSub d (d.actTrig o t) := by
  unfold Dev.actTrig
  refine .trans (when t _ ?_) (when _ _ (subStart _))
  exact setOut d _ rfl

theorem evalTrig (d : Dev) : Steady OutStage.counter o BesideStage d (d.evalTrig o) := by
  rw [Dev.evalTrig_eq_actTrig]
  exact (((showTrig _ _ _).trans ((actTrig _ _).mono fun _ => BesideStage.besideSub)).trans (refreshSrc _)).trans (refreshCause _)

theorem genAtLine (d : Dev) : Steady OutStage.counter o BesideStage d (d.genAtLine o) := by
  unfold Dev.genAtLine
  have hg := (genStart (o := o) d).counter
  exact ite _ ((ite _ hg (ite _ (hg.trans ((subStart _).mono fun _ => BesideStage.besideSub)) (refl d))).trans (refreshCause _)) (refl d)

theorem outReturn (d : Dev) (dev : Int) : Steady OutStage.counter o BesideStage d (d.outReturn o dev) := by
  unfold Dev.outReturn
  have h : Steady OutStage.counter o BesideStage d (((d.genEnd o).subEnd o).refreshCause o) :=
    ((genEnd d).counter.trans ((subEnd _).mono fun _ => BesideStage.besideSub)).trans (refreshCause _)
  exact ite _ ((h.trans (raise _ _ _ (by decide))).trans (pulseFault _ _)) h

end Steady

namespace Dev

/-! ## A frame start is a commit point (R109, R125) -/

theorem reg_commit (d : Dev) (off ch off' ch' : Nat) : (d.commit off ch).reg off' ch' = d.reg off' ch' := (rfl)

theorem actReg_commit_self (d : Dev) (off ch : Nat) : (d.commit off ch).actReg off ch = d.reg off ch := actReg_setAct_self ..

theorem actReg_commit_ne (d : Dev) {off ch off' ch' : Nat} (h : off' ≠ off ∨ ch' ≠ ch) :
    (d.commit off ch).actReg off' ch' = d.actReg off' ch' := actReg_setAct_ne _ _ h

/-- The output policy and, below 1,536, the embedded groups take their shadows. -/
def outShadows (d : Dev) (o : Nat) : Dev := if o < 1536 then (d.commit 0x00200104 o).commit 0x00300114 o else d.commit 0x00200104 o

theorem outShadows_policy (d : Dev) (o : Nat) : (d.outShadows o).actReg 0x00200104 o = d.reg 0x00200104 o := by
  unfold outShadows
  split
  · rw [actReg_commit_ne _ (.inl (by decide)), actReg_commit_self]
  · rw [actReg_commit_self]

theorem outShadows_outOf (d : Dev) (o p : Nat) : (d.outShadows o).outOf p = d.outOf p := by
  unfold outShadows
  split <;> rfl

theorem outCommit_eq_outShadows (d : Dev) (o : Nat) : d.outCommit o = ((d.outShadows o).evalTrig o).genAtLine o := by
  unfold outCommit outShadows
  split <;> rfl

/-- A commit point leaves the counter where it stands, and brings the policy written into force. -/
theorem outCommit_counter (d : Dev) (o : Nat) : ((d.outCommit o).outOf o).counter = (d.outOf o).counter := by
  rw [outCommit_eq_outShadows, ((Steady.evalTrig _).trans (Steady.genAtLine _)).stage, outShadows_outOf]

theorem outCommit_policy (d : Dev) (o : Nat) : (d.outCommit o).actReg 0x00200104 o = d.reg 0x00200104 o := by
  rw [outCommit_eq_outShadows, ((Steady.evalTrig (o := o) _).trans (Steady.genAtLine _)).act _ _ (by decide), outShadows_policy]

end Dev

end Sys2Proof.Machine
end

section
/-!
Proofs, the output stages: the lines that are rebuilt, processed and generated (R88, R106, R108, R124) leave the raster counter alone.
-/

namespace Sys2Proof.Machine

/-- The crosspoint's window of registers. -/
abbrev XpWindow (off : Nat) : Prop := 0x00200000 ≤ off ∧ off < 0x00300000

namespace Steady

variable {o : Nat}

theorem of_notes {α : Type} {π : OutStage → α} {d e : Dev} (h : Notes 0x00200000 0x00300000 d e) : Steady π o XpWindow d e :=
  of_outs h.get_act h.get_outs fun off ch p => h.1 off ch p.1 p.2

theorem qConsume {α : Type} {π : OutStage → α} (d : Dev) (q size : Nat) : Steady π o XpWindow d (d.qConsume q size).2 :=
  of_notes (.qConsume (.inl (by decide)) (by decide) (.inl (by decide)) d q size)

/-- A record that is discarded is counted, with its event. -/
theorem discard {α : Type} {π : OutStage → α} (d : Dev) :
    Steady π o XpWindow d ((d.count SLP.CNT_ANC_DROP_COUNT 1 o).raise SLP.EVT_STAT_INS_DISCARD o) :=
  (count _ _ _ _ (by decide)).trans (raise _ _ _ (by decide))

theorem ancInsert {α : Type} {π : OutStage → α} (s line lines q : Nat) (rs : List (List Byte)) :
    ∀ (d : Dev) (acc : LinePkts), Steady π o XpWindow d (d.ancInsert o s line lines q rs acc).2 := by
  induction rs with
  | nil => exact fun d _ => refl d
  | cons r rs ih =>
    intro d acc
    have hc := qConsume (π := π) (o := o) d q 8
    unfold Dev.ancInsert
    extract_lets p outside tooLong c k
    split
    · split
      · split
        · split
          · exact (hc.trans (discard _)).trans (ih _ _)
          · exact hc.trans (ih _ _)
        · exact (hc.trans (discard _)).trans (ih _ _)
      · exact hc
    · exact refl d

theorem ancRebuild {α : Type} {π : OutStage → α} (d : Dev) (s line af : Nat) (a : AudioLine) (ins : List (List Byte)) (p : LinePkts) :
    Steady π o XpWindow d (d.ancRebuild o s line af a ins p).2 := by
  unfold Dev.ancRebuild
  extract_lets
  split
  · exact ancInsert _ _ _ _ _ _ _
  · exact refl d

theorem lineRebuild (d : Dev) (l : LineIn) (a : AudioLine) (ins : List (List Byte)) :
    Steady OutStage.raster o XpWindow d (d.lineRebuild o l a ins).2 := by
  unfold Dev.lineRebuild
  extract_lets s r
  have hr : Steady OutStage.raster o XpWindow d r.2 := ancRebuild _ _ _ _ _ _ _
  refine hr.trans ?_
  exact setOut _ _ rfl

theorem fltCommit {α : Type} {π : OutStage → α} {P : Nat → Prop} (d : Dev) (slot c : Nat) : Steady π o P d (d.fltCommit slot c) := by
  unfold Dev.fltCommit
  exact foldl _ _ (fun d n _ => setAct _ _ _ _ (by omega)) d

/-- A line is rebuilt with the filters' values of the line. -/
theorem filteredRebuild (d : Dev) (l : LineIn) (a : AudioLine) (ins : List (List Byte)) :
    Steady OutStage.raster o XpWindow d ((d.fltCommit o fltOut).lineRebuild o l a ins).2 :=
  (fltCommit d o fltOut).trans (lineRebuild _ _ _ _)

theorem procLine (d : Dev) (ins : List (List Byte)) : Steady OutStage.raster o XpWindow d (d.procLine o ins) := by
  unfold Dev.procLine
  extract_lets x ss
  split
  · exact refl d
  · extract_lets old r ws b
    refine ite _ (.trans ?_ (outPush _ _)) ?_
    · exact setOut d _ rfl
    · have hb : Steady OutStage.raster o XpWindow d b := filteredRebuild d _ _ ins
      refine hb.trans (.trans ?_ (outPush _ _))
      exact setOut b _ rfl

theorem counterSpan (d : Dev) : Steady OutStage.raster o XpWindow d (d.counterSpan o) := by
  unfold Dev.counterSpan
  split
  · exact refl d
  · exact setOut d _ rfl

theorem genLine (d : Dev) (ins : List (List Byte)) : Steady OutStage.raster o XpWindow d (d.genLine o ins) := by
  unfold Dev.genLine
  split
  · exact refl d
  · extract_lets x code a b r0 l r c w y g
    refine ite _ ?_ ?_
    · have hr : Steady OutStage.raster o XpWindow d r.2 := filteredRebuild d _ _ ins
      refine hr.trans (.trans ?_ (outPush _ _))
      exact setOut r.2 _ rfl
    · refine .trans ?_ (outPush _ _)
      exact setOut d _ rfl

end Steady

end Sys2Proof.Machine
end

section
/-!
Proofs, the raster counter of an output (R89, R90, R91, R109, R125).
-/

namespace Sys2Proof.Machine

theorem OutStage.fields_of_counter {x y : OutStage} (h : x.counter = y.counter) :
    x.run = y.run ∧ x.wait = y.wait ∧ x.line = y.line ∧ x.lineT = y.lineT ∧ x.frameT = y.frameT := by
  simpa [OutStage.counter] using h

namespace Dev

theorem outOf_counterFrame (d : Dev) (o : Nat) (t : Int) :
    (d.counterFrame o t).outOf o = { d.outOf o with line := 0, frameT := t } := outOf_setOut_self ..

theorem counterFrame_reg (d : Dev) (o : Nat) (t : Int) (off ch : Nat) : (d.counterFrame o t).reg off ch = d.reg off ch := (rfl)

/-- A frame start of the counter: line 0, the instant, and the policy written in force; else the counter stands. -/
theorem frameCommit (d : Dev) (o : Nat) (t : Int) :
    (((d.counterFrame o t).outCommit o).outOf o).counter = ((d.outOf o).run, (d.outOf o).wait, 0, (d.outOf o).lineT, t) ∧
      ((d.counterFrame o t).outCommit o).actReg 0x00200104 o = d.reg 0x00200104 o := by
  constructor
  · rw [outCommit_counter, outOf_counterFrame]
    rfl
  · rw [outCommit_policy, counterFrame_reg]

/-! ## The counter starts (R90) -/

/-- The stage of an output whose counter starts now. -/
def startedStage (d : Dev) (o : Nat) : OutStage :=
  { d.outOf o with wait := none, run := true, lineT := d.slotNow, span := 0, placed := true, part := 0, gen := Gen.start (d.outFmt o) }

/-- The cadence's last frame start, and its instant. -/
def cadenceFrame (d : Dev) (o : Nat) : Int := mapGet d.cadLast (d.outCad o, 0) (-1)
def cadenceInst (d : Dev) (o : Nat) : Int := frameTu (d.cadRate (d.outCad o)) (d.cadOfs (d.outCad o)) (d.cadenceFrame o)

theorem counterStart_due {d : Dev} {o : Nat} {k : Int} (hw : (d.outOf o).wait = some k) (hr : d.outRuns o = true)
    (hk : k < d.cadenceFrame o) :
    d.counterStart o = ((d.setOut o (d.startedStage o)).counterFrame o (d.cadenceInst o)).outCommit o := by
  have hc : (d.outRuns o && decide (k < d.cadenceFrame o)) = true := by
    rw [hr, decide_eq_true hk]
    rfl
  unfold counterStart
  rw [hw]
  exact if_pos hc

theorem counterStart_early {d : Dev} {o : Nat} {k : Int} (hw : (d.outOf o).wait = some k) (hk : d.cadenceFrame o ≤ k) :
    d.counterStart o = d := by
  have hc : decide (k < mapGet d.cadLast (d.outCad o, 0) (-1)) = false := decide_eq_false (not_lt.2 hk)
  unfold counterStart
  rw [hw]
  simp only [hc, Bool.and_false, Bool.false_eq_true, if_false]

end Dev

/-- COUNTER_START. -/
theorem runsTo_counterStart (o : Slot) (k : Int) (s : State) (hw : (s.dev.outOf o).wait = some k) (hr : s.dev.outRuns o = true) :
    (k < s.dev.cadenceFrame o → RunsTo (.counterStart o) s fun d => (d.outOf o).run = true ∧ (d.outOf o).wait = none ∧
      (d.outOf o).line = 0 ∧ (d.outOf o).lineT = s.dev.slotNow ∧ d.actReg 0x00200104 o = s.dev.reg 0x00200104 o) ∧
    (s.dev.cadenceFrame o ≤ k → RunsTo (.counterStart o) s fun d => d = s.dev) := by
  constructor
  · intro hk
    refine runsTo_go (f := fun d => d.counterStart o) rfl (Dev.counterStart_due hw hr hk) ?_
    obtain ⟨hc, ha⟩ := (s.dev.setOut o (s.dev.startedStage o)).frameCommit o (s.dev.cadenceInst o)
    rw [Dev.outOf_setOut_self] at hc
    obtain ⟨hrun, hwait, hline, hlineT, -⟩ := OutStage.fields_of_counter (y := { s.dev.startedStage o with line := 0, frameT := _ }) hc
    exact ⟨hrun, hwait, hline, hlineT, ha.trans (Dev.setOut_reg ..)⟩
  · exact fun hk => runsTo_go (f := fun d => d.counterStart o) rfl (Dev.counterStart_early hw hk) rfl

namespace Dev

/-! ## A frame start of the counter (R109, R125) -/

/-- The correction that the generator is to make, judged at the counter's frame start (R86, R93). -/
def frameFix (d : Dev) (o : Nat) : Option Bool :=
  let x := d.outOf o
  let word : Int := (tuPerNs * 5 / 2 : Nat)
  let dev := d.cadNow - (d.nearestStart (d.outCad o) (d.cadNow - x.genOfs) + x.genOfs)
  if !d.flag XP.SRC_STAT_GEN o then x.gen.fix
  else if dev > word then some true else if dev < -word then some false else x.gen.fix

/-- The stage with that correction. -/
def fixedStage (d : Dev) (o : Nat) : OutStage := { d.outOf o with gen := { (d.outOf o).gen with fix := d.frameFix o } }

end Dev

/-- COUNTER_FRAME_START. -/
theorem runsTo_counterFrameStart (o : Slot) (s : State) (hr : (s.dev.outOf o).run = true) :
    RunsTo (.counterFrameStart o) s fun d => (d.outOf o).line = 0 ∧ (d.outOf o).frameT = s.dev.cadNow ∧
      d.actReg 0x00200104 o = s.dev.reg 0x00200104 o := by
  have he : exec (.counterFrameStart o) s = s.go fun d => if (d.outOf o).run then
      ((d.setOut o (d.fixedStage o)).counterFrame o d.cadNow).outCommit o else d := rfl
  refine runsTo_go he (if_pos hr) ?_
  obtain ⟨hc, ha⟩ := (s.dev.setOut o (s.dev.fixedStage o)).frameCommit o s.dev.cadNow
  rw [Dev.outOf_setOut_self] at hc
  obtain ⟨-, -, hline, -, hframe⟩ := OutStage.fields_of_counter (y := { s.dev.fixedStage o with line := 0, frameT := s.dev.cadNow }) hc
  exact ⟨hline, hframe, ha.trans (Dev.setOut_reg ..)⟩

namespace Dev

/-! ## A line start of the counter (R89) -/

theorem outOf_shiftTicks (d : Dev) (o : Nat) :
    (d.shiftTicks o).outOf o = { d.outOf o with due := (d.outOf o).ticks, ticks := [] } := outOf_setOut_self ..

theorem outFmt_shiftTicks (d : Dev) (o p : Nat) : (d.shiftTicks o).outFmt p = d.outFmt p := (rfl)

/-- The next line of a counter that runs. -/
def nextLine (f : Fmt) (x : OutStage) : OutStage :=
  { x with line := if x.line ≥ f.lines then 1 else x.line + 1, lineT := if x.placed then x.lineT else x.lineT + x.span, placed := false }

theorem counterLine_run {d : Dev} {o : Nat} {f : Fmt} (hf : fmtOf (d.outFmt o) = some f) (hr : (d.outOf o).run = true) :
    (d.counterLine o).outOf o = nextLine f (d.outOf o) := by
  unfold counterLine
  rw [hf]
  simp only [hr, if_true, outOf_setOut_self, nextLine]

/-- The ticks of a line that ends are shifted, unless the line start was placed. -/
def tickShift (d : Dev) (o : Nat) : Dev := if (d.outOf o).placed then d else d.shiftTicks o

/-- What the line holds: generated words, or the counter's span over it. -/
def lineBody (d : Dev) (o : Nat) (ins : List (List Byte)) : Dev :=
  if d.outRuns o && (d.outOf o).run then (if d.flag XP.SRC_STAT_GEN o then d.genLine o ins else d.counterSpan o) else d

theorem lineBody_steady (d : Dev) (o : Nat) (ins : List (List Byte)) : Steady OutStage.counter o XpWindow d (d.lineBody o ins) :=
  .ite _ (.ite _ (Steady.genLine d ins).counter (Steady.counterSpan d).counter) (.refl d)

end Dev

/-- COUNTER_LINE_START. -/
theorem runsTo_counterLineStart (o : Slot) (ins : List (List Byte)) (f : Fmt) (s : State) (hf : fmtOf (s.dev.outFmt o) = some f)
    (hr : (s.dev.outOf o).run = true) : RunsTo (.counterLineStart o ins) s fun d =>
      (d.outOf o).line = (if (s.dev.outOf o).line ≥ f.lines then 1 else (s.dev.outOf o).line + 1) ∧
      (d.outOf o).lineT = if (s.dev.outOf o).placed then (s.dev.outOf o).lineT else (s.dev.outOf o).lineT + (s.dev.outOf o).span := by
  have he : exec (.counterLineStart o ins) s = s.go fun d => (((d.tickShift o).counterLine o).genAtLine o).lineBody o ins := rfl
  have hn : (((s.dev.tickShift o).counterLine o).outOf o).counter = (Dev.nextLine f (s.dev.outOf o)).counter := by
    unfold Dev.tickShift
    split
    · rw [Dev.counterLine_run hf hr]
    · rw [Dev.counterLine_run (f := f) (hf ▸ congrArg fmtOf (Dev.outFmt_shiftTicks ..)) (by rw [Dev.outOf_shiftTicks]; exact hr),
        Dev.outOf_shiftTicks]
      rfl
  refine runsTo_go he rfl ?_
  have hs := ((Steady.genAtLine (o := o) ((s.dev.tickShift o).counterLine o)).mono (Q := fun _ => False) nofun).trans
    ((Dev.lineBody_steady _ o ins).mono nofun)
  obtain ⟨-, -, hline, hlineT, -⟩ := OutStage.fields_of_counter (hs.stage.trans hn)
  exact ⟨hline, hlineT⟩

end Sys2Proof.Machine
end

section
/-!
Proofs, the start and the stop of an output stage (R90, R94, R109, R126, R134).
-/

namespace Sys2Proof.Machine

namespace Dev

/-- The contexts of a packet output wait anew (R196). -/
def refreshWaits (d : Dev) (o : Nat) : Dev := if 1152 ≤ o then d.refreshWait (o - 1152) else d

theorem refreshWaits_only (d : Dev) (o : Nat) : OnlyRegs d (d.refreshWaits o) := by
  unfold refreshWaits
  split
  · exact OnlyRegs.foldl _ (fun _ _ => .put _ _ _ _) _ _
  · exact .refl d

theorem refreshWaits_kept (d : Dev) (o : Nat) : OffsKept d (d.refreshWaits o) [FLW.CTX_STAT_WAIT.off] := by
  have h (g : Dev → Nat → Bool) (l : List Nat) : ∀ e : Dev,
      OffsKept e (l.foldl (fun e c => e.put FLW.CTX_STAT_WAIT (g e c) c) e) [FLW.CTX_STAT_WAIT.off] := by
    induction l with
    | nil => exact fun e => .refl e _
    | cons c l ih => exact fun e => (OffsKept.set _ _ _ _ (List.mem_singleton.2 rfl)).trans (ih _)
  unfold refreshWaits
  split
  · exact h egressWaits _ d
  · exact .refl d _

theorem refreshWaits_outOf (d : Dev) (o p : Nat) : (d.refreshWaits o).outOf p = d.outOf p :=
  outOf_of_outs (d.refreshWaits_only o).get_outs p

theorem actReg_of_act {d e : Dev} (h : e.act = d.act) (off ch : Nat) : e.actReg off ch = d.actReg off ch := by
  rw [actReg, actReg, h]

/-! ## The start (R90) -/

/-- The stage of an output that starts: with a format its counter waits for the cadence's next frame start. -/
def waitingStage (d : Dev) (o : Nat) : OutStage :=
  { OutStage.init with on := true, wait := if fmtValid (d.outFmt o) then some (d.cadenceFrame o) else none }

theorem outStart_eq_waitingStage (d : Dev) (o : Nat) : d.outStart o = (d.setOut o (d.waitingStage o)).evalTrig o := (rfl)

/-- The F fields of an output below 1,536 take effect. -/
def bothShadows (d : Dev) (o : Nat) : Dev := (d.commit 0x00200104 o).commit 0x00300114 o

theorem bothShadows_get (d : Dev) (o : Nat) (f : Fld) (ch : Nat) : (d.bothShadows o).get f ch = d.get f ch := (rfl)
theorem bothShadows_cadLast (d : Dev) (o : Nat) : (d.bothShadows o).cadLast = d.cadLast := (rfl)

theorem bothShadows_act (d : Dev) (o : Nat) :
    (d.bothShadows o).actReg 0x00200104 o = d.reg 0x00200104 o ∧ (d.bothShadows o).actReg 0x00300114 o = d.reg 0x00300114 o := by
  constructor
  · rw [bothShadows, actReg_commit_ne _ (.inl (by decide)), actReg_commit_self]
  · rw [bothShadows, actReg_commit_self, reg_commit]

/-- OUT_EN is written. -/
def withOutEn (d : Dev) (o : Nat) (en : Bool) : Dev := d.put SLP.OUT_CFG_OUT_EN en o

theorem withOutEn_en (d : Dev) (o : Nat) (en : Bool) : (d.withOutEn o en).get SLP.OUT_CFG_OUT_EN o = b2n en :=
  (get_set_self _ _ _ _ (by decide)).trans (b2n_mod en)

theorem withOutEn_reg (d : Dev) (o : Nat) (en : Bool) (off ch : Nat) (h : off ≠ 0x00300110) :
    (d.withOutEn o en).reg off ch = d.reg off ch := reg_set_ne _ _ _ (.inl h)

theorem withOutEn_only (d : Dev) (o : Nat) (en : Bool) : OnlyRegs d (d.withOutEn o en) := .put _ _ _ _

/-- The format and the cadence of an output below 1,536 are not OUT_EN's. -/
theorem waitingStage_enabled (d : Dev) (o : SlpSlot) (en : Bool) : ((d.withOutEn o en).bothShadows o).waitingStage o = d.waitingStage o := by
  have hfmt : ((d.withOutEn o en).bothShadows o).outFmt o = d.outFmt o := by
    simp only [outFmt, o.isLt, if_true, bothShadows_get]
    exact get_set_fld _ _ _ _ _ _ (by decide) (by decide)
  have hcad : ((d.withOutEn o en).bothShadows o).outCad o = d.outCad o := by
    simp only [outCad, o.isLt, if_true, bothShadows_get]
    exact get_set_fld _ _ _ _ _ _ (by decide) (by decide)
  unfold waitingStage cadenceFrame
  rw [hfmt, hcad, bothShadows_cadLast, (d.withOutEn_only o en).get_cadLast]

end Dev

/-- OUTPUT_ENABLE with EN = 1 at a stopped output. -/
theorem runsTo_outputEnable_start (o : SlpSlot) (s : State) (hen : s.dev.get SLP.OUT_CFG_OUT_EN o = 0) :
    RunsTo (.outputEnable o true) s fun d => d.get SLP.OUT_CFG_OUT_EN o = 1 ∧
      (d.outOf o).wait = (if fmtValid (s.dev.outFmt o) then some (s.dev.cadenceFrame o) else none) ∧
      (d.outOf o).run = false ∧ d.actReg 0x00200104 o = s.dev.reg 0x00200104 o ∧ d.actReg 0x00300114 o = s.dev.reg 0x00300114 o := by
  have he : exec (.outputEnable o true) s = s.go fun d =>
      (if true && !d.flag SLP.OUT_CFG_OUT_EN o then ((d.withOutEn o true).bothShadows o).outStart o
        else if !true && d.flag SLP.OUT_CFG_OUT_EN o then ((d.withOutEn o true).takesStop o).outStop o
        else d.withOutEn o true).refreshWaits o := rfl
  have hflag : s.dev.flag SLP.OUT_CFG_OUT_EN o = false := by rw [Dev.flag, hen]; rfl
  refine runsTo_go he (congrArg (Dev.refreshWaits · o) (if_pos (by rw [hflag]; rfl))) ?_
  have hstage := s.dev.waitingStage_enabled o true
  have hen' : ((s.dev.withOutEn o true).bothShadows o).get SLP.OUT_CFG_OUT_EN o = 1 :=
    (Dev.bothShadows_get ..).trans (Dev.withOutEn_en ..)
  obtain ⟨hpol, haud⟩ := (s.dev.withOutEn o true).bothShadows_act o
  rw [Dev.withOutEn_reg _ _ _ _ _ (by decide)] at hpol haud
  rw [Dev.outStart_eq_waitingStage, hstage]
  generalize (s.dev.withOutEn o true).bothShadows o = a at *
  have hs := Steady.evalTrig (o := o) (a.setOut o (s.dev.waitingStage o))
  have hc := hs.stage
  rw [Dev.outOf_setOut_self] at hc
  obtain ⟨hrun, hwait, -, -, -⟩ := OutStage.fields_of_counter hc
  have hact (off : Nat) (h : off < 0x00300120) : (((a.setOut o (s.dev.waitingStage o)).evalTrig o).refreshWaits o).actReg off o = a.actReg off o :=
    (Dev.actReg_of_act (Dev.refreshWaits_only _ _).get_act _ _).trans (hs.act _ _ h)
  rw [Dev.refreshWaits_outOf, hact _ (by decide), hact _ (by decide), (Dev.refreshWaits_kept _ _).field _ _ (by decide),
    hs.get _ _ (by decide), Dev.setOut_get]
  exact ⟨hen', hwait, hrun, hpol, haud⟩

namespace Dev

/-! ## The stop (R94, R134) -/

/-- An output's list of pending takes. -/
def withTakes (d : Dev) (o : Nat) (ts : List Take) : Dev := { d with takes := mapPut d.takes (o, 0) [] ts }

/-- The status that follows the list (Table 5.15). -/
def showTakes (d : Dev) (o : Nat) (ts : List Take) : Dev :=
  let d := (d.set HIF.TK_QSTAT_DEPTH ts.length o).set HIF.TK_QSTAT_UNARMED (ts.filter (·.due.isNone)).length o
  d.set HIF.TK_QSTAT_NEXT_SRC (match d.nextTake o with | some t => t.src | none => 0x7FF) o

theorem withTakes_takesOf (d : Dev) (o : Nat) (ts : List Take) : (d.withTakes o ts).takesOf o = ts := mapGet_mapPut_self ..
theorem withTakes_reg (d : Dev) (o : Nat) (ts : List Take) (off ch : Nat) : (d.withTakes o ts).reg off ch = d.reg off ch := (rfl)

/-- The windows between the control side's and the general queues'. -/
theorem showTakes_notes (d : Dev) (o : Nat) (ts : List Take) : Notes 0x00100000 0x00600000 d (d.showTakes o ts) :=
  ((Notes.set _ _ _ _ (by decide)).trans (.set _ _ _ _ (by decide))).trans (.set _ _ _ _ (by decide))

/-- The outcome of an entry touches the host interface, the queues, the counters and the messages. -/
theorem takeFinal_notes (d : Dev) (org : Origin) (out code flags salvo : Nat) :
    Notes 0x00100000 0x00600000 d (d.takeFinal org out code flags salvo) := by
  have hl : 0x00090110 < 0x00100000 ∨ 0x00600000 ≤ 0x00090000 := .inl (by decide)
  unfold takeFinal
  extract_lets a b r
  have ha : Notes 0x00100000 0x00600000 d a := by
    unfold a
    split
    · exact (Notes.raise _ _ _ (by decide)).trans (.count _ _ _ _ (by decide))
    · exact (Notes.raise _ _ _ (by decide)).trans (.count _ _ _ _ (by decide))
  have hb : Notes 0x00100000 0x00600000 d b := (ha.trans (.raiseIf _ _ _ _ (by decide))).trans (.logAdd hl _ _ _)
  split
  · have hr : Notes 0x00100000 0x00600000 d r.2 := hb.trans (.qProduce hl (by decide) (.inl (by decide)) _ _ _)
    split
    · exact hr
    · exact (hr.trans (.count _ _ _ _ (by decide))).trans (.raise _ _ _ (by decide))
  · exact hb

theorem takeEnd_notes (d : Dev) (o : Nat) (t : Take) (code flags : Nat) :
    Notes 0x00100000 0x00600000 d (d.takeEnd o t code flags) := (takeFinal_notes ..).trans (.set _ _ _ _ (by decide))

/-- Behind the emptied list, the ends of its takes are outcomes alone. -/
theorem takesStop_notes (d : Dev) (o : Nat) : Notes 0x00100000 0x00600000 (d.withTakes o []) (d.takesStop o) := by
  have hnone : (d.takesOf o).filter (fun _ => !true) = [] := List.filter_false _
  unfold takesStop takesDrop
  simp only [hnone]
  exact (showTakes_notes _ _ _).trans (Notes.foldl _ (fun e t => takeEnd_notes ..) _ _)

/-- No take is pending at an output that has stopped. -/
theorem takesStop_takesOf (d : Dev) (o : Nat) : (d.takesStop o).takesOf o = [] := by
  rw [takesOf, (d.takesStop_notes o).get_takes, ← takesOf, withTakes_takesOf]

theorem takesStop_get (d : Dev) (o : Nat) (f : Fld) (ch : Nat) (h : 0x00100000 ≤ f.off) (h' : f.off < 0x00600000) :
    (d.takesStop o).get f ch = d.get f ch := by
  rw [(d.takesStop_notes o).get f ch h h', get, withTakes_reg, get]

/-- No word waits at an output. -/
def dropWords (d : Dev) (o : Nat) : Dev :=
  ({ d with outQ := mapPut d.outQ (o, 0) [] [] }.setEgr o EgrUnit.init).setCrc o SlotCrc.init

theorem dropWords_only (d : Dev) (o : Nat) : OnlyWords d (d.dropWords o) := ⟨_, _, _, rfl⟩

/-- A substitute that ran counts no more. -/
def dropSub (d : Dev) (o : Nat) : Dev := if (d.outOf o).sub then d.subNum false else d

theorem dropSub_only (d : Dev) (o : Nat) : OnlyRegs d (d.dropSub o) := by
  unfold dropSub
  split
  · exact .set _ _ _ _
  · exact .refl d

theorem outStop_eq_dropWords (d : Dev) (o : Nat) :
    d.outStop o = ((((d.dropSub o).dropWords o).setOut o OutStage.init).setGen o false).set XP.SRC_STAT_CAUSE 0 o := (rfl)

theorem setGen_only (d : Dev) (o : Nat) (b : Bool) : OnlyRegs d (d.setGen o b) := by
  unfold setGen
  extract_lets a
  have h : OnlyRegs d a := .put _ _ _ _
  split
  · exact h.trans (.put _ _ _ _)
  · exact h

/-- GEN of the crosspoint's status. -/
theorem setGen_gen (d : Dev) (o : Nat) (b : Bool) : (d.setGen o b).get XP.SRC_STAT_GEN o = b2n b := by
  have h : (d.put XP.SRC_STAT_GEN b o).get XP.SRC_STAT_GEN o = b2n b := (get_set_self _ _ _ _ (by decide)).trans (b2n_mod b)
  unfold setGen
  split
  · exact (get_set_off _ _ _ _ _ _ (by decide)).trans h
  · exact h

theorem setOut_takes (d : Dev) (o : Nat) (x : OutStage) : (d.setOut o x).takes = d.takes := (rfl)

theorem outStop_takesOf (d : Dev) (o p : Nat) : (d.outStop o).takesOf p = d.takesOf p := by
  have hw : ((d.dropSub o).dropWords o).takes = d.takes := by
    obtain ⟨_, _, _, hw⟩ := (d.dropSub o).dropWords_only o
    rw [hw]
    exact (d.dropSub_only o).get_takes
  rw [outStop_eq_dropWords, takesOf, (OnlyRegs.set _ _ _ _).get_takes, (setGen_only _ _ _).get_takes, setOut_takes, hw, ← takesOf]

theorem outStop_outOf (d : Dev) (o : Nat) : (d.outStop o).outOf o = OutStage.init := by
  rw [outStop_eq_dropWords, outOf_of_outs (OnlyRegs.set _ _ _ _).get_outs, outOf_of_outs (setGen_only _ _ _).get_outs, outOf_setOut_self]

theorem outStop_status (d : Dev) (o : Nat) : (d.outStop o).get XP.SRC_STAT_GEN o = 0 ∧ (d.outStop o).get XP.SRC_STAT_CAUSE o = 0 := by
  rw [outStop_eq_dropWords]
  constructor
  · rw [get_set_fld _ _ _ _ _ _ (by decide) (by decide), setGen_gen]
    rfl
  · rw [get_set_self _ _ _ _ (by decide), Nat.zero_mod]

/-- The configuration of the output stays. -/
theorem outStop_en (d : Dev) (o : Nat) : (d.outStop o).get SLP.OUT_CFG_OUT_EN o = d.get SLP.OUT_CFG_OUT_EN o := by
  have hw : Steady OutStage.counter o BesideStage d ((d.dropSub o).dropWords o) :=
    (Steady.ite _ ((Steady.subNum d false).mono fun _ => BesideStage.besideSub) (.refl d)).trans (.of_words (dropWords_only _ _))
  rw [outStop_eq_dropWords, get_set_off _ _ _ _ _ _ (by decide),
    (Steady.setGen (π := OutStage.counter) (o := o) _ false).get _ _ (by decide), setOut_get, hw.get _ _ (by decide)]

end Dev

/-- OUTPUT_ENABLE with EN = 0 at an output that runs. -/
theorem runsTo_outputEnable_stop (o : SlpSlot) (s : State) (hen : s.dev.get SLP.OUT_CFG_OUT_EN o = 1) :
    RunsTo (.outputEnable o false) s fun d => d.get SLP.OUT_CFG_OUT_EN o = 0 ∧ (d.outOf o).run = false ∧ d.takesOf o = [] ∧
      d.get XP.SRC_STAT_GEN o = 0 ∧ d.get XP.SRC_STAT_CAUSE o = 0 := by
  have he : exec (.outputEnable o false) s = s.go fun d =>
      (if false && !d.flag SLP.OUT_CFG_OUT_EN o then ((d.withOutEn o false).bothShadows o).outStart o
        else if !false && d.flag SLP.OUT_CFG_OUT_EN o then ((d.withOutEn o false).takesStop o).outStop o
        else d.withOutEn o false).refreshWaits o := rfl
  have hflag : s.dev.flag SLP.OUT_CFG_OUT_EN o = true := by rw [Dev.flag, hen]; rfl
  refine runsTo_go he (congrArg (Dev.refreshWaits · o) ((if_neg Bool.false_ne_true).trans (if_pos (by rw [hflag]; rfl)))) ?_
  have hoff := (Dev.takesStop_get (s.dev.withOutEn o false) o SLP.OUT_CFG_OUT_EN o (by decide) (by decide)).trans (s.dev.withOutEn_en o false)
  have htakes := (s.dev.withOutEn o false).takesStop_takesOf o
  generalize (s.dev.withOutEn o false).takesStop o = a at hoff htakes
  obtain ⟨hgen, hcause⟩ := a.outStop_status o
  have hkept := (a.outStop o).refreshWaits_kept o
  refine ⟨?_, ?_, ?_, ?_, ?_⟩
  · rw [hkept.field _ _ (by decide), Dev.outStop_en, hoff]
    rfl
  · rw [Dev.refreshWaits_outOf, Dev.outStop_outOf]
    rfl
  · rw [Dev.takesOf, (Dev.refreshWaits_only _ _).get_takes, ← Dev.takesOf, Dev.outStop_takesOf, htakes]
  · rw [hkept.field _ _ (by decide), hgen]
  · rw [hkept.field _ _ (by decide), hcause]

end Sys2Proof.Machine
end

section
/-!
Proofs, the substitute trigger and the route of an output (R22, R112, R113, R117, R120, R126).
-/

namespace Sys2Proof.Machine

namespace Dev

/-! ## The status that follows the active source (Table 4.10) -/

theorem srcAct_of_reg {d e : Dev} {o : Nat} (h : e.reg 0x00200108 o = d.reg 0x00200108 o) : e.srcAct o = d.srcAct o :=
  congrArg (bitsOf · XP.SRC_STAT_SRC_ACT.lo XP.SRC_STAT_SRC_ACT.w) h

/-- The latency of a route reads nothing but the configuration of the output. -/
theorem routeLat_congr {d e : Dev} {o : Nat} (s : Nat) (h : e.reg 0x00300110 o = d.reg 0x00300110 o) : e.routeLat o s = d.routeLat o s := by
  have hf (f : Fld) (hf : f.off = 0x00300110) : e.flag f o = d.flag f o := by rw [flag, flag, get, get, hf, h]
  rw [routeLat, routeLat, hf _ rfl, hf _ rfl]

theorem routeLat_lt (d : Dev) (o s : Nat) : d.routeLat o s < 32 := by
  unfold routeLat
  split
  · split <;> omega
  · omega

/-- The fields of SRC_STAT that belong to the active source, T and the generator. -/
def causeFields : List Fld := [XP.SRC_STAT_SRC_ACT, XP.SRC_STAT_TRIG, XP.SRC_STAT_GEN]

/-- They are no concern of what follows from the source. -/
theorem refreshSrc_field (d : Dev) (o : Nat) {f : Fld} (hf : f ∈ causeFields) : (d.refreshSrc o).get f o = d.get f o := by
  simp only [causeFields, List.mem_cons, List.not_mem_nil, or_false] at hf
  unfold refreshSrc
  rcases hf with rfl | rfl | rfl <;> split <;> simp (disch := decide) only [put_eq, get_set_off, get_set_fld, raiseIf_get_off]

theorem refreshSrc_invalid (d : Dev) (o : Nat) : (d.refreshSrc o).get XP.SRC_STAT_INVALID o = b2n (invalidSrc (d.srcAct o)) := by
  unfold refreshSrc
  split <;> simp (disch := decide) only [put_eq, get_set_off, get_set_fld, get_set_self, raiseIf_get_off] <;> exact b2n_mod _

theorem refreshSrc_lat (d : Dev) (o : Nat) : (d.refreshSrc o).get XP.SRC_STAT_LAT o = d.routeLat o (d.srcAct o) := by
  unfold refreshSrc
  extract_lets s na new a b proc c
  have hb : Steady OutStage.counter o (fun off => off ≠ 0x00200108 ∧ off ≠ 0x0020010C) d b :=
    (((((Steady.put _ _ _ _ (by decide)).trans (.put _ _ _ _ (by decide))).trans (.put _ _ _ _ (by decide))).trans
      (.put _ _ _ _ (by decide))).trans (.put _ _ _ _ (by decide))).trans (.raiseIf _ _ _ _ (by decide))
  have hl : b.routeLat o s = d.routeLat o s := routeLat_congr s (hb.regs _ _ (by decide))
  have hc : c.get XP.SRC_STAT_LAT o = d.routeLat o s := by
    rw [← hl]
    exact (get_set_self _ _ _ _ (by decide)).trans (Nat.mod_eq_of_lt (routeLat_lt ..))
  split
  · simp (disch := decide) only [put_eq, get_set_off, hc]
    rfl
  · exact hc

/-! ## T and what follows it (R120) -/

theorem showTrig_trig (d : Dev) (o : Nat) (sh t : Bool) : (d.showTrig o sh t).get XP.SRC_STAT_TRIG o = b2n t :=
  (get_set_self _ _ _ _ (by decide)).trans (b2n_mod t)

theorem showTrig_srcAct (d : Dev) (o : Nat) (sh t : Bool) : (d.showTrig o sh t).srcAct o = d.srcAct o := by
  unfold srcAct showTrig
  simp (disch := decide) only [put_eq, get_set_fld, raiseIf_get_off]

/-- Before what follows the source, a stage's evaluation has shown T, and kept the source. -/
theorem trigShown (d : Dev) (o : Nat) (sh t : Bool) : ((d.showTrig o sh t).actTrig o t).srcAct o = d.srcAct o ∧
    ((d.showTrig o sh t).actTrig o t).get XP.SRC_STAT_TRIG o = b2n t := by
  have h := Steady.actTrig (o := o) (d.showTrig o sh t) t
  exact ⟨(srcAct_of_reg (h.regs _ _ (by decide))).trans (showTrig_srcAct ..), (h.get _ _ (by decide)).trans (showTrig_trig ..)⟩

theorem refreshCause_field (d : Dev) (o : Nat) (f : Fld) (h : f.lo + f.w ≤ 16 ∨ 19 ≤ f.lo) :
    (d.refreshCause o).get f o = d.get f o := get_set_fld _ _ _ _ _ _ (by decide) (by simp only [XP.SRC_STAT_CAUSE]; omega)

theorem evalTrig_trig (d : Dev) (o : Nat) : (d.evalTrig o).get XP.SRC_STAT_TRIG o = b2n (d.trigCause o (d.srcAct o) != 0) := by
  rw [evalTrig_eq_actTrig, refreshCause_field _ _ _ (by decide), refreshSrc_field _ _ (by decide)]
  exact (trigShown ..).2

theorem evalTrig_srcAct (d : Dev) (o : Nat) : (d.evalTrig o).srcAct o = d.srcAct o := by
  rw [evalTrig_eq_actTrig, srcAct, refreshCause_field _ _ _ (by decide), refreshSrc_field _ _ (by decide)]
  exact (trigShown ..).1

theorem evalTrig_invalid (d : Dev) (o : Nat) : (d.evalTrig o).get XP.SRC_STAT_INVALID o = b2n (invalidSrc (d.srcAct o)) := by
  rw [evalTrig_eq_actTrig, refreshCause_field _ _ _ (by decide), refreshSrc_invalid, (trigShown ..).1]

theorem evalTrig_lat (d : Dev) (o : Nat) : (d.evalTrig o).get XP.SRC_STAT_LAT o = d.routeLat o (d.srcAct o) := by
  have h (sh t : Bool) := (Steady.showTrig (π := OutStage.counter) (o := o) d sh t).trans
    ((Steady.actTrig _ t).mono fun _ => BesideStage.besideSub)
  rw [evalTrig_eq_actTrig, refreshCause_field _ _ _ (by decide), refreshSrc_lat, (trigShown ..).1]
  exact routeLat_congr _ ((h _ _).regs _ _ (by decide))

/-! ## The active source changes (R126) -/

/-- The change of the source with its event and its counter. -/
def moveSrc (d : Dev) (o s : Nat) : Dev :=
  ((d.set XP.SRC_STAT_SRC_ACT s o).raiseIf (d.srcAct o != s) XP.EVT_STAT_SRC_CHG o).logAdd 1758 (b2n (d.srcAct o != s))

/-- An invalid code is reported. -/
def reportInvalid (d : Dev) (o : Nat) (b : Bool) : Dev :=
  if b then ((d.raise XP.EVT_STAT_SRC_INV o).raise XP.BLK_EVT_INV_SRC).pulseFault ⟨111, 1, o, 0⟩ else d

theorem setSrc_eq_moveSrc (d : Dev) (o s : Nat) :
    d.setSrc o s = ((d.moveSrc o s).reportInvalid o (invalidSrc s && d.srcAct o != s)).refreshSrc o := (rfl)

theorem moveSrc_srcAct (d : Dev) (o : Nat) {s : Nat} (h : s < 2048) : (d.moveSrc o s).srcAct o = s := by
  have hl (e : Dev) (i n : Nat) : (e.logAdd i n).srcAct o = e.srcAct o :=
    srcAct_of_reg (OffsKept.logAdd (k := [0x00090100, 0x00090104]) e i n (by simp) (by simp) _ _ (by decide))
  rw [moveSrc, hl, srcAct, raiseIf_get_off _ _ _ (by decide), get_set_self _ _ _ _ (by decide)]
  exact Nat.mod_eq_of_lt h

end Dev

namespace Steady

variable {α : Type} {π : OutStage → α} {o : Nat}

theorem reportInvalid (d : Dev) (b : Bool) : Steady π o (· ∉ [0x0020010C, 0x00200004]) d (d.reportInvalid o b) :=
  ite _ (((raise _ _ _ (by decide)).trans (raise _ _ _ (by decide))).trans (pulseFault _ _)) (refl d)

theorem setSrc (d : Dev) (s : Nat) : Steady π o BesideStage d (d.setSrc o s) := by
  have hm : Steady π o BesideStage d (d.moveSrc o s) :=
    ((set _ _ _ _ (by decide)).trans (raiseIf _ _ _ _ (by decide))).trans (logAdd _ _ _ (by decide) (by decide))
  rw [Dev.setSrc_eq_moveSrc]
  exact (hm.trans ((reportInvalid _ _).mono fun off h m => h ((by decide : ∀ x ∈ [0x0020010C, 0x00200004], x ∈ stageOffs) off m))).trans
    (refreshSrc _)

end Steady

namespace Dev

theorem setSrc_srcAct (d : Dev) (o : Nat) {s : Nat} (h : s < 2048) : (d.setSrc o s).srcAct o = s := by
  have hr := Steady.reportInvalid (π := OutStage.counter) (o := o) (d.moveSrc o s) (invalidSrc s && d.srcAct o != s)
  rw [setSrc_eq_moveSrc, srcAct, refreshSrc_field _ _ (by decide)]
  exact (srcAct_of_reg (hr.regs _ _ (by decide))).trans (moveSrc_srcAct _ _ h)

end Dev

/-! ## The commands -/

/-- TRIGGER_CHANGE. -/
theorem runsTo_triggerChange (o : Slot) (s : State) : RunsTo (.triggerChange o) s fun d =>
    d.get XP.SRC_STAT_TRIG o = b2n (s.dev.trigCause o (s.dev.srcAct o) != 0) ∧ d.srcAct o = s.dev.srcAct o :=
  runsTo_go (f := fun d => d.evalTrig o) rfl rfl ⟨Dev.evalTrig_trig .., Dev.evalTrig_srcAct ..⟩

theorem exec_routeWrite (m : Master) (v : Word) (s : State) : exec (.routeWrite m v) s = s.go fun d =>
    match d.selOf m XP.OUT_SEL_SEL 1664 with
    | none => d
    | some o =>
      if d.outRuns o then
        if d.get XP.ROUTE_SRC o = v.toNat % 2048 then d else (d.raise XP.BLK_EVT_CLASS_VIOL).busViol m.code 0x00200100
      else ((d.set XP.ROUTE_SRC (v.toNat % 2048) o).setSrc o (v.toNat % 2048)).evalTrig o := rfl

theorem Dev.selOf_in {d : Dev} {m : Master} {f : Fld} {n o : Nat} (h : d.get f m.code = o) (ho : o < n) : d.selOf m f n = some o := by
  rw [selOf, h]
  exact if_pos ho

/-- ROUTE_WRITE at a stopped output. -/
theorem runsTo_routeWrite_stopped (m : Master) (v : Word) (o : Nat) (s : State) (hm : s.dev.get XP.OUT_SEL_SEL m.code = o) (ho : o < 1664)
    (hr : s.dev.outRuns o = false) :
    RunsTo (.routeWrite m v) s fun d => d.srcAct o = v.toNat % 2048 ∧ d.get XP.ROUTE_SRC o = v.toNat % 2048 ∧
      d.get XP.SRC_STAT_INVALID o = b2n (invalidSrc (v.toNat % 2048)) ∧
      d.get XP.SRC_STAT_LAT o = if v.toNat % 2048 < 1664 then
        9 + (o % 4 + 4 - v.toNat % 4) % 4 + (if s.dev.processed o then 4 else 0) else 0 := by
  have hsrc : v.toNat % 2048 < 2048 := Nat.mod_lt _ (by decide)
  have hmod : v.toNat % 2048 % 4 = v.toNat % 4 := Nat.mod_mod_of_dvd _ (by decide)
  refine runsTo_go (e := ((s.dev.set XP.ROUTE_SRC (v.toNat % 2048) o).setSrc o (v.toNat % 2048)).evalTrig o) (exec_routeWrite m v s)
    (by simp only [Dev.selOf_in hm ho, hr, Bool.false_eq_true, if_false]) ?_
  have hs := Steady.setSrc (π := OutStage.counter) (o := o) (s.dev.set XP.ROUTE_SRC (v.toNat % 2048) o) (v.toNat % 2048)
  have hact := Dev.setSrc_srcAct (s.dev.set XP.ROUTE_SRC (v.toNat % 2048) o) o hsrc
  have hroute : (s.dev.set XP.ROUTE_SRC (v.toNat % 2048) o).get XP.ROUTE_SRC o = v.toNat % 2048 :=
    (Dev.get_set_self _ _ _ _ (by decide)).trans (Nat.mod_eq_of_lt hsrc)
  have hcfg : ((s.dev.set XP.ROUTE_SRC (v.toNat % 2048) o).setSrc o (v.toNat % 2048)).reg 0x00300110 o = s.dev.reg 0x00300110 o :=
    (hs.regs _ _ (by decide)).trans (Dev.reg_set_ne _ _ _ (.inl (by decide)))
  have hroute' := (hs.get XP.ROUTE_SRC o (by decide)).trans hroute
  generalize (s.dev.set XP.ROUTE_SRC (v.toNat % 2048) o).setSrc o (v.toNat % 2048) = a at *
  refine ⟨(Dev.evalTrig_srcAct ..).trans hact, ((Steady.evalTrig a).get _ _ (by decide)).trans hroute', ?_, ?_⟩
  · rw [Dev.evalTrig_invalid, hact]
  · rw [Dev.evalTrig_lat, hact, Dev.routeLat_congr _ hcfg, Dev.routeLat, hmod]
    rfl

/-- ROUTE_WRITE that would change the route of an output that runs. -/
theorem runsTo_routeWrite_running (m : Master) (v : Word) (o : Nat) (s : State) (hm : s.dev.get XP.OUT_SEL_SEL m.code = o) (ho : o < 1664)
    (hr : s.dev.outRuns o = true) (hv : s.dev.get XP.ROUTE_SRC o ≠ v.toNat % 2048) :
    RunsTo (.routeWrite m v) s fun d => d.get XP.BLK_EVT_CLASS_VIOL = 1 ∧ d.get BUS.EVT_STAT_VIOL = 1 ∧
      (∀ o, d.srcAct o = s.dev.srcAct o) ∧ (∀ o, d.get XP.ROUTE_SRC o = s.dev.get XP.ROUTE_SRC o) := by
  refine runsTo_go (e := (s.dev.raise XP.BLK_EVT_CLASS_VIOL).busViol m.code 0x00200100) (exec_routeWrite m v s)
    (by simp only [Dev.selOf_in hm ho, hr, if_true, if_neg hv]) ?_
  have hk := (s.dev.raise XP.BLK_EVT_CLASS_VIOL).busViol_kept m.code 0x00200100
  refine ⟨?_, Dev.busViol_event .., fun p => ?_, fun p => ?_⟩
  · rw [hk.field _ _ (by decide)]
    exact Dev.get_set_self _ _ _ _ (by decide)
  · rw [Dev.srcAct, hk.field _ _ (by decide)]
    exact Dev.get_set_off _ _ _ _ _ _ (by decide)
  · rw [hk.field _ _ (by decide)]
    exact Dev.get_set_off _ _ _ _ _ _ (by decide)

/-- XP_CNT_CLR. -/
theorem runsTo_xpCntClr (o : Slot) (s : State) : RegsTo (.xpCntClr o) s fun d => d.get XP.CNT_SUB_COUNT o = 0 ∧
    RegsKept s.dev d [(0x00200110, o.val)] := by
  refine regsTo_go (f := fun d => d.clear [XP.CNT_SUB_COUNT] o) rfl (.clear ..) ⟨?_, .clear _ _ (by simp [XP.CNT_SUB_COUNT]) _⟩
  exact (Dev.get_set_self _ _ _ _ (by decide)).trans (Nat.zero_mod _)

end Sys2Proof.Machine
end

section
/-!
Proofs, a source's line start at an output (R91, R94, R121).
-/

namespace Sys2Proof.Machine

namespace Dev

/-! ## The counter is re-phased (R91) -/

/-- The stage of an output whose counter's line starts at an instant. -/
def phasedStage (d : Dev) (o now : Nat) : OutStage :=
  let x := d.outOf o
  let c := accConst (d.outFmt o)
  { x with lineT := now, placed := true, part := 0,
           gen := { x.gen with acc := (((x.gen.acc : Nat) + ((now : Nat) - (x.lineT + x.span : Nat) : Int) * c.1) % (c.2 : Int)).toNat } }

theorem rephase_line {d : Dev} {o : Nat} (now : Nat) (t : Int) (h : (d.outOf o).run = true) :
    d.rephase o now false t = d.setOut o (d.phasedStage o now) := if_pos h

theorem rephase_frame {d : Dev} {o : Nat} (now : Nat) (t : Int) (h : (d.outOf o).run = true) :
    d.rephase o now true t = ((d.setOut o (d.phasedStage o now)).counterFrame o t).outCommit o := if_pos h

/-- At a line start of the source that is no frame start the counter keeps its line. -/
theorem rephase_line_counter {d : Dev} {o : Nat} (now : Nat) (t : Int) (h : (d.outOf o).run = true) :
    ((d.rephase o now false t).outOf o).counter = { d.outOf o with lineT := now }.counter := by
  rw [rephase_line now t h, outOf_setOut_self]
  rfl

/-- A frame start of the source is one of the counter. -/
theorem rephase_frame_counter {d : Dev} {o : Nat} (now : Nat) (t : Int) (h : (d.outOf o).run = true) :
    ((d.rephase o now true t).outOf o).counter = { d.outOf o with lineT := now, line := 0, frameT := t }.counter ∧
      (d.rephase o now true t).actReg 0x00200104 o = d.reg 0x00200104 o := by
  obtain ⟨hc, ha⟩ := (d.setOut o (d.phasedStage o now)).frameCommit o t
  rw [rephase_frame now t h]
  rw [outOf_setOut_self] at hc
  exact ⟨hc, ha.trans (setOut_reg ..)⟩

/-! ## What the source's line start finds (R28) -/

/-- The stage that has taken note of its source's line starts. -/
def seenStage (d : Dev) (o : Nat) : OutStage := { d.outOf o with seen := d.srcSeq (d.srcAct o) }

/-- A line that waits on the Processed Path leaves. -/
def procOut (d : Dev) (o : Nat) (ins : List (List Byte)) : Dev := if d.processed o then d.procLine o ins else d

theorem procOut_steady (d : Dev) (o : Nat) (ins : List (List Byte)) : Steady OutStage.raster o XpWindow d (d.procOut o ins) :=
  .ite _ (.procLine d ins) (.refl d)

/-- A line start of an input that the output has not noted reaches it. -/
theorem sourceStart_input {d : Dev} {o : Nat} (m : Memory) (ins : List (List Byte)) (hs : d.srcAct o < 1152)
    (hy : d.synced (d.srcAct o) = false) (hn : d.srcSeq (d.srcAct o) ≠ (d.outOf o).seen) :
    d.sourceStart m o ins = ((d.setOut o (d.seenStage o)).sourceLine o (d.insOf (d.srcAct o)).eavT ((d.insOf (d.srcAct o)).line == 1)
      (d.insOf (d.srcAct o)).frameT (d.insOf (d.srcAct o)).buf).procOut o ins := by
  have hmade : d.made (d.srcAct o) = false := by
    have : decide (1152 ≤ d.srcAct o) = false := decide_eq_false (by omega)
    simp only [made, hy, this, Bool.false_and, Bool.or_false]
  have hlt : d.srcAct o < 1664 := by omega
  have hne : (d.srcSeq (d.srcAct o) != (d.outOf o).seen) = true := bne_iff_ne.2 hn
  have hi : d.lineInfo (d.srcAct o) = ((d.insOf (d.srcAct o)).eavT, (d.insOf (d.srcAct o)).line == 1, (d.insOf (d.srcAct o)).frameT,
      (d.insOf (d.srcAct o)).buf) := by
    rw [lineInfo, hmade]
    rfl
  unfold sourceStart
  simp only [hmade, hlt, hne, hi, Bool.and_false, Bool.false_and, Bool.false_eq_true, if_false, decide_true, Bool.and_self, if_true]
  rfl

theorem feedLine_slot {d : Dev} {o : Nat} (h : o < 1536) : d.feedLine o = d := by
  have hn : decide (1536 ≤ o) = false := decide_eq_false (by omega)
  simp only [feedLine, hn, Bool.false_and, Bool.false_eq_true, if_false]

/-! ## An output that passes its source -/

/-- Whether an output below 1,536 passes its source hangs on its configuration, its status and its stage. -/
theorem passing_congr {d e : Dev} {o : Nat} (ho : o < 1536) (hcfg : e.reg 0x00300110 o = d.reg 0x00300110 o)
    (hgen : e.get XP.SRC_STAT_GEN o = d.get XP.SRC_STAT_GEN o) (hsrc : e.srcAct o = d.srcAct o)
    (hrun : (e.outOf o).run = (d.outOf o).run) (hsub : (e.outOf o).sub = (d.outOf o).sub) : e.passing o = d.passing o := by
  have hc (f : Fld) (h : f.off = 0x00300110) : e.get f o = d.get f o := by rw [get, get, h, hcfg]
  have hr : e.outRuns o = d.outRuns o := by rw [outRuns, outRuns, if_pos ho, if_pos ho, flag, flag, hc _ rfl]
  have hf : e.outFmt o = d.outFmt o := by rw [outFmt, outFmt, if_pos ho, if_pos ho, hc _ rfl]
  rw [passing, passing, hr, hf, hsrc, hrun, hsub, flag, flag, hgen]

theorem outRuns_congr {d e : Dev} {o : Nat} (ho : o < 1536) (hcfg : e.reg 0x00300110 o = d.reg 0x00300110 o) :
    e.outRuns o = d.outRuns o := by
  rw [outRuns, outRuns, if_pos ho, if_pos ho, flag, flag]
  exact congrArg (· != 0) (congrArg (bitsOf · SLP.OUT_CFG_OUT_EN.lo SLP.OUT_CFG_OUT_EN.w) hcfg)

/-- The block in which a line start of the source is judged: noted, with the status that follows the source. -/
def lineSeen (d : Dev) (o : Nat) : Dev := (d.setOut o (d.seenStage o)).refreshSrc o

theorem lineSeen_outOf (d : Dev) (o : Nat) : (d.lineSeen o).outOf o = d.seenStage o := by
  have h := (Steady.refreshSrc (π := id) (o := o) (d.setOut o (d.seenStage o))).stage
  rwa [outOf_setOut_self] at h

theorem lineSeen_steady (d : Dev) (o : Nat) : Steady OutStage.raster o BesideStage d (d.lineSeen o) := by
  refine .trans ?_ (.refreshSrc _)
  exact .setOut d _ rfl

theorem lineSeen_field (d : Dev) (o : Nat) {f : Fld} (hf : f ∈ causeFields) : (d.lineSeen o).get f o = d.get f o := by
  rw [lineSeen, refreshSrc_field _ _ hf, setOut_get]

theorem lineSeen_passing (d : Dev) {o : Nat} (ho : o < 1536) : (d.lineSeen o).passing o = d.passing o := by
  obtain ⟨hsub, hc⟩ := Prod.mk.inj (d.lineSeen_steady o).stage
  obtain ⟨hrun, -, -, -, -⟩ := OutStage.fields_of_counter hc
  exact passing_congr ho ((d.lineSeen_steady o).regs _ _ (by decide)) (d.lineSeen_field o (by decide)) (d.lineSeen_field o (by decide))
    hrun hsub

theorem lineSeen_judged {d : Dev} {o : Nat} (ho : o < 1536) (hr : d.outRuns o = true) (hw : (d.outOf o).wait = none) :
    (!(d.lineSeen o).outRuns o || ((d.lineSeen o).outOf o).wait.isSome) = false := by
  rw [outRuns_congr ho ((d.lineSeen_steady o).regs _ _ (by decide)), hr, lineSeen_outOf, seenStage, hw]
  rfl

/-- The line start re-phases an output that passes its source. -/
theorem sourceLine_passing {d : Dev} {o : Nat} (now : Nat) (frame : Bool) (t : Int) (ws : List Word) (ho : o < 1536)
    (hr : d.outRuns o = true) (hw : (d.outOf o).wait = none) (hp : d.passing o = true) :
    (d.setOut o (d.seenStage o)).sourceLine o now frame t ws = ((d.lineSeen o).shiftTicks o).rephase o now frame t :=
  (if_neg (ne_true_of_eq_false (lineSeen_judged ho hr hw))).trans (if_pos ((d.lineSeen_passing ho).trans hp))

/-- An output whose generator or substitute has no cause any more, and waits for no frames, returns to its source. -/
theorem sourceLine_returns {d : Dev} {o : Nat} (now : Nat) (frame : Bool) (t : Int) (ws : List Word) (ho : o < 1536)
    (hr : d.outRuns o = true) (hw : (d.outOf o).wait = none) (hp : d.passing o = false) (hs : d.srcAct o < 1664)
    (ht : d.flag XP.SRC_STAT_TRIG o = false) (hk : d.getAct XP.OUT_POL_RET_FRAMES o = 0) :
    (d.setOut o (d.seenStage o)).sourceLine o now frame t ws =
      ((((d.lineSeen o).outReturn o ((d.lineSeen o).lineDev o now)).shiftTicks o).rephase o now frame t).carry o ws := by
  have hsrc : (d.lineSeen o).srcAct o = d.srcAct o := d.lineSeen_field o (by decide)
  have htrig : (d.lineSeen o).flag XP.SRC_STAT_TRIG o = false := by rw [flag, d.lineSeen_field o (by decide), ← flag, ht]
  have hret : (d.lineSeen o).getAct XP.OUT_POL_RET_FRAMES o = 0 := by rw [getAct, (d.lineSeen_steady o).act _ _ (by decide), ← getAct, hk]
  have hcond : (decide ((d.lineSeen o).srcAct o < 1664) && !(d.lineSeen o).flag XP.SRC_STAT_TRIG o) = true := by
    rw [hsrc, htrig, decide_eq_true hs]
    rfl
  exact (if_neg (ne_true_of_eq_false (lineSeen_judged ho hr hw))).trans
    ((if_neg (ne_true_of_eq_false ((d.lineSeen_passing ho).trans hp))).trans ((if_pos hcond).trans (if_pos hret)))

/-! ## The return (R94, R121) -/

/-- The generator and the substitute end. -/
def genBack (d : Dev) (o : Nat) : Dev := ((d.genEnd o).subEnd o).refreshCause o

/-- A jump of the phase at the return is reported. -/
def reportJump (d : Dev) (o : Nat) (b : Bool) : Dev := if b then (d.raise SLP.EVT_STAT_PHASE_JUMP o).pulseFault ⟨93, 1, o, 0⟩ else d

theorem outReturn_eq_genBack (d : Dev) (o : Nat) (dev : Int) : d.outReturn o dev =
    (d.genBack o).reportJump o (decide (o < 1536) && ((d.genBack o).outOf o).run && (decide (dev > 1) || decide (dev < -1))) := (rfl)

theorem reportJump_steady (d : Dev) (o : Nat) (b : Bool) : Steady OutStage.raster o (· ≠ 0x00300194) d (d.reportJump o b) :=
  .ite _ ((Steady.raise _ _ _ (by decide)).trans (.pulseFault _ _)) (.refl d)

theorem genEnd_gen {d : Dev} {o : Nat} (h : d.flag XP.SRC_STAT_GEN o = true) : (d.genEnd o).get XP.SRC_STAT_GEN o = 0 := by
  have hg : (d.setGen o false).get XP.SRC_STAT_GEN o = 0 := setGen_gen d o false
  unfold genEnd
  rw [if_pos h]
  split
  · exact (get_set_off _ _ _ _ _ _ (by decide)).trans hg
  · exact hg

theorem subEnd_sub (d : Dev) (o : Nat) : ((d.subEnd o).outOf o).sub = false := by
  unfold subEnd
  cases hs : (d.outOf o).sub
  · exact hs
  · rw [if_pos rfl, outOf_of_outs (OnlyRegs.raise _ _ _).get_outs, subNum, outOf_of_outs (OnlyRegs.set _ _ _ _).get_outs,
      outOf_setOut_self]

/-- A generator that ends emits no more, nothing substitutes, and no cause is shown. -/
theorem genBack_status {d : Dev} {o : Nat} (h : d.flag XP.SRC_STAT_GEN o = true) : (d.genBack o).get XP.SRC_STAT_GEN o = 0 ∧
    ((d.genBack o).outOf o).sub = false ∧ (d.genBack o).get XP.SRC_STAT_CAUSE o = 0 := by
  have hg : ((d.genEnd o).subEnd o).get XP.SRC_STAT_GEN o = 0 :=
    ((Steady.subEnd (o := o) (d.genEnd o)).get _ _ (by decide)).trans (genEnd_gen h)
  have hs := (d.genEnd o).subEnd_sub o
  unfold genBack
  generalize (d.genEnd o).subEnd o = a at hg hs
  have hnone : (!(a.flag XP.SRC_STAT_GEN o || (a.outOf o).sub)) = true := by rw [flag, hg, hs]; rfl
  refine ⟨?_, ?_, ?_⟩
  · rw [refreshCause_field _ _ _ (by decide), hg]
  · rw [refreshCause, outOf_of_outs (OnlyRegs.set _ _ _ _).get_outs, hs]
  · simp only [refreshCause, hnone, if_true]
    exact (get_set_self _ _ _ _ (by decide)).trans (Nat.zero_mod _)

/-- The return, the re-phase and the words behind it: the generator is off, nothing substitutes, and the line starts with the source's. -/
theorem returned_status {d : Dev} {o : Nat} (dev : Int) (now : Nat) (t : Int) (ws : List Word) (hg : d.flag XP.SRC_STAT_GEN o = true)
    (hr : (d.outOf o).run = true) :
    ((((d.outReturn o dev).shiftTicks o).rephase o now false t).carry o ws).get XP.SRC_STAT_GEN o = 0 ∧
    (((((d.outReturn o dev).shiftTicks o).rephase o now false t).carry o ws).outOf o).sub = false ∧
    ((((d.outReturn o dev).shiftTicks o).rephase o now false t).carry o ws).get XP.SRC_STAT_CAUSE o = 0 ∧
    (((((d.outReturn o dev).shiftTicks o).rephase o now false t).carry o ws).outOf o).lineT = now := by
  obtain ⟨hgen, hsub, hcause⟩ := genBack_status hg
  have hjump := (d.genBack o).reportJump_steady o
    (decide (o < 1536) && ((d.genBack o).outOf o).run && (decide (dev > 1) || decide (dev < -1)))
  rw [← outReturn_eq_genBack] at hjump
  have hshift := Steady.shiftTicks (o := o) (P := fun _ => True) (d.outReturn o dev)
  have hrun : (((d.outReturn o dev).shiftTicks o).outOf o).run = true := by
    obtain ⟨hrun, -, -, -, -⟩ := OutStage.fields_of_counter ((Steady.outReturn (o := o) d dev).stage)
    rw [outOf_shiftTicks]
    exact hrun.trans hr
  have hgen' : ((d.outReturn o dev).shiftTicks o).get XP.SRC_STAT_GEN o = 0 :=
    ((hshift.get _ _ trivial).trans (hjump.get _ _ (by decide))).trans hgen
  have hcause' : ((d.outReturn o dev).shiftTicks o).get XP.SRC_STAT_CAUSE o = 0 :=
    ((hshift.get _ _ trivial).trans (hjump.get _ _ (by decide))).trans hcause
  have hsub' : (((d.outReturn o dev).shiftTicks o).outOf o).sub = false :=
    ((Prod.mk.inj hshift.stage).1.trans (Prod.mk.inj hjump.stage).1).trans hsub
  generalize (d.outReturn o dev).shiftTicks o = a at hrun hgen' hcause' hsub'
  rw [rephase_line now t hrun]
  have hc := Steady.carry (o := o) (P := fun _ => True) (a.setOut o (a.phasedStage o now)) ws
  have hx := hc.stage
  rw [outOf_setOut_self] at hx
  obtain ⟨hsub'', hcount⟩ := Prod.mk.inj hx
  obtain ⟨-, -, -, hline, -⟩ := OutStage.fields_of_counter hcount
  refine ⟨?_, hsub''.trans hsub', ?_, hline⟩
  · rw [hc.get _ _ trivial, setOut_get, hgen']
  · rw [hc.get _ _ trivial, setOut_get, hcause']

end Dev

/-- A source's line start, judged in an output stage below 1,536. -/
theorem sourceStart_feedLine {o : Slot} (ins : List (List Byte)) {s : State} (ho : o.val < 1536) (hs : s.dev.srcAct o < 1152)
    (hy : s.dev.synced (s.dev.srcAct o) = false) (hn : s.dev.srcSeq (s.dev.srcAct o) ≠ (s.dev.outOf o).seen) :
    (s.dev.sourceStart s.store o ins).feedLine o =
      ((s.dev.setOut o (s.dev.seenStage o)).sourceLine o (s.dev.insOf (s.dev.srcAct o)).eavT ((s.dev.insOf (s.dev.srcAct o)).line == 1)
        (s.dev.insOf (s.dev.srcAct o)).frameT (s.dev.insOf (s.dev.srcAct o)).buf).procOut o ins := by
  rw [Dev.feedLine_slot ho, Dev.sourceStart_input s.store ins hs hy hn]

/-- SOURCE_LINE_START at an output that passes its source. -/
theorem runsTo_sourceLineStart_passing {o : Slot} (ins : List (List Byte)) {s : State} (ho : o.val < 1536) (hs : s.dev.srcAct o < 1152)
    (hy : s.dev.synced (s.dev.srcAct o) = false) (hn : s.dev.srcSeq (s.dev.srcAct o) ≠ (s.dev.outOf o).seen)
    (hr : s.dev.outRuns o = true) (hw : (s.dev.outOf o).wait = none) (hrun : (s.dev.outOf o).run = true) {x : InStage}
    (hx : s.dev.insOf (s.dev.srcAct o) = x) (hp : s.dev.passing o = true) :
    RunsTo (.sourceLineStart o ins) s fun d => (d.outOf o).lineT = x.eavT ∧
      (x.line ≠ 1 → (d.outOf o).line = (s.dev.outOf o).line) ∧
      (x.line = 1 → (d.outOf o).line = 0 ∧ (d.outOf o).frameT = x.frameT ∧ d.actReg 0x00200104 o = s.dev.reg 0x00200104 o) := by
  refine runsTo_go (f := fun d => (d.sourceStart s.store o ins).feedLine o) rfl ((sourceStart_feedLine ins ho hs hy hn).trans
    (congrArg (Dev.procOut · o ins) (Dev.sourceLine_passing _ _ _ _ ho hr hw hp))) ?_
  rw [hx]
  obtain ⟨hrun', -, hline', -, -⟩ := OutStage.fields_of_counter
    ((s.dev.lineSeen_steady o).trans (Steady.shiftTicks (s.dev.lineSeen o))).counter.stage
  have hreg : ((s.dev.lineSeen o).shiftTicks o).reg 0x00200104 o = s.dev.reg 0x00200104 o :=
    (Dev.setOut_reg ..).trans ((s.dev.lineSeen_steady o).regs _ _ (by decide))
  generalize (s.dev.lineSeen o).shiftTicks o = a at hrun' hline' hreg
  rw [hrun] at hrun'
  cases hl : x.line == 1
  · have hproc := (a.rephase o x.eavT false x.frameT).procOut_steady o ins
    obtain ⟨-, -, hline, hlineT, -⟩ := OutStage.fields_of_counter (hproc.counter.stage.trans (Dev.rephase_line_counter x.eavT x.frameT hrun'))
    exact ⟨hlineT, fun _ => hline.trans hline', fun h => absurd h (by simpa using hl)⟩
  · have hproc := (a.rephase o x.eavT true x.frameT).procOut_steady o ins
    obtain ⟨hc, hact⟩ := Dev.rephase_frame_counter x.eavT x.frameT hrun'
    obtain ⟨-, -, hline, hlineT, hframe⟩ := OutStage.fields_of_counter (hproc.counter.stage.trans hc)
    exact ⟨hlineT, fun h => absurd (by simpa using hl) h, fun _ => ⟨hline, hframe, ((hproc.act _ _ (by decide)).trans hact).trans hreg⟩⟩

/-- SOURCE_LINE_START at an output whose generator has no cause any more. -/
theorem runsTo_sourceLineStart_returns {o : Slot} (ins : List (List Byte)) {s : State} (ho : o.val < 1536) (hs : s.dev.srcAct o < 1152)
    (hy : s.dev.synced (s.dev.srcAct o) = false) (hn : s.dev.srcSeq (s.dev.srcAct o) ≠ (s.dev.outOf o).seen)
    (hr : s.dev.outRuns o = true) (hw : (s.dev.outOf o).wait = none) (hrun : (s.dev.outOf o).run = true) {x : InStage}
    (hx : s.dev.insOf (s.dev.srcAct o) = x) (hg : s.dev.flag XP.SRC_STAT_GEN o = true) (ht : s.dev.flag XP.SRC_STAT_TRIG o = false)
    (hk : s.dev.getAct XP.OUT_POL_RET_FRAMES o = 0) (hl : x.line ≠ 1) :
    RunsTo (.sourceLineStart o ins) s fun d => d.get XP.SRC_STAT_GEN o = 0 ∧ (d.outOf o).sub = false ∧
      d.get XP.SRC_STAT_CAUSE o = 0 ∧ (d.outOf o).lineT = x.eavT := by
  have hp : s.dev.passing o = false := by simp only [Dev.passing, hg, Bool.not_true, Bool.and_false, Bool.false_and]
  refine runsTo_go (f := fun d => (d.sourceStart s.store o ins).feedLine o) rfl ((sourceStart_feedLine ins ho hs hy hn).trans
    (congrArg (Dev.procOut · o ins) (Dev.sourceLine_returns _ _ _ _ ho hr hw hp (by omega) ht hk))) ?_
  have hframe : (x.line == 1) = false := by simpa using hl
  have hg' : (s.dev.lineSeen o).flag XP.SRC_STAT_GEN o = true := by rw [Dev.flag, s.dev.lineSeen_field o (by decide), ← Dev.flag, hg]
  have hrun' : ((s.dev.lineSeen o).outOf o).run = true := by rw [Dev.lineSeen_outOf]; exact hrun
  rw [hx, hframe]
  obtain ⟨hgen, hsub, hcause, hlineT⟩ :=
    Dev.returned_status ((s.dev.lineSeen o).lineDev o x.eavT) x.eavT x.frameT x.buf hg' hrun'
  generalize ((((s.dev.lineSeen o).outReturn o ((s.dev.lineSeen o).lineDev o x.eavT)).shiftTicks o).rephase o x.eavT false
    x.frameT).carry o x.buf = a at *
  have hproc := a.procOut_steady o ins
  obtain ⟨hsub', hcount⟩ := Prod.mk.inj hproc.stage
  obtain ⟨-, -, -, hlineT', -⟩ := OutStage.fields_of_counter hcount
  exact ⟨(hproc.get _ _ (by decide)).trans hgen, hsub'.trans hsub, (hproc.get _ _ (by decide)).trans hcause, hlineT'.trans hlineT⟩

end Sys2Proof.Machine
end

section
/-!
Proofs, a word crosses the device (R19, R111, R112, R115): what the words of other slots, and the outputs beside one, leave of an output and
of the slot that feeds it.
-/

namespace Sys2Proof.Machine

/-! A map's list of keys: how often a key other than the one written occurs stays as it was. -/

theorem count_keys_mapDel {α : Type} (m : Map α) {q o : Nat} (h : q ≠ o) :
    ((mapDel (q, 0) m).map (·.1.1)).count o = (m.map (·.1.1)).count o := by
  induction m with
  | nil => rfl
  | cons e m ih =>
    unfold mapDel
    split
    · next he => rw [ih, List.map_cons, List.count_cons_of_ne (by rw [he]; exact h)]
    · rw [List.map_cons, List.map_cons, List.count_cons, List.count_cons, ih]

theorem count_keys_mapIns {α : Type} (m : Map α) {q o : Nat} (v : α) (h : q ≠ o) :
    ((mapIns (q, 0) v m).map (·.1.1)).count o = (m.map (·.1.1)).count o := by
  induction m with
  | nil => exact List.count_cons_of_ne h
  | cons e m ih =>
    unfold mapIns
    split
    · next he => rw [List.map_cons, List.map_cons, List.count_cons_of_ne h, List.count_cons_of_ne (by rw [he]; exact h)]
    · split
      · rw [List.map_cons, List.count_cons_of_ne h]
      · rw [List.map_cons, List.map_cons, List.count_cons, List.count_cons, ih]

theorem count_keys_mapPut {α : Type} [DecidableEq α] (m : Map α) {q o : Nat} (dflt v : α) (h : q ≠ o) :
    ((mapPut m (q, 0) dflt v).map (·.1.1)).count o = (m.map (·.1.1)).count o := by
  unfold mapPut
  split
  · exact count_keys_mapDel m h
  · exact count_keys_mapIns m v h

/-- An output and the slot that feeds it stand as they were: the registers of the lanes, the crosspoint and the slots, the synchronisers,
the stage, how often the output is listed, and whether the slot is mute or owes a deletion. -/
structure Alike (o slot : Nat) (d e : Dev) : Prop where
  regs : SameRegs 0x00100000 0x00400000 d e
  sync : e.syncOf = d.syncOf
  stage : e.outOf o = d.outOf o
  listed : (e.outs.map (·.1.1)).count o = (d.outs.map (·.1.1)).count o
  mute : (e.insOf slot).mute = (d.insOf slot).mute
  slips : mapGet e.slips (slot, 0) 0 = mapGet d.slips (slot, 0) 0

namespace Alike

variable {o slot : Nat} {d e f : Dev}

theorem refl (d : Dev) : Alike o slot d d := ⟨.refl _ _ d, rfl, rfl, rfl, rfl, rfl⟩

theorem trans (h : Alike o slot d e) (k : Alike o slot e f) : Alike o slot d f :=
  ⟨h.regs.trans k.regs, k.sync.trans h.sync, k.stage.trans h.stage, k.listed.trans h.listed, k.mute.trans h.mute, k.slips.trans h.slips⟩

theorem of_words (h : OnlyWords d e) : Alike o slot d e where
  regs := .of_regs h.get_regs
  sync := h.get_syncOf
  stage := Dev.outOf_of_outs h.get_outs o
  listed := by rw [h.get_outs]
  mute := by rw [Dev.insOf, Dev.insOf, h.get_ins]
  slips := by rw [h.get_slips]

theorem of_only (h : OnlyRegs d e) (k : SameRegs 0x00100000 0x00400000 d e) : Alike o slot d e where
  regs := k
  sync := h.get_syncOf
  stage := Dev.outOf_of_outs h.get_outs o
  listed := by rw [h.get_outs]
  mute := by rw [Dev.insOf, Dev.insOf, h.get_ins]
  slips := by rw [h.get_slips]

/-- The stage of another output. -/
theorem setOut (d : Dev) {q : Nat} (x : OutStage) (h : q ≠ o) : Alike o slot d (d.setOut q x) where
  regs := .of_regs (Dev.setOut_regs ..)
  sync := rfl
  stage := Dev.outOf_setOut_ne d x (Ne.symm h)
  listed := count_keys_mapPut _ _ _ h
  mute := rfl
  slips := rfl

theorem insOf_setIns_self (d : Dev) (s : Nat) (x : InStage) : (d.setIns s x).insOf s = x := mapGet_mapPut_self ..

theorem insOf_setIns_ne (d : Dev) {s t : Nat} (x : InStage) (h : t ≠ s) : (d.setIns s x).insOf t = d.insOf t :=
  mapGet_mapPut_ne (fun e => h (Prod.mk.inj e).1) ..

/-- An input stage takes words, and is no more mute than before. -/
theorem setIns (d : Dev) (s : Nat) (x : InStage) (h : x.mute = (d.insOf s).mute) : Alike o slot d (d.setIns s x) where
  regs := .of_regs rfl
  sync := rfl
  stage := rfl
  listed := rfl
  mute := by
    by_cases hs : slot = s
    · rw [hs, insOf_setIns_self, h]
    · rw [insOf_setIns_ne _ _ hs]
  slips := rfl

theorem get (h : Alike o slot d e) (x : Fld) (ch : Nat) (a : 0x00100000 ≤ x.off) (b : x.off < 0x00400000) : e.get x ch = d.get x ch :=
  h.regs.get x ch a b

theorem flag (h : Alike o slot d e) (x : Fld) (ch : Nat) (a : 0x00100000 ≤ x.off) (b : x.off < 0x00400000) : e.flag x ch = d.flag x ch := by
  rw [Dev.flag, Dev.flag, h.get x ch a b]

end Alike

/-- The output takes the words of the slot and passes them on as they are, to a lane whose transmitter runs. -/
structure Feeds (d : Dev) (o slot : Nat) : Prop where
  src : d.srcAct o = slot
  passes : d.passing o = true
  plain : d.processed o = false
  taken : d.taken o = true

/-- What an output of the lanes is fed with hangs on nothing that stands as it was. -/
theorem Feeds.of_alike {d e : Dev} {o slot : Nat} (h : Feeds d o slot) (ho : o < 1152) (k : Alike o slot d e) : Feeds e o slot where
  src := (k.get _ _ (by decide) (by decide)).trans h.src
  passes := by
    rw [← h.passes]
    exact Dev.passing_congr (by omega) (k.regs _ _ (by decide) (by decide)) (k.get _ _ (by decide) (by decide))
      (k.get _ _ (by decide) (by decide)) (congrArg OutStage.run k.stage) (congrArg OutStage.sub k.stage)
  plain := by
    rw [← h.plain, Dev.processed, Dev.processed, k.flag _ _ (by decide) (by decide), k.flag _ _ (by decide) (by decide)]
  taken := by
    rw [← h.taken, Dev.taken, Dev.taken, if_pos ho, if_pos ho, k.get _ _ (by decide) (by decide), k.flag _ _ (by decide) (by decide)]

/-- An output and its slot stand as they were, and so do the words that wait there. -/
structure Apart (o slot : Nat) (d e : Dev) : Prop extends Alike o slot d e where
  queue : mapGet e.outQ (o, 0) [] = mapGet d.outQ (o, 0) []

namespace Apart

variable {o slot : Nat} {d e f : Dev}

theorem refl (d : Dev) : Apart o slot d d := ⟨.refl d, rfl⟩

theorem trans (h : Apart o slot d e) (k : Apart o slot e f) : Apart o slot d f := ⟨h.toAlike.trans k.toAlike, k.queue.trans h.queue⟩

theorem of_only (h : OnlyRegs d e) (k : SameRegs 0x00100000 0x00400000 d e) : Apart o slot d e := ⟨.of_only h k, by rw [h.get_outQ]⟩

theorem foldl {α : Type} (g : Dev → α → Dev) (l : List α) (h : ∀ d, ∀ x ∈ l, Apart o slot d (g d x)) :
    ∀ d, Apart o slot d (l.foldl g d) := by
  induction l with
  | nil => exact refl
  | cons x l ih => exact fun d => (h d x (List.mem_cons_self ..)).trans (ih (fun d y m => h d y (List.mem_cons_of_mem _ m)) _)

/-! ## Words that leave another output -/

theorem setCrc (d : Dev) (q : Nat) (x : SlotCrc) : Apart o slot d (d.setCrc q x) := ⟨.of_words (.setCrc ..), rfl⟩

theorem crcWord (q : Nat) (d : Dev) (w : Word) : Apart o slot d (Dev.crcWord q d w) := by
  unfold Dev.crcWord
  extract_lets a
  have ha : Apart o slot d a := by
    unfold a
    cases wordV w && wordM w
    · exact refl d
    · exact setCrc ..
  exact ha.trans (setCrc ..)

/-- The slot CRC has nothing to do with the words that wait. -/
theorem slotCrcs (d : Dev) (q : Nat) (ws : List Word) : Apart o slot d (d.slotCrcs q ws) := by
  unfold Dev.slotCrcs
  split
  · exact foldl _ _ (fun d w _ => crcWord q d w) d
  · exact refl d

theorem putQueue (d : Dev) {q : Nat} (ws : List Word) (h : q ≠ o) : Apart o slot d { d with outQ := mapPut d.outQ (q, 0) [] ws } :=
  ⟨.of_words ⟨_, _, _, rfl⟩, mapGet_mapPut_ne (fun e => h (Prod.mk.inj e).1.symm) ..⟩

theorem egrLine (d : Dev) (q : Nat) (l : LineIn) (ws : List Samp) : Apart o slot d (d.egrLine q l ws) := by
  unfold Dev.egrLine
  split
  · exact refl d
  · split
    · exact ⟨.of_words (.setEgr ..), rfl⟩
    · exact refl d

theorem egrTake {q : Nat} (h : q ≠ o) (n : Nat) : ∀ d, Apart o slot d (Dev.egrTake q n d) := by
  induction n with
  | zero => exact refl
  | succ n ih =>
    intro d
    unfold Dev.egrTake
    split
    · exact refl d
    · exact ((putQueue d _ h).trans (egrLine ..)).trans (ih _)

theorem outPush (d : Dev) {q : Nat} (ws : List Word) (h : q ≠ o) : Apart o slot d (d.outPush q ws) := by
  refine (slotCrcs d q ws).trans ?_
  rw [Dev.outPush_eq_slotCrcs]
  generalize d.slotCrcs q ws = a
  have hq : Apart o slot a (a.queueWords q ws) := putQueue a _ h
  split
  · exact refl a
  · split
    · exact hq.trans (egrTake h _ _)
    · exact hq

theorem carry (d : Dev) {q : Nat} (ws : List Word) (h : q ≠ o) : Apart o slot d (d.carry q ws) := by
  unfold Dev.carry
  split
  · split
    · exact ⟨.setOut d _ h, rfl⟩
    · exact outPush d ws h
  · exact refl d

end Apart

/-- Words that reach a lane output which passes its slot wait there behind the words before them. -/
theorem Feeds.carry {d : Dev} {o slot : Nat} (h : Feeds d o slot) (ho : o < 1152) (ws : List Word) :
    mapGet (d.carry o ws).outQ (o, 0) [] = mapGet d.outQ (o, 0) [] ++ ws ∧ Alike o slot d (d.carry o ws) := by
  have hc : d.carry o ws = d.outPush o ws := (if_pos h.passes).trans (if_neg (ne_true_of_eq_false h.plain))
  have ha := Apart.slotCrcs (o := o) (slot := slot) d o ws
  have ht : (!(d.slotCrcs o ws).taken o) = false := by rw [(h.of_alike ho ha.toAlike).taken]; rfl
  rw [hc]
  refine ⟨?_, .of_words (.outPush ..)⟩
  rw [Dev.outPush_eq_slotCrcs, if_neg (ne_true_of_eq_false ht), if_neg (by omega), ← ha.queue]
  exact mapGet_mapPut_self ..

/-- Words of a slot cross to a lane output as often as it is listed. -/
theorem Feeds.cross {o slot : Nat} (ho : o < 1152) (ws : List Word) (l : List Nat) : ∀ d, Feeds d o slot →
    mapGet (l.foldl (fun d q => if d.srcAct q = slot then d.carry q ws else d) d).outQ (o, 0) [] =
        mapGet d.outQ (o, 0) [] ++ (List.replicate (l.count o) ws).flatten ∧
      Alike o slot d (l.foldl (fun d q => if d.srcAct q = slot then d.carry q ws else d) d) := by
  induction l with
  | nil => exact fun d _ => ⟨(List.append_nil _).symm, .refl d⟩
  | cons q l ih =>
    intro d h
    rw [List.foldl_cons]
    by_cases hq : q = o
    · rw [hq, if_pos h.src, List.count_cons_self, List.replicate_succ, List.flatten_cons]
      obtain ⟨hw, ha⟩ := h.carry ho ws
      obtain ⟨hw', ha'⟩ := ih _ (h.of_alike ho ha)
      exact ⟨by rw [hw', hw, List.append_assoc], ha.trans ha'⟩
    · have ha : Apart o slot d (if d.srcAct q = slot then d.carry q ws else d) := by
        split
        · exact .carry d ws hq
        · exact .refl d
      obtain ⟨hw', ha'⟩ := ih _ (h.of_alike ho ha.toAlike)
      exact ⟨by rw [hw', ha.queue, List.count_cons_of_ne hq], ha.toAlike.trans ha'⟩

/-- Words of another slot pass an output by. -/
theorem Feeds.cross_other {d : Dev} {o slot s : Nat} (h : Feeds d o slot) (ho : o < 1152) (hs : s ≠ slot) (ws : List Word) :
    Apart o slot d (d.cross s ws) := by
  have key (l : List Nat) : ∀ d, Feeds d o slot →
      Apart o slot d (l.foldl (fun d q => if d.srcAct q = s then d.carry q ws else d) d) := by
    induction l with
    | nil => exact fun d _ => .refl d
    | cons q l ih =>
      intro d h
      have ha : Apart o slot d (if d.srcAct q = s then d.carry q ws else d) := by
        split
        · next hq => exact .carry d ws fun e => hs (by rw [← hq, e, h.src])
        · exact .refl d
      exact ha.trans (ih _ (h.of_alike ho ha.toAlike))
  exact key _ d h

namespace Dev

/-! ## Words reach their slot (R28, R57, R112) -/

/-- The input stage observes words. -/
def observe (d : Dev) (slot : Nat) (ws : List Word) : Dev :=
  if decide (slot < 1536) && d.flag SLP.IN_CFG_IN_EN slot then d.setIns slot { d.insOf slot with buf := (d.insOf slot).buf ++ ws } else d

theorem slotWords_eq_observe (d : Dev) (slot : Nat) (ws : List Word) : d.slotWords slot ws =
    if (d.observe slot ws).synced slot || ((d.observe slot ws).insOf slot).mute then d.observe slot ws
    else (d.observe slot ws).cross slot ws := (rfl)

theorem observe_apart (d : Dev) (o slot s : Nat) (ws : List Word) : Apart o slot d (d.observe s ws) := by
  unfold observe
  split
  · exact ⟨.setIns d s _ rfl, rfl⟩
  · exact .refl d

/-- The words that a lane has delivered to a slot. -/
def withInWords (d : Dev) (slot : Nat) (ws : List Word) : Dev := { d with inWords := mapPut d.inWords (slot, 0) [] ws }

theorem withInWords_apart (d : Dev) (o slot s : Nat) (ws : List Word) : Apart o slot d (d.withInWords s ws) :=
  ⟨⟨.of_regs rfl, rfl, rfl, rfl, rfl, rfl⟩, rfl⟩

/-- A deletion of the elastic buffer is done. -/
def slipDone (d : Dev) (slot n : Nat) : Dev := { d with slips := mapPut d.slips (slot, 0) 0 n }

theorem slipDone_apart (d : Dev) {o slot s : Nat} (n : Nat) (h : s ≠ slot) : Apart o slot d (d.slipDone s n) :=
  ⟨⟨.of_regs rfl, rfl, rfl, rfl, rfl, mapGet_mapPut_ne (fun e => h (Prod.mk.inj e).1.symm) ..⟩, rfl⟩

/-- The words that pass the elastic buffer of a slot. -/
def buffered (d : Dev) (slot : Nat) (ws : List Word) : List Word := if mapGet d.slips (slot, 0) 0 = 0 then ws else dropEmpty ws

theorem laneWords_eq_slipDone (d : Dev) (slot : Nat) (ws : List Word) : d.laneWords slot ws =
    ((if (d.buffered slot ws).length = ws.length then d else d.slipDone slot (mapGet d.slips (slot, 0) 0 - 1)).withInWords slot
      ws).slotWords slot (d.buffered slot ws) := (rfl)

end Dev

namespace Feeds

variable {d : Dev} {o slot : Nat}

/-- Words that a lane delivers to another slot pass the output by. -/
theorem laneWords_other (h : Feeds d o slot) (ho : o < 1152) {s : Nat} (hs : s ≠ slot) (ws : List Word) :
    Apart o slot d (d.laneWords s ws) := by
  rw [Dev.laneWords_eq_slipDone, Dev.slotWords_eq_observe]
  generalize d.buffered s ws = ks
  have hb : Apart o slot d (((if ks.length = ws.length then d else
      d.slipDone s (mapGet d.slips (s, 0) 0 - 1)).withInWords s ws).observe s ks) := by
    refine .trans (.trans ?_ (Dev.withInWords_apart ..)) (Dev.observe_apart ..)
    split
    · exact .refl d
    · exact Dev.slipDone_apart d _ hs
  generalize ((if ks.length = ws.length then d else
      d.slipDone s (mapGet d.slips (s, 0) 0 - 1)).withInWords s ws).observe s ks = a at hb
  split
  · exact hb
  · exact hb.trans ((h.of_alike ho hb.toAlike).cross_other ho hs ks)

/-- The slot owes no deletion, has no synchroniser and is not mute, and the output is listed once. -/
structure Open (d : Dev) (o slot : Nat) : Prop where
  sync : d.synced slot = false
  mute : (d.insOf slot).mute = false
  slips : mapGet d.slips (slot, 0) 0 = 0
  listed : (d.outs.map (·.1.1)).count o = 1

theorem Open.of_alike {e : Dev} (h : Open d o slot) (k : Alike o slot d e) : Open e o slot :=
  ⟨by rw [Dev.synced, k.sync, ← Dev.synced, h.sync], k.mute.trans h.mute, k.slips.trans h.slips, k.listed.trans h.listed⟩

/-- A word that a lane delivers to an open slot reaches the output. -/
theorem laneWords_slot (h : Feeds d o slot) (ho : o < 1152) (hopen : Open d o slot) (ws : List Word) :
    mapGet (d.laneWords slot ws).outQ (o, 0) [] = mapGet d.outQ (o, 0) [] ++ ws ∧ Alike o slot d (d.laneWords slot ws) := by
  have hbuf : d.buffered slot ws = ws := if_pos hopen.slips
  have ha := (Dev.withInWords_apart d o slot slot ws).trans (Dev.observe_apart _ o slot slot ws)
  rw [Dev.laneWords_eq_slipDone, hbuf, if_pos rfl, Dev.slotWords_eq_observe]
  generalize (d.withInWords slot ws).observe slot ws = a at ha
  have hopen' := hopen.of_alike ha.toAlike
  obtain ⟨hw, ha'⟩ := Feeds.cross ho ws (a.outs.map (·.1.1)) a (h.of_alike ho ha.toAlike)
  rw [if_neg (by rw [hopen'.sync, hopen'.mute]; exact Bool.false_ne_true), Dev.cross]
  refine ⟨?_, ha.toAlike.trans ha'⟩
  rw [hw, hopen'.listed, ha.queue]
  simp

/-- Words that a lane delivers to its other phases pass the output by. -/
theorem otherPhases (ho : o < 1152) (w : Nat → Word) {base p : Nat} (hslot : slot = base + p) (l : List Nat) (hl : p ∉ l) :
    ∀ d, Feeds d o slot → Apart o slot d (l.foldl (fun d i => d.laneWords (base + i) [w i]) d) := by
  induction l with
  | nil => exact fun d _ => .refl d
  | cons i l ih =>
    intro d h
    have hi : p ≠ i := fun e => hl (e ▸ List.mem_cons_self ..)
    have ha : Apart o slot d (d.laneWords (base + i) [w i]) := h.laneWords_other ho (by omega) _
    exact ha.trans (ih (fun m => hl (List.mem_cons_of_mem _ m)) _ (h.of_alike ho ha.toAlike))

/-- A lane's block brings each of its phases a word; the output waits for the one of its own phase. -/
theorem laneBlock (h : Feeds d o slot) (ho : o < 1152) (hopen : Open d o slot) (w : Nat → Word) {base p : Nat}
    (hp : p < 4) (hslot : slot = base + p) :
    mapGet ((List.range 4).foldl (fun d i => d.laneWords (base + i) [w i]) d).outQ (o, 0) [] = mapGet d.outQ (o, 0) [] ++ [w p] := by
  obtain ⟨before, after, hsplit⟩ := List.append_of_mem (List.mem_range.2 hp)
  have hnodup : (before ++ p :: after).Nodup := hsplit ▸ List.nodup_range
  rw [List.nodup_middle, List.nodup_cons, List.mem_append, not_or] at hnodup
  obtain ⟨⟨hbefore, hafter⟩, -⟩ := hnodup
  rw [hsplit, List.foldl_append, List.foldl_cons]
  have hb := otherPhases ho w hslot before hbefore d h
  generalize before.foldl (fun d i => d.laneWords (base + i) [w i]) d = a at hb
  have hfeeds := h.of_alike ho hb.toAlike
  obtain ⟨hw, ha⟩ := hfeeds.laneWords_slot ho (hopen.of_alike hb.toAlike) [w p]
  rw [hslot] at hw ha
  have hc := otherPhases ho w rfl after hafter _ ((hslot ▸ hfeeds).of_alike ho ha)
  rw [hc.queue, hw, hb.queue]

end Feeds

namespace Dev

/-- A receiver's lane takes a payload. -/
theorem takePayload_apart (d : Dev) (o slot g l : Nat) (raw : BitVec 128) : Apart o slot d (d.takePayload g l raw).2 :=
  ⟨⟨.of_regs rfl, rfl, rfl, rfl, rfl, rfl⟩, rfl⟩

/-- A block of data is counted. -/
theorem countData_apart (d : Dev) (o slot i n : Nat) : Apart o slot d ((d.logAdd i 1).bwAdd i n) := by
  have hl : Apart o slot d (d.logAdd i 1) := .of_only (.logAdd ..) (.logAdd _ _ _ (.inl (by decide)))
  refine hl.trans ?_
  generalize d.logAdd i 1 = a
  obtain ⟨b, hb⟩ := a.bwAdd_eq i n
  rw [hb]
  exact ⟨⟨.of_regs rfl, rfl, rfl, rfl, rfl, rfl⟩, rfl⟩

/-- A good block of a native group goes to the four phases of its lane (R44). -/
theorem deliver_native {d : Dev} {g : Nat} (l : Nat) (p : BitVec 128) (hg : g < 36) (hc : d.compat g = false) :
    d.deliver g l p false = (List.range 4).foldl (fun d i => d.laneWords (g * 32 + l * 4 + i) [p.extractLsb' (32 * i) 32]) d := by
  unfold deliver
  simp only [hg, hc, if_true, Bool.false_eq_true, if_false]
  rfl

/-- A data block in UP is counted and delivered. -/
theorem dataBlock_up {d : Dev} {g : Nat} (l : Nat) {b : LaneBlk} (hup : d.rxState g = 5) (hh : b.hdr = 0x5) :
    d.dataBlock g l b = (d.takePayload g l b.raw).2.takeData g l (d.takePayload g l b.raw).1 false := by
  have hup' : (d.takePayload g l b.raw).2.rxState g = 5 := (takePayload_get ..).trans hup
  have hdata : ((0x5 : BitVec 4) == 0xA) = false ∧ ((0x5 : BitVec 4) != 0x5) = false ∧ decide (5 = 7) = false := by decide
  obtain ⟨hctl, hbad, hrest⟩ := hdata
  unfold dataBlock
  simp only [hup', hh, hctl, hbad, hrest, Bool.false_and, Bool.false_eq_true, if_false, if_true]

end Dev

/-- DATA_BLOCK_RX: the word of a phase reaches the lane outputs that pass its slot. -/
theorem runsTo_dataBlockRx {g : Grp} {l : Lane} {b : LaneBlk} {p o : Nat} {s : State} (hg : g.val < 36) (hp : p < 4)
    (hup : s.dev.rxState g = 5) (hc : s.dev.compat g = false) (hh : b.hdr = 0x5) {slot : Nat} (hslot : slot = g.val * 32 + l.val * 4 + p)
    (ho : o < 1152) (hopen : Feeds.Open s.dev o slot) (hf : Feeds s.dev o slot) :
    RunsTo (.dataBlockRx g l b) s fun d => mapGet d.outQ (o, 0) [] =
      mapGet s.dev.outQ (o, 0) [] ++ [(s.dev.takePayload g l b.raw).1.extractLsb' (32 * p) 32] := by
  refine runsTo_go (f := fun d => d.dataBlock g l b) rfl (Dev.dataBlock_up l hup hh) ?_
  have ha := (s.dev.takePayload_apart o slot g l b.raw).trans (Dev.countData_apart _ o slot g 16)
  have hc' : (((s.dev.takePayload g l b.raw).2.logAdd g 1).bwAdd g 16).compat g = false := by
    rw [Dev.compat, ha.toAlike.flag _ _ (by decide) (by decide), ← Dev.compat, hc]
  rw [Dev.takeData, Dev.deliver_native l _ hg hc', (hf.of_alike ho ha.toAlike).laneBlock ho (hopen.of_alike ha.toAlike)
    (fun i => (s.dev.takePayload g l b.raw).1.extractLsb' (32 * i) 32) hp hslot, ha.queue]

end Sys2Proof.Machine
end

section
/-!
Proofs, the rate of a generated slot stream (R85 to R87): its balance of slot words offered and words carried stays within two words.
-/

namespace Sys2Proof.Machine

theorem wordV_slotWord (a b c : Samp) (m : Bool) : wordV (slotWord a b c m) = true := by
  have ha := a.isLt
  have hb := b.isLt
  have hc := c.isLt
  have hm : b2n m ≤ 1 := by cases m <;> decide
  rw [wordV, slotWord, BitVec.getLsbD_ofNat, Nat.testBit_eq_decide_div_mod_eq]
  simp only [Nat.reducePow] at *
  simp only [Nat.reduceLT, decide_true, Bool.true_and, decide_eq_true_eq]
  omega

theorem wordV_zero : wordV 0 = false := (rfl)

/-- The slot words of a run times N, less its V = 1 words times D. -/
def drift (n d : Nat) (ws : List Word) : Int := (ws.length * n : Nat) - (ws.countP wordV * d : Nat)

/-- What a word adds to the balance. -/
def wordDrift (n d : Nat) (w : Word) : Int := if wordV w then (n : Int) - d else n

theorem drift_nil (n d : Nat) : drift n d [] = 0 := by simp [drift]

theorem drift_cons (n d : Nat) (w : Word) (ws : List Word) : drift n d (w :: ws) = wordDrift n d w + drift n d ws := by
  unfold drift wordDrift
  rw [List.length_cons, List.countP_cons]
  split <;> push_cast <;> ring

theorem drift_append (n d : Nat) (xs ys : List Word) : drift n d (xs ++ ys) = drift n d xs + drift n d ys := by
  induction xs with
  | nil => rw [List.nil_append, drift_nil, zero_add]
  | cons w xs ih => rw [List.cons_append, drift_cons, ih, drift_cons, add_assoc]

/-- A run whose balance is at most two words off conforms. -/
theorem conformRun_of_drift {n d : Nat} {ws : List Word} (h : -(2 * d : Int) ≤ drift n d ws) (h' : drift n d ws ≤ 2 * d) :
    conformRun n d ws = true := by
  have habs : (((ws.countP wordV : Nat) : Int) * d - ((ws.length * n : Nat) : Int)).natAbs ≤ 2 * d := by
    unfold drift at h h'
    push_cast at h h' ⊢
    omega
  unfold conformRun
  refine decide_eq_true ?_
  calc _ ≤ 2 * d * 1000000 := Nat.mul_le_mul_right _ habs
    _ ≤ _ := by omega

/-- The balance from `a` on stays from `lo` to `hi`, word for word. -/
def Within (n d : Nat) (lo hi : Int) : Int → List Word → Prop
  | a, [] => lo ≤ a ∧ a ≤ hi
  | a, w :: ws => (lo ≤ a ∧ a ≤ hi) ∧ Within n d lo hi (a + wordDrift n d w) ws

namespace Within

variable {n d : Nat} {lo hi : Int}

theorem here {a : Int} {ws : List Word} (h : Within n d lo hi a ws) : lo ≤ a ∧ a ≤ hi := by
  cases ws with
  | nil => exact h
  | cons w ws => exact h.1

theorem mono {lo' hi' : Int} (hl : lo' ≤ lo) (hh : hi ≤ hi') (ws : List Word) :
    ∀ {a : Int}, Within n d lo hi a ws → Within n d lo' hi' a ws := by
  induction ws with
  | nil => exact fun h => ⟨hl.trans h.1, h.2.trans hh⟩
  | cons w ws ih => exact fun h => ⟨⟨hl.trans h.1.1, h.1.2.trans hh⟩, ih h.2⟩

/-- The bounds and the balance moved together. -/
theorem shift (x : Int) (ws : List Word) : ∀ {a : Int}, Within n d lo hi a ws → Within n d (lo + x) (hi + x) (a + x) ws := by
  induction ws with
  | nil => exact fun h => ⟨by linarith [h.1], by linarith [h.2]⟩
  | cons w ws ih =>
    intro a h
    refine ⟨⟨by linarith [h.1.1], by linarith [h.1.2]⟩, ?_⟩
    have := ih h.2
    rwa [add_right_comm] at this

/-- The balance after any number of words. -/
theorem take (ws : List Word) : ∀ {a : Int}, Within n d lo hi a ws → ∀ i, lo ≤ a + drift n d (ws.take i) ∧ a + drift n d (ws.take i) ≤ hi := by
  induction ws with
  | nil =>
    intro a h i
    rw [List.take_nil, drift_nil, add_zero]
    exact h
  | cons w ws ih =>
    intro a h i
    cases i with
    | zero => rw [List.take_zero, drift_nil, add_zero]; exact h.1
    | succ i =>
      rw [List.take_succ_cons, drift_cons, ← add_assoc]
      exact ih h.2 i

/-- V = 0 words before others. -/
theorem blanks (k : Nat) {ws : List Word} : ∀ {a : Int}, lo ≤ a → Within n d lo hi (a + (k * n : Nat)) ws →
    Within n d lo hi a (List.replicate k 0 ++ ws) := by
  induction k with
  | zero => intro a _ h; simpa using h
  | succ k ih =>
    intro a hl h
    have hw : wordDrift n d 0 = n := if_neg (by rw [wordV_zero]; exact Bool.false_ne_true)
    have hn : a ≤ hi := by
      have := h.here.2
      have : (0 : Int) ≤ ((k + 1) * n : Nat) := Int.natCast_nonneg _
      linarith
    refine ⟨⟨hl, hn⟩, ?_⟩
    rw [hw]
    refine ih (by linarith [Int.natCast_nonneg n]) ?_
    have e : a + n + (k * n : Nat) = a + ((k + 1) * n : Nat) := by push_cast; ring
    rwa [e]

/-- A V = 1 word before others. -/
theorem word {w : Word} (hw : wordV w = true) {a : Int} {ws : List Word} (h : lo ≤ a ∧ a ≤ hi) (k : Within n d lo hi (a + (n - d)) ws) :
    Within n d lo hi a (w :: ws) := ⟨h, by rwa [wordDrift, if_pos hw]⟩

/-- A stream whose balance spans two words conforms. -/
theorem conforms {a : Int} {ws : List Word} (h : Within n d lo hi a ws) (hs : hi - lo ≤ 2 * d) : conforms n d ws = true := by
  refine List.all_eq_true.2 fun i _ => List.all_eq_true.2 fun k _ => ?_
  have hsplit : drift n d (ws.take (i + (k + 1))) = drift n d (ws.take i) + drift n d ((ws.drop i).take (k + 1)) := by
    rw [List.take_add, drift_append]
  obtain ⟨hlo, hhi⟩ := h.take ws i
  obtain ⟨hlo', hhi'⟩ := h.take ws (i + (k + 1))
  rw [hsplit] at hlo' hhi'
  exact conformRun_of_drift (by linarith) (by linarith)

end Within

/-! ## The accumulator (R85) -/

section
variable {n d : Nat} (hn : 0 < n) (hd : n ≤ d)

/-- The V = 0 words before the next V = 1 word. -/
def blanksTo (n d acc : Nat) : Nat := (d - acc - 1) / n

/-- The accumulator after them and the word. -/
def accAfter (n d acc : Nat) : Nat := acc + (blanksTo n d acc + 1) * n - d

theorem blanksTo_fit {acc : Nat} (ha : acc < d) : acc + blanksTo n d acc * n < d := by
  have := Nat.div_mul_le_self (d - acc - 1) n
  unfold blanksTo
  omega

include hn in
/-- One word more overflows the accumulator. -/
theorem accAfter_eq {acc : Nat} (ha : acc < d) : acc + (blanksTo n d acc + 1) * n = accAfter n d acc + d := by
  have : d - acc - 1 < n * (blanksTo n d acc + 1) := Nat.lt_mul_div_succ _ hn
  rw [Nat.mul_comm] at this
  unfold accAfter
  omega

include hn hd in
theorem accAfter_lt {acc : Nat} (ha : acc < d) : accAfter n d acc < d := by
  have h := accAfter_eq hn ha
  have := blanksTo_fit (n := n) ha
  rw [Nat.add_mul, Nat.one_mul] at h
  omega

include hn in
/-- V = 0 words and a V = 1 word take the balance from one value of the accumulator to the next. -/
theorem Within.carried {lo hi : Int} (hl : lo ≤ 0) (hh : (d : Int) ≤ hi) {acc : Nat} (ha : acc < d) {w : Word} (hw : wordV w = true)
    {ws : List Word} (h : Within n d lo hi (accAfter n d acc) ws) :
    Within n d lo hi acc (List.replicate (blanksTo n d acc) 0 ++ w :: ws) := by
  have hfit := blanksTo_fit (n := n) ha
  have hnext := accAfter_eq hn ha
  rw [Nat.add_mul, Nat.one_mul] at hnext
  refine .blanks _ (by omega) (.word hw ⟨by omega, by omega⟩ ?_)
  have e : (acc : Int) + (blanksTo n d acc * n : Nat) + (n - d) = (accAfter n d acc : Nat) := by omega
  rwa [e]

/-- The bounds of the balance, by the correction that is due. -/
def lowest (d : Nat) : Option Bool → Int
  | some true => -d
  | _ => 0

def highest (d : Nat) : Option Bool → Int
  | some false => 2 * d
  | _ => d

theorem packWords_early {acc : Nat} (m : Bool) (a b c : Samp) (ws : List Samp) (hz : 0 < blanksTo n d acc) :
    (packWords n d acc (some true) m (a :: b :: c :: ws)).1 = slotWord a b c m :: (packWords n d (acc + n) none false ws).1 := by
  have h : 0 < (d - acc - 1) / n := hz
  simp only [packWords, h, decide_true, Bool.and_self, if_true]

theorem packWords_late (acc : Nat) (m : Bool) (a b c : Samp) (ws : List Samp) :
    (packWords n d acc (some false) m (a :: b :: c :: ws)).1 =
      List.replicate (blanksTo n d acc + 1) 0 ++ (List.replicate (blanksTo n d (accAfter n d acc)) 0 ++
        slotWord a b c m :: (packWords n d (accAfter n d (accAfter n d acc)) none false ws).1) := by
  have h : (decide (some false = some true) && decide (0 < (d - acc - 1) / n)) = false := rfl
  rw [← List.append_assoc, ← List.replicate_add]
  simp only [packWords, h, Bool.false_eq_true, if_false, if_true]
  rfl

theorem packWords_plain {acc : Nat} {fix : Option Bool} (m : Bool) (a b c : Samp) (ws : List Samp)
    (h : ¬(decide (fix = some true) && decide (0 < blanksTo n d acc)) = true) (hf : ¬fix = some false) :
    (packWords n d acc fix m (a :: b :: c :: ws)).1 =
      List.replicate (blanksTo n d acc) 0 ++ slotWord a b c m :: (packWords n d (accAfter n d acc) fix false ws).1 := by
  have h' : ¬(decide (fix = some true) && decide (0 < (d - acc - 1) / n)) = true := h
  simp only [packWords, h', hf, if_false]
  rfl

include hn hd in
/-- The balance of a generated stream stays within its bounds: two words apart, one early or one late. -/
theorem packWords_within (acc : Nat) (fix : Option Bool) (m : Bool) (ws : List Samp) :
    acc < d → Within n d (lowest d fix) (highest d fix) acc (packWords n d acc fix m ws).1 := by
  induction acc, fix, m, ws using packWords.induct n d with
  | case1 acc fix m a b c ws z h ih =>
    intro ha
    have hdue : (decide (fix = some true) && decide (0 < blanksTo n d acc)) = true := h
    rw [Bool.and_eq_true, decide_eq_true_eq, decide_eq_true_eq] at hdue
    obtain ⟨hfix, hz⟩ := hdue
    have hfit : acc + n < d := by
      have := blanksTo_fit (n := n) ha
      have := Nat.mul_le_mul_right n hz
      omega
    rw [hfix, packWords_early m a b c ws hz]
    refine .word (wordV_slotWord ..) ⟨by simp only [lowest]; omega, by simp only [highest]; omega⟩ ?_
    have hr := ((ih hfit).shift (-d)).mono (lo' := -d) (hi' := d) (by simp [lowest]) (by simp [highest])
    have e : (acc : Int) + (n - d) = ((acc + n : Nat) : Int) + -d := by push_cast; ring
    rw [e]
    exact hr
  | case2 acc m a b c ws z acc' z' h ih =>
    intro ha
    have hnext := accAfter_eq hn ha
    have ha' := accAfter_lt hn hd ha
    have hr : Within n d 0 d (accAfter n d acc) (List.replicate (blanksTo n d (accAfter n d acc)) 0 ++
        slotWord a b c m :: (packWords n d (accAfter n d (accAfter n d acc)) none false ws).1) :=
      .carried hn le_rfl le_rfl ha' (wordV_slotWord ..) (ih (accAfter_lt hn hd ha'))
    rw [packWords_late]
    refine .blanks _ (by simp [lowest]) ?_
    have e : (acc : Int) + ((blanksTo n d acc + 1) * n : Nat) = (accAfter n d acc : Nat) + d := by exact_mod_cast hnext
    rw [e]
    exact (hr.shift d).mono (by simp [lowest]) (by simp only [highest]; omega)
  | case3 acc fix m a b c ws z h acc' hf ih =>
    intro ha
    have hl : lowest d fix ≤ 0 := by rcases fix with _ | _ | _ <;> simp [lowest]
    have hh : (d : Int) ≤ highest d fix := by rcases fix with _ | _ | _ <;> simp only [highest] <;> omega
    rw [packWords_plain m a b c ws h hf]
    exact .carried hn hl hh ha (wordV_slotWord ..) (ih (accAfter_lt hn hd ha))
  | case4 acc fix m ws h =>
    intro ha
    have hnil : (packWords n d acc fix m ws).1 = [] := by rw [packWords]; exact h
    rw [hnil]
    rcases fix with _ | _ | _ <;> constructor <;> simp only [lowest, highest] <;> omega

include hn hd in
/-- Whatever correction is due, the generated stream conforms. -/
theorem packWords_conforms {acc : Nat} (fix : Option Bool) (m : Bool) (ws : List Samp) (ha : acc < d) :
    conforms n d (packWords n d acc fix m ws).1 = true :=
  (packWords_within hn hd acc fix m ws ha).conforms (by rcases fix with _ | _ | _ <;> simp only [lowest, highest] <;> omega)

end

/-- The rates of the formats lie from 0 to 1. -/
theorem accConst_rate : ∀ code ∈ fmtCodes, 0 < (accConst code).1 ∧ (accConst code).1 ≤ (accConst code).2 := by decide

/-- Settles O6: the output stages with their counters, the crosspoint, the words that cross it, and the rate of a generated stream. -/
theorem outputAndCrosspoint : Obligations.OutputAndCrosspoint := by
  unfold Obligations.OutputAndCrosspoint
  refine ⟨⟨runsTo_outputEnable_start, runsTo_outputEnable_stop,
      fun o k s hw hr => runsTo_counterStart o k s hw hr,
      fun o ins f s hf hr => runsTo_counterLineStart o ins f s hf hr,
      runsTo_counterFrameStart,
      fun o ins s ho hs hy hn hr hw hrun x hx =>
        ⟨fun hp => runsTo_sourceLineStart_passing ins ho hs hy hn hr hw hrun hx hp,
          fun hg ht hk hl => runsTo_sourceLineStart_returns ins ho hs hy hn hr hw hrun hx hg ht hk hl⟩⟩,
    ⟨runsTo_triggerChange, runsTo_routeWrite_stopped, runsTo_routeWrite_running, runsTo_xpCntClr⟩,
    fun g l b p o s hg hp hup hc hh slot hslot hsync hmute hslip hlist ho hsrc hpass hplain htaken =>
      runsTo_dataBlockRx hg hp hup hc hh hslot ho ⟨hsync, hmute, hslip, hlist⟩ ⟨hsrc, hpass, hplain, htaken⟩,
    fun code hcode acc fix m ws ha => ?_⟩
  obtain ⟨hn, hd⟩ := accConst_rate code hcode
  exact packWords_conforms hn hd fix m ws ha

end Sys2Proof.Machine
end

section
/-!
Proofs, entries of a lane group's receiver: what they leave of a field of the lanes' registers, and of the step of the shedding ladder.
-/

namespace Sys2Proof.Machine

/-- A field of the lanes' registers lies beside some fields: setting them leaves it. -/
abbrev Beside (f : Fld) (xs : List Fld) : Prop :=
  (0x00100000 ≤ f.off ∧ f.off < 0x00300000) ∧
    ∀ x ∈ xs, x.lo + x.w ≤ 32 ∧ (f.off ≠ x.off ∨ x.lo + x.w ≤ f.lo ∨ f.lo + f.w ≤ x.lo)

theorem Beside.mono {f : Fld} {xs ys : List Fld} (h : Beside f xs) (s : ys ⊆ xs) : Beside f ys := ⟨h.1, fun x m => h.2 x (s m)⟩

/-- A field, of whichever group, and the step of the shedding ladder stand as they were. -/
structure FldKept (f : Fld) (d e : Dev) : Prop where
  field : ∀ ch, e.get f ch = d.get f ch
  ladder : e.ladder = d.ladder

namespace FldKept

variable {f : Fld} {d e c : Dev}

theorem refl (d : Dev) : FldKept f d d := ⟨fun _ => rfl, rfl⟩

theorem trans (h : FldKept f d e) (k : FldKept f e c) : FldKept f d c :=
  ⟨fun ch => (k.field ch).trans (h.field ch), k.ladder.trans h.ladder⟩

theorem of_regs (h : e.regs = d.regs) (hl : e.ladder = d.ladder) : FldKept f d e :=
  ⟨fun _ => by rw [Dev.get, Dev.get, Dev.reg, Dev.reg, h], hl⟩

theorem set (d : Dev) (x : Fld) (v ch : Nat) (h : Beside f [x]) : FldKept f d (d.set x v ch) := by
  obtain ⟨hw, ho | hb⟩ := h.2 x (List.mem_singleton_self x)
  · exact ⟨fun c => Dev.get_set_off d x f v ch c ho, rfl⟩
  · exact ⟨fun c => Dev.get_set_fld d x f v ch c hw hb, rfl⟩

theorem put (d : Dev) (x : Fld) (b : Bool) (ch : Nat) (h : Beside f [x]) : FldKept f d (d.put x b ch) := set _ _ _ _ h
theorem raise (d : Dev) (x : Fld) (ch : Nat) (h : Beside f [x]) : FldKept f d (d.raise x ch) := set _ _ _ _ h
theorem count (d : Dev) (x : Fld) (n ch : Nat) (h : Beside f [x]) : FldKept f d (d.count x n ch) := set _ _ _ _ h
theorem putBit (d : Dev) (x : Fld) (i : Nat) (b : Bool) (ch : Nat) (h : Beside f [x]) : FldKept f d (d.putBit x i b ch) := set _ _ _ _ h

theorem setRx (d : Dev) (g : Nat) (r : RxGrp) : FldKept f d (d.setRx g r) := of_regs rfl rfl
theorem setTx (d : Dev) (g : Nat) (t : TxGrp) : FldKept f d (d.setTx g t) := of_regs rfl rfl
theorem roleChanged (d : Dev) (g : Nat) : FldKept f d (d.roleChanged g) := of_regs rfl rfl
theorem mark (d : Dev) (t : Timer) (i : Nat) : FldKept f d (d.mark t i) := of_regs rfl rfl

/-- An operation that is done where a condition holds. -/
theorem when (b : Bool) (k : Dev → Dev) (h : b = true → FldKept f d (k d)) : FldKept f d (d.when b k) := by
  cases b
  · exact refl d
  · exact h rfl

/-- Registers outside the lanes'. -/
theorem of_same {lo hi : Nat} (h : SameRegs lo hi d e) (hf : lo ≤ f.off ∧ f.off < hi) (hl : e.ladder = d.ladder) : FldKept f d e :=
  ⟨fun ch => h.get f ch hf.1 hf.2, hl⟩

theorem raiseFault (d : Dev) (x : FaultAt) (h : Beside f []) : FldKept f d (d.raiseFault x) := by
  refine of_same (.raiseFault d x (.inl (by decide))) h.1 ?_
  unfold Dev.raiseFault
  split
  · rfl
  · exact Dev.set_ladder ..

theorem dropFault (d : Dev) (x : FaultAt) (h : Beside f []) : FldKept f d (d.dropFault x) :=
  of_same (.dropFault d x (.inl (by decide))) h.1 (Dev.set_ladder ..)

end FldKept

namespace Dev

theorem refreshHolding_ladder (d : Dev) (n : Nat) : (d.refreshHolding n).ladder = d.ladder := by
  have hr (e : Dev) (b : Bool) (f : Fld) : (e.raiseIf b f n).ladder = e.ladder := by cases b <;> rfl
  unfold refreshHolding
  extract_lets slot u h was d1 d2
  have hd : d2.ladder = d.ladder := (set_ladder ..).trans ((hr ..).trans (hr ..))
  split
  · exact hd
  · exact hd

theorem refreshPresence_ladder (d : Dev) (slot : Nat) (b : Bool) : (d.refreshPresence slot b).ladder = d.ladder := by
  unfold refreshPresence
  extract_lets ok
  split
  · exact (set_ladder ..).trans (set_ladder ..)
  · next n _ =>
    extract_lets mm u e
    have he : e.ladder = d.ladder := by
      unfold e
      split <;> rfl
    exact (refreshHolding_ladder ..).trans ((set_ladder ..).trans ((set_ladder ..).trans he))

theorem groupSilent_ladder (d : Dev) (g : Nat) : (d.groupSilent g).ladder = d.ladder := by
  have key (l : List Nat) : ∀ d : Dev, (l.foldl (fun d i =>
      let slot := g * 32 + i
      let d := { d with inWords := mapPut d.inWords (slot, 0) [] [] }
      d.refreshPresence slot false) d).ladder = d.ladder := by
    induction l with
    | nil => exact fun _ => rfl
    | cons i l ih => exact fun d => (ih _).trans (refreshPresence_ladder ..)
  unfold groupSilent
  split
  · exact key _ d
  · rfl

end Dev

namespace FldKept

variable {f : Fld}

theorem groupSilent (d : Dev) (g : Nat) (h : Beside f []) : FldKept f d (d.groupSilent g) :=
  of_same (Dev.groupSilent_same d g) ⟨Nat.zero_le _, h.1.2⟩ (Dev.groupSilent_ladder d g)

theorem putUp (d : Dev) (g : Nat) (b : Bool) (h : Beside f [LNG.RX_UP_0_UP, LNG.RX_UP_1_UP]) : FldKept f d (d.putUp g b) := by
  unfold Dev.putUp
  split
  · exact putBit _ _ _ _ _ (h.mono (by simp))
  · exact putBit _ _ _ _ _ (h.mono (by simp))

end FldKept

/-- What every entry into a receive state may set. -/
def enterFlds : List Fld := [LNG.GRP_STAT_RX_STATE, LNG.RX_UP_0_UP, LNG.RX_UP_1_UP, LNG.EVT_STAT_UP]

/-- What the receiver also sets as it leaves UP. -/
def leaveFlds : List Fld := [LNG.ROLE_RX_VALID, LNG.SKEW_STAT_SKEW_VALID]

namespace FldKept

variable {f : Fld}

/-- An entry into a receive state: leaving UP, and the states without block lock, set fields of their own. -/
theorem enterRx (d : Dev) (g st : Nat) (h : Beside f enterFlds) (hu : d.rxState g ≠ 5 ∨ Beside f leaveFlds)
    (hl : st ∈ [3, 4, 5, 7] ∨ Beside f [LNG.GRP_STAT_LANE_LOCK]) : FldKept f d (d.enterRx g st) := by
  have h0 : Beside f [] := h.mono (by simp)
  have hup : Beside f [LNG.RX_UP_0_UP, LNG.RX_UP_1_UP] := h.mono (by simp [enterFlds])
  unfold Dev.enterRx
  extract_lets old e1 e2 e3 d1 d2 d3 d4 d5 d6
  have hd1 : FldKept f d d1 := (set _ _ _ _ (h.mono (by simp [enterFlds]))).trans
    ((when _ _ fun _ => mark ..).trans ((when _ _ fun _ => mark ..).trans (when _ _ fun _ => mark ..)))
  have hd2 : FldKept f d1 d2 := when _ _ fun hb => by
    have hv : Beside f leaveFlds := hu.resolve_left fun hn => hn (by simpa using (Bool.and_eq_true_iff.1 hb).1)
    exact (put _ _ _ _ (hv.mono (by simp [leaveFlds]))).trans ((put _ _ _ _ (hv.mono (by simp [leaveFlds]))).trans
      ((putUp _ _ _ hup).trans ((groupSilent _ _ h0).trans (roleChanged ..))))
  have hd3 : FldKept f d2 d3 := when _ _ fun _ => dropFault _ _ h0
  have hd4 : FldKept f d3 d4 := when _ _ fun _ =>
    (raise _ _ _ (h.mono (by simp [enterFlds]))).trans ((putUp _ _ _ hup).trans (roleChanged ..))
  have hd5 : FldKept f d4 d5 := when _ _ fun hb => set _ _ _ _ (hl.resolve_left fun hm => by
    simp only [List.mem_cons, List.not_mem_nil, or_false] at hm
    rcases hm with rfl | rfl | rfl | rfl <;> exact absurd hb (by decide))
  have hd6 : FldKept f d5 d6 := when _ _ fun _ => setRx ..
  exact hd1.trans (hd2.trans (hd3.trans (hd4.trans (hd5.trans (hd6.trans (when _ _ fun _ => setTx ..))))))

end FldKept

end Sys2Proof.Machine
end

section
/-!
Proofs, the receive states of a lane group (Table 2.5): where an entry leads, what reaching UP and entering DOWN report.
-/

namespace Sys2Proof.Machine

/-- What a move of the receiver may set. -/
def moveFlds : List Fld := enterFlds ++ leaveFlds ++ [LNG.GRP_STAT_LANE_LOCK, LNG.GRP_STAT_SHED]

/-- What an entry into DOWN may set. -/
def downFlds : List Fld := moveFlds ++ [LNG.CNT_DOWN_COUNT, LNG.EVT_STAT_DOWN]

namespace FldKept

variable {f : Fld} {d e : Dev}

/-- An entry into any state from any state. -/
theorem enterAny (d : Dev) (g st : Nat) (h : Beside f moveFlds) : FldKept f d (d.enterRx g st) :=
  enterRx d g st (h.mono (by simp [moveFlds])) (.inr (h.mono (by simp [moveFlds]))) (.inr (h.mono (by simp [moveFlds])))

theorem refreshShed (d : Dev) (g : Nat) (h : Beside f [LNG.GRP_STAT_SHED]) : FldKept f d (d.refreshShed g) := put _ _ _ _ h

theorem moveRx (d : Dev) (g st : Nat) (h : Beside f moveFlds) : FldKept f d (d.moveRx g st) := by
  unfold Dev.moveRx
  split
  · exact (enterAny d g 1 h).trans ((setRx ..).trans (refreshShed _ _ (h.mono (by simp [moveFlds]))))
  · exact enterAny d g st h

theorem shedding (h : FldKept f d e) : e.shedding = d.shedding := by rw [Dev.shedding, Dev.shedding, h.ladder]

end FldKept

namespace Dev

variable {d : Dev} {g : Nat}

/-- Entry into a state, read as the receive state. -/
theorem enterRx_rxState (d : Dev) (g : Nat) {st : Nat} (h : st < 16) : (d.enterRx g st).rxState g = st :=
  (enterRx_state d g st).trans (Nat.mod_eq_of_lt h)

theorem moveRx_rxState (hs : d.shedding = false) {st : Nat} (h : st < 16) : (d.moveRx g st).rxState g = st := by
  rw [moveRx_plain hs, enterRx_rxState d g h]

/-! ## Entry into DOWN (R63) -/

/-- The entry into DOWN and what it reports, before the shedding ladder holds the direction. -/
def fellDown (d : Dev) (g : Nat) : Dev :=
  let e := ((d.enterRx g 6).count LNG.CNT_DOWN_COUNT 1 g).raise LNG.EVT_STAT_DOWN g
  (e.setRx g { e.rxOf g with aged := false }).raiseFault (groupFault 64 g)

theorem groupDown_eq_fellDown (d : Dev) (g : Nat) : d.groupDown g =
    if (d.fellDown g).shedding && (d.fellDown g).get LNG.GRP_CTL_RX_REQ g == 2 then (d.fellDown g).moveRx g 6 else d.fellDown g := (rfl)

theorem fellDown_kept {f : Fld} (d : Dev) (g : Nat) (h : Beside f downFlds) : FldKept f d (d.fellDown g) := by
  unfold fellDown
  exact (FldKept.enterAny d g 6 (h.mono (by simp [downFlds]))).trans ((FldKept.count _ _ _ _ (h.mono (by simp [downFlds]))).trans
    ((FldKept.raise _ _ _ (h.mono (by simp [downFlds]))).trans ((FldKept.setRx ..).trans (.raiseFault _ _ (h.mono (by simp))))))

theorem groupDown_kept {f : Fld} (d : Dev) (g : Nat) (h : Beside f downFlds) : FldKept f d (d.groupDown g) := by
  rw [groupDown_eq_fellDown]
  split
  · exact (fellDown_kept d g h).trans (.moveRx _ _ _ (h.mono (by simp [downFlds])))
  · exact fellDown_kept d g h

theorem groupDown_plain (hs : d.shedding = false) : d.groupDown g = d.fellDown g := by
  have h : (d.fellDown g).shedding = false := (fellDown_kept (f := LNG.GRP_CTL_RX_REQ) d g (by decide)).shedding.trans hs
  rw [groupDown_eq_fellDown, h]
  rfl

/-- A count of 32 bits, read after it rose. -/
theorem count_get (d : Dev) {f : Fld} (n ch : Nat) (hl : f.lo = 0) (hw : f.w = 32) :
    (d.count f n ch).get f ch = sat32 (d.get f ch + n) := by
  rw [count, get_set_self _ _ _ _ (by omega), hw]
  exact Nat.mod_eq_of_lt (by omega)

/-- What an entry into DOWN shows. -/
structure IsDown (d e : Dev) (g : Nat) : Prop where
  state : e.rxState g = 6
  event : e.get LNG.EVT_STAT_DOWN g = 1
  counted : e.get LNG.CNT_DOWN_COUNT g = sat32 (d.get LNG.CNT_DOWN_COUNT g + 1)
  fault : groupFault 64 g ∈ e.conds

theorem fellDown_isDown (d : Dev) (g : Nat) : IsDown d (d.fellDown g) g := by
  have hraise {f : Fld} (e : Dev) (x : FaultAt) (h : Beside f []) : (e.raiseFault x).get f g = e.get f g :=
    (FldKept.raiseFault e x h).field g
  refine ⟨?_, ?_, ?_, raiseFault_mem ..⟩
  · refine (hraise _ _ (by decide)).trans ?_
    rw [setRx_get, raise_eq, get_set_off _ _ _ _ _ _ (by decide), count, get_set_off _ _ _ _ _ _ (by decide)]
    exact enterRx_rxState d g (by decide)
  · refine (hraise _ _ (by decide)).trans ?_
    rw [setRx_get]
    exact get_set_self _ _ _ _ (by decide)
  · refine (hraise _ _ (by decide)).trans ?_
    rw [setRx_get, raise_eq, get_set_off _ _ _ _ _ _ (by decide), count_get _ _ _ rfl rfl]
    rw [(FldKept.enterAny (f := LNG.CNT_DOWN_COUNT) d g 6 (by decide)).field]

theorem groupDown_isDown (hs : d.shedding = false) : IsDown d (d.groupDown g) g := by
  rw [groupDown_plain hs]
  exact fellDown_isDown d g

/-! ## Entry into UP -/

theorem rxOf_of_rx {e : Dev} (h : e.rx = d.rx) (g : Nat) : e.rxOf g = d.rxOf g := by rw [rxOf, rxOf, h]

theorem when_rxOf {b : Bool} {k : Dev → Dev} (h : (k d).rxOf g = d.rxOf g) : (d.when b k).rxOf g = d.rxOf g := by
  cases b
  · rfl
  · exact h

theorem putUp_only (d : Dev) (g : Nat) (b : Bool) : OnlyRegs d (d.putUp g b) := by
  unfold putUp
  split <;> exact .putBit ..

/-- The status of a receiver as it reaches UP from ALIGN, and its role word, which RXUP changes (R73). -/
def showUpRx (d : Dev) (g : Nat) : Dev := (((d.set LNG.GRP_STAT_RX_STATE 5 g).raise LNG.EVT_STAT_UP g).putUp g true).roleChanged g

/-- A receiver in UP retains no alignment of a REST before. -/
def dropRetained (d : Dev) (g : Nat) : Dev := d.setRx g { d.rxOf g with retained := false }

/-- Its request for training ends (R66). -/
def endTrq (d : Dev) (g : Nat) : Dev := d.setTx g { d.txOf g with trq := false, changed := true }

theorem enterRx_of_align (h : d.rxState g = 4) : d.enterRx g 5 =
    ((d.showUpRx g).dropRetained g).when (((d.showUpRx g).dropRetained g).txOf g).trq (·.endTrq g) := by
  unfold enterRx
  rw [h]
  simp only [when_true, when_false, Nat.reduceBEq, Nat.reduceBNe, Bool.and_true, Bool.and_false, Bool.false_and, Bool.or_false,
    Bool.not_false, List.contains_cons, List.contains_nil]
  rfl

theorem enterRx_up_event (h : d.rxState g = 4) : (d.enterRx g 5).get LNG.EVT_STAT_UP g = 1 := by
  rw [enterRx_of_align h, when_get (setTx_get ..), dropRetained, setRx_get, showUpRx, roleChanged_get,
    (FldKept.putUp (f := LNG.EVT_STAT_UP) _ _ _ (by decide)).field]
  exact get_set_self _ _ _ _ (by decide)

theorem enterRx_up_mseq (h : d.rxState g = 4) : ((d.enterRx g 5).rxOf g).mseq = (d.rxOf g).mseq := by
  have hs : ((d.showUpRx g).dropRetained g).rxOf g = { d.rxOf g with retained := false } := by
    have hr : (d.showUpRx g).rxOf g = d.rxOf g := rxOf_of_rx ((putUp_only ..).get_rx.trans (set_rx ..)) g
    rw [dropRetained, rxOf_setRx, hr]
  rw [enterRx_of_align h, when_rxOf rfl, hs]

end Dev

end Sys2Proof.Machine
end

section
/-!
Proofs, control blocks and alignment (R48, R49, R53, R55).
-/

namespace Sys2Proof.Machine

namespace Dev

variable {d : Dev} {g : Nat}

/-! ## Control blocks (R48, R49) -/

theorem takePayload_kept (d : Dev) (g l : Nat) (raw : BitVec 128) (k : List Key) : RegsKept d (d.takePayload g l raw).2 k := .of_regs rfl

theorem takePayload_rxState (d : Dev) (g l : Nat) (raw : BitVec 128) : (d.takePayload g l raw).2.rxState g = d.rxState g :=
  takePayload_get ..

theorem takePayload_compat (d : Dev) (g l : Nat) (raw : BitVec 128) : (d.takePayload g l raw).2.compat g = d.compat g := (rfl)

/-- A block with a good CRC and a listed type is not counted. -/
theorem controlRx_valid {l : Nat} {raw : BitVec 128} (hc : controlOk (d.takePayload g l raw).1 = true)
    (ht : (payloadByte (d.takePayload g l raw).1 0).toNat ∈ controlTypes) : d.controlRx g l raw = (d.takePayload g l raw).2 := by
  rw [controlRx, if_pos]
  simp [hc, ht]

theorem readsHeaders_of_mem (h : d.rxState g ∈ [3, 4, 5]) : d.readsHeaders g = true := List.contains_iff_mem.2 h

/-- Where headers are read, another block is counted. -/
theorem controlRx_bad {l : Nat} {raw : BitVec 128} (hr : d.rxState g ∈ [3, 4, 5]) (hb : controlOk (d.takePayload g l raw).1 = false ∨
    (payloadByte (d.takePayload g l raw).1 0).toNat ∉ controlTypes) :
    d.controlRx g l raw = (d.takePayload g l raw).2.count LNG.CNT_CTL_COUNT 1 g := by
  rw [controlRx, if_neg]
  rcases hb with hb | hb <;> simp [hb, readsHeaders_of_mem hr]

/-- A block that is no resumption from compatibility REST moves nothing (R59). -/
theorem resume_stays {l : Nat} (h : d.rxState g ≠ 7 ∨ d.compat g = false) :
    (if d.rxState g = 7 && d.compat g then d.resumeOther g l else d) = d := by
  rw [if_neg]
  rcases h with h | h <;> simp [h]

/-- What a control block of one lane does: it is judged, and resumes a compatibility lane from REST (R49, R59). -/
def controlBlock (d : Dev) (g l : Nat) (raw : BitVec 128) : Dev :=
  if (d.controlRx g l raw).rxState g = 7 && (d.controlRx g l raw).compat g then (d.controlRx g l raw).resumeOther g l
  else d.controlRx g l raw

theorem controlBlock_valid {l : Nat} {raw : BitVec 128} (h : d.rxState g ≠ 7 ∨ d.compat g = false)
    (hc : controlOk (d.takePayload g l raw).1 = true) (ht : (payloadByte (d.takePayload g l raw).1 0).toNat ∈ controlTypes) :
    d.controlBlock g l raw = (d.takePayload g l raw).2 := by
  rw [controlBlock, controlRx_valid hc ht]
  exact resume_stays (by rwa [takePayload_rxState, takePayload_compat])

theorem controlBlock_bad {l : Nat} {raw : BitVec 128} (hr : d.rxState g ∈ [3, 4, 5]) (hb : controlOk (d.takePayload g l raw).1 = false ∨
    (payloadByte (d.takePayload g l raw).1 0).toNat ∉ controlTypes) :
    d.controlBlock g l raw = (d.takePayload g l raw).2.count LNG.CNT_CTL_COUNT 1 g := by
  rw [controlBlock, controlRx_bad hr hb]
  refine resume_stays (.inl ?_)
  rw [rxState, (FldKept.count _ _ _ _ (by decide)).field, ← rxState, takePayload_rxState]
  intro h7
  rw [h7] at hr
  exact absurd hr (by decide)

end Dev

/-- The three commands that bring a control block of one lane have one meaning. -/
theorem exec_controlBlock {g : Grp} {l : Lane} {raw : BitVec 128} {c : Instr}
    (h : c ∈ [Instr.idleBlockRx g l raw, .trainBlockRx g l raw, .badControlBlock g l raw]) (s : State) :
    exec c s = s.go fun d => d.controlBlock g l raw := by
  simp only [List.mem_cons, List.not_mem_nil, or_false] at h
  obtain rfl | rfl | rfl := h <;> rfl

theorem runsTo_controlBlock_valid {g : Grp} {l : Lane} {raw : BitVec 128} {c : Instr} {s : State}
    (hm : c ∈ [Instr.idleBlockRx g l raw, .trainBlockRx g l raw, .badControlBlock g l raw])
    (h : s.dev.rxState g ≠ 7 ∨ s.dev.compat g = false) (hc : controlOk (s.dev.takePayload g l raw).1 = true)
    (ht : (payloadByte (s.dev.takePayload g l raw).1 0).toNat ∈ controlTypes) : RunsTo c s fun d => RegsKept s.dev d [] :=
  runsTo_go (exec_controlBlock hm s) (Dev.controlBlock_valid h hc ht) (Dev.takePayload_kept _ _ _ _ _)

theorem runsTo_controlBlock_bad {g : Grp} {l : Lane} {raw : BitVec 128} {c : Instr} {s : State}
    (hm : c ∈ [Instr.idleBlockRx g l raw, .trainBlockRx g l raw, .badControlBlock g l raw])
    (hr : s.dev.rxState g ∈ [3, 4, 5]) (hb : controlOk (s.dev.takePayload g l raw).1 = false ∨
      (payloadByte (s.dev.takePayload g l raw).1 0).toNat ∉ controlTypes) :
    RunsTo c s fun d => d.get LNG.CNT_CTL_COUNT g = sat32 (s.dev.get LNG.CNT_CTL_COUNT g + 1) ∧ RegsKept s.dev d [(0x00100128, g.val)] := by
  refine runsTo_go (exec_controlBlock hm s) (Dev.controlBlock_bad hr hb) ⟨?_, ?_⟩
  · rw [Dev.count_get _ _ _ rfl rfl, Dev.takePayload_get]
  · exact (Dev.takePayload_kept _ _ _ _ _).trans (.count _ _ _ _ (List.mem_singleton_self _))

/-! ## Alignment (R53) -/

/-- Eight blocks and their payloads are the markers of one alignment: CRC-valid ALIGN blocks of the group and its mode, with MSEQ `m`, that
arrive from `first` to `last`. -/
structure Markers (mode : Bool) (g : Nat) (bs : List LaneBlk) (ps : List (BitVec 128)) (m first last : Nat) : Prop where
  eight : bs.length = 8
  each : ps.length = 8
  header : ∀ b ∈ bs, b.hdr = 0xA
  range : ∀ b ∈ bs, first ≤ b.at_ui ∧ b.at_ui ≤ last
  earliest : ∃ b ∈ bs, b.at_ui = first
  latest : ∃ b ∈ bs, b.at_ui = last
  near : last ≤ first + 53
  crc : ∀ p ∈ ps, controlOk p = true
  type : ∀ p ∈ ps, (payloadByte p 0).toNat = 0x4B
  group : ∀ p ∈ ps, (payloadByte p 1).toNat % 64 = g
  modeOk : ∀ p ∈ ps, decide ((payloadByte p 2).toNat ≥ 128) = mode
  seq : ∀ p ∈ ps, Dev.mseqOf p = m

namespace Markers

variable {mode : Bool} {g : Nat} {bs : List LaneBlk} {ps : List (BitVec 128)} {m first last : Nat}

theorem first_eq (h : Markers mode g bs ps m first last) :
    (bs.map (·.at_ui)).foldl min ((bs.head?.map (·.at_ui)).getD 0) = first := by
  have hmin : (bs.map (·.at_ui)).min? = some first := List.min?_eq_some_iff.2
    ⟨by simpa using h.earliest, by simpa using fun b m => (h.range b m).1⟩
  obtain ⟨b, l, rfl⟩ : ∃ b l, bs = b :: l := List.exists_cons_of_length_eq_add_one h.eight
  have hb : first ≤ b.at_ui := (h.range b (List.mem_cons_self ..)).1
  rw [List.foldl_min, hmin]
  exact Nat.min_eq_right hb

theorem last_eq (h : Markers mode g bs ps m first last) : (bs.map (·.at_ui)).foldl max 0 = last := by
  have hmax : (bs.map (·.at_ui)).max? = some last := List.max?_eq_some_iff.2
    ⟨by simpa using h.latest, by simpa using fun b m => (h.range b m).2⟩
  rw [List.foldl_max, hmax]
  exact Nat.zero_max last

theorem isAlign (h : Markers mode g bs ps m first last) {x : LaneBlk × BitVec 128} (hx : x ∈ bs.zip ps) : Dev.isAlign x.1 x.2 = true := by
  obtain ⟨hb, hp⟩ := List.of_mem_zip (a := x.1) (b := x.2) hx
  simp [Dev.isAlign, h.header _ hb, h.crc _ hp, h.type _ hp]

end Markers

namespace Dev

variable {d : Dev} {g : Nat}

theorem takePayloads_length (d : Dev) (g : Nat) (bs : List LaneBlk) : (d.takePayloads g bs).1.length = bs.length := by
  have key (l : List (LaneBlk × Nat)) : ∀ acc : List (BitVec 128) × Dev,
      (l.foldl (fun (acc : List (BitVec 128) × Dev) b =>
        let r := acc.2.takePayload g b.2 b.1.raw
        (acc.1 ++ [r.1], r.2)) acc).1.length = acc.1.length + l.length := by
    induction l with
    | nil => exact fun _ => rfl
    | cons x l ih =>
      intro acc
      rw [List.foldl_cons, ih, List.length_append, List.length_singleton, List.length_cons]
      omega
  unfold takePayloads
  rw [key, List.length_zipIdx]
  exact Nat.zero_add _

/-- The lanes' records and the measured skew of a receiver as it aligns (R53). -/
def deskew (d : Dev) (g : Nat) (lanes : List RxLane) (m skew late : Nat) : Dev :=
  (((d.setRx g { d.rxOf g with lanes := lanes, mseq := m }).set LNG.SKEW_STAT_SKEW skew g).set LNG.SKEW_STAT_LATE_LANE late g).put
    LNG.SKEW_STAT_SKEW_VALID true g

/-- Markers within 53 UI of each other align the receiver. -/
theorem tryAlign_markers {bs : List LaneBlk} {ps : List (BitVec 128)} {m first last : Nat}
    (h : Markers (d.compat g) g bs ps m first last) :
    ∃ lanes late, d.tryAlign g bs ps = (d.deskew g lanes m (last - first) late).enterRx g 5 := by
  have hp {x : LaneBlk × BitVec 128} (hx : x ∈ bs.zip ps) : x.2 ∈ ps := (List.of_mem_zip (a := x.1) (b := x.2) hx).2
  have hvalid : ((bs.zip ps).all fun x => isAlign x.1 x.2) = true := List.all_eq_true.2 fun x hx => h.isAlign hx
  have hmode : ((bs.zip ps).all fun x => decide ((payloadByte x.2 2).toNat ≥ 128) == d.compat g) = true :=
    List.all_eq_true.2 fun x hx => beq_iff_eq.2 (h.modeOk _ (hp hx))
  have hseq : mseqOf (ps.headD 0) = m := by
    obtain ⟨p, l, rfl⟩ : ∃ p l, ps = p :: l := List.exists_cons_of_length_eq_add_one h.each
    exact h.seq p (List.mem_cons_self ..)
  have hsame : (ps.all fun p => mseqOf p == m) = true := List.all_eq_true.2 fun p hp => beq_iff_eq.2 (h.seq p hp)
  have hgroup : ((bs.zip ps).any fun x => isAlign x.1 x.2 && (payloadByte x.2 1).toNat % 64 != g) = false :=
    List.any_eq_false.2 fun x hx => by simp [h.group _ (hp hx)]
  have hskew : last - first ≤ 53 := by have := h.near; omega
  unfold tryAlign
  rw [h.first_eq, h.last_eq, hseq]
  simp only [h.eight, hvalid, hmode, hsame, hgroup, hskew, decide_true, Bool.and_true, Bool.not_false, if_true]
  exact ⟨_, _, rfl⟩

/-- Blocks that all carry the header of a control block bring no data and no header error. -/
theorem judgeHeaders_control {bs : List LaneBlk} (h : ∀ b ∈ bs, b.hdr = 0xA) (d : Dev) (g : Nat) (ps : List (BitVec 128)) :
    d.judgeHeaders g bs ps = d := by
  have hl : ∀ x ∈ (bs.zip ps).zipIdx, x.1.1.hdr = 0xA := fun x hx =>
    h _ (List.of_mem_zip (a := x.1.1) (b := x.1.2) (List.fst_mem_of_mem_zipIdx hx)).1
  unfold judgeHeaders
  revert hl
  induction (bs.zip ps).zipIdx with
  | nil => exact fun _ => rfl
  | cons x l ih =>
    intro hl
    rw [List.foldl_cons, if_pos (by simp [hl x (List.mem_cons_self ..)])]
    exact ih fun y hy => hl y (List.mem_cons_of_mem _ hy)

/-- The eight lanes' control blocks, descrambled and judged. -/
def judged (d : Dev) (g : Nat) (bs : List LaneBlk) : Dev := (d.takePayloads g bs).2.judgeControls g bs (d.takePayloads g bs).1

theorem judged_kept {f : Fld} (d : Dev) (g : Nat) (bs : List LaneBlk) (ch : Nat) (h : Beside f [LNG.CNT_CTL_COUNT]) :
    (d.judged g bs).get f ch = d.get f ch := by
  have hr : (d.takePayloads g bs).2.get f ch = d.get f ch := by rw [get, get, reg, reg, takePayloads_regs]
  unfold judged judgeControls
  split
  · exact ((FldKept.count _ _ _ _ h).field ch).trans hr
  · exact hr

/-- A receiver in ALIGN takes blocks that are all control blocks as markers alone. -/
theorem alignBlock_of_align {bs : List LaneBlk} (h : d.rxState g = 4) (hb : ∀ b ∈ bs, b.hdr = 0xA) :
    d.alignBlock g bs = (d.judged g bs).tryAlign g bs (d.takePayloads g bs).1 := by
  have hj : (d.judged g bs).rxState g = 4 := (judged_kept d g bs g (by decide)).trans h
  refine (if_neg (c := (d.judged g bs).rxState g = 5) (by rw [hj]; decide)).trans ?_
  exact (if_pos (by rwa [judgeHeaders_control hb])).trans (by rw [judgeHeaders_control hb]; rfl)

theorem deskew_mseq (d : Dev) (g : Nat) (lanes : List RxLane) (m skew late : Nat) : ((d.deskew g lanes m skew late).rxOf g).mseq = m := by
  rw [deskew, put_eq, rxOf, set_rx, set_rx, set_rx, ← rxOf, rxOf_setRx]

/-- What an alignment shows (R53). -/
theorem deskew_aligned (lanes : List RxLane) {m skew : Nat} (late : Nat) (h : d.rxState g = 4) (hs : skew ≤ 53) :
    ((d.deskew g lanes m skew late).enterRx g 5).rxState g = 5 ∧
      ((d.deskew g lanes m skew late).enterRx g 5).get LNG.SKEW_STAT_SKEW g = skew ∧
      ((d.deskew g lanes m skew late).enterRx g 5).get LNG.SKEW_STAT_SKEW_VALID g = 1 ∧
      ((d.deskew g lanes m skew late).enterRx g 5).get LNG.EVT_STAT_UP g = 1 ∧
      (((d.deskew g lanes m skew late).enterRx g 5).rxOf g).mseq = m := by
  have hd : (d.deskew g lanes m skew late).rxState g = 4 := by
    rw [← h]
    exact (get_set_off _ _ _ _ _ _ (by decide)).trans ((get_set_off _ _ _ _ _ _ (by decide)).trans (get_set_off _ _ _ _ _ _ (by decide)))
  have hk {f : Fld} (hf : Beside f enterFlds) :
      ((d.deskew g lanes m skew late).enterRx g 5).get f g = (d.deskew g lanes m skew late).get f g :=
    (FldKept.enterRx _ g 5 hf (.inl (by rw [hd]; decide)) (.inl (by decide))).field g
  refine ⟨enterRx_rxState _ g (by decide), ?_, ?_, enterRx_up_event hd, ?_⟩
  · rw [hk (by decide), deskew, put_eq, get_set_fld _ _ _ _ _ _ (by decide) (by decide), get_set_fld _ _ _ _ _ _ (by decide) (by decide),
      get_set_self _ _ _ _ (by decide)]
    exact Nat.mod_eq_of_lt (Nat.lt_of_le_of_lt hs (by decide))
  · rw [hk (by decide), deskew, put_eq, get_set_self _ _ _ _ (by decide)]
    rfl
  · rw [enterRx_up_mseq hd, deskew_mseq]

/-! ## A marker that is missing (R55) -/

theorem markers_count (d : Dev) (g : Nat) (failed : List Bool) :
    (d.markers g failed).get LNG.CNT_MRK_COUNT g = sat32 (d.get LNG.CNT_MRK_COUNT g + failed.countP id) := by
  unfold markers
  extract_lets r lanes e
  have he : e.get LNG.CNT_MRK_COUNT g = sat32 (d.get LNG.CNT_MRK_COUNT g + failed.countP id) := by
    unfold e
    rw [count_get _ _ _ rfl rfl, setRx_get]
  split
  · exact ((groupDown_kept e g (by decide)).field g).trans he
  · exact he

/-- The MSEQ expected at an index passes as the predecessor of the next (R55). -/
def passSeq (d : Dev) (g : Nat) : Dev := d.setRx g { d.rxOf g with mseq := ((d.rxOf g).mseq + 1) % 65536 }

end Dev

theorem exec_alignBlockRx (g : Grp) (bs : List LaneBlk) (s : State) : exec (.alignBlockRx g bs) s = s.go fun d =>
    if d.rxState g = 7 then (d.alignBlock g bs).exitRx g bs (d.takePayloads g bs).1 else d.alignBlock g bs := rfl

theorem runsTo_alignBlockRx {g : Grp} {bs : List LaneBlk} {m first last : Nat} {s : State} (h : s.dev.rxState g = 4)
    (hm : Markers (s.dev.compat g) g bs (s.dev.takePayloads g bs).1 m first last) :
    RunsTo (.alignBlockRx g bs) s fun d => d.rxState g = 5 ∧ d.get LNG.SKEW_STAT_SKEW g = last - first ∧
      d.get LNG.SKEW_STAT_SKEW_VALID g = 1 ∧ d.get LNG.EVT_STAT_UP g = 1 ∧ (d.rxOf g).mseq = m := by
  have hj : (s.dev.judged g bs).rxState g = 4 := (Dev.judged_kept s.dev g bs g (by decide)).trans h
  have hc : (s.dev.judged g bs).compat g = s.dev.compat g := by
    rw [Dev.compat, Dev.compat, Dev.flag, Dev.flag, Dev.judged_kept s.dev g bs g (by decide)]
  obtain ⟨lanes, late, ha⟩ := Dev.tryAlign_markers (d := s.dev.judged g bs) (by rw [hc]; exact hm)
  refine runsTo_go (exec_alignBlockRx g bs s) (e := ((s.dev.judged g bs).deskew g lanes m (last - first) late).enterRx g 5) ?_
    (Dev.deskew_aligned lanes late hj (by have := hm.near; omega))
  rw [← ha, ← Dev.alignBlock_of_align h hm.header]
  exact if_neg (by rw [h]; decide)

theorem runsTo_markerMissing_up {g : Grp} {s : State} (lanes : List Lane) (h : s.dev.rxState g = 5) :
    RunsTo (.markerMissing g lanes) s fun d => d.get LNG.CNT_MRK_COUNT g =
      sat32 (s.dev.get LNG.CNT_MRK_COUNT g + ((List.finRange 8).filter fun l => lanes.contains l).length) := by
  refine runsTo_go rfl (e := (s.dev.passSeq g).markers g ((List.finRange 8).map fun l => lanes.contains l)) (if_pos h) ?_
  rw [Dev.markers_count, Dev.passSeq, Dev.setRx_get, List.countP_map, List.countP_eq_length_filter]
  rfl

theorem runsTo_markerMissing_other {g : Grp} {s : State} (lanes : List Lane) (h : s.dev.rxState g ≠ 5) :
    RunsTo (.markerMissing g lanes) s fun d => d = s.dev := runsTo_go rfl (if_neg h) rfl

/-- Settles O2: control blocks of one lane, the markers that align a group, and a marker that is missing. -/
theorem controlAndAlignment : Obligations.ControlAndAlignment := by
  unfold Obligations.ControlAndAlignment
  refine ⟨⟨fun g l raw s h hc ht => ⟨runsTo_controlBlock_valid (by simp) h hc ht, runsTo_controlBlock_valid (by simp) h hc ht⟩,
    fun g l raw s hr hb => ⟨runsTo_controlBlock_bad (by simp) hr hb, fun c hc => runsTo_controlBlock_bad ?_ hr hb⟩⟩,
    fun g bs m first last s h h8 hb hf hl hn hp => runsTo_alignBlockRx h ?_,
    fun g lanes s h => runsTo_markerMissing_up lanes h, fun g lanes s h => runsTo_markerMissing_other lanes h⟩
  · exact List.mem_append_left [.badControlBlock g l raw] hc
  · choose hc ht hg hm hs using hp
    exact ⟨h8, (Dev.takePayloads_length ..).trans h8, fun b m => (hb b m).1, fun b m => (hb b m).2, hf, hl, hn, hc, ht, hg, hm, hs⟩

end Sys2Proof.Machine
end

section
/-!
Proofs, the receive state machine on clock, lock, timer and request events (Table 2.5, R58, R59, R61, R63, R70).
-/

namespace Sys2Proof.Machine

namespace Dev

variable {d : Dev} {g : Nat}

theorem rxState_of_kept {e : Dev} (h : FldKept LNG.GRP_STAT_RX_STATE d e) : e.rxState g = d.rxState g := h.field g

theorem compat_of_kept {e : Dev} (h : FldKept LNG.GRP_CTL_MODE d e) : e.compat g = d.compat g := by
  rw [compat, compat, flag, flag, h.field]

/-- A flag read after it was put. -/
theorem put_get (d : Dev) {f : Fld} (b : Bool) (ch : Nat) (hl : f.lo < 32) (hw : f.w = 1) : (d.put f b ch).get f ch = b2n b := by
  rw [put_eq, get_set_self _ _ _ _ (by omega), hw, b2n_mod]

/-! ## Clock LOS and LOL (R59, R61) -/

/-- The two ways to lose the clock: the status bit, and the event that a group in UP sets. -/
def clockPairs : List (Fld × Fld) := [(LNG.GRP_STAT_CLK_LOS, LNG.EVT_STAT_LOS), (LNG.GRP_STAT_CLK_LOL, LNG.EVT_STAT_LOL)]

theorem clockPairs_flags : ∀ p ∈ clockPairs, p.1.lo < 32 ∧ p.1.w = 1 ∧ p.2.lo < 32 ∧ p.2.w = 1 := by decide

/-- The status bit, the event, RX_STATE and the count of entries into DOWN lie apart. -/
theorem clockPairs_beside : ∀ p ∈ clockPairs, Beside p.1 (p.2 :: downFlds) ∧ Beside p.2 downFlds ∧
    Beside LNG.GRP_STAT_RX_STATE [p.1] ∧ Beside LNG.CNT_DOWN_COUNT [p.1] ∧ Beside LNG.CNT_DOWN_COUNT [p.2] := by decide

/-- The clock is bad now, and the 200 ns that CLOCK_VALID asks for start anew. -/
def clockBad (d : Dev) (g : Nat) (x : Fld) : Dev := (d.put x true g).mark .rxClock g

theorem clockBad_kept {f : Fld} (d : Dev) (g : Nat) (x : Fld) (h : Beside f [x]) : FldKept f d (d.clockBad g x) :=
  (FldKept.put _ _ _ _ h).trans (.mark ..)

theorem clockLost_up (evt : Fld) (h : d.rxState g = 5) : d.clockLost g evt = (d.raise evt g).groupDown g := if_pos h

theorem clockLost_seeking (evt : Fld) (h : d.rxState g ∈ [2, 3, 4]) (hs : d.shedding = false) : d.clockLost g evt = d.enterRx g 2 := by
  rw [← moveRx_plain hs]
  simp only [List.mem_cons, List.not_mem_nil, or_false] at h
  refine (if_neg (by omega)).trans (if_pos ?_)
  simpa [or_assoc] using h

theorem clockLost_kept {f : Fld} (d : Dev) (g : Nat) (evt : Fld) (h : Beside f (evt :: downFlds)) : FldKept f d (d.clockLost g evt) := by
  have hd : Beside f downFlds := h.mono (by simp)
  unfold clockLost
  extract_lets st
  split
  · exact (FldKept.raise _ _ _ (h.mono (by simp))).trans (groupDown_kept _ g hd)
  · split
    · exact .moveRx d g 2 (hd.mono (by simp [downFlds]))
    · split
      · exact groupDown_kept d g hd
      · exact .refl d

/-- What a bad clock shows: its status bit; while acquiring, ACQ and no count; in UP, an entry into DOWN and its own event. -/
structure ClockIsLost (d e : Dev) (g : Nat) (x evt : Fld) : Prop where
  status : e.get x g = 1
  seeking : d.rxState g ∈ [2, 3, 4] → d.shedding = false → e.rxState g = 2 ∧ e.get LNG.CNT_DOWN_COUNT g = d.get LNG.CNT_DOWN_COUNT g
  up : d.rxState g = 5 → d.shedding = false → e.rxState g = 6 ∧ e.get evt g = 1 ∧ e.get LNG.EVT_STAT_DOWN g = 1 ∧
    e.get LNG.CNT_DOWN_COUNT g = sat32 (d.get LNG.CNT_DOWN_COUNT g + 1) ∧ groupFault 64 g ∈ e.conds

theorem clockBad_isLost (d : Dev) (g : Nat) {x evt : Fld} (hx : (x, evt) ∈ clockPairs) :
    ClockIsLost d ((d.clockBad g x).clockLost g evt) g x evt := by
  obtain ⟨hl, hw, hl', hw'⟩ := clockPairs_flags _ hx
  obtain ⟨hbx, hbe, hbs, hbc, hbc'⟩ := clockPairs_beside _ hx
  have hst : (d.clockBad g x).rxState g = d.rxState g := rxState_of_kept (clockBad_kept d g x hbs)
  have hsh : (d.clockBad g x).shedding = d.shedding := (clockBad_kept d g x hbs).shedding
  have hcnt : (d.clockBad g x).get LNG.CNT_DOWN_COUNT g = d.get LNG.CNT_DOWN_COUNT g := (clockBad_kept d g x hbc).field g
  refine ⟨?_, fun h hs => ?_, fun h hs => ?_⟩
  · rw [(clockLost_kept _ g evt hbx).field]
    exact put_get d true g hl hw
  · rw [clockLost_seeking evt (by rwa [hst]) (hsh.trans hs), (FldKept.enterAny _ g 2 (by decide)).field, hcnt]
    exact ⟨enterRx_rxState _ g (by decide), rfl⟩
  · rw [clockLost_up evt (hst.trans h)]
    obtain ⟨h6, hdown, hcount, hfault⟩ := groupDown_isDown (d := (d.clockBad g x).raise evt g) (g := g) (hsh.trans hs)
    refine ⟨h6, ?_, hdown, ?_, hfault⟩
    · rw [(groupDown_kept _ g hbe).field]
      exact put_get _ true g hl' hw'
    · rw [hcount, (FldKept.raise _ evt g hbc').field, hcnt]

end Dev

theorem exec_clockLos (g : Grp) (s : State) : exec (.clockLos g) s = s.go fun d =>
    if d.rxState g = 0 then d else (d.clockBad g LNG.GRP_STAT_CLK_LOS).clockLost g LNG.EVT_STAT_LOS := rfl

theorem exec_clockLol (g : Grp) (s : State) : exec (.clockLol g) s = s.go fun d =>
    if d.rxState g ≤ 1 then d else (d.clockBad g LNG.GRP_STAT_CLK_LOL).clockLost g LNG.EVT_STAT_LOL := rfl

theorem runsTo_clockLos (g : Grp) (s : State) : RunsTo (.clockLos g) s fun d => (s.dev.rxState g = 0 → d = s.dev) ∧
    (s.dev.rxState g ≠ 0 → d.get LNG.GRP_STAT_CLK_LOS g = 1) ∧
    (s.dev.rxState g ∈ [2, 3, 4] → s.dev.shedding = false → d.rxState g = 2 ∧
      d.get LNG.CNT_DOWN_COUNT g = s.dev.get LNG.CNT_DOWN_COUNT g) ∧
    (s.dev.rxState g = 5 → s.dev.shedding = false → d.rxState g = 6 ∧ d.get LNG.EVT_STAT_LOS g = 1 ∧ d.get LNG.EVT_STAT_DOWN g = 1 ∧
      d.get LNG.CNT_DOWN_COUNT g = sat32 (s.dev.get LNG.CNT_DOWN_COUNT g + 1) ∧ groupFault 64 g ∈ d.conds) := by
  by_cases h0 : s.dev.rxState g = 0
  · have hseek : s.dev.rxState g ∉ [2, 3, 4] := by rw [h0]; decide
    exact runsTo_go (exec_clockLos g s) (if_pos h0) ⟨fun _ => rfl, fun h => absurd h0 h, fun h => absurd h hseek, fun h => by omega⟩
  · obtain ⟨hstat, hseek, hup⟩ := Dev.clockBad_isLost s.dev g (x := LNG.GRP_STAT_CLK_LOS) (evt := LNG.EVT_STAT_LOS) (by decide)
    exact runsTo_go (exec_clockLos g s) (if_neg h0) ⟨fun h => absurd h h0, fun _ => hstat, hseek, hup⟩

theorem runsTo_clockLol (g : Grp) (s : State) : RunsTo (.clockLol g) s fun d => (s.dev.rxState g ≤ 1 → d = s.dev) ∧
    (1 < s.dev.rxState g → d.get LNG.GRP_STAT_CLK_LOL g = 1) ∧
    (s.dev.rxState g ∈ [2, 3, 4] → s.dev.shedding = false → d.rxState g = 2 ∧
      d.get LNG.CNT_DOWN_COUNT g = s.dev.get LNG.CNT_DOWN_COUNT g) ∧
    (s.dev.rxState g = 5 → s.dev.shedding = false → d.rxState g = 6 ∧ d.get LNG.EVT_STAT_LOL g = 1 ∧ d.get LNG.EVT_STAT_DOWN g = 1 ∧
      d.get LNG.CNT_DOWN_COUNT g = sat32 (s.dev.get LNG.CNT_DOWN_COUNT g + 1) ∧ groupFault 64 g ∈ d.conds) := by
  by_cases h0 : s.dev.rxState g ≤ 1
  · have hseek : s.dev.rxState g ∉ [2, 3, 4] := by simp; omega
    exact runsTo_go (exec_clockLol g s) (if_pos h0) ⟨fun _ => rfl, fun h => by omega, fun h => absurd h hseek, fun h => by omega⟩
  · obtain ⟨hstat, hseek, hup⟩ := Dev.clockBad_isLost s.dev g (x := LNG.GRP_STAT_CLK_LOL) (evt := LNG.EVT_STAT_LOL) (by decide)
    exact runsTo_go (exec_clockLol g s) (if_neg h0) ⟨fun h => absurd h h0, fun _ => hstat, hseek, hup⟩

/-! ## The clock comes back (R58, R70) -/

namespace Dev

/-- LOS is clear, and the 200 ns that CLOCK_VALID asks for start anew. -/
def clockBack (d : Dev) (g : Nat) : Dev := (d.put LNG.GRP_STAT_CLK_LOS false g).mark .rxClock g

theorem clockBack_kept {f : Fld} (d : Dev) (g : Nat) (h : Beside f [LNG.GRP_STAT_CLK_LOS]) : FldKept f d (d.clockBack g) :=
  (FldKept.put _ _ _ _ h).trans (.mark ..)

theorem clockBack_los (d : Dev) (g : Nat) : (d.clockBack g).get LNG.GRP_STAT_CLK_LOS g = 0 := put_get d false g (by decide) rfl

theorem clockBack_regs (d : Dev) (g : Nat) : RegsKept d (d.clockBack g) [(0x00100104, g)] :=
  (RegsKept.put d LNG.GRP_STAT_CLK_LOS false g (List.mem_singleton_self _)).trans (.of_regs rfl)

/-- LOS and LOL are clear. -/
def clockClear (d : Dev) (g : Nat) : Dev := (d.put LNG.GRP_STAT_CLK_LOS false g).put LNG.GRP_STAT_CLK_LOL false g

theorem clockClear_kept {f : Fld} (d : Dev) (g : Nat) (h : Beside f [LNG.GRP_STAT_CLK_LOS, LNG.GRP_STAT_CLK_LOL]) :
    FldKept f d (d.clockClear g) := (FldKept.put _ _ _ _ (h.mono (by simp))).trans (.put _ _ _ _ (h.mono (by simp)))

theorem clockClear_status (d : Dev) (g : Nat) : (d.clockClear g).get LNG.GRP_STAT_CLK_LOS g = 0 ∧
    (d.clockClear g).get LNG.GRP_STAT_CLK_LOL g = 0 := by
  refine ⟨?_, put_get _ false g (by decide) rfl⟩
  exact ((FldKept.put _ LNG.GRP_STAT_CLK_LOL _ _ (by decide)).field g).trans (put_get d false g (by decide) rfl)

theorem clockClear_regs (d : Dev) (g : Nat) : RegsKept d (d.clockClear g) [(0x00100104, g)] :=
  (RegsKept.put d LNG.GRP_STAT_CLK_LOS false g (List.mem_singleton_self _)).trans
    (.put _ LNG.GRP_STAT_CLK_LOL false g (List.mem_singleton_self _))

end Dev

theorem exec_clockLosClear (g : Grp) (s : State) : exec (.clockLosClear g) s = s.go fun d =>
    if (d.clockBack g).rxState g = 7 && !(d.clockBack g).compat g then (d.clockBack g).moveRx g 2 else d.clockBack g := rfl

theorem exec_clockValid (g : Grp) (s : State) : exec (.clockValid g) s = s.go fun d =>
    if d.lasted .rxClock g 200 then if (d.clockClear g).rxState g = 2 then (d.clockClear g).moveRx g 3 else d.clockClear g else d := rfl

theorem runsTo_clockLosClear (g : Grp) (s : State) : RunsTo (.clockLosClear g) s fun d => d.get LNG.GRP_STAT_CLK_LOS g = 0 ∧
    (s.dev.rxState g = 7 → s.dev.compat g = false → s.dev.shedding = false → d.rxState g = 2) ∧
    (s.dev.rxState g ≠ 7 ∨ s.dev.compat g = true → d.rxState g = s.dev.rxState g ∧ RegsKept s.dev d [(0x00100104, g.val)]) := by
  have hst : (s.dev.clockBack g).rxState g = s.dev.rxState g := Dev.rxState_of_kept (Dev.clockBack_kept _ g (by decide))
  have hc : (s.dev.clockBack g).compat g = s.dev.compat g := Dev.compat_of_kept (Dev.clockBack_kept _ g (by decide))
  have hsh : (s.dev.clockBack g).shedding = s.dev.shedding := rfl
  by_cases h : s.dev.rxState g = 7 ∧ s.dev.compat g = false
  · refine runsTo_go (exec_clockLosClear g s) (if_pos (by simp [hst, hc, h])) ⟨?_, fun _ _ hs => ?_, fun hn => ?_⟩
    · rw [(FldKept.moveRx _ g 2 (by decide)).field, Dev.clockBack_los]
    · exact Dev.moveRx_rxState (hsh.trans hs) (by decide)
    · rcases hn with hn | hn
      · exact absurd h.1 hn
      · exact absurd (h.2.symm.trans hn) (by decide)
  · refine runsTo_go (exec_clockLosClear g s) (if_neg (by simpa [hst, hc] using h))
      ⟨Dev.clockBack_los .., fun h7 hm => absurd ⟨h7, hm⟩ h, fun _ => ⟨hst, Dev.clockBack_regs _ _⟩⟩

theorem runsTo_clockValid (g : Grp) (s : State) (h : s.dev.lasted .rxClock g 200 = true) : RunsTo (.clockValid g) s fun d =>
    d.get LNG.GRP_STAT_CLK_LOS g = 0 ∧ d.get LNG.GRP_STAT_CLK_LOL g = 0 ∧
    (s.dev.rxState g = 2 → s.dev.shedding = false → d.rxState g = 3) ∧
    (s.dev.rxState g ≠ 2 → d.rxState g = s.dev.rxState g ∧ RegsKept s.dev d [(0x00100104, g.val)]) := by
  have hst : (s.dev.clockClear g).rxState g = s.dev.rxState g := Dev.rxState_of_kept (Dev.clockClear_kept _ g (by decide))
  have hsh : (s.dev.clockClear g).shedding = s.dev.shedding := rfl
  obtain ⟨hlos, hlol⟩ := Dev.clockClear_status s.dev g
  by_cases h2 : s.dev.rxState g = 2
  · refine runsTo_go (exec_clockValid g s) ((if_pos h).trans (if_pos (hst.trans h2)))
      ⟨?_, ?_, fun _ hs => Dev.moveRx_rxState (hsh.trans hs) (by decide), fun hn => absurd h2 hn⟩
    · rw [(FldKept.moveRx _ g 3 (by decide)).field, hlos]
    · rw [(FldKept.moveRx _ g 3 (by decide)).field, hlol]
  · exact runsTo_go (exec_clockValid g s) ((if_pos h).trans (if_neg fun c => h2 (hst.symm.trans c)))
      ⟨hlos, hlol, fun c => absurd c h2, fun _ => ⟨hst, Dev.clockClear_regs _ _⟩⟩

theorem runsTo_clockValid_early (g : Grp) (s : State) (h : s.dev.lasted .rxClock g 200 = false) :
    RunsTo (.clockValid g) s fun d => d = s.dev := runsTo_go (exec_clockValid g s) (if_neg (ne_true_of_eq_false h)) rfl

/-! ## Block lock (R58) -/

namespace Dev

/-- Lanes have found block lock. -/
def lockLanes (d : Dev) (g : Nat) (lanes : BitVec 8) : Dev :=
  d.set LNG.GRP_STAT_LANE_LOCK (d.get LNG.GRP_STAT_LANE_LOCK g ||| lanes.toNat) g

theorem lockLanes_kept {f : Fld} (d : Dev) (g : Nat) (lanes : BitVec 8) (h : Beside f [LNG.GRP_STAT_LANE_LOCK]) :
    FldKept f d (d.lockLanes g lanes) := .set _ _ _ _ h

theorem lockLanes_get (d : Dev) (g : Nat) (lanes : BitVec 8) :
    (d.lockLanes g lanes).get LNG.GRP_STAT_LANE_LOCK g = d.get LNG.GRP_STAT_LANE_LOCK g ||| lanes.toNat := by
  rw [lockLanes, get_set_self _ _ _ _ (by decide)]
  exact Nat.mod_eq_of_lt (Nat.or_lt_two_pow (bitsOf_lt ..) lanes.isLt)

end Dev

theorem exec_blockLock (g : Grp) (lanes : BitVec 8) (s : State) : exec (.blockLock g lanes) s = s.go fun d =>
    if d.rxState g = 3 then
      if (d.lockLanes g lanes).get LNG.GRP_STAT_LANE_LOCK g = 255 then (d.lockLanes g lanes).moveRx g 4 else d.lockLanes g lanes
    else d := rfl

theorem runsTo_blockLock (g : Grp) (lanes : BitVec 8) (s : State) : RunsTo (.blockLock g lanes) s fun d =>
    (s.dev.rxState g ≠ 3 → d = s.dev) ∧
    (s.dev.rxState g = 3 → s.dev.shedding = false →
      d.get LNG.GRP_STAT_LANE_LOCK g = s.dev.get LNG.GRP_STAT_LANE_LOCK g ||| lanes.toNat ∧
      d.rxState g = if s.dev.get LNG.GRP_STAT_LANE_LOCK g ||| lanes.toNat = 255 then 4 else 3) := by
  by_cases h3 : s.dev.rxState g = 3
  · have hst : (s.dev.lockLanes g lanes).rxState g = 3 := (Dev.rxState_of_kept (Dev.lockLanes_kept _ _ lanes (by decide))).trans h3
    have hlock := Dev.lockLanes_get s.dev g lanes
    by_cases hall : s.dev.get LNG.GRP_STAT_LANE_LOCK g ||| lanes.toNat = 255
    · refine runsTo_go (exec_blockLock g lanes s) ((if_pos h3).trans (if_pos (hlock.trans hall)))
        ⟨fun hn => absurd h3 hn, fun _ hs => ?_⟩
      have hs' := (Dev.lockLanes_kept (f := LNG.GRP_STAT_RX_STATE) s.dev g lanes (by decide)).shedding.trans hs
      rw [if_pos hall, Dev.moveRx_plain hs', (FldKept.enterRx _ g 4 (by decide) (.inl (by rw [hst]; decide)) (.inl (by decide))).field]
      exact ⟨hlock, Dev.enterRx_rxState _ g (by decide)⟩
    · refine runsTo_go (exec_blockLock g lanes s) ((if_pos h3).trans (if_neg fun c => hall (hlock.symm.trans c)))
        ⟨fun hn => absurd h3 hn, fun _ _ => ⟨hlock, ?_⟩⟩
      rw [if_neg hall, hst]
  · exact runsTo_go (exec_blockLock g lanes s) (if_neg h3) ⟨fun _ => rfl, fun c => absurd c h3⟩

/-! ## From DOWN back to ACQ (R58) -/

theorem exec_retrainTimer (g : Grp) (s : State) : exec (.retrainTimer g) s = s.go fun d =>
    if d.rxState g = 6 && d.lasted .rxDown g 1000 then
      if d.flag LNG.GRP_CTL_RETRAIN_AUTO g then d.moveRx g 2 else d.setRx g { d.rxOf g with aged := true }
    else d := rfl

theorem runsTo_retrainTimer (g : Grp) (s : State) (h : s.dev.lasted .rxDown g 1000 = true) : RunsTo (.retrainTimer g) s fun d =>
    (s.dev.rxState g ≠ 6 → d = s.dev) ∧
    (s.dev.rxState g = 6 → s.dev.flag LNG.GRP_CTL_RETRAIN_AUTO g = true → s.dev.shedding = false → d.rxState g = 2) ∧
    (s.dev.rxState g = 6 → s.dev.flag LNG.GRP_CTL_RETRAIN_AUTO g = false → d.rxState g = 6 ∧ (d.rxOf g).aged = true) := by
  by_cases h6 : s.dev.rxState g = 6
  · have hc : (s.dev.rxState g = 6 && s.dev.lasted .rxDown g 1000) = true := by simp [h6, h]
    cases ha : s.dev.flag LNG.GRP_CTL_RETRAIN_AUTO g with
    | true =>
      exact runsTo_go (exec_retrainTimer g s) ((if_pos hc).trans (if_pos ha))
        ⟨fun c => absurd h6 c, fun _ _ hs => Dev.moveRx_rxState hs (by decide), nofun⟩
    | false =>
      refine runsTo_go (exec_retrainTimer g s) ((if_pos hc).trans (if_neg (ne_true_of_eq_false ha)))
        ⟨fun c => absurd h6 c, nofun, fun _ _ => ⟨h6, ?_⟩⟩
      rw [Dev.rxOf_setRx]
  · exact runsTo_go (exec_retrainTimer g s) (if_neg (by simp [h6])) ⟨fun _ => rfl, fun c => absurd c h6, fun c => absurd c h6⟩

namespace Dev

/-- RETRAIN_AUTO as it was written. -/
def withAuto (d : Dev) (g : Nat) (v : Bool) : Dev := d.put LNG.GRP_CTL_RETRAIN_AUTO v g

theorem withAuto_get (d : Dev) (g : Nat) (v : Bool) : (d.withAuto g v).get LNG.GRP_CTL_RETRAIN_AUTO g = b2n v :=
  put_get d v g (by decide) rfl

end Dev

theorem exec_retrainAutoWrite (g : Grp) (v : Bool) (s : State) : exec (.retrainAutoWrite g v) s = s.go fun d =>
    if v && (d.withAuto g v).rxState g == 6 && ((d.withAuto g v).rxOf g).aged then (d.withAuto g v).moveRx g 2 else d.withAuto g v := rfl

theorem runsTo_retrainAutoWrite (g : Grp) (v : Bool) (s : State) : RunsTo (.retrainAutoWrite g v) s fun d =>
    d.get LNG.GRP_CTL_RETRAIN_AUTO g = b2n v ∧
    (s.dev.rxState g = 6 → (s.dev.rxOf g).aged = true → v = true → s.dev.shedding = false → d.rxState g = 2) := by
  have hst : (s.dev.withAuto g v).rxState g = s.dev.rxState g := Dev.rxState_of_kept (.put _ _ _ _ (by decide))
  have hrx : (s.dev.withAuto g v).rxOf g = s.dev.rxOf g := Dev.rxOf_of_rx (Dev.set_rx ..) g
  by_cases hc : (v && (s.dev.withAuto g v).rxState g == 6 && ((s.dev.withAuto g v).rxOf g).aged) = true
  · refine runsTo_go (exec_retrainAutoWrite g v s) (if_pos hc) ⟨?_, fun _ _ _ hs => ?_⟩
    · rw [(FldKept.moveRx _ g 2 (by decide)).field, Dev.withAuto_get]
    · have hs' : (s.dev.withAuto g v).shedding = false := hs
      exact Dev.moveRx_rxState hs' (by decide)
  · refine runsTo_go (exec_retrainAutoWrite g v s) (if_neg hc) ⟨Dev.withAuto_get .., fun h6 ha hv => absurd ?_ hc⟩
    rw [hst, hrx, h6, ha, hv]
    rfl

/-! ## FORCE_RETRAIN (Table 2.21) -/

namespace Dev

variable {d : Dev} {g : Nat}

theorem forceRetrain_up (h : d.rxState g = 5) : d.forceRetrain g = d.groupDown g := if_pos h

theorem forceRetrain_seeking (h : d.rxState g ∈ [2, 3, 4, 6]) : d.forceRetrain g = d.moveRx g 2 := by
  simp only [List.mem_cons, List.not_mem_nil, or_false] at h
  unfold forceRetrain
  rcases h with h | h | h | h <;> simp [h]

theorem forceRetrain_still (h : d.rxState g ∈ [0, 1, 7]) : d.forceRetrain g = d := by
  simp only [List.mem_cons, List.not_mem_nil, or_false] at h
  unfold forceRetrain
  rcases h with h | h | h <;> simp [h]

end Dev

theorem runsTo_forceRetrain (g : Grp) (s : State) : RunsTo (.forceRetrain g) s fun d =>
    (s.dev.rxState g ∈ [2, 3, 4, 6] → s.dev.shedding = false → d.rxState g = 2) ∧
    (s.dev.rxState g = 5 → s.dev.shedding = false → d.rxState g = 6 ∧ d.get LNG.EVT_STAT_DOWN g = 1 ∧
      d.get LNG.CNT_DOWN_COUNT g = sat32 (s.dev.get LNG.CNT_DOWN_COUNT g + 1)) ∧
    (s.dev.rxState g ∈ [0, 1, 7] → d = s.dev) := by
  refine runsTo_go (f := (·.forceRetrain g)) rfl rfl ⟨fun h hs => ?_, fun h hs => ?_, fun h => Dev.forceRetrain_still h⟩
  · rw [Dev.forceRetrain_seeking h]
    exact Dev.moveRx_rxState hs (by decide)
  · rw [Dev.forceRetrain_up h]
    obtain ⟨h6, hdown, hcount, -⟩ := Dev.groupDown_isDown (g := g) hs
    exact ⟨h6, hdown, hcount⟩

/-! ## A write of RX_REQ (R59) -/

namespace Dev

/-- RX_REQ as it was written; the shedding ladder lets the direction go. -/
def requestRx (d : Dev) (g v : Nat) : Dev :=
  let e := d.set LNG.GRP_CTL_RX_REQ v g
  (e.setRx g { e.rxOf g with held := false }).refreshShed g

theorem rxReq_eq_requestRx (d : Dev) (g v : Nat) : d.rxReq g v =
    if v = 0 then (d.requestRx g v).enterRx g 0
    else if v = 2 then
      if (d.requestRx g v).rxState g = 0 && (d.requestRx g v).shedding then
        ((d.requestRx g v).setRx g { (d.requestRx g v).rxOf g with held := true }).refreshShed g
      else if (d.requestRx g v).rxState g = 0 || (d.requestRx g v).rxState g = 1 then (d.requestRx g v).moveRx g 2
      else d.requestRx g v
    else (d.requestRx g v).enterRx g 1 := (rfl)

theorem requestRx_kept {f : Fld} (d : Dev) (g v : Nat) (h : Beside f [LNG.GRP_CTL_RX_REQ, LNG.GRP_STAT_SHED]) :
    FldKept f d (d.requestRx g v) :=
  (FldKept.set _ _ _ _ (h.mono (by simp))).trans ((FldKept.setRx ..).trans (.refreshShed _ _ (h.mono (by simp))))

theorem requestRx_get (d : Dev) (g : Nat) {v : Nat} (h : v < 4) : (d.requestRx g v).get LNG.GRP_CTL_RX_REQ g = v := by
  rw [requestRx, (FldKept.refreshShed _ g (by decide)).field, setRx_get, get_set_self _ _ _ _ (by decide)]
  exact Nat.mod_eq_of_lt h

theorem rxReq_off (d : Dev) (g : Nat) : d.rxReq g 0 = (d.requestRx g 0).enterRx g 0 := by
  rw [rxReq_eq_requestRx, if_pos rfl]

/-- 0b11 acts as 0b01. -/
theorem rxReq_sleep (d : Dev) (g : Nat) {n : Nat} (h : n ∈ [1, 3]) : d.rxReq g n = (d.requestRx g n).enterRx g 1 := by
  simp only [List.mem_cons, List.not_mem_nil, or_false] at h
  rw [rxReq_eq_requestRx, if_neg (by omega), if_neg (by omega)]

theorem rxReq_on {d : Dev} {g : Nat} (hs : d.shedding = false) (h : d.rxState g ∈ [0, 1]) :
    d.rxReq g 2 = (d.requestRx g 2).enterRx g 2 := by
  have hst : (d.requestRx g 2).rxState g = d.rxState g := rxState_of_kept (requestRx_kept d g 2 (by decide))
  have hs' : (d.requestRx g 2).shedding = false := (requestRx_kept (f := LNG.GRP_CTL_MODE) d g 2 (by decide)).shedding.trans hs
  have hc : ((d.requestRx g 2).rxState g = 0 || (d.requestRx g 2).rxState g = 1) = true := by rw [hst]; simpa using h
  rw [rxReq_eq_requestRx, if_neg (by decide), if_pos rfl, hs', if_neg (by simp), if_pos hc, moveRx_plain hs']

end Dev

/-- A request that sends the receiver to a state is shown, and so is the state. -/
theorem runsTo_rxReqWrite_enters {g : Grp} {v : BitVec 2} {s : State} {n st : Nat} (hv : v.toNat = n)
    (h : s.dev.rxReq g n = (s.dev.requestRx g n).enterRx g st) (hst : st < 16) :
    RunsTo (.rxReqWrite g v) s fun d => d.rxState g = st ∧ d.get LNG.GRP_CTL_RX_REQ g = n := by
  subst hv
  refine runsTo_go (f := (·.rxReq g v.toNat)) rfl h ⟨Dev.enterRx_rxState _ g hst, ?_⟩
  rw [(FldKept.enterAny _ g st (by decide)).field, Dev.requestRx_get _ _ v.isLt]

/-- Settles O3: the clock, block lock, the timer in DOWN, FORCE_RETRAIN and RX_REQ. -/
theorem receiveStates : Obligations.ReceiveStates := by
  unfold Obligations.ReceiveStates
  exact ⟨⟨runsTo_clockLos, runsTo_clockLol, runsTo_clockLosClear, runsTo_clockValid, runsTo_clockValid_early, runsTo_blockLock,
      runsTo_retrainTimer, runsTo_retrainAutoWrite, runsTo_forceRetrain,
      fun g s hs h => runsTo_rxReqWrite_enters rfl (Dev.rxReq_on hs h) (by decide)⟩,
    fun g s => ⟨runsTo_rxReqWrite_enters rfl (Dev.rxReq_off _ _) (by decide),
      runsTo_rxReqWrite_enters rfl (Dev.rxReq_sleep _ _ (by decide)) (by decide),
      runsTo_rxReqWrite_enters rfl (Dev.rxReq_sleep _ _ (by decide)) (by decide)⟩⟩

end Sys2Proof.Machine
end

section
/-!
Proofs, the lane transmitters: what sending data leaves alone, the sequences of Table 2.7 and the indices of a marker period (R50, R52).
-/

namespace Sys2Proof.Machine

namespace Dev

variable {d : Dev} {g : Nat}

theorem txOf_of_tx {e : Dev} (h : e.tx = d.tx) (g : Nat) : e.txOf g = d.txOf g := by rw [txOf, txOf, h]

@[simp] theorem txOf_set (d : Dev) (f : Fld) (v ch g : Nat) : (d.set f v ch).txOf g = d.txOf g := txOf_of_tx (set_tx ..) g
@[simp] theorem txOf_mark (d : Dev) (t : Timer) (i g : Nat) : (d.mark t i).txOf g = d.txOf g := (rfl)
@[simp] theorem txOf_emit (d : Dev) (x : Emission) (g : Nat) : (d.emit x).txOf g = d.txOf g := (rfl)

theorem txOf_setTx_ne (d : Dev) {g h : Nat} (t : TxGrp) (n : h ≠ g) : (d.setTx g t).txOf h = d.txOf h :=
  mapGet_mapPut_ne (fun e => n (Prod.mk.inj e).1) ..

@[simp] theorem mark_get (d : Dev) (t : Timer) (i : Nat) (f : Fld) (ch : Nat) : (d.mark t i).get f ch = d.get f ch := (rfl)
@[simp] theorem txDrop_sent (d : Dev) (g : Nat) : (d.txDrop g).sent = d.sent := (rfl)
@[simp] theorem setTx_sent (d : Dev) (g : Nat) (t : TxGrp) : (d.setTx g t).sent = d.sent := (rfl)
@[simp] theorem mark_sent (d : Dev) (t : Timer) (i : Nat) : (d.mark t i).sent = d.sent := (rfl)
@[simp] theorem emit_sent (d : Dev) (x : Emission) : (d.emit x).sent = x :: d.sent := (rfl)

/-! ## Sequences (Table 2.7) -/

@[simp] theorem seqSend_get (d : Dev) (g : Nat) (q : TxSeq) (k : Nat) (f : Fld) (ch : Nat) : (d.seqSend g q k).get f ch = d.get f ch := by
  unfold seqSend
  split <;> rfl

@[simp] theorem seqSend_txOf (d : Dev) (g : Nat) (q : TxSeq) (k h : Nat) : (d.seqSend g q k).txOf h = d.txOf h := by
  unfold seqSend
  split <;> rfl

theorem startSeq_txState (d : Dev) (g : Nat) (q : TxSeq) : (d.startSeq g q).txState g = 2 := by
  rw [txState, startSeq, seqSend_get, mark_get, setTx_get]
  exact get_set_self _ _ _ _ (by decide)

theorem startSeq_step (d : Dev) (g : Nat) (q : TxSeq) : ((d.startSeq g q).txOf g).seqStep = some (q, if q = .exit then 3 else 1) := by
  rw [startSeq, seqSend_txOf, txOf_mark, txOf_setTx]

theorem stopTx_txState (d : Dev) (g : Nat) {st : Nat} (h : st < 16) : (d.stopTx g st).txState g = st := by
  rw [txState, stopTx, setTx_get, get_set_self _ _ _ _ (by decide)]
  exact Nat.mod_eq_of_lt h

theorem stopTx_sent (d : Dev) (g st : Nat) : (d.stopTx g st).sent = d.sent := by
  rw [stopTx, setTx_sent, set_sent, txDrop_sent]

/-! ## A write of TX_REQ (Table 2.8) -/

/-- TX_REQ as it was written; a request that is not 0b10 lets the shedding ladder's hold go. -/
def requestTx (d : Dev) (g v : Nat) : Dev :=
  (d.set LNG.GRP_CTL_TX_REQ v g).when (v != 2) fun d => (d.setTx g { d.txOf g with held := false }).refreshShed g

theorem txReq_eq_requestTx (d : Dev) (g v : Nat) : d.txReq g v =
    if (d.requestTx g v).txState g = 2 then (if v = 2 then d.requestTx g v else (d.requestTx g v).stopTx g (if v = 0 then 0 else 1))
    else if (d.requestTx g v).txState g = 3 then
      if v = 2 then (d.requestTx g v).setTx g { (d.requestTx g v).txOf g with restWait := false }
      else if v = 0 then (d.requestTx g v).stopTx g 0
      else (d.requestTx g v).setTx g { (d.requestTx g v).txOf g with restWait := true }
    else (d.requestTx g v).proceedTx g := (rfl)

theorem requestTx_kept {f : Fld} (d : Dev) (g v : Nat) (h : Beside f [LNG.GRP_CTL_TX_REQ, LNG.GRP_STAT_SHED]) :
    FldKept f d (d.requestTx g v) :=
  (FldKept.set _ _ _ _ (h.mono (by simp))).trans (.when _ _ fun _ => (FldKept.setTx ..).trans (.refreshShed _ _ (h.mono (by simp))))

theorem requestTx_txState (d : Dev) (g v : Nat) : (d.requestTx g v).txState g = d.txState g := (requestTx_kept d g v (by decide)).field g

theorem txReq_off (h : d.txState g = 3) : d.txReq g 0 = (d.requestTx g 0).stopTx g 0 := by
  rw [txReq_eq_requestTx, requestTx_txState, h]
  rfl

theorem txReq_sleep (h : d.txState g = 3) :
    d.txReq g 1 = (d.requestTx g 1).setTx g { (d.requestTx g 1).txOf g with restWait := true } := by
  rw [txReq_eq_requestTx, requestTx_txState, h]
  rfl

/-- TX_REQ at 0b10, as it was written. -/
def runTx (d : Dev) (g : Nat) : Dev := d.set LNG.GRP_CTL_TX_REQ 2 g

/-- A direction in OFF or SLEEP that nothing holds starts the sequence that its state and mode ask for. -/
theorem txReq_run (h : d.txState g ∈ [0, 1]) (hh : d.txHeldOff g = false) (hs : d.shedding = false) :
    d.txReq g 2 = (d.runTx g).startSeq g (if d.txState g = 0 then .full else if d.compat g then .exit else .wake) := by
  have hst : (d.runTx g).txState g = d.txState g := (FldKept.set d _ _ _ (by decide)).field g
  have hc : (d.runTx g).compat g = d.compat g := compat_of_kept (.set _ _ _ _ (by decide))
  have hreq : (d.runTx g).get LNG.GRP_CTL_TX_REQ g = 2 := get_set_self _ _ _ _ (by decide)
  have hheld : (d.runTx g).txHeldOff g = false := by
    rw [← hh]
    simp (disch := decide) only [txHeldOff, flag, runTx, get_set_off]
  have hreq' : d.requestTx g 2 = d.runTx g := rfl
  have hs' : (d.runTx g).shedding = false := hs
  simp only [List.mem_cons, List.not_mem_nil, or_false] at h
  rw [txReq_eq_requestTx, hreq', hst, if_neg (by omega), if_neg (by omega), proceedTx, hreq, hheld, hs', hst, hc]
  rcases h with h | h <;> rw [h] <;> rfl

/-! ## Training steps (R65) -/

theorem seqNext_prbs (h : (d.txOf g).seqStep = some (.full, 1)) : d.seqNext g =
    ((d.setTx g { d.txOf g with seqStep := some (.full, 2) }).mark .txStep g).emit (.prbs g ((List.range 8).map (0x1FFF - ·))) := by
  rw [seqNext, h]
  rfl

theorem seqNext_last (h : (d.txOf g).seqStep = some (.full, 3)) : d.seqNext g = d.enterRun g := by
  rw [seqNext, h]
  rfl

theorem enterRun_run (d : Dev) (g : Nat) : (d.enterRun g).txState g = 3 ∧ ((d.enterRun g).txOf g).seqStep = none := by
  refine ⟨get_set_self _ _ _ _ (by decide), ?_⟩
  rw [enterRun, txOf_set, sendAlign, txOf_emit, txOf_setTx]

theorem retrain_plain (hs : d.shedding = false) : d.retrain g = (d.startSeq g .full).raise LNG.EVT_STAT_RETRAIN g := by
  rw [retrain, hs]
  rfl

end Dev

/-! ## What sending data leaves alone (R50) -/

/-- The first `m` words that wait for an output's lane are taken. -/
def Dev.takeQueued (m : Nat) (d : Dev) (o : Nat) : Dev := { d with outQ := mapPut d.outQ (o, 0) [] ((mapGet d.outQ (o, 0) []).drop m) }

/-- Words that wait went out, and the Logbook counted them: what the role word and the marker of group `g` carry stands as it was. -/
structure Transmits (g : Nat) (d e : Dev) : Prop where
  regs : OffsKept d e Dev.ctrOffs
  mseq : (e.txOf g).mseq = (d.txOf g).mseq
  trq : (e.txOf g).trq = (d.txOf g).trq
  roleSeq : e.roleSeq = d.roleSeq
  roleHold : e.roleHold = d.roleHold
  ladder : e.ladder = d.ladder

namespace Transmits

variable {d e f : Dev} {g : Nat}

theorem refl (d : Dev) : Transmits g d d := ⟨.refl d _, rfl, rfl, rfl, rfl, rfl⟩

theorem trans (h : Transmits g d e) (k : Transmits g e f) : Transmits g d f :=
  ⟨h.regs.trans k.regs, k.mseq.trans h.mseq, k.trq.trans h.trq, k.roleSeq.trans h.roleSeq, k.roleHold.trans h.roleHold,
    k.ladder.trans h.ladder⟩

/-- The transmitter's record, but for MSEQ and TRQ. -/
theorem setTx (d : Dev) (t : TxGrp) (hm : t.mseq = (d.txOf g).mseq) (ht : t.trq = (d.txOf g).trq) : Transmits g d (d.setTx g t) :=
  ⟨.of_regs rfl, by rw [Dev.txOf_setTx, hm], by rw [Dev.txOf_setTx, ht], rfl, rfl, rfl⟩

theorem of_only (h : OnlyRegs d e) (k : OffsKept d e Dev.ctrOffs) : Transmits g d e := by
  obtain ⟨_, rfl⟩ := h
  exact ⟨k, rfl, rfl, rfl, rfl, rfl⟩

theorem emit (d : Dev) (x : Emission) : Transmits g d (d.emit x) := ⟨.of_regs rfl, rfl, rfl, rfl, rfl, rfl⟩

theorem bwAdd (d : Dev) (i n : Nat) : Transmits g d (d.bwAdd i n) := by
  obtain ⟨b, hb⟩ := Dev.bwAdd_eq d i n
  rw [hb]
  exact ⟨.of_regs rfl, rfl, rfl, rfl, rfl, rfl⟩

theorem logAdd (d : Dev) (i n : Nat) : Transmits g d (d.logAdd i n) := of_only (.logAdd ..) (.logAdd _ _ _ (by decide) (by decide))

theorem foldl {α : Type} (k : Dev → α → Dev) (h : ∀ d x, Transmits g d (k d x)) (l : List α) : ∀ d, Transmits g d (l.foldl k d) := by
  induction l with
  | nil => exact refl
  | cons x l ih => exact fun d => (h d x).trans (ih _)

theorem takeQueued (m : Nat) (d : Dev) (o : Nat) : Transmits g d (Dev.takeQueued m d o) := ⟨.of_regs rfl, rfl, rfl, rfl, rfl, rfl⟩

theorem sendData (d : Dev) (h k : Nat) : Transmits g d (d.sendData h k) := by
  unfold Dev.sendData
  split
  · extract_lets m slots q words e
    have he : Transmits g d e := foldl (Dev.takeQueued m) (takeQueued m) slots d
    exact he.trans ((logAdd ..).trans ((bwAdd ..).trans (emit ..)))
  · exact refl d

theorem runIndices (d : Dev) (n : Nat) : Transmits g d (d.runIndices g n) := by
  unfold Dev.runIndices
  refine trans ?_ (sendData _ g _)
  exact setTx d _ rfl rfl

theorem toIndex (d : Dev) (i : Nat) : Transmits g d (d.toIndex g i) := by
  unfold Dev.toIndex
  extract_lets e t
  exact trans (e := e) (runIndices d _) (setTx e _ rfl rfl)

theorem toIdle (h : d.toIdle g = some e) : Transmits g d e := by
  unfold Dev.toIdle at h
  extract_lets t m at h
  split at h
  · obtain rfl := Option.some.inj h
    refine trans ?_ (sendData _ g _)
    exact setTx d _ rfl rfl
  · exact nomatch h

theorem get (h : Transmits g d e) (x : Fld) (ch : Nat) (n : x.off ∉ Dev.ctrOffs) : e.get x ch = d.get x ch := h.regs.field x ch n

/-- The role word that the device sends on the group is the one before. -/
theorem roleWord (h : Transmits g d e) : e.roleWord g = d.roleWord g := by
  have hrx : e.rxState g = d.rxState g := h.get _ _ (by decide)
  have hsh : e.shedding = d.shedding := by rw [Dev.shedding, Dev.shedding, h.ladder]
  simp (disch := decide) only [Dev.roleWord, h.get, hrx, hsh, h.trq, h.roleSeq, h.roleHold]

end Transmits

namespace Dev

variable {d : Dev} {g : Nat}

theorem toIndex_idx (d : Dev) (g i : Nat) : ((d.toIndex g i).txOf g).idx = i := by rw [toIndex, txOf_setTx]

/-- The role word goes out as it was before the indices that passed. -/
theorem sendRole_sent {e : Dev} (h : Transmits g d e) :
    (e.sendRole g).sent.head? = some (.lanes g (List.replicate 8 (controlPayload 0x66 (d.roleWord g)))) := by
  rw [sendRole, emit_sent, h.roleWord]
  rfl

/-- MSEQ rises with the marker period (R51). -/
def nextMseq (d : Dev) (g : Nat) : Dev := d.setTx g { d.txOf g with mseq := ((d.txOf g).mseq + 1) % 65536 }

theorem sendAlign_sent (d : Dev) (g : Nat) : ∃ ps, (d.sendAlign g).sent.head? = some (.lanes g ps) ∧ ps.length = 8 ∧
    ∀ p ∈ ps, p.head? = some 0x4B := by
  refine ⟨_, rfl, by simp, fun p hp => ?_⟩
  obtain ⟨l, -, rfl⟩ := List.mem_map.1 hp
  rfl

/-- The role word waits no longer. -/
def roleTold (d : Dev) (g : Nat) : Dev := d.setTx g { d.txOf g with changed := false }

theorem roleTold_transmits (d : Dev) (g : Nat) : Transmits g d (d.roleTold g) := .setTx d _ rfl rfl

/-- REST on every data lane (R69). -/
def sendRest (d : Dev) (g : Nat) : Dev :=
  d.emit (.lanes g ((List.range 8).map fun l => controlPayload 0x78 [g, l + 128 * b2n (d.compat g)]))

theorem sendRest_sent (d : Dev) (g : Nat) : ∃ ps, (d.sendRest g).sent.head? = some (.lanes g ps) ∧ ∀ p ∈ ps, p.head? = some 0x78 := by
  refine ⟨_, rfl, fun p hp => ?_⟩
  obtain ⟨l, -, rfl⟩ := List.mem_map.1 hp
  rfl

theorem restOut_idle {e : Dev} (hw : (d.txOf g).restWait = true) (h3 : d.txState g = 3) (h : d.toIdle g = some e) :
    d.restOut g = (e.sendRest g).stopTx g 1 := by
  rw [restOut, hw, h3, h]
  rfl

end Dev

end Sys2Proof.Machine
end

section
/-!
Proofs, the transmit state machine, role words and elastic slips (Tables 2.7 and 2.8, R50 to R52, R57, R65, R66, R68, R69).
-/

namespace Sys2Proof.Machine

section
variable {g : Grp} {s : State}

/-! ## TX_REQ and FORCE_TRAIN -/

/-- A direction that starts a sequence is in TRAIN, at the sequence's first step. -/
theorem runsTo_txReqWrite_run (h : s.dev.txState g ∈ [0, 1]) (hh : s.dev.txHeldOff g = false) (hs : s.dev.shedding = false) :
    RunsTo (.txReqWrite g 2) s fun d => d.txState g = 2 ∧ (d.txOf g).seqStep = some
      (if s.dev.txState g = 0 then (.full, 1) else if s.dev.compat g then (.exit, 3) else (.wake, 1)) := by
  refine runsTo_go (f := (·.txReq g 2)) rfl (Dev.txReq_run h hh hs) ⟨Dev.startSeq_txState .., ?_⟩
  rw [Dev.startSeq_step]
  split
  · rfl
  · split <;> rfl

theorem runsTo_txReqWrite_off (h : s.dev.txState g = 3) : RunsTo (.txReqWrite g 0) s fun d => d.txState g = 0 :=
  runsTo_go (f := (·.txReq g 0)) rfl (Dev.txReq_off h) (Dev.stopTx_txState _ _ (by decide))

theorem runsTo_txReqWrite_sleep (h : s.dev.txState g = 3) :
    RunsTo (.txReqWrite g 1) s fun d => d.txState g = 3 ∧ (d.txOf g).restWait = true := by
  refine runsTo_go (f := (·.txReq g 1)) rfl (Dev.txReq_sleep h) ⟨?_, ?_⟩
  · rw [Dev.txState, Dev.setTx_get, ← Dev.txState, Dev.requestTx_txState, h]
  · rw [Dev.txOf_setTx]

theorem runsTo_forceTrain (h : s.dev.txState g = 3) (hs : s.dev.shedding = false) : RunsTo (.forceTrain g) s fun d =>
    d.txState g = 2 ∧ (d.txOf g).seqStep = some (.full, 1) ∧ d.get LNG.EVT_STAT_RETRAIN g = 1 := by
  refine runsTo_go rfl ((if_pos h).trans (Dev.retrain_plain hs)) ⟨?_, ?_, Dev.get_set_self _ _ _ _ (by decide)⟩
  · rw [Dev.txState, Dev.raise_eq, Dev.get_set_off _ _ _ _ _ _ (by decide)]
    exact Dev.startSeq_txState ..
  · rw [Dev.raise_eq, Dev.txOf_set, Dev.startSeq_step]
    rfl

/-! ## Training steps (R65) -/

theorem exec_trainingStepEnd (g : Grp) (s : State) : exec (.trainingStepEnd g) s = s.go fun d =>
    if d.txState g = 2 && d.stepOver g then d.seqNext g else d := rfl

theorem runsTo_trainingStepEnd_prbs (h : s.dev.txState g = 2) (hq : (s.dev.txOf g).seqStep = some (.full, 1))
    (ho : s.dev.stepOver g = true) :
    RunsTo (.trainingStepEnd g) s fun d => (d.txOf g).seqStep = some (.full, 2) ∧ d.txState g = 2 ∧
      d.sent = .prbs g ((List.range 8).map (0x1FFF - ·)) :: s.dev.sent := by
  refine runsTo_go (exec_trainingStepEnd g s) ((if_pos (by simp [h, ho])).trans (Dev.seqNext_prbs hq)) ⟨?_, h, ?_⟩
  · rw [Dev.txOf_emit, Dev.txOf_mark, Dev.txOf_setTx]
  · rw [Dev.emit_sent, Dev.mark_sent, Dev.setTx_sent]

theorem runsTo_trainingStepEnd_last (h : s.dev.txState g = 2) (hq : (s.dev.txOf g).seqStep = some (.full, 3))
    (ho : s.dev.stepOver g = true) :
    RunsTo (.trainingStepEnd g) s fun d => d.txState g = 3 ∧ (d.txOf g).seqStep = none :=
  runsTo_go (exec_trainingStepEnd g s) ((if_pos (by simp [h, ho])).trans (Dev.seqNext_last hq)) (Dev.enterRun_run ..)

theorem runsTo_trainingStepEnd_still (h : s.dev.txState g ≠ 2 ∨ s.dev.stepOver g = false) :
    RunsTo (.trainingStepEnd g) s fun d => d = s.dev :=
  runsTo_go (exec_trainingStepEnd g s) (if_neg (by rcases h with h | h <;> simp [h])) rfl

/-! ## The indices of a marker period (R50 to R52, R69) -/

theorem exec_markerPeriodStart (g : Grp) (s : State) : exec (.markerPeriodStart g) s = s.go fun d =>
    if d.txState g = 3 then ((d.toIndex g 0).nextMseq g).sendAlign g else d := rfl

theorem exec_roleIndex (g : Grp) (k : Fin 3) (s : State) : exec (.roleIndex g k) s = s.go fun d =>
    if d.txState g = 3 then (d.toIndex g (4096 * (k.val + 1))).sendRole g else d := rfl

theorem exec_restSend (g : Grp) (s : State) : exec (.restSend g) s = s.go (·.restOut g) := rfl

theorem runsTo_markerPeriodStart (h : s.dev.txState g = 3) : RunsTo (.markerPeriodStart g) s fun d =>
    (d.txOf g).mseq = ((s.dev.txOf g).mseq + 1) % 65536 ∧ (d.txOf g).idx = 0 ∧
      ∃ ps, d.sent.head? = some (.lanes g ps) ∧ ps.length = 8 ∧ ∀ p ∈ ps, p.head? = some 0x4B := by
  refine runsTo_go (exec_markerPeriodStart g s) (if_pos h) ⟨?_, ?_, Dev.sendAlign_sent ..⟩
  · rw [Dev.sendAlign, Dev.txOf_emit, Dev.nextMseq, Dev.txOf_setTx, (Transmits.toIndex s.dev 0).mseq]
  · rw [Dev.sendAlign, Dev.txOf_emit, Dev.nextMseq, Dev.txOf_setTx, Dev.toIndex_idx]

theorem runsTo_roleIndex (k : Fin 3) (h : s.dev.txState g = 3) : RunsTo (.roleIndex g k) s fun d => (d.txOf g).idx = 4096 * (k.val + 1) ∧
    d.sent.head? = some (.lanes g (List.replicate 8 (controlPayload 0x66 (s.dev.roleWord g)))) := by
  refine runsTo_go (exec_roleIndex g k s) (if_pos h) ⟨?_, Dev.sendRole_sent (.toIndex ..)⟩
  rw [Dev.sendRole, Dev.txOf_emit, Dev.toIndex_idx]

theorem exec_roleWordSend {e : Dev} (h : s.dev.txState g = 3) (hc : (s.dev.txOf g).changed = true) (he : s.dev.toIdle g = some e) :
    exec (.roleWordSend g) s = .next { s with dev := (e.roleTold g).sendRole g } := by
  have hx : exec (.roleWordSend g) s = execRoleWordSend g s := rfl
  rw [hx, execRoleWordSend, State.go_eq, h, hc, he]
  rfl

theorem runsTo_roleWordSend (h : s.dev.txState g = 3) (hc : (s.dev.txOf g).changed = true) (hi : (s.dev.toIdle g).isSome = true) :
    RunsTo (.roleWordSend g) s fun d => (d.txOf g).changed = false ∧
      d.sent.head? = some (.lanes g (List.replicate 8 (controlPayload 0x66 (s.dev.roleWord g)))) := by
  obtain ⟨e, he⟩ := Option.isSome_iff_exists.1 hi
  refine ⟨_, exec_roleWordSend h hc he, ?_, Dev.sendRole_sent ((Transmits.toIdle he).trans (e.roleTold_transmits g))⟩
  rw [Dev.sendRole, Dev.txOf_emit, Dev.roleTold, Dev.txOf_setTx]

theorem runsTo_restSend (h : s.dev.txState g = 3) (hw : (s.dev.txOf g).restWait = true) (hi : (s.dev.toIdle g).isSome = true) :
    RunsTo (.restSend g) s fun d => d.txState g = 1 ∧ ∃ ps, d.sent.head? = some (.lanes g ps) ∧ ∀ p ∈ ps, p.head? = some 0x78 := by
  obtain ⟨e, he⟩ := Option.isSome_iff_exists.1 hi
  refine runsTo_go (exec_restSend g s) (Dev.restOut_idle hw h he) ⟨Dev.stopTx_txState _ _ (by decide), ?_⟩
  rw [Dev.stopTx_sent]
  exact Dev.sendRest_sent ..

/-! ## The request for training (R66) -/

theorem exec_trqTimer (g : Grp) (s : State) : exec (.trqTimer g) s = s.go fun d =>
    if (d.rxState g = 2 || d.rxState g = 3 || d.rxState g = 4) && d.lasted .rxAcquire g 100001 && d.flag LNG.GRP_CTL_TRQ_EN g then
      d.setTx g { d.txOf g with trq := true, changed := true }
    else d := rfl

theorem runsTo_trqTimer (h : s.dev.rxState g ∈ [2, 3, 4]) (hl : s.dev.lasted .rxAcquire g 100001 = true)
    (he : s.dev.flag LNG.GRP_CTL_TRQ_EN g = true) :
    RunsTo (.trqTimer g) s fun d => (d.txOf g).trq = true ∧ (d.txOf g).changed = true ∧ RegsKept s.dev d [] := by
  simp only [List.mem_cons, List.not_mem_nil, or_false] at h
  refine runsTo_go (exec_trqTimer g s) (if_pos (by simpa [hl, he, or_assoc] using h)) ⟨?_, ?_, .of_regs rfl⟩
  · rw [Dev.txOf_setTx]
  · rw [Dev.txOf_setTx]

end

/-! ## A change of ROLE or HEALTHY (R52) -/

namespace Dev

/-- ROLE and HEALTHY as ROLE_SEQ counts their changes. -/
def roleNow (d : Dev) : Nat × Bool := (d.get CON.STAT_ROLE + 4 * b2n d.roleHold, d.flag FLT.STAT_HEALTHY)

/-- A change has been counted. -/
def countRole (d : Dev) : Dev := { d with roleSent := d.roleNow, roleSeq := (d.roleSeq + 1) % 256 }

/-- Every group's role word waits to be sent. -/
def rolesChanged (d : Dev) : Dev := (List.range 37).foldl (fun d g => d.roleChanged g) d

theorem roleWordChange_eq {d : Dev} (h : d.roleSent ≠ d.roleNow) : d.roleWordChange = d.countRole.rolesChanged := by
  have hr : d.roleWordChange = (if d.roleSent = d.roleNow then d else d.countRole).rolesChanged := rfl
  rw [hr, if_neg h]

theorem roleChanged_changed (d : Dev) (g h : Nat) : ((d.roleChanged g).txOf h).changed = (decide (h = g) || (d.txOf h).changed) := by
  unfold roleChanged
  by_cases e : h = g
  · rw [e, txOf_setTx]
    simp
  · rw [txOf_setTx_ne _ _ e]
    simp [e]

theorem foldl_roleChanged (l : List Nat) (h : Nat) : ∀ d : Dev, h ∈ l ∨ (d.txOf h).changed = true →
    ((l.foldl (fun d g => d.roleChanged g) d).txOf h).changed = true := by
  induction l with
  | nil => exact fun d k => k.resolve_left List.not_mem_nil
  | cons g l ih =>
    intro d k
    refine ih _ ?_
    rw [roleChanged_changed]
    rcases k with k | k
    · rcases List.mem_cons.1 k with k | k
      · exact .inr (by simp [k])
      · exact .inl k
    · exact .inr (by simp [k])

theorem rolesChanged_changed (d : Dev) (g : Grp) : (d.rolesChanged.txOf g).changed = true :=
  foldl_roleChanged _ _ d (.inl (List.mem_range.2 g.isLt))

theorem foldl_roleChanged_others (l : List Nat) : ∀ d : Dev, (l.foldl (fun d g => d.roleChanged g) d).roleSeq = d.roleSeq ∧
    (l.foldl (fun d g => d.roleChanged g) d).regs = d.regs := by
  induction l with
  | nil => exact fun _ => ⟨rfl, rfl⟩
  | cons g l ih => exact fun d => ⟨(ih _).1.trans rfl, (ih _).2.trans rfl⟩

end Dev

theorem runsTo_roleWordChange (s : State)
    (h : s.dev.roleSent ≠ (s.dev.get CON.STAT_ROLE + 4 * b2n s.dev.roleHold, s.dev.flag FLT.STAT_HEALTHY)) :
    RunsTo .roleWordChange s fun d => d.roleSeq = (s.dev.roleSeq + 1) % 256 ∧ (∀ g : Grp, (d.txOf g).changed = true) ∧
      RegsKept s.dev d [] := by
  obtain ⟨hseq, hregs⟩ := Dev.foldl_roleChanged_others (List.range 37) s.dev.countRole
  exact runsTo_go (f := (·.roleWordChange)) rfl (Dev.roleWordChange_eq h) ⟨hseq, Dev.rolesChanged_changed _, .of_regs hregs⟩

/-! ## Elastic slips (R57) -/

/-- Words that cross from a slot leave the registers and the words that the lanes have delivered. -/
structure OnlyCrossed (d e : Dev) : Prop where
  regs : e.regs = d.regs
  inWords : e.inWords = d.inWords

namespace OnlyCrossed

variable {d e f : Dev}

theorem refl (d : Dev) : OnlyCrossed d d := ⟨rfl, rfl⟩

theorem trans (h : OnlyCrossed d e) (k : OnlyCrossed e f) : OnlyCrossed d f := ⟨k.regs.trans h.regs, k.inWords.trans h.inWords⟩

theorem of_words (h : OnlyWords d e) : OnlyCrossed d e := by
  obtain ⟨_, _, _, rfl⟩ := h
  exact ⟨rfl, rfl⟩

theorem carry (d : Dev) (o : Nat) (ws : List Word) : OnlyCrossed d (d.carry o ws) := by
  unfold Dev.carry
  split
  · split
    · exact ⟨rfl, rfl⟩
    · exact of_words (.outPush ..)
  · exact refl d

theorem cross (d : Dev) (slot : Nat) (ws : List Word) : OnlyCrossed d (d.cross slot ws) := by
  have key (l : List Nat) : ∀ d : Dev, OnlyCrossed d (l.foldl (fun d o => if d.srcAct o = slot then d.carry o ws else d) d) := by
    induction l with
    | nil => exact refl
    | cons o l ih =>
      intro d
      rw [List.foldl_cons]
      refine trans ?_ (ih _)
      split
      · exact carry d o ws
      · exact refl d
  exact key _ d

theorem observe (d : Dev) (slot : Nat) (ws : List Word) : OnlyCrossed d (d.observe slot ws) := by
  unfold Dev.observe
  split
  · exact ⟨rfl, rfl⟩
  · exact refl d

theorem slotWords (d : Dev) (slot : Nat) (ws : List Word) : OnlyCrossed d (d.slotWords slot ws) := by
  rw [Dev.slotWords_eq_observe]
  split
  · exact observe d slot ws
  · exact (observe d slot ws).trans (cross ..)

end OnlyCrossed

theorem Dev.withInWords_get (d : Dev) (slot : Nat) (ws : List Word) : mapGet (d.withInWords slot ws).inWords (slot, 0) [] = ws :=
  mapGet_mapPut_self ..

theorem Dev.slipDone_get (d : Dev) (slot n : Nat) : mapGet (d.slipDone slot n).slips (slot, 0) 0 = n := mapGet_mapPut_self ..

/-- A slip is counted in its slot's group. -/
def Dev.countSlip (d : Dev) (slot : Nat) : Dev := d.count LNG.CNT_SLIP_COUNT 1 (slot / 32)

theorem Dev.countSlip_reports (d : Dev) (slot : Nat) : (d.countSlip slot).get LNG.CNT_SLIP_COUNT (slot / 32) =
    sat32 (d.get LNG.CNT_SLIP_COUNT (slot / 32) + 1) ∧ RegsKept d (d.countSlip slot) [(0x0010012C, slot / 32)] :=
  ⟨Dev.count_get _ _ _ rfl rfl, .count d LNG.CNT_SLIP_COUNT 1 _ (List.mem_singleton_self _)⟩

theorem exec_elasticSlip (slot : Slot) (ins : Bool) (s : State) : exec (.elasticSlip slot ins) s = s.go fun d =>
    if slot.val < 1152 then
      if ins then ((d.countSlip slot).withInWords slot [0]).slotWords slot [0]
      else (d.countSlip slot).slipDone slot (mapGet (d.countSlip slot).slips (slot.val, 0) 0 + 1)
    else d := rfl

theorem runsTo_elasticSlip (slot : Slot) (ins : Bool) (s : State) (h : slot.val < 1152) : RunsTo (.elasticSlip slot ins) s fun d =>
    d.get LNG.CNT_SLIP_COUNT (slot / 32) = sat32 (s.dev.get LNG.CNT_SLIP_COUNT (slot / 32) + 1) ∧
    RegsKept s.dev d [(0x0010012C, slot / 32)] ∧ (ins = true → mapGet d.inWords (slot.val, 0) [] = [0]) ∧
    (ins = false → mapGet d.slips (slot.val, 0) 0 = mapGet s.dev.slips (slot.val, 0) 0 + 1) := by
  obtain ⟨hcount, hkept⟩ := s.dev.countSlip_reports slot
  cases ins with
  | true =>
    have hc := OnlyCrossed.slotWords ((s.dev.countSlip slot).withInWords slot [0]) slot [0]
    refine runsTo_go (exec_elasticSlip slot true s) ((if_pos h).trans (if_pos rfl)) ⟨?_, hkept.trans (.of_regs hc.regs), fun _ => ?_, nofun⟩
    · refine Eq.trans ?_ hcount
      rw [Dev.get, Dev.reg, hc.regs]
      rfl
    · rw [hc.inWords, Dev.withInWords_get]
  | false =>
    refine runsTo_go (exec_elasticSlip slot false s) ((if_pos h).trans (if_neg Bool.false_ne_true))
      ⟨hcount, hkept.trans (.of_regs rfl), nofun, fun _ => ?_⟩
    exact Dev.slipDone_get ..

/-- Settles O4: the requests and sequences of a transmitter, the indices of its marker period, role word changes and elastic slips. -/
theorem transmitStates : Obligations.TransmitStates := by
  unfold Obligations.TransmitStates
  refine ⟨fun g s => ⟨fun h hh hs => ?_, fun h hh hs => ?_, runsTo_txReqWrite_off, runsTo_txReqWrite_sleep, runsTo_trainingStepEnd_prbs,
      runsTo_trainingStepEnd_last, runsTo_trainingStepEnd_still, runsTo_markerPeriodStart, runsTo_roleIndex, runsTo_roleWordSend,
      runsTo_restSend, runsTo_forceTrain, runsTo_trqTimer⟩, runsTo_roleWordChange, runsTo_elasticSlip⟩
  · simpa [h] using runsTo_txReqWrite_run (by simp [h]) hh hs
  · simpa [h] using runsTo_txReqWrite_run (by simp [h]) hh hs

end Sys2Proof.Machine
end

section
/-!
Proofs, the bytes of a take entry (R127, Table 5.1): what little-endian bytes spell, and each field read out of the 128 bits.
-/

namespace Sys2Proof.Machine

theorem leBytes_length (k : Nat) : ∀ n, (leBytes k n).length = k := by
  induction k with
  | zero => exact fun _ => rfl
  | succ k ih => exact fun n => congrArg (· + 1) (ih _)

/-- Bytes of a number spell it, as far as they reach. -/
theorem leNat_leBytes (k : Nat) : ∀ n, leNat (leBytes k n) = n % 256 ^ k := by
  induction k with
  | zero => exact fun n => (Nat.mod_one n).symm
  | succ k ih =>
    intro n
    have hn : leNat (leBytes (k + 1) n) = n % 256 + 256 * leNat (leBytes k (n / 256)) := rfl
    rw [hn, ih, Nat.pow_succ', Nat.mod_mul]

theorem leNat_append (as bs : List Byte) : leNat (as ++ bs) = leNat as + 256 ^ as.length * leNat bs := by
  induction as with
  | nil => simp [leNat]
  | cons a as ih =>
    simp only [List.cons_append, leNat, ih, List.length_cons, Nat.pow_succ']
    ring

theorem takeEntry_wf_iff (e : TakeEntry) : e.wf = true ↔
    e.sec < 2 ^ 48 ∧ e.ns < 2 ^ 32 ∧ e.out < 2048 ∧ e.type < 4 ∧ e.src < 2048 ∧ e.salvo < 65536 := by
  simp [TakeEntry.wf, and_assoc]

theorem takeBytes_length (e : TakeEntry) : (takeBytes e).length = 16 := by
  simp only [takeBytes, List.length_append, leBytes_length]

theorem b2n_le (b : Bool) : b2n b ≤ 1 := by cases b <;> decide

/-- The number that the 16 bytes of a well-formed entry spell: each field at its place of Table 5.1. -/
theorem leNat_takeBytes {e : TakeEntry} (h : e.wf = true) : leNat (takeBytes e) = e.sec + e.ns * 2 ^ 48 + e.out * 2 ^ 80 +
    e.type * 2 ^ 94 + e.src * 2 ^ 96 + b2n e.afollow * 2 ^ 107 + b2n e.field2 * 2 ^ 108 + b2n e.now * 2 ^ 109 + e.salvo * 2 ^ 112 := by
  obtain ⟨hsec, hns, hout, htype, hsrc, hsalvo⟩ := (takeEntry_wf_iff e).1 h
  have ha := b2n_le e.afollow
  have hf := b2n_le e.field2
  have hn := b2n_le e.now
  simp only [takeBytes, leNat_append, leNat_leBytes, leBytes_length, List.length_append]
  norm_num only
  omega

/-- A flag that stands as one bit of a number. -/
theorem decide_b2n (b : Bool) : decide (b2n b = 1) = b := by cases b <;> rfl

theorem takeParse_takeBytes {e : TakeEntry} (h : e.wf = true) : takeParse (takeBytes e) = e := by
  obtain ⟨hsec, hns, hout, htype, hsrc, hsalvo⟩ := (takeEntry_wf_iff e).1 h
  have hspelt := leNat_takeBytes h
  have hread : takeParse (takeBytes e) =
      let n := leNat (takeBytes e)
      ⟨n / 2 ^ 0 % 2 ^ 48, n / 2 ^ 48 % 2 ^ 32, n / 2 ^ 80 % 2 ^ 11, n / 2 ^ 94 % 2 ^ 2, n / 2 ^ 96 % 2 ^ 11, n.testBit 107,
        n.testBit 108, n.testBit 109, n / 2 ^ 112 % 2 ^ 16⟩ := by
    rw [takeParse, List.take_of_length_le (Nat.le_of_eq (takeBytes_length e))]
  have ha := b2n_le e.afollow
  have hf := b2n_le e.field2
  have hn := b2n_le e.now
  rw [hread]
  generalize leNat (takeBytes e) = n at hspelt
  norm_num only at hspelt
  have h107 : n / 2 ^ 107 % 2 = b2n e.afollow := by omega
  have h108 : n / 2 ^ 108 % 2 = b2n e.field2 := by omega
  have h109 : n / 2 ^ 109 % 2 = b2n e.now := by omega
  simp only [Nat.testBit_eq_decide_div_mod_eq, h107, h108, h109, decide_b2n]
  congr 1 <;> omega

/-- Settles O7: the 16 bytes spell the fields at their places, and each is read back whole. -/
theorem takeEntryBytes : Obligations.TakeEntryBytes := by
  unfold Obligations.TakeEntryBytes
  exact fun e h => ⟨takeParse_takeBytes h, takeBytes_length e⟩

end Sys2Proof.Machine
end

section
/-!
Proofs, the queues of pending takes (R129 to R134): what an output's list holds after each operation, and what the take engine leaves alone
while it changes lists and reports outcomes.
-/

namespace Sys2Proof.Machine

/-! ## The list of an output -/

namespace Dev

theorem setTakes_eq_withTakes (d : Dev) (o : Nat) (ts : List Take) : d.setTakes o ts = (d.withTakes o ts).showTakes o ts := (rfl)

theorem takesOf_of_takes {d e : Dev} (h : e.takes = d.takes) (o : Nat) : e.takesOf o = d.takesOf o := by rw [takesOf, takesOf, h]

theorem withTakes_takesOf_ne (d : Dev) {o p : Nat} (ts : List Take) (h : p ≠ o) : (d.withTakes o ts).takesOf p = d.takesOf p :=
  mapGet_mapPut_ne (fun e => h (Prod.mk.inj e).1) ..

/-- A list that is set is that output's alone. -/
theorem setTakes_takesOf (d : Dev) (o p : Nat) (ts : List Take) :
    (d.setTakes o ts).takesOf p = if p = o then ts else d.takesOf p := by
  rw [setTakes_eq_withTakes, takesOf_of_takes (showTakes_notes _ _ _).get_takes]
  split
  · next h => rw [h, withTakes_takesOf]
  · next h => rw [withTakes_takesOf_ne _ _ h]

/-- DEPTH shows the list's length (Table 5.15). -/
theorem setTakes_depth (d : Dev) (o : Nat) (ts : List Take) : (d.setTakes o ts).get HIF.TK_QSTAT_DEPTH o = ts.length % 2 ^ 3 := by
  rw [setTakes_eq_withTakes, showTakes, get_set_fld _ _ _ _ _ _ (by decide) (by decide), get_set_fld _ _ _ _ _ _ (by decide) (by decide),
    get_set_self _ _ _ _ (by decide)]
  rfl

theorem takeEnd_takesOf (d : Dev) (o : Nat) (t : Take) (code flags p : Nat) : (d.takeEnd o t code flags).takesOf p = d.takesOf p :=
  takesOf_of_takes (takeEnd_notes ..).get_takes p

theorem foldl_takeEnd_takesOf (o code p : Nat) (ts : List Take) : ∀ d : Dev,
    (ts.foldl (fun d t => d.takeEnd o t code 0) d).takesOf p = d.takesOf p := by
  induction ts with
  | nil => exact fun _ => rfl
  | cons t ts ih => exact fun d => (ih _).trans (takeEnd_takesOf ..)

/-- The takes that meet the test leave the output's list; the other lists stand. -/
theorem takesDrop_takesOf (d : Dev) (o code p : Nat) (q : Take → Bool) :
    (d.takesDrop o code q).takesOf p = if p = o then (d.takesOf o).filter (!q ·) else d.takesOf p := by
  rw [takesDrop, foldl_takeEnd_takesOf, setTakes_takesOf]

theorem foldl_takesDrop_takesOf (code p : Nat) (q : Nat → Take → Bool) (l : List Nat) : ∀ d : Dev,
    (l.foldl (fun d o => d.takesDrop o code (q o)) d).takesOf p =
      if p ∈ l then (d.takesOf p).filter (!q p ·) else d.takesOf p := by
  induction l with
  | nil => exact fun _ => rfl
  | cons o l ih =>
    intro d
    rw [List.foldl_cons, ih, takesDrop_takesOf]
    by_cases ho : p = o
    · subst ho
      simp [List.filter_filter]
    · simp [ho]

/-- An output with a pending take is one of those that the engine goes through. -/
theorem mem_takeOuts {d : Dev} {o : Nat} (h : d.takesOf o ≠ []) : o ∈ d.takeOuts := by
  have key (m : Map (List Take)) : mapGet m (o, 0) [] ≠ [] → o ∈ m.map (·.1.1) := by
    induction m with
    | nil => exact fun h => absurd rfl h
    | cons e m ih =>
      intro h
      by_cases he : e.1 = (o, 0)
      · simp [he]
      · refine List.mem_cons_of_mem _ (ih ?_)
        simpa [mapGet, mapFind, he] using h
  exact key d.takes h

/-- On every output the takes that meet the test leave the list. -/
theorem takesDropAll_takesOf (d : Dev) (code p : Nat) (q : Nat → Take → Bool) :
    (d.takesDropAll code q).takesOf p = (d.takesOf p).filter (!q p ·) := by
  rw [takesDropAll, foldl_takesDrop_takesOf]
  split
  · rfl
  · next h => rw [not_imp_comm.1 mem_takeOuts h, List.filter_nil]

/-- A take joins behind those that it does not supersede (R131). -/
theorem takeJoin_takesOf (d : Dev) (o : Nat) (t : Take) (k : Int) :
    (d.takeJoin o t k).takesOf o = (d.takesOf o).filter (!d.sameSwitch o k t.field2 ·) ++ [t] := by
  rw [takeJoin, setTakes_takesOf, if_pos rfl, takesDrop_takesOf, if_pos rfl]

/-- The lists of pending takes put in place of others. -/
def withQueues (d : Dev) (q : Map (List Take)) : Dev := { d with takes := q }

end Dev

/-! ## What the take engine leaves alone -/

/-- The bits of one field lie apart from those of another. -/
abbrev BitsApart (f x : Fld) : Prop := x.lo + x.w ≤ 32 ∧ (f.off ≠ x.off ∨ x.lo + x.w ≤ f.lo ∨ f.lo + f.w ≤ x.lo)

/-- The fields that follow an output's queue (Table 5.15). -/
def queueFlds : List Fld := [HIF.TK_QSTAT_DEPTH, HIF.TK_QSTAT_UNARMED, HIF.TK_QSTAT_NEXT_SRC]

/-- Those, and the fields that an outcome sets (Tables 5.15 to 5.17). -/
def takeFlds : List Fld :=
  queueFlds ++ [HIF.TK_QSTAT_LAST_CODE, HIF.TK_EVT_EXEC, HIF.TK_EVT_REJECT, HIF.TK_EVT_LATE, HIF.TK_EVT_SALVO_FAIL, HIF.TK_EVT_RES_OVF,
    HIF.TK_CNT_EXE_COUNT, HIF.TK_CNT_REJ_COUNT, HIF.TK_CNT_RES_OVF_COUNT]

/-- A field of the take engine's registers beside some fields. -/
abbrev TakeBeside (f : Fld) (xs : List Fld) : Prop := (0x00C01000 ≤ f.off ∧ f.off < 0x00C08800) ∧ ∀ x ∈ xs, BitsApart f x

/-- A field reads as before, for every output, master or group that has its own. -/
def SameFld (f : Fld) (d e : Dev) : Prop := ∀ ch, e.get f ch = d.get f ch

namespace SameFld

variable {f : Fld} {d e c : Dev}

theorem refl (d : Dev) : SameFld f d d := fun _ => rfl

theorem trans (h : SameFld f d e) (k : SameFld f e c) : SameFld f d c := fun ch => (k ch).trans (h ch)

theorem set (d : Dev) (x : Fld) (v ch : Nat) (h : BitsApart f x) : SameFld f d (d.set x v ch) := fun c =>
  h.2.elim (Dev.get_set_off d x f v ch c) (Dev.get_set_fld d x f v ch c h.1)

theorem raiseIf (d : Dev) (b : Bool) (x : Fld) (ch : Nat) (h : BitsApart f x) : SameFld f d (d.raiseIf b x ch) := by
  cases b
  · exact refl d
  · exact set _ _ _ _ h

theorem of_notes {lo hi : Nat} (h : Notes lo hi d e) (a : lo ≤ f.off) (b : f.off < hi) : SameFld f d e := fun ch => h.get f ch a b

end SameFld

namespace Dev

/-- The event and the count of an outcome (Tables 5.16 and 5.17). -/
def tally (d : Dev) (code : Nat) : Dev :=
  if code = 2 then (d.raise HIF.TK_EVT_EXEC).count HIF.TK_CNT_EXE_COUNT else (d.raise HIF.TK_EVT_REJECT).count HIF.TK_CNT_REJ_COUNT

/-- What follows the count of an outcome: the salvo's event and the Logbook's count. -/
def logOutcome (d : Dev) (code : Nat) : Dev :=
  (d.raiseIf (code == 8 || code == 9) HIF.TK_EVT_SALVO_FAIL).logAdd (if code = 2 then 1739 else 1740) 1

/-- The result record, or its loss (R154). -/
def recordOutcome (d : Dev) (rec : List Byte) : Dev :=
  if d.flag HIF.TK_QUEUES_RES_EN then
    let r := d.qProduce (d.get HIF.TK_QUEUES_RES_Q) rec
    if r.1 then r.2 else (r.2.count HIF.TK_CNT_RES_OVF_COUNT).raise HIF.TK_EVT_RES_OVF
  else d

theorem takeFinal_eq_tally (d : Dev) (org : Origin) (out code flags salvo : Nat) : d.takeFinal org out code flags salvo =
    ((d.tally code).logOutcome code).recordOutcome
      (takeRecord ((d.tally code).logOutcome code).timeSec ((d.tally code).logOutcome code).timeNs out (originCode org) code flags salvo) :=
  (rfl)

end Dev

namespace SameFld

variable {f : Fld}

/-- The notes of the Logbook and of a queue lie outside the take engine's registers. -/
theorem logAdd (d : Dev) (i n : Nat) (h : 0x00C01000 ≤ f.off ∧ f.off < 0x00C08800) : SameFld f d (d.logAdd i n) :=
  of_notes (.logAdd (.inl (by decide)) d i n) h.1 h.2

theorem qProduce (d : Dev) (q : Nat) (bs : List Byte) (h : 0x00C01000 ≤ f.off ∧ f.off < 0x00C08800) :
    SameFld f d (d.qProduce q bs).2 :=
  of_notes (.qProduce (.inl (by decide)) (le_refl 0x00C08800) (.inr (by decide)) d q bs) h.1 h.2

theorem logOutcome (d : Dev) (code : Nat) (h : TakeBeside f [HIF.TK_EVT_SALVO_FAIL]) : SameFld f d (d.logOutcome code) :=
  (raiseIf _ _ _ _ (h.2 _ (by simp))).trans (logAdd _ _ _ h.1)

theorem recordOutcome (d : Dev) (rec : List Byte) (h : TakeBeside f [HIF.TK_CNT_RES_OVF_COUNT, HIF.TK_EVT_RES_OVF]) :
    SameFld f d (d.recordOutcome rec) := by
  unfold Dev.recordOutcome
  split
  · extract_lets r
    have hr : SameFld f d r.2 := qProduce d _ _ h.1
    split
    · exact hr
    · exact (hr.trans (set _ _ _ _ (h.2 _ (by simp)))).trans (set _ _ _ _ (h.2 _ (by simp)))
  · exact refl d

theorem tally (d : Dev) (code : Nat)
    (h : ∀ x ∈ [HIF.TK_EVT_EXEC, HIF.TK_CNT_EXE_COUNT, HIF.TK_EVT_REJECT, HIF.TK_CNT_REJ_COUNT], BitsApart f x) : SameFld f d (d.tally code) := by
  unfold Dev.tally
  split
  · exact (set _ _ _ _ (h _ (by simp))).trans (set _ _ _ _ (h _ (by simp)))
  · exact (set _ _ _ _ (h _ (by simp))).trans (set _ _ _ _ (h _ (by simp)))

theorem takeFinal (d : Dev) (org : Origin) (out code flags salvo : Nat) (h : TakeBeside f takeFlds) :
    SameFld f d (d.takeFinal org out code flags salvo) := by
  have hs {xs : List Fld} (s : xs ⊆ takeFlds) : ∀ x ∈ xs, BitsApart f x := fun x m => h.2 x (s m)
  rw [Dev.takeFinal_eq_tally]
  exact ((tally _ _ (hs (by simp [takeFlds]))).trans (logOutcome _ _ ⟨h.1, hs (by simp [takeFlds])⟩)).trans
    (recordOutcome _ _ ⟨h.1, hs (by simp [takeFlds])⟩)

theorem setTakes (d : Dev) (o : Nat) (ts : List Take) (h : ∀ x ∈ queueFlds, BitsApart f x) : SameFld f d (d.setTakes o ts) := by
  have hw : SameFld f d (d.withTakes o ts) := fun _ => rfl
  exact ((hw.trans (set _ _ _ _ (h _ (by simp [queueFlds])))).trans (set _ _ _ _ (h _ (by simp [queueFlds])))).trans
    (set _ _ _ _ (h _ (by simp [queueFlds])))

end SameFld

/-- The take engine at work on its queues: but for the lists of pending takes, the fields that follow them, and what outcomes report, the
block stands as it was. -/
structure TakeWork (d e : Dev) : Prop where
  others : ∃ q, Notes 0x00100000 0x00600000 (d.withQueues q) e
  fields : ∀ f, TakeBeside f takeFlds → SameFld f d e

namespace TakeWork

variable {d e f : Dev}

theorem of_notes (h : Notes 0x00100000 0x00600000 d e) (hf : ∀ f, TakeBeside f takeFlds → SameFld f d e) : TakeWork d e :=
  ⟨⟨d.takes, h⟩, hf⟩

theorem refl (d : Dev) : TakeWork d d := of_notes (.refl ..) fun _ _ => .refl d

theorem trans (h : TakeWork d e) (k : TakeWork e f) : TakeWork d f := by
  obtain ⟨⟨q, hs, _, _, _, _, _, _, rfl⟩, hf⟩ := h
  obtain ⟨⟨q', ks, r, b, s, m, x, y, rfl⟩, kf⟩ := k
  exact ⟨⟨q', hs.trans ks, r, b, s, m, x, y, rfl⟩, fun x hx => (hf x hx).trans (kf x hx)⟩

theorem foldl {α : Type} (g : Dev → α → Dev) (h : ∀ d x, TakeWork d (g d x)) (l : List α) : ∀ d, TakeWork d (l.foldl g d) := by
  induction l with
  | nil => exact refl
  | cons x l ih => exact fun d => (h d x).trans (ih _)

theorem setTakes (d : Dev) (o : Nat) (ts : List Take) : TakeWork d (d.setTakes o ts) :=
  ⟨⟨_, Dev.showTakes_notes (d.withTakes o ts) o ts⟩, fun _ hf => .setTakes d o ts fun x m => hf.2 x (List.mem_append_left _ m)⟩

theorem takeFinal (d : Dev) (org : Origin) (out code flags salvo : Nat) : TakeWork d (d.takeFinal org out code flags salvo) :=
  of_notes (Dev.takeFinal_notes ..) fun _ h => .takeFinal _ _ _ _ _ _ h

/-- A field of the take engine's own. -/
theorem set (d : Dev) (x : Fld) (v ch : Nat) (h : x ∈ takeFlds) : TakeWork d (d.set x v ch) :=
  of_notes (.set _ _ _ _ (.inr ((by decide : ∀ x ∈ takeFlds, 0x00600000 ≤ x.off) x h))) fun _ hf => .set _ _ _ _ (hf.2 x h)

theorem raiseIf (d : Dev) (b : Bool) (x : Fld) (ch : Nat) (h : x ∈ takeFlds) : TakeWork d (d.raiseIf b x ch) := by
  cases b
  · exact refl d
  · exact set _ _ _ _ h

theorem takeEnd (d : Dev) (o : Nat) (t : Take) (code flags : Nat) : TakeWork d (d.takeEnd o t code flags) :=
  (takeFinal ..).trans (set _ _ _ _ (by simp [takeFlds]))

theorem takesDrop (d : Dev) (o code : Nat) (q : Take → Bool) : TakeWork d (d.takesDrop o code q) :=
  (setTakes ..).trans (foldl _ (fun d t => takeEnd d o t code 0) _ _)

theorem takesDropAll (d : Dev) (code : Nat) (q : Nat → Take → Bool) : TakeWork d (d.takesDropAll code q) :=
  foldl _ (fun d o => takesDrop d o code (q o)) _ _

theorem takeJoin (d : Dev) (o : Nat) (t : Take) (k : Int) : TakeWork d (d.takeJoin o t k) := (takesDrop ..).trans (setTakes ..)

theorem armMember (d : Dev) (e : TakeEntry) (acc : Int) (ms : List (Nat × Take)) (m : Nat × Take) : TakeWork d (d.armMember e acc ms m) :=
  ((setTakes ..).trans (takeJoin ..)).trans (raiseIf _ _ _ _ (by simp [takeFlds]))

theorem get_salvos (h : TakeWork d e) : e.salvos = d.salvos := by obtain ⟨⟨_, -, _, _, _, _, _, _, rfl⟩, -⟩ := h; rfl
theorem get_submitted (h : TakeWork d e) : e.submitted = d.submitted := by obtain ⟨⟨_, -, _, _, _, _, _, _, rfl⟩, -⟩ := h; rfl
theorem get_takeMsgs (h : TakeWork d e) : e.takeMsgs = d.takeMsgs := by obtain ⟨⟨_, -, _, _, _, _, _, _, rfl⟩, -⟩ := h; rfl
theorem get_lastSeq (h : TakeWork d e) : e.lastSeq = d.lastSeq := by obtain ⟨⟨_, -, _, _, _, _, _, _, rfl⟩, -⟩ := h; rfl

/-- The lanes, the slots and the crosspoint are no concern of the queues. -/
theorem get (h : TakeWork d e) (x : Fld) (ch : Nat) (a : 0x00100000 ≤ x.off) (b : x.off < 0x00600000) : e.get x ch = d.get x ch := by
  obtain ⟨⟨_, hn⟩, -⟩ := h
  exact (hn.get x ch a b).trans rfl

theorem srcAct (h : TakeWork d e) (o : Nat) : e.srcAct o = d.srcAct o := h.get _ _ (by decide) (by decide)

end TakeWork

end Sys2Proof.Machine
end

section
/-!
Proofs, entries of takes (R128, R130, R133, R138, R143, R151): what an entry leaves of those that wait, how an accepted one is answered, and
the three kinds, each the first that was received.
-/

namespace Sys2Proof.Machine

/-! ## What waits -/

/-- The entries and the messages that wait, and the last sequence numbers, stand as they were. -/
structure SameInbox (d e : Dev) : Prop where
  submitted : e.submitted = d.submitted
  msgs : e.takeMsgs = d.takeMsgs
  seqs : e.lastSeq = d.lastSeq

/-- A journal record moves its sequence number and joins the units that wait. -/
theorem Dev.journal_eq (d : Dev) (org : Origin) (e : TakeEntry) (flush : Bool) (msg : Option (Nat × Nat)) :
    OffsKept d (d.journal org e flush msg) [CON.JSEQ_TX_JSEQ.off] ∧ ∃ r u, d.journal org e flush msg = { d with regs := r, units := u } := by
  unfold Dev.journal
  split
  · extract_lets j key seq rec
    exact ⟨(OffsKept.set d CON.JSEQ_TX_JSEQ j 0 (by simp)).trans (.of_regs rfl), _, _, rfl⟩
  · exact ⟨.refl d _, _, _, rfl⟩

theorem Dev.journal_takesOf (d : Dev) (org : Origin) (e : TakeEntry) (flush : Bool) (msg : Option (Nat × Nat)) (o : Nat) :
    (d.journal org e flush msg).takesOf o = d.takesOf o := by
  obtain ⟨-, _, _, h⟩ := d.journal_eq org e flush msg
  rw [h]
  rfl

theorem Dev.takeAnswer_only (d : Dev) (org : Origin) (code : Nat) (late : Bool) : OnlyRegs d (d.takeAnswer org code late) := by
  unfold Dev.takeAnswer
  split
  · exact ((OnlyRegs.set ..).trans (.put ..)).trans (.set ..)
  · exact .refl d

namespace SameInbox

variable {d e f : Dev}

theorem refl (d : Dev) : SameInbox d d := ⟨rfl, rfl, rfl⟩

theorem trans (h : SameInbox d e) (k : SameInbox e f) : SameInbox d f :=
  ⟨k.submitted.trans h.submitted, k.msgs.trans h.msgs, k.seqs.trans h.seqs⟩

theorem foldl {α : Type} (g : Dev → α → Dev) (h : ∀ d x, SameInbox d (g d x)) (l : List α) : ∀ d, SameInbox d (l.foldl g d) := by
  induction l with
  | nil => exact refl
  | cons x l ih => exact fun d => (h d x).trans (ih _)

theorem of_only (h : OnlyRegs d e) : SameInbox d e := ⟨h.get_submitted, h.get_takeMsgs, h.get_lastSeq⟩

theorem of_work (h : TakeWork d e) : SameInbox d e := ⟨h.get_submitted, h.get_takeMsgs, h.get_lastSeq⟩

theorem withSalvos (d : Dev) (v : List Salvo) : SameInbox d { d with salvos := v } := ⟨rfl, rfl, rfl⟩

theorem journal (d : Dev) (org : Origin) (e : TakeEntry) (flush : Bool) (msg : Option (Nat × Nat)) :
    SameInbox d (d.journal org e flush msg) := by
  obtain ⟨-, _, _, h⟩ := d.journal_eq org e flush msg
  rw [h]
  exact ⟨rfl, rfl, rfl⟩

theorem salvoEnd (d : Dev) (salvo code : Nat) : SameInbox d (d.salvoEnd salvo code) :=
  (of_work (.takesDropAll d code fun _ => Dev.isMember salvo)).trans (withSalvos ..)

theorem salvoExpire (d : Dev) : SameInbox d d.salvoExpire := foldl _ (fun d (v : Salvo) => salvoEnd d v.id 9) _ d

theorem takeTake (d : Dev) (org : Origin) (e : TakeEntry) (acc : Int) : SameInbox d (d.takeTake org e acc).2.2 := by
  unfold Dev.takeTake
  extract_lets o ts t isOpen a k
  split
  · exact refl d
  · split
    · split
      · exact refl d
      · split
        · exact refl d
        · split
          · exact refl d
          · have ha : SameInbox d a := by
              unfold a
              split
              · exact refl d
              · exact withSalvos ..
            exact ha.trans (of_work (.setTakes ..))
    · split
      · exact refl d
      · exact of_work ((TakeWork.takeJoin ..).trans (.raiseIf _ _ _ _ (by simp [takeFlds])))

theorem takeArm (d : Dev) (e : TakeEntry) (acc : Int) : SameInbox d (d.takeArm e acc).2.2 := by
  unfold Dev.takeArm
  split
  · extract_lets ms a
    split
    · have ha : SameInbox d a := of_work (.foldl _ (fun d m => .armMember d e acc ms m) _ _)
      exact ha.trans (withSalvos ..)
    · exact salvoEnd ..
  · exact refl d

theorem takeCancel (d : Dev) (e : TakeEntry) (acc : Int) : SameInbox d (d.takeCancel e acc).2.2 := by
  unfold Dev.takeCancel
  split
  · exact refl d
  · exact of_work (.takesDropAll ..)

/-- An entry that is processed leaves those that wait. -/
theorem takeProc (d : Dev) (org : Origin) (e : TakeEntry) (acc : Int) (msg : Option (Nat × Nat)) :
    SameInbox d (d.takeProc org e acc msg) := by
  unfold Dev.takeProc
  extract_lets a byReg byMsg r out b c
  have hr : SameInbox a r.2.2 := by
    unfold r
    split_ifs
    · exact refl a
    · exact refl a
    · exact refl a
    · exact takeTake ..
    · exact takeArm ..
    · exact takeCancel ..
  refine ((salvoExpire d).trans hr).trans (.trans (e := c) ?_ (of_only (Dev.takeAnswer_only ..)))
  unfold c
  split
  · refine .trans ?_ (of_only (.logAdd ..))
    split
    · exact refl _
    · exact journal ..
  · have hb : SameInbox r.2.2 b := of_work (.takeFinal ..)
    split
    · exact hb.trans (of_only (.set ..))
    · exact hb

end SameInbox

/-! ## An accepted entry of a master -/

namespace Dev

/-- A master's accepted entry is recorded for the standby, counted, and answered with code 1 (R152, R364). -/
def accepted (d : Dev) (m : Master) (e : TakeEntry) (late : Bool) : Dev :=
  ((d.journal (.regs m) e false none).logAdd 1738 1).takeAnswer (.regs m) 1 late

theorem accepted_takesOf (d : Dev) (m : Master) (e : TakeEntry) (late : Bool) (o : Nat) : (d.accepted m e late).takesOf o = d.takesOf o := by
  rw [accepted, takesOf_of_takes (takeAnswer_only ..).get_takes, takesOf_of_takes (OnlyRegs.logAdd ..).get_takes, journal_takesOf]

theorem accepted_salvos (d : Dev) (m : Master) (e : TakeEntry) (late : Bool) : (d.accepted m e late).salvos = d.salvos := by
  obtain ⟨-, _, _, h⟩ := d.journal_eq (.regs m) e false none
  rw [accepted, (takeAnswer_only ..).get_salvos, (OnlyRegs.logAdd ..).get_salvos, h]

theorem accepted_answer (d : Dev) (m : Master) (e : TakeEntry) (late : Bool) :
    (d.accepted m e late).get HIF.TK_RES_CODE m.code = 1 ∧ (d.accepted m e late).get HIF.TK_RES_BUSY m.code = 0 := by
  simp (disch := decide) only [accepted, takeAnswer, put_eq, get_set_fld, get_set_self]
  exact ⟨rfl, rfl⟩

/-- The answer lies beside the queues' status. -/
theorem accepted_kept (d : Dev) (m : Master) (e : TakeEntry) (late : Bool) :
    OffsKept d (d.accepted m e late) [0x00B00024, 0x00090100, 0x00090104, 0x00C01024] := by
  obtain ⟨hj, -⟩ := d.journal_eq (.regs m) e false none
  exact (((hj.mono (by simp [CON.JSEQ_TX_JSEQ])).trans (.logAdd _ _ _ (by simp) (by simp))).trans
    (.set _ _ _ _ (by simp [HIF.TK_RES_CODE]))).trans ((OffsKept.set _ _ _ _ (by simp [HIF.TK_RES_LATE])).trans
      (.set _ _ _ _ (by simp [HIF.TK_RES_BUSY])))

theorem salvoExpire_none {d : Dev} (h : ∀ v ∈ d.salvos, d.salvoOver v = false) : d.salvoExpire = d := by
  rw [salvoExpire, List.filter_eq_nil_iff.2 fun v hv => by simp [h v hv], List.foldl_nil]

/-- The code and the block of an entry that no check rejects, by its type. -/
def entryJudged (d : Dev) (org : Origin) (e : TakeEntry) (acc : Int) : Nat × Bool × Dev :=
  if e.type = 0 then d.takeTake org e acc else if e.type = 1 then d.takeArm e acc else d.takeCancel e acc

/-- What remains of the block when its first entry is taken up. -/
def takenUp (d : Dev) (rest : List Submitted) : Dev := { d with submitted := rest }

end Dev

/-! ## The first entry -/

/-- A master's entry is the first of those received, the take engine is enabled and up, the device leads, and no open salvo is out of
time. -/
structure FirstEntry (d : Dev) (m : Master) (e : TakeEntry) (rest : List Submitted) : Prop where
  first : d.submitted = ⟨.regs m, e⟩ :: rest
  ns : e.ns < 1000000000
  enabled : d.flag HIF.TK_CTL_EN = true
  leads : d.conFollows = false
  up : d.restarting = false
  inTime : ∀ v ∈ d.salvos, d.salvoOver v = false

namespace FirstEntry

variable {d : Dev} {m : Master} {e : TakeEntry} {rest : List Submitted} {types : List Nat}

theorem takeTurn (h : FirstEntry d m e rest) (ht : e.type ∈ types) :
    d.takeTurn types = (d.takenUp rest).takeProc (.regs m) e d.timeTu none := by
  unfold Dev.takeTurn
  rw [h.first]
  exact if_neg (by simp [h.up, ht])

theorem takeTurn_other (h : FirstEntry d m e rest) (ht : e.type ∉ types) : d.takeTurn types = d := by
  unfold Dev.takeTurn
  rw [h.first]
  exact if_pos (by simp [ht])

/-- An entry that passes the checks of R128 and is accepted. -/
theorem takeProc (h : FirstEntry d m e rest) (hb : badEntry (.regs m) e = false) {late : Bool} {acc : Int} {a : Dev}
    (hj : (d.takenUp rest).entryJudged (.regs m) e acc = (1, late, a)) :
    (d.takenUp rest).takeProc (.regs m) e acc none = a.accepted m e late := by
  have hen : (d.takenUp rest).flag HIF.TK_CTL_EN = true := h.enabled
  have hle : (d.takenUp rest).conFollows = false := h.leads
  unfold Dev.entryJudged at hj
  unfold Dev.takeProc
  rw [Dev.salvoExpire_none (d := d.takenUp rest) h.inTime]
  simp only [hen, hle, hb, hj, Option.isSome_none, Bool.false_and, Bool.and_false, Bool.not_true, Bool.or_self, Bool.false_eq_true,
    if_false, if_true]
  rfl

/-- The turn of an entry that is accepted: it waits no more, and its master is answered. -/
theorem runsTo {i : Instr} {s : State} {P : Dev → Prop} {late : Bool} {a : Dev} (h : FirstEntry s.dev m e rest)
    (hi : exec i s = s.go (·.takeTurn types)) (ht : e.type ∈ types) (hb : badEntry (.regs m) e = false)
    (hj : (s.dev.takenUp rest).entryJudged (.regs m) e s.dev.timeTu = (1, late, a)) (hP : P (a.accepted m e late)) :
    RunsTo i s fun d => d.submitted = rest ∧ P d := by
  refine runsTo_go hi ((h.takeTurn ht).trans (h.takeProc hb hj)) ⟨?_, hP⟩
  rw [← h.takeProc hb hj]
  exact (SameInbox.takeProc ..).submitted

/-- An entry of another type keeps its place. -/
theorem runsTo_other {i : Instr} {s : State} (h : FirstEntry s.dev m e rest) (hi : exec i s = s.go (·.takeTurn types))
    (ht : e.type ∉ types) : RunsTo i s fun d => d = s.dev := runsTo_go hi (h.takeTurn_other ht) rfl

end FirstEntry

theorem exec_takeEntry (s : State) : exec .takeEntry s = s.go (·.takeTurn [0, 3]) := rfl
theorem exec_armEntry (s : State) : exec .armEntry s = s.go (·.takeTurn [1]) := rfl
theorem exec_cancelEntry (s : State) : exec .cancelEntry s = s.go (·.takeTurn [2]) := rfl

/-! ## A TAKE outside a salvo (R130, R138) -/

namespace Dev

/-- The pending take of an entry outside a salvo, with its due frame. -/
def dueTake (d : Dev) (org : Origin) (e : TakeEntry) (acc : Int) : Take :=
  let k := d.dueFrame (e.out, e.field2) [] (takeInst e) acc e.now
  ⟨e.src, e.afollow, e.field2, e.now, e.salvo, takeInst e, acc, some k.1, k.2, false, org⟩

/-- An empty queue accepts a take, with the frame of R138, and holds it alone. -/
theorem takeTake_empty {d : Dev} {org : Origin} {e : TakeEntry} {acc : Int} (hr : d.outRuns e.out = true)
    (hf : fmtValid (d.outFmt e.out) = true) (hs : e.salvo = 0) (hq : d.takesOf e.out = []) :
    ∃ a, d.takeTake org e acc = (1, (d.dueTake org e acc).late, a) ∧ a.takesOf e.out = [d.dueTake org e acc] ∧
      a.get HIF.TK_QSTAT_DEPTH e.out = 1 := by
  have hj : d.takeTake org e acc = (1, (d.dueTake org e acc).late, (d.takeJoin e.out (d.dueTake org e acc)
      (d.dueFrame (e.out, e.field2) [] (takeInst e) acc e.now).1).raiseIf (d.dueTake org e acc).late HIF.TK_EVT_LATE) := by
    simp [takeTake, dueTake, hr, hf, hs, hq]
  refine ⟨_, hj, ?_, ?_⟩
  · rw [takesOf_of_takes (OnlyRegs.raiseIf ..).get_takes, takeJoin_takesOf, hq]
    rfl
  · rw [raiseIf_get_off _ _ _ (by decide), takeJoin, setTakes_depth, takesDrop_takesOf, if_pos rfl, hq]
    rfl

end Dev

theorem badEntry_take {e : TakeEntry} (m : Master) (ht : e.type = 0) (ho : e.out < 1664) (hn : e.ns < 1000000000) :
    badEntry (.regs m) e = false := by
  simp [badEntry, ht, ho, hn]

/-- TAKE_ENTRY. -/
theorem runsTo_takeEntry {m : Master} {e : TakeEntry} {rest : List Submitted} {s : State} (h : FirstEntry s.dev m e rest) (ht : e.type = 0)
    (hs : e.salvo = 0) (ho : e.out < 1664) (hr : s.dev.outRuns e.out = true) (hf : fmtValid (s.dev.outFmt e.out) = true)
    (hq : s.dev.takesOf e.out = []) : RunsTo .takeEntry s fun d => d.submitted = rest ∧
      (∃ t, d.takesOf e.out = [t] ∧ t.src = e.src ∧ t.origin = .regs m ∧
        t.due = some (s.dev.dueFrame (e.out, e.field2) [] (takeInst e) s.dev.timeTu e.now).1) ∧
      d.get HIF.TK_RES_CODE m.code = 1 ∧ d.get HIF.TK_RES_BUSY m.code = 0 ∧ d.get HIF.TK_QSTAT_DEPTH e.out = 1 := by
  obtain ⟨a, ha, htakes, hdepth⟩ := Dev.takeTake_empty (d := s.dev.takenUp rest) (org := .regs m) (acc := s.dev.timeTu) hr hf hs hq
  obtain ⟨hcode, hbusy⟩ := a.accepted_answer m e ((s.dev.takenUp rest).dueTake (.regs m) e s.dev.timeTu).late
  refine h.runsTo (exec_takeEntry s) (by simp [ht]) (badEntry_take m ht ho h.ns) ((if_pos ht).trans ha)
    ⟨⟨(s.dev.takenUp rest).dueTake (.regs m) e s.dev.timeTu, ?_, rfl, rfl, rfl⟩, hcode, hbusy, ?_⟩
  · rw [Dev.accepted_takesOf, htakes]
  · rw [(Dev.accepted_kept _ _ _ _).field _ _ (by decide), hdepth]

/-! ## An ARM of all members (R143) -/

theorem badEntry_arm {e : TakeEntry} (m : Master) (ht : e.type = 1) (hs : e.salvo ≠ 0) (h1 : 1 ≤ e.src) (h2 : e.src ≤ 1664)
    (hn : e.ns < 1000000000) : badEntry (.regs m) e = false := by
  have hsrc : e.src ≠ 0 := by omega
  simp [badEntry, ht, hs, h2, hn, hsrc]

/-- The salvo whose members are as many as COUNT says is armed and closed. -/
theorem Dev.takeArm_all {d : Dev} {e : TakeEntry} {acc : Int} (ho : ∃ v ∈ d.salvos, v.id = e.salvo) (hm : (d.members e.salvo).length = e.src) :
    ∃ a, d.takeArm e acc = (1, false, a) ∧ a.salvos = d.salvos.filter (·.id != e.salvo) := by
  have hany : d.salvos.any (·.id == e.salvo) = true := by simpa using ho
  have hw : TakeWork d ((d.members e.salvo).foldl (fun a m => a.armMember e acc (d.members e.salvo) m) d) :=
    .foldl _ (fun a m => .armMember a e acc (d.members e.salvo) m) _ _
  refine ⟨_, (if_pos hany).trans (if_pos hm), ?_⟩
  rw [← hw.get_salvos]

/-- ARM_ENTRY. -/
theorem runsTo_armEntry {m : Master} {e : TakeEntry} {rest : List Submitted} {s : State} (h : FirstEntry s.dev m e rest) (ht : e.type = 1)
    (hs : e.salvo ≠ 0) (h1 : 1 ≤ e.src) (h2 : e.src ≤ 1664) (ho : ∃ v ∈ s.dev.salvos, v.id = e.salvo)
    (hm : (s.dev.members e.salvo).length = e.src) : RunsTo .armEntry s fun d => d.submitted = rest ∧
      d.salvos = s.dev.salvos.filter (·.id != e.salvo) ∧ d.get HIF.TK_RES_CODE m.code = 1 := by
  obtain ⟨a, ha, hsalvos⟩ := Dev.takeArm_all (d := s.dev.takenUp rest) (acc := s.dev.timeTu) ho hm
  refine h.runsTo (exec_armEntry s) (by simp [ht]) (badEntry_arm m ht hs h1 h2 h.ns)
    ((if_neg (by simp [ht])).trans ((if_pos ht).trans ha)) ⟨?_, (a.accepted_answer m e false).1⟩
  rw [Dev.accepted_salvos, hsalvos]
  rfl

/-! ## A CANCEL of an uncommitted take (R133) -/

theorem badEntry_cancel {e : TakeEntry} (m : Master) (ht : e.type = 2) (ho : e.out < 1664) (hn : e.ns < 1000000000) :
    badEntry (.regs m) e = false := by
  have hall : e.out ≠ 0x7FF := by omega
  simp [badEntry, ht, ho, hn, hall]

/-- A pending take that meets the test is counted. -/
theorem Dev.takesCount_ne_zero {d : Dev} {o : Nat} {t : Take} {q : Nat → Take → Bool} (hm : t ∈ d.takesOf o) (ht : q o t = true) :
    d.takesCount q ≠ 0 := by
  intro h
  have h0 := List.sum_eq_zero_iff.1 h _ (List.mem_map_of_mem (mem_takeOuts (List.ne_nil_of_mem hm)))
  exact List.not_mem_nil (List.eq_nil_of_length_eq_zero h0 ▸ List.mem_filter.2 ⟨hm, ht⟩)

/-- CANCEL_ENTRY. -/
theorem runsTo_cancelEntry {m : Master} {e : TakeEntry} {rest : List Submitted} {s : State} (h : FirstEntry s.dev m e rest) (ht : e.type = 2)
    (ho : e.out < 1664) (hs : e.salvo = 0) (t : Take) (hq : s.dev.takesOf e.out = [t])
    (hc : s.dev.committed e.out s.dev.timeTu t = false) : RunsTo .cancelEntry s fun d => d.submitted = rest ∧ d.takesOf e.out = [] ∧
      d.get HIF.TK_RES_CODE m.code = 1 := by
  have hnamed : (s.dev.takenUp rest).cancels e s.dev.timeTu e.out t = true := by
    have hc' : (s.dev.takenUp rest).committed e.out s.dev.timeTu t = false := hc
    simp [Dev.cancels, hs, hc']
  have hq' : (s.dev.takenUp rest).takesOf e.out = [t] := hq
  have hcount := Dev.takesCount_ne_zero (d := s.dev.takenUp rest) (hq' ▸ List.mem_singleton_self t) hnamed
  refine h.runsTo (exec_cancelEntry s) (by simp [ht]) (badEntry_cancel m ht ho h.ns)
    ((if_neg (by simp [ht])).trans ((if_neg (by simp [ht])).trans (if_neg hcount))) ⟨?_, (Dev.accepted_answer ..).1⟩
  rw [Dev.accepted_takesOf, Dev.takesDropAll_takesOf, hq']
  simp [hnamed]

/-- Settles O9: the three kinds of entries, each the first of those received, and an entry of another kind. -/
theorem takeEntries : Obligations.TakeEntries := by
  unfold Obligations.TakeEntries
  intro m e rest s hfirst _ hns hen hleads hup hopen
  have h : FirstEntry s.dev m e rest := ⟨hfirst, hns, hen, hleads, hup, hopen⟩
  exact ⟨runsTo_takeEntry h, runsTo_armEntry h, runsTo_cancelEntry h, h.runsTo_other (exec_takeEntry s),
    fun ht => h.runsTo_other (exec_armEntry s) (by simpa using ht), fun ht => h.runsTo_other (exec_cancelEntry s) (by simpa using ht)⟩

end Sys2Proof.Machine
end

section
/-!
Proofs, submission of takes (R152, R153, R157) and the checks of a take message (R156).
-/

namespace Sys2Proof.Machine

theorem Notes.get_submitted {lo hi : Nat} {d e : Dev} (h : Notes lo hi d e) : e.submitted = d.submitted := by
  obtain ⟨-, _, _, _, _, _, _, rfl⟩ := h
  rfl

namespace Dev

/-! ## GO and FLUSH (R152) -/

/-- A master's submission: BUSY rises, and its entry joins those received. -/
def submitGo (d : Dev) (m : Master) (e : TakeEntry) : Dev :=
  { d.set HIF.TK_RES_BUSY 1 m.code with submitted := d.submitted ++ [⟨.regs m, e⟩] }

theorem submitGo_busy (d : Dev) (m : Master) (e : TakeEntry) : (d.submitGo m e).get HIF.TK_RES_BUSY m.code = 1 :=
  get_set_self d HIF.TK_RES_BUSY 1 m.code (by decide)

theorem submitGo_kept (d : Dev) (m : Master) (e : TakeEntry) : RegsKept d (d.submitGo m e) [(0x00C01024, m.code)] :=
  (RegsKept.set d HIF.TK_RES_BUSY 1 m.code (List.mem_singleton_self _)).trans (.of_regs rfl)

/-- A master's FLUSH of an output, recorded for the standby (R364). -/
def flushed (d : Dev) (m : Master) (o : Nat) : Dev :=
  (d.takeFlush o d.timeTu).journal (.regs m) ⟨0, 0, o, 0, 0, false, false, false, 0⟩ true none

theorem flushed_takesOf (d : Dev) (m : Master) (o : Nat) : (d.flushed m o).takesOf o = (d.takesOf o).filter (d.committed o d.timeTu) := by
  rw [flushed, journal_takesOf, takeFlush, takesDrop_takesOf, if_pos rfl]
  simp only [Bool.not_not]

end Dev

section
variable {s : State}

theorem exec_takeGo {m : Master} (ho : s.dev.get XP.OUT_SEL_SEL m.code < 1664) (hb : s.dev.flag HIF.TK_RES_BUSY m.code = false)
    (hr : s.dev.restarting = false) : exec (.takeGo m) s =
      .next { s with dev := s.dev.submitGo m (s.dev.staged m (s.dev.get XP.OUT_SEL_SEL m.code)) } := by
  have hx : exec (.takeGo m) s = execTakeGo m s := rfl
  rw [hx, execTakeGo, State.go_eq]
  simp only [Dev.selOf_in rfl ho, hb, hr, Bool.or_self, Bool.false_eq_true, if_false]
  rfl

theorem runsTo_takeGo {m : Master} (ho : s.dev.get XP.OUT_SEL_SEL m.code < 1664) (hb : s.dev.flag HIF.TK_RES_BUSY m.code = false)
    (hr : s.dev.restarting = false) : RunsTo (.takeGo m) s fun d => d.get HIF.TK_RES_BUSY m.code = 1 ∧
      d.submitted = s.dev.submitted ++ [⟨.regs m, s.dev.staged m (s.dev.get XP.OUT_SEL_SEL m.code)⟩] ∧
      RegsKept s.dev d [(0x00C01024, m.code)] :=
  ⟨_, exec_takeGo ho hb hr, Dev.submitGo_busy .., rfl, Dev.submitGo_kept _ _ _⟩

theorem exec_takeFlush {m : Master} (ho : s.dev.get XP.OUT_SEL_SEL m.code < 1664) (hr : s.dev.restarting = false) :
    exec (.takeFlush m) s = .next { s with dev := s.dev.flushed m (s.dev.get XP.OUT_SEL_SEL m.code) } := by
  have hx : exec (.takeFlush m) s = execTakeFlush m s := rfl
  rw [hx, execTakeFlush, State.go_eq]
  simp only [Dev.selOf_in rfl ho, hr, Bool.false_eq_true, if_false]
  rfl

theorem runsTo_takeFlush {m : Master} (ho : s.dev.get XP.OUT_SEL_SEL m.code < 1664) (hr : s.dev.restarting = false) :
    RunsTo (.takeFlush m) s fun d => d.takesOf (s.dev.get XP.OUT_SEL_SEL m.code) =
      (s.dev.takesOf (s.dev.get XP.OUT_SEL_SEL m.code)).filter
        (s.dev.committed (s.dev.get XP.OUT_SEL_SEL m.code) s.dev.timeTu) :=
  ⟨_, exec_takeFlush ho hr, Dev.flushed_takesOf ..⟩

/-! ## The take ring (R153, R209) -/

namespace Dev

variable {d : Dev} {q size : Nat}

theorem qStatus_cons (d : Dev) (q : Nat) : (d.qStatus q).get QM.Q_CONS_IDX q = d.get QM.Q_CONS_IDX q := by
  simp (disch := decide) only [qStatus, put_eq, get_set_off]

/-- The device takes the next element of a queue that has one: its index moves on. -/
theorem qConsume_next (hu : d.qUsable q true size = true) (hf : d.qFill q ≠ 0) : (d.qConsume q size).1 = true ∧
    (d.qConsume q size).2.get QM.Q_CONS_IDX q = (d.get QM.Q_CONS_IDX q + 1) % (2 * d.qSize q) % 2 ^ QM.Q_CONS_IDX.w := by
  unfold qConsume
  rw [if_pos hu, if_neg hf]
  refine ⟨rfl, ?_⟩
  extract_lets a c
  have hread (f : Fld) : a.get f q = d.get f q := when_get ((RegsKept.bwAdd (k := []) d _ _).field _ _ List.not_mem_nil)
  have hc : c = (d.get QM.Q_CONS_IDX q + 1) % (2 * d.qSize q) := by simp only [c, qSize, hread]
  have hnote : Notes 0x00600000 0x00700000 ((a.set QM.Q_CONS_IDX c q).qStatus q)
      ((((a.set QM.Q_CONS_IDX c q).qStatus q).qWriteBack q c).qNotify q) :=
    (Notes.qWriteBack _ _ _).trans (.qNotify (.inl (by decide)) (by decide) _ _)
  rw [hnote.get _ _ (by decide) (by decide), qStatus_cons, get_set_self _ _ _ _ (by decide), hc]

theorem qConsume_submitted (d : Dev) (q size : Nat) : (d.qConsume q size).2.submitted = d.submitted :=
  (Notes.qConsume (lo := 0x00100000) (hi := 0x00600000) (.inl (by decide)) (by decide) (.inl (by decide)) d q size).get_submitted

/-- The entry of a ring's element joins those received. -/
def submitRing (d : Dev) (e : TakeEntry) : Dev := { d with submitted := d.submitted ++ [⟨.ring, e⟩] }

theorem submitRing_get (d : Dev) (e : TakeEntry) (f : Fld) (ch : Nat) : (d.submitRing e).get f ch = d.get f ch := (rfl)

end Dev

theorem exec_takeRingEntry {bytes : List Byte} (he : s.dev.flag HIF.TK_CTL_EN = true) (hg : s.dev.flag HIF.TK_CTL_RING_EN = true)
    (hc : s.dev.conFollows = false) (hr : s.dev.restarting = false) (hq : (s.dev.qConsume (s.dev.get HIF.TK_QUEUES_ENT_Q) 16).1 = true) :
    exec (.takeRingEntry bytes) s =
      .next { s with dev := (s.dev.qConsume (s.dev.get HIF.TK_QUEUES_ENT_Q) 16).2.submitRing (takeParse bytes) } := by
  have hx : exec (.takeRingEntry bytes) s = execTakeRingEntry bytes s := rfl
  rw [hx, execTakeRingEntry, State.go_eq]
  simp only [he, hg, hc, hr, hq, Bool.not_false, Bool.and_self, if_true]
  rfl

theorem runsTo_takeRingEntry {bytes : List Byte} {q : Nat} (he : s.dev.flag HIF.TK_CTL_EN = true)
    (hg : s.dev.flag HIF.TK_CTL_RING_EN = true) (hc : s.dev.conFollows = false) (hr : s.dev.restarting = false)
    (hq : q = s.dev.get HIF.TK_QUEUES_ENT_Q) (hu : s.dev.qUsable q true 16 = true) (hf : s.dev.qFill q ≠ 0) :
    RunsTo (.takeRingEntry bytes) s fun d => d.submitted = s.dev.submitted ++ [⟨.ring, takeParse bytes⟩] ∧
      d.get QM.Q_CONS_IDX q = (s.dev.get QM.Q_CONS_IDX q + 1) % (2 * s.dev.qSize q) % 2 ^ QM.Q_CONS_IDX.w := by
  subst hq
  obtain ⟨hone, hidx⟩ := Dev.qConsume_next hu hf
  refine ⟨_, exec_takeRingEntry he hg hc hr hone, ?_, (Dev.submitRing_get ..).trans hidx⟩
  rw [Dev.submitRing, Dev.qConsume_submitted]

/-! ## Messages that arrive (R157) -/

theorem exec_takeMessage_arrives (bs : List Byte) (ok : Bool) (s : State) :
    exec (.takeMessage (some bs) ok) s = s.go (·.takeMsgArrive bs) := rfl

namespace Dev

variable {d : Dev} {bs : List Byte}

theorem takeMsgArrive_waits (he : d.flag HIF.TK_CTL_EN = true) (hm : d.flag HIF.TK_CTL_MSG_EN = true) (hr : d.restarting = false)
    (hl : d.takeMsgs.length < 64) : d.takeMsgArrive bs = { d with takeMsgs := d.takeMsgs ++ [bs] } :=
  (if_pos (by simp [he, hm, hr])).trans (if_neg (by omega))

theorem takeMsgArrive_drops (he : d.flag HIF.TK_CTL_EN = true) (hm : d.flag HIF.TK_CTL_MSG_EN = true) (hr : d.restarting = false)
    (hl : 64 ≤ d.takeMsgs.length) : d.takeMsgArrive bs = (d.count HIF.TK_CNT_DROP_COUNT).raise HIF.TK_EVT_MSG_OVF :=
  (if_pos (by simp [he, hm, hr])).trans (if_pos hl)

end Dev

theorem regsTo_takeMessage_drops {bs : List Byte} {ok : Bool} (he : s.dev.flag HIF.TK_CTL_EN = true)
    (hm : s.dev.flag HIF.TK_CTL_MSG_EN = true) (hr : s.dev.restarting = false) (hl : 64 ≤ s.dev.takeMsgs.length) :
    RegsTo (.takeMessage (some bs) ok) s fun d => d.get HIF.TK_EVT_MSG_OVF = 1 ∧
      d.get HIF.TK_CNT_DROP_COUNT = sat32 (s.dev.get HIF.TK_CNT_DROP_COUNT + 1) := by
  have hd := Dev.takeMsgArrive_drops (bs := bs) he hm hr hl
  refine regsTo_go (exec_takeMessage_arrives bs ok s) ?_ ?_
  · exact hd ▸ (OnlyRegs.count ..).trans (.raise ..)
  · refine hd ▸ ⟨Dev.get_set_self _ _ _ _ (by decide), ?_⟩
    rw [Dev.raise_eq, Dev.get_set_off _ _ _ _ _ _ (by decide), Dev.count_get _ _ _ rfl rfl]

/-! ## The checks of a message (R156) -/

namespace Dev

/-- The block when the first message that waits is taken up. -/
def nextMsg (d : Dev) (rest : List (List Byte)) : Dev := { d with takeMsgs := rest }

theorem nextMsg_get (d : Dev) (rest : List (List Byte)) (f : Fld) (ch : Nat) : (d.nextMsg rest).get f ch = d.get f ch := (rfl)

end Dev

theorem exec_takeMessage_checks {bs : List Byte} {rest : List (List Byte)} {ok : Bool} (hm : s.dev.takeMsgs = bs :: rest)
    (hr : s.dev.restarting = false) :
    exec (.takeMessage none ok) s = .next { s with dev := (s.dev.nextMsg rest).takeMsgCheck bs ok } := by
  have hx : exec (.takeMessage none ok) s = execTakeMessage none ok s := rfl
  rw [hx, execTakeMessage, State.go_eq]
  rw [if_neg (by simp [hr]), hm]
  rfl

namespace Dev

variable {d : Dev} {bs : List Byte} {ok : Bool}

/-- Check 1: a message for another device. -/
theorem takeMsgCheck_target (h : leNat ((bs.drop 2).take 2) ≠ d.get GLB.SYSID_SYSID) (h' : leNat ((bs.drop 2).take 2) ≠ 0xFFFF) :
    d.takeMsgCheck bs ok = d := by
  unfold takeMsgCheck
  exact if_pos (by simp [h, h'])

/-- Check 2: a message of another version. -/
theorem takeMsgCheck_version (h : leNat ((bs.drop 2).take 2) = d.get GLB.SYSID_SYSID) (h' : leNat (bs.take 1) ≠ 1) :
    d.takeMsgCheck bs ok = d.takeMsgFail HIF.TK_EVT_AUTH_FAIL := by
  unfold takeMsgCheck
  exact (if_neg (by simp [h])).trans (if_pos (by simp [h']))

theorem takeMsgFail_only (d : Dev) (f : Fld) : OnlyRegs d (d.takeMsgFail f) := (OnlyRegs.count ..).trans (.raise ..)

theorem takeMsgFail_reports (d : Dev) : (d.takeMsgFail HIF.TK_EVT_AUTH_FAIL).get HIF.TK_EVT_AUTH_FAIL = 1 ∧
    (d.takeMsgFail HIF.TK_EVT_AUTH_FAIL).get HIF.TK_CNT_AUTH_COUNT = sat32 (d.get HIF.TK_CNT_AUTH_COUNT + 1) := by
  refine ⟨get_set_self _ _ _ _ (by decide), ?_⟩
  rw [takeMsgFail, raise_eq, get_set_off _ _ _ _ _ _ (by decide), count_get _ _ _ rfl rfl]

/-- A key slot that serves may raise a fault, and nothing else (R389, R450). -/
theorem keyUse_serves {slot usage : Nat} (h : (d.keyUse slot usage ok).1 = true) :
    ∃ r, (d.keyUse slot usage ok).2 = { d with rising := r } := by
  unfold keyUse at h ⊢
  by_cases hs : d.get KEY.SLOT_ATTR_STATE slot = 1
  · rw [if_pos hs] at h ⊢
    cases ok with
    | true =>
      simp only [if_true, injCheck]
      split
      · exact ⟨_, rfl⟩
      · exact ⟨d.rising, rfl⟩
    | false => exact absurd h Bool.false_ne_true
  · rw [if_neg hs] at h
    exact absurd h Bool.false_ne_true

/-- A key slot is judged by its attributes and its tag. -/
theorem keyUse_nextMsg (d : Dev) (rest : List (List Byte)) (slot usage : Nat) :
    ((d.nextMsg rest).keyUse slot usage ok).1 = (d.keyUse slot usage ok).1 := by
  unfold keyUse
  simp only [nextMsg_get]
  split
  · cases ok <;> rfl
  · rfl

/-- A message that passes is counted, and its sequence number is its key slot's last. -/
def msgPassed (d : Dev) (key seq : Nat) : Dev :=
  { d.logAdd 1741 1 with lastSeq := mapPut d.lastSeq (key, 0) none (some seq) }

theorem msgPassed_msgs (d : Dev) (key seq : Nat) : (d.msgPassed key seq).takeMsgs = d.takeMsgs := (OnlyRegs.logAdd d 1741 1).get_takeMsgs

theorem msgPassed_seq (d : Dev) (key seq : Nat) : mapGet (d.msgPassed key seq).lastSeq (key, 0) none = some seq :=
  mapGet_mapPut_self d.lastSeq (key, 0) none (some seq)

/-- Behind the checks, the entries of a message leave the messages and the sequence numbers. -/
theorem takeMsgCheck_passes {n key seq : Nat} (ht : leNat ((bs.drop 2).take 2) = d.get GLB.SYSID_SYSID) (hv : leNat (bs.take 1) = 1)
    (hn : leNat ((bs.drop 1).take 1) = n) (h1 : 1 ≤ n) (h32 : n ≤ 32) (hlen : 48 + 16 * n ≤ bs.length)
    (hkey : leNat ((bs.drop 4).take 1) % 32 = key) (hseq : leNat ((bs.drop 8).take 8) = seq) (hu : (d.keyUse key 3 ok).1 = true)
    (hmac : hmacSha256 (d.keyBytes key) (bs.take (16 + 16 * n)) = (bs.drop (16 + 16 * n)).take 32) (hnew : d.seqNew key seq = true) :
    SameInbox ((d.keyUse key 3 ok).2.msgPassed key seq) (d.takeMsgCheck bs ok) := by
  obtain ⟨r, hr⟩ := keyUse_serves hu
  have hbytes : (d.keyUse key 3 ok).2.keyBytes key = d.keyBytes key := by rw [hr]; rfl
  have hseqNew : (d.keyUse key 3 ok).2.seqNew key seq = true := by rw [hr]; exact hnew
  subst hn hkey hseq
  have hform : (leNat ((bs.drop 0).take 1) != 1 || leNat ((bs.drop 1).take 1) == 0 || decide (32 < leNat ((bs.drop 1).take 1)) ||
      decide (bs.length < 48 + 16 * leNat ((bs.drop 1).take 1))) = false := by
    simp only [Bool.or_eq_false_iff, bne_eq_false_iff_eq, beq_eq_false_iff_ne, decide_eq_false_iff_not]
    exact ⟨⟨⟨hv, by omega⟩, by omega⟩, by omega⟩
  unfold takeMsgCheck
  simp only [ht, hform, hu, hbytes, hmac, hseqNew, bne_self_eq_false, Bool.false_and, Bool.not_true, Bool.false_eq_true, if_false]
  split
  · exact .refl _
  · exact .foldl _ (fun _ _ => .takeProc ..) _ _

end Dev

section
variable {bs : List Byte} {rest : List (List Byte)} {ok : Bool} (hm : s.dev.takeMsgs = bs :: rest) (hr : s.dev.restarting = false)
include hm hr

theorem runsTo_takeMessage_target (h : leNat ((bs.drop 2).take 2) ≠ s.dev.get GLB.SYSID_SYSID)
    (h' : leNat ((bs.drop 2).take 2) ≠ 0xFFFF) : RunsTo (.takeMessage none ok) s fun d => d = { s.dev with takeMsgs := rest } :=
  ⟨_, exec_takeMessage_checks hm hr, Dev.takeMsgCheck_target h h'⟩

theorem runsTo_takeMessage_version (h : leNat ((bs.drop 2).take 2) = s.dev.get GLB.SYSID_SYSID) (h' : leNat (bs.take 1) ≠ 1) :
    RunsTo (.takeMessage none ok) s fun d => d.takeMsgs = rest ∧ d.takes = s.dev.takes ∧ d.get HIF.TK_EVT_AUTH_FAIL = 1 ∧
      d.get HIF.TK_CNT_AUTH_COUNT = sat32 (s.dev.get HIF.TK_CNT_AUTH_COUNT + 1) := by
  refine ⟨_, exec_takeMessage_checks hm hr, ?_⟩
  rw [Dev.takeMsgCheck_version (d := s.dev.nextMsg rest) h h']
  exact ⟨(Dev.takeMsgFail_only ..).get_takeMsgs, (Dev.takeMsgFail_only ..).get_takes, Dev.takeMsgFail_reports _⟩

theorem runsTo_takeMessage_passes (n key seq : Nat) (ht : leNat ((bs.drop 2).take 2) = s.dev.get GLB.SYSID_SYSID)
    (hv : leNat (bs.take 1) = 1) (hn : leNat ((bs.drop 1).take 1) = n) (h1 : 1 ≤ n) (h32 : n ≤ 32) (hlen : 48 + 16 * n ≤ bs.length)
    (hkey : leNat ((bs.drop 4).take 1) % 32 = key) (hseq : leNat ((bs.drop 8).take 8) = seq) (hu : (s.dev.keyUse key 3 ok).1 = true)
    (hmac : hmacSha256 (s.dev.keyBytes key) (bs.take (16 + 16 * n)) = (bs.drop (16 + 16 * n)).take 32)
    (hnew : s.dev.seqNew key seq = true) :
    RunsTo (.takeMessage none ok) s fun d => d.takeMsgs = rest ∧ mapGet d.lastSeq (key, 0) none = some seq := by
  have hu' : ((s.dev.nextMsg rest).keyUse key 3 ok).1 = true := (Dev.keyUse_nextMsg ..).trans hu
  have hp := Dev.takeMsgCheck_passes (d := s.dev.nextMsg rest) ht hv hn h1 h32 hlen hkey hseq hu' hmac hnew
  refine ⟨_, exec_takeMessage_checks hm hr, ?_, ?_⟩
  · obtain ⟨r, h⟩ := Dev.keyUse_serves hu'
    rw [hp.msgs, Dev.msgPassed_msgs, h]
    rfl
  · rw [hp.seqs, Dev.msgPassed_seq]

end

end

/-- Settles O8: what a GO, a FLUSH, the ring and a message submit, and a message at its checks. -/
theorem takeIntake : Obligations.TakeIntake := by
  unfold Obligations.TakeIntake
  refine ⟨⟨fun _ _ => runsTo_takeGo, fun _ _ => runsTo_takeFlush, fun _ _ _ => runsTo_takeRingEntry, fun bs ok s he hm hr hl => ?_,
    fun _ _ _ => regsTo_takeMessage_drops⟩, fun bs rest ok s hm hr => ?_⟩
  · exact runsTo_go (exec_takeMessage_arrives bs ok s) (Dev.takeMsgArrive_waits he hm hr hl) rfl
  · exact ⟨runsTo_takeMessage_target hm hr, runsTo_takeMessage_version hm hr, runsTo_takeMessage_passes hm hr⟩

end Sys2Proof.Machine
end

section
/-!
Proofs, a cut (R126, R141, R147, R148): the source that every output has behind it, and what it leaves of the takes and their counts.
-/

namespace Sys2Proof.Machine

/-- The active source of every output and the pending takes stand as they were. -/
structure SameRoutes (d e : Dev) : Prop where
  src : SameFld XP.SRC_STAT_SRC_ACT d e
  takes : e.takes = d.takes

namespace SameRoutes

variable {d e f : Dev} {o : Nat}

theorem refl (d : Dev) : SameRoutes d d := ⟨.refl d, rfl⟩

theorem trans (h : SameRoutes d e) (k : SameRoutes e f) : SameRoutes d f := ⟨h.src.trans k.src, k.takes.trans h.takes⟩

theorem ite (c : Prop) [Decidable c] (h : SameRoutes d e) (k : SameRoutes d f) : SameRoutes d (if c then e else f) := by
  split
  · exact h
  · exact k

theorem when (b : Bool) (g : Dev → Dev) (h : SameRoutes d (g d)) : SameRoutes d (d.when b g) := by
  cases b
  · exact refl d
  · exact h

/-- A change of anything but the registers and the takes. -/
theorem of_regs (h : e.regs = d.regs) (k : e.takes = d.takes) : SameRoutes d e :=
  ⟨fun ch => by rw [Dev.get, Dev.get, Dev.reg, Dev.reg, h], k⟩

theorem of_words (h : OnlyWords d e) : SameRoutes d e := by
  obtain ⟨_, _, _, rfl⟩ := h
  exact of_regs rfl rfl

theorem setOut (d : Dev) (x : OutStage) : SameRoutes d (d.setOut o x) := of_regs rfl rfl

theorem pulseFault (d : Dev) (x : FaultAt) : SameRoutes d (d.pulseFault x) := of_regs rfl rfl

theorem set (d : Dev) (x : Fld) (v ch : Nat) (h : BitsApart XP.SRC_STAT_SRC_ACT x) : SameRoutes d (d.set x v ch) :=
  ⟨.set d x v ch h, (OnlyRegs.set ..).get_takes⟩

theorem put (d : Dev) (x : Fld) (b : Bool) (ch : Nat) (h : BitsApart XP.SRC_STAT_SRC_ACT x) : SameRoutes d (d.put x b ch) := set _ _ _ _ h
theorem raise (d : Dev) (x : Fld) (ch : Nat) (h : BitsApart XP.SRC_STAT_SRC_ACT x) : SameRoutes d (d.raise x ch) := set _ _ _ _ h
theorem count (d : Dev) (x : Fld) (n ch : Nat) (h : BitsApart XP.SRC_STAT_SRC_ACT x) : SameRoutes d (d.count x n ch) := set _ _ _ _ h

theorem raiseIf (d : Dev) (b : Bool) (x : Fld) (ch : Nat) (h : BitsApart XP.SRC_STAT_SRC_ACT x) : SameRoutes d (d.raiseIf b x ch) :=
  ⟨.raiseIf d b x ch h, (OnlyRegs.raiseIf ..).get_takes⟩

theorem logAdd (d : Dev) (i n : Nat) : SameRoutes d (d.logAdd i n) :=
  ⟨.of_notes (lo := 0x00100000) (hi := 0x00300000) (.logAdd (.inl (by decide)) d i n) (by decide) (by decide),
    (OnlyRegs.logAdd ..).get_takes⟩

/-! ## The substitute and the generator -/

theorem procFlush (d : Dev) : SameRoutes d (d.procFlush o) := by
  unfold Dev.procFlush
  exact ite _ (refl d) ((setOut ..).trans (of_words (.outPush ..)))

theorem subNum (d : Dev) (up : Bool) : SameRoutes d (d.subNum up) := set _ _ _ _ (by decide)

theorem subStart (d : Dev) : SameRoutes d (d.subStart o) :=
  (((((procFlush d).trans (setOut ..)).trans (subNum ..)).trans (logAdd ..)).trans (raise _ _ _ (by decide))).trans
    (count _ _ _ _ (by decide))

theorem subEnd (d : Dev) : SameRoutes d (d.subEnd o) := by
  unfold Dev.subEnd
  exact ite _ (((setOut ..).trans (subNum ..)).trans (raise _ _ _ (by decide))) (refl d)

theorem setGen (d : Dev) (b : Bool) : SameRoutes d (d.setGen o b) := by
  unfold Dev.setGen
  have h : SameRoutes d (d.put XP.SRC_STAT_GEN b o) := put _ _ _ _ (by decide)
  exact ite _ (h.trans (put _ _ _ _ (by decide))) h

theorem genStart (d : Dev) : SameRoutes d (d.genStart o) := by
  unfold Dev.genStart
  have h (x : OutStage) : SameRoutes d (((d.procFlush o).setOut o x).setGen o true) := ((procFlush d).trans (setOut ..)).trans (setGen ..)
  exact ite _ (refl d) (ite _ ((h _).trans (raise _ _ _ (by decide))) (h _))

theorem genEnd (d : Dev) : SameRoutes d (d.genEnd o) := by
  unfold Dev.genEnd
  have h : SameRoutes d (d.setGen o false) := setGen ..
  exact ite _ (ite _ (h.trans (raise _ _ _ (by decide))) h) (refl d)

theorem refreshCause (d : Dev) : SameRoutes d (d.refreshCause o) := set _ _ _ _ (by decide)

theorem genAtLine (d : Dev) : SameRoutes d (d.genAtLine o) := by
  unfold Dev.genAtLine
  exact ite _ ((ite _ (genStart d) (ite _ ((genStart d).trans (subStart _)) (refl d))).trans (refreshCause _)) (refl d)

/-! ## What follows the active source -/

theorem refreshSrc (d : Dev) : SameRoutes d (d.refreshSrc o) := by
  unfold Dev.refreshSrc
  extract_lets s na new a b proc c
  have ha : SameRoutes d a :=
    (((put _ _ _ _ (by decide)).trans (put _ _ _ _ (by decide))).trans (put _ _ _ _ (by decide))).trans (put _ _ _ _ (by decide))
  have hb : SameRoutes a b := (put _ _ _ _ (by decide)).trans (raiseIf _ _ _ _ (by decide))
  have hc : SameRoutes b c := (put _ _ _ _ (by decide)).trans (set _ _ _ _ (by decide))
  have h := (ha.trans hb).trans hc
  exact ite _ ((h.trans (put _ _ _ _ (by decide))).trans (put _ _ _ _ (by decide))) h

theorem showTrig (d : Dev) (sh t : Bool) : SameRoutes d (d.showTrig o sh t) :=
  (((raiseIf _ _ _ _ (by decide)).trans (raiseIf _ _ _ _ (by decide))).trans (put _ _ _ _ (by decide))).trans (put _ _ _ _ (by decide))

theorem actTrig (d : Dev) (t : Bool) : SameRoutes d (d.actTrig o t) := by
  unfold Dev.actTrig
  exact .trans (when t _ (setOut ..)) (when _ _ (subStart _))

theorem evalTrig (d : Dev) : SameRoutes d (d.evalTrig o) := by
  rw [Dev.evalTrig_eq_actTrig]
  exact (((showTrig _ _ _).trans (actTrig _ _)).trans (refreshSrc _)).trans (refreshCause _)

/-- Behind the change of the source itself, its report and the status that follows leave the sources. -/
theorem setSrc (d : Dev) (s : Nat) : SameRoutes (d.set XP.SRC_STAT_SRC_ACT s o) (d.setSrc o s) := by
  have hr (e : Dev) (b : Bool) : SameRoutes e (e.reportInvalid o b) :=
    ite _ (((raise _ _ _ (by decide)).trans (raise _ _ _ (by decide))).trans (pulseFault _ _)) (refl e)
  rw [Dev.setSrc_eq_moveSrc]
  exact (((raiseIf _ _ _ _ (by decide)).trans (logAdd _ _ _)).trans (hr _ _)).trans (refreshSrc _)

end SameRoutes

namespace Dev

/-- The line starts of the new source that lie behind the cut. -/
def withSeen (d : Dev) (o seen : Nat) : Dev := d.setOut o { d.outOf o with seen := seen }

/-- The generator begins, continues or ends at a cut (R147, R148). -/
def genAtCut (d : Dev) (o s : Nat) : Dev :=
  if s ≥ 1664 then ((d.subEnd o).genAtLine o).refreshCause o
  else if d.flag XP.SRC_STAT_TRIG o then
    if d.flag XP.SRC_STAT_GEN o && !(d.outOf o).sub then
      ((d.setOut o { d.outOf o with sub := true, clean := none }).subNum true).refreshCause o
    else d.genAtLine o
  else ((d.genEnd o).subEnd o).refreshCause o

theorem cut_eq_genAtCut (d : Dev) (o s seen : Nat) :
    d.cut o s seen = ((((d.procFlush o).setSrc o s).evalTrig o).withSeen o seen).genAtCut o s := (rfl)

end Dev

theorem SameRoutes.genAtCut {o : Nat} (d : Dev) (s : Nat) : SameRoutes d (d.genAtCut o s) := by
  unfold Dev.genAtCut
  refine ite _ ?_ (ite _ (ite _ ?_ (genAtLine d)) ?_)
  · exact ((subEnd d).trans (genAtLine _)).trans (refreshCause _)
  · exact ((setOut ..).trans (subNum ..)).trans (refreshCause _)
  · exact ((genEnd d).trans (subEnd _)).trans (refreshCause _)

theorem Steady.genAtCut {o : Nat} (d : Dev) (s : Nat) : Steady OutStage.counter o BesideStage d (d.genAtCut o s) := by
  have hsub (e : Dev) : Steady OutStage.counter o BesideStage e (e.subEnd o) := (subEnd e).mono fun _ => BesideStage.besideSub
  unfold Dev.genAtCut
  refine ite _ ?_ (ite _ (ite _ ?_ (genAtLine d)) ?_)
  · exact ((hsub d).trans (genAtLine _)).trans (refreshCause _)
  · refine .trans (.trans ?_ ((subNum _ _).mono fun _ => BesideStage.besideSub)) (refreshCause _)
    exact setOut d _ rfl
  · exact ((genEnd d).counter.trans (hsub _)).trans (refreshCause _)

/-- What follows the change of S(o) in a cut leaves the sources and the takes. -/
theorem SameRoutes.behindCut {o : Nat} (d : Dev) (s seen : Nat) :
    SameRoutes (d.set XP.SRC_STAT_SRC_ACT s o) ((((d.setSrc o s).evalTrig o).withSeen o seen).genAtCut o s) :=
  (((setSrc d s).trans (evalTrig _)).trans (setOut ..)).trans (genAtCut ..)

namespace Dev

/-- A cut gives its output the new source, and leaves every other output its own. -/
theorem cut_srcAct (d : Dev) (o s seen p : Nat) : (d.cut o s seen).srcAct p = if p = o then s % 2048 else d.srcAct p := by
  rw [cut_eq_genAtCut, srcAct, (SameRoutes.behindCut _ s seen).src]
  split
  · next h => rw [h, get_set_self _ _ _ _ (by decide)]; rfl
  · next h => rw [get_set_reg _ _ _ _ _ _ (.inr h), (SameRoutes.procFlush d).src, srcAct]

theorem cut_takes (d : Dev) (o s seen : Nat) : (d.cut o s seen).takes = d.takes := by
  rw [cut_eq_genAtCut, (SameRoutes.behindCut _ s seen).takes, (OnlyRegs.set ..).get_takes, (SameRoutes.procFlush d).takes]

/-- Registers beside the stage's are no concern of a cut. -/
theorem cut_get (d : Dev) (o s seen : Nat) (f : Fld) (ch : Nat) (h : BesideStage f.off) : (d.cut o s seen).get f ch = d.get f ch := by
  have hs (e : Dev) : Steady OutStage.counter o BesideStage e (e.withSeen o seen) := .setOut e _ rfl
  have hc := (((Steady.procFlush (o := o) d).counter.trans (.setSrc _ s)).trans (.evalTrig _)).trans (hs _)
  rw [cut_eq_genAtCut]
  exact (hc.trans (.genAtCut _ s)).get f ch h

end Dev

end Sys2Proof.Machine
end

section
/-!
Proofs, takes that execute and the other ends of takes and salvos (R134, R139, R141, R143, R150, R158).
-/

namespace Sys2Proof.Machine

namespace Dev

/-! ## A take runs (R141, R154) -/

/-- An execution is reported and counted, and is its output's last code. -/
theorem takeEnd_executed (d : Dev) (o : Nat) (t : Take) (flags : Nat) : (d.takeEnd o t 2 flags).get HIF.TK_EVT_EXEC = 1 ∧
    (d.takeEnd o t 2 flags).get HIF.TK_CNT_EXE_COUNT = sat32 (d.get HIF.TK_CNT_EXE_COUNT + 1) ∧
    (d.takeEnd o t 2 flags).get HIF.TK_QSTAT_LAST_CODE o = 2 := by
  have hafter (f : Fld) (h : TakeBeside f [HIF.TK_EVT_SALVO_FAIL]) (h' : TakeBeside f [HIF.TK_CNT_RES_OVF_COUNT, HIF.TK_EVT_RES_OVF])
      (hl : f.off ≠ HIF.TK_QSTAT_LAST_CODE.off) : (d.takeEnd o t 2 flags).get f = (d.tally 2).get f := by
    rw [takeEnd, get_set_off _ _ _ _ _ _ hl, takeFinal_eq_tally, SameFld.recordOutcome _ _ h', SameFld.logOutcome _ _ h]
  refine ⟨?_, ?_, ?_⟩
  · rw [hafter _ (by decide) (by decide) (by decide)]
    exact (get_set_off _ _ _ _ _ _ (by decide)).trans (get_set_self _ _ _ _ (by decide))
  · rw [hafter _ (by decide) (by decide) (by decide)]
    refine (count_get _ _ _ rfl rfl).trans ?_
    rw [raise_eq, get_set_off _ _ _ _ _ _ (by decide)]
  · rw [takeEnd, get_set_self _ _ _ _ (by decide)]
    rfl

/-- A take that runs has left its queue and cut its output before its outcome is reported. -/
theorem takeRun_eq_takeEnd (d : Dev) (o : Nat) (t : Take) : ∃ (e : Dev) (flags : Nat), d.takeRun o t = e.takeEnd o t 2 flags ∧
    (∀ p, e.srcAct p = if p = o then t.src % 2048 else d.srcAct p) ∧ e.takesOf o = (d.takesOf o).erase t ∧
    e.get HIF.TK_CNT_EXE_COUNT = d.get HIF.TK_CNT_EXE_COUNT := by
  unfold takeRun
  extract_lets a mis absent follows old b c
  have hb : SameRoutes (a.cut o t.src (a.srcSeq t.src)) b := .raiseIf _ _ _ _ (by decide)
  have hc : c.regs = b.regs ∧ c.takes = b.takes := by
    unfold c
    split
    · exact ⟨rfl, rfl⟩
    · exact ⟨rfl, rfl⟩
  have hbc := hb.trans (.of_regs hc.1 hc.2)
  refine ⟨c, _, rfl, fun p => ?_, ?_, ?_⟩
  · rw [srcAct, hbc.src, ← srcAct, cut_srcAct, (TakeWork.setTakes ..).srcAct]
  · rw [takesOf_of_takes (hbc.takes.trans (cut_takes ..)), setTakes_takesOf, if_pos rfl]
  · rw [get, reg, hc.1, ← reg, ← get, raiseIf_get_off _ _ _ (by decide), cut_get _ _ _ _ _ _ (by decide)]
    exact SameFld.setTakes _ _ _ (by decide) _

/-! ## The switch point (R139, R150) -/

theorem takeExec_early {d : Dev} {o : Nat} {t : Take} (hn : d.nextTake o = some t) (hd : d.takeDue o t = false) : d.takeExec o = d := by
  unfold takeExec
  simp only [hn, hd, Bool.false_eq_true, if_false, ite_self]

theorem takeExec_run {d : Dev} {o : Nat} {t : Take} (hr : d.restarting = false) (hn : d.nextTake o = some t) (hd : d.takeDue o t = true)
    (hh : d.handover = none) : d.takeExec o = d.takeRun o t := by
  unfold takeExec
  simp only [hr, hn, hd, hh, Bool.false_eq_true, if_false, if_true]

theorem takeExec_defer {d : Dev} {o : Nat} {t : Take} {h k : Int} (hr : d.restarting = false) (hn : d.nextTake o = some t)
    (hd : d.takeDue o t = true) (hh : d.handover = some h) (hk : t.due = some k) (hlt : d.swPoint o t.field2 k < h) :
    d.takeExec o = d.takeDefer o t h := by
  unfold takeExec
  simp only [hr, hn, hd, hh, hk, hlt, Bool.false_eq_true, if_false, if_true]

/-- A take that is deferred shows as such and cuts no output. -/
theorem takeDefer_reports (d : Dev) (o : Nat) (t : Take) (h : Int) :
    (d.takeDefer o t h).get HIF.TK_EVT_DEFERRED = 1 ∧ ∀ p, (d.takeDefer o t h).srcAct p = d.srcAct p := by
  unfold takeDefer
  extract_lets k t' a
  have ha : a.get HIF.TK_EVT_DEFERRED = 1 ∧ ∀ p, a.srcAct p = d.srcAct p :=
    ⟨get_set_self _ _ _ _ (by decide), fun p => (get_set_off _ _ _ _ _ _ (by decide)).trans ((TakeWork.setTakes ..).srcAct p)⟩
  have hw (e : Dev) (he : TakeWork a e) : e.get HIF.TK_EVT_DEFERRED = 1 ∧ ∀ p, e.srcAct p = d.srcAct p :=
    ⟨(he.fields _ (by decide) 0).trans ha.1, fun p => (he.srcAct p).trans (ha.2 p)⟩
  split
  · exact hw _ (.takeEnd ..)
  · exact hw _ (.takeJoin ..)

end Dev

theorem exec_takeExecute (o : Slot) (s : State) : exec (.takeExecute o) s = s.go (·.takeExec o) := rfl

/-- TAKE_EXECUTE. -/
theorem runsTo_takeExecute (o : Slot) (t : Take) (s : State) (hr : s.dev.restarting = false) (hn : s.dev.nextTake o = some t) :
    (s.dev.takeDue o t = true → s.dev.handover = none →
      RunsTo (.takeExecute o) s fun d => d.srcAct o = t.src % 2048 ∧ d.takesOf o = (s.dev.takesOf o).erase t ∧
        d.get HIF.TK_EVT_EXEC = 1 ∧ d.get HIF.TK_CNT_EXE_COUNT = sat32 (s.dev.get HIF.TK_CNT_EXE_COUNT + 1) ∧
        d.get HIF.TK_QSTAT_LAST_CODE o = 2 ∧ ∀ o', o' ≠ o.val → d.srcAct o' = s.dev.srcAct o') ∧
    (s.dev.takeDue o t = false → RunsTo (.takeExecute o) s fun d => d = s.dev) ∧
    (∀ (h k : Int), s.dev.takeDue o t = true → s.dev.handover = some h → t.due = some k → s.dev.swPoint o t.field2 k < h →
      RunsTo (.takeExecute o) s fun d => d.get HIF.TK_EVT_DEFERRED = 1 ∧ ∀ o', d.srcAct o' = s.dev.srcAct o') := by
  refine ⟨fun hd hh => ?_, fun hd => ?_, fun h k hd hh hk hlt => ?_⟩
  · obtain ⟨e, flags, hrun, hsrc, htakes, hcount⟩ := s.dev.takeRun_eq_takeEnd o t
    obtain ⟨hexec, hexe, hcode⟩ := e.takeEnd_executed o t flags
    have hsrc' (p : Nat) := ((TakeWork.takeEnd e o t 2 flags).srcAct p).trans (hsrc p)
    refine runsTo_go (exec_takeExecute o s) ((Dev.takeExec_run hr hn hd hh).trans hrun)
      ⟨(hsrc' o).trans (if_pos rfl), ?_, hexec, ?_, hcode, fun p hp => (hsrc' p).trans (if_neg hp)⟩
    · rw [Dev.takeEnd_takesOf, htakes]
    · rw [hexe, hcount]
  · exact runsTo_go (exec_takeExecute o s) (Dev.takeExec_early hn hd) rfl
  · exact runsTo_go (exec_takeExecute o s) (Dev.takeExec_defer hr hn hd hh hk hlt) (Dev.takeDefer_reports ..)

/-! ## A salvo that was not armed in time (R143) -/

theorem exec_salvoExpiry (salvo : BitVec 16) (s : State) : exec (.salvoExpiry salvo) s = s.go fun d =>
    if d.salvos.any fun v => v.id == salvo.toNat && d.salvoOver v then d.salvoEnd salvo.toNat 9 else d := rfl

theorem isMember_iff (salvo : Nat) (t : Take) : Dev.isMember salvo t = true ↔ t.salvo = salvo ∧ t.due = none := by
  simp [Dev.isMember]

/-- A salvo that ends unarmed is closed, and no member of it stays. -/
theorem Dev.salvoEnd_closed (d : Dev) (salvo code : Nat) : (d.salvoEnd salvo code).salvos = d.salvos.filter (·.id != salvo) ∧
    ∀ o, ∀ t ∈ (d.salvoEnd salvo code).takesOf o, ¬(t.salvo = salvo ∧ t.due = none) := by
  have hw := TakeWork.takesDropAll d code fun _ => isMember salvo
  refine ⟨congrArg (List.filter fun v : Salvo => v.id != salvo) hw.get_salvos, fun o t ht => ?_⟩
  have hq : (d.salvoEnd salvo code).takesOf o = (d.takesOf o).filter (!isMember salvo ·) := takesDropAll_takesOf ..
  rw [hq, List.mem_filter] at ht
  simpa [← isMember_iff] using ht.2

theorem runsTo_salvoExpiry_over (s : State) (salvo : BitVec 16) (h : ∃ v ∈ s.dev.salvos, v.id = salvo.toNat ∧ s.dev.salvoOver v = true) :
    RunsTo (.salvoExpiry salvo) s fun d => d.salvos = s.dev.salvos.filter (·.id != salvo.toNat) ∧
      ∀ o, ∀ t ∈ d.takesOf o, ¬(t.salvo = salvo.toNat ∧ t.due = none) :=
  runsTo_go (exec_salvoExpiry salvo s) (if_pos (by simpa using h)) (Dev.salvoEnd_closed ..)

theorem runsTo_salvoExpiry_early (s : State) (salvo : BitVec 16) (h : ∀ v ∈ s.dev.salvos, v.id = salvo.toNat → s.dev.salvoOver v = false) :
    RunsTo (.salvoExpiry salvo) s fun d => d = s.dev :=
  runsTo_go (exec_salvoExpiry salvo s) (if_neg (by simpa using h)) rfl

/-! ## The enable (R134) and the counters (R158) -/

namespace Dev

/-- Every pending take ends with DISABLED, and every salvo is closed (R134). -/
def takesDisable (d : Dev) : Dev := { d.takesDropAll 0x0C (fun _ _ => true) with salvos := [] }

theorem takesDisable_get (d : Dev) (f : Fld) (ch : Nat) (h : TakeBeside f takeFlds) : d.takesDisable.get f ch = d.get f ch :=
  (TakeWork.takesDropAll d 0x0C fun _ _ => true).fields f h ch

theorem takesDisable_takesOf (d : Dev) (o : Nat) : d.takesDisable.takesOf o = [] := by
  have hq : d.takesDisable.takesOf o = (d.takesOf o).filter fun _ => !true := takesDropAll_takesOf ..
  rw [hq]
  exact List.filter_false _

end Dev

theorem exec_takeEngineEnable (en : Bool) (s : State) : exec (.takeEngineEnable en) s = s.go fun d =>
    if d.flag HIF.TK_CTL_EN && !en then (d.put HIF.TK_CTL_EN en).takesDisable else d.put HIF.TK_CTL_EN en := rfl

theorem runsTo_takeEngineEnable_on (s : State) :
    RunsTo (.takeEngineEnable true) s fun d => d.get HIF.TK_CTL_EN = 1 ∧ RegsKept s.dev d [(0x00C01000, 0)] :=
  runsTo_go (exec_takeEngineEnable true s) (if_neg (by simp))
    ⟨Dev.get_set_self _ _ _ _ (by decide), .put _ _ _ _ (List.mem_singleton_self _)⟩

theorem runsTo_takeEngineEnable_off (s : State) (h : s.dev.flag HIF.TK_CTL_EN = true) :
    RunsTo (.takeEngineEnable false) s fun d => d.get HIF.TK_CTL_EN = 0 ∧ d.salvos = [] ∧ ∀ o, d.takesOf o = [] := by
  refine runsTo_go (exec_takeEngineEnable false s) (if_pos (by simp [h])) ⟨?_, rfl, Dev.takesDisable_takesOf _⟩
  rw [Dev.takesDisable_get _ _ _ (by decide)]
  exact Dev.get_set_self _ _ _ _ (by decide)

/-- The six counters of the take engine (Table 5.17). -/
def takeCounters : List Fld :=
  [HIF.TK_CNT_EXE_COUNT, HIF.TK_CNT_REJ_COUNT, HIF.TK_CNT_AUTH_COUNT, HIF.TK_CNT_DROP_COUNT, HIF.TK_CNT_RES_OVF_COUNT, HIF.TK_CNT_LOST_COUNT]

theorem Dev.clear_takeCounters (d : Dev) : ∀ f ∈ takeCounters, (d.clear takeCounters).get f = 0 := by
  simp (disch := decide) [takeCounters, clear, get_set_off, get_set_self]

theorem regsTo_tkCntClr (s : State) : RegsTo .tkCntClr s fun d => (∀ f ∈ takeCounters, d.get f = 0) ∧
    RegsKept s.dev d [(0x00C01040, 0), (0x00C01044, 0), (0x00C01048, 0), (0x00C0104C, 0), (0x00C01050, 0), (0x00C01054, 0)] :=
  regsTo_go (f := (·.clear takeCounters)) rfl (.clear ..) ⟨Dev.clear_takeCounters _, .clear _ _ (by decide) _⟩

/-- Settles O10: a take at its switch point, a salvo out of time, the enable of the take engine and the clear of its counters. -/
theorem takeOutcomes : Obligations.TakeOutcomes := by
  unfold Obligations.TakeOutcomes
  exact ⟨runsTo_takeExecute, fun s => ⟨runsTo_salvoExpiry_over s, runsTo_salvoExpiry_early s, runsTo_takeEngineEnable_on s,
    runsTo_takeEngineEnable_off s, regsTo_tkCntClr s⟩⟩

end Sys2Proof.Machine
end

section
/-!
Proofs, the MACs (chapter 6): counters of 64 bits, the registers below them, and what the end of a frame and its leaving the queue do to a
MAC's unit.
-/

namespace Sys2Proof.Machine

namespace SameRegs

variable {lo hi : Nat} {d e : Dev}

theorem raiseIf (d : Dev) (b : Bool) (f : Fld) (ch : Nat) (h : f.off < lo ∨ hi ≤ f.off) : SameRegs lo hi d (d.raiseIf b f ch) := by
  cases b
  · exact refl lo hi d
  · exact raise _ _ _ h

theorem ite (c : Prop) [Decidable c] {x y : Dev} (h : SameRegs lo hi d x) (k : SameRegs lo hi d y) :
    SameRegs lo hi d (if c then x else y) := by
  split
  · exact h
  · exact k

/-- A value of two registers of the window. -/
theorem get2 (h : SameRegs lo hi d e) (l u : Fld) (ch : Nat) (hl : lo ≤ l.off ∧ l.off < hi) (hu : lo ≤ u.off ∧ u.off < hi) :
    e.get2 l u ch = d.get2 l u ch := by
  rw [Dev.get2, Dev.get2, h.get l ch hl.1 hl.2, h.get u ch hu.1 hu.2]

end SameRegs

theorem RegsKept.get2 {d e : Dev} {k : List Key} (h : RegsKept d e k) (l u : Fld) (ch : Nat) (hl : (l.off, ch) ∉ k)
    (hu : (u.off, ch) ∉ k) : e.get2 l u ch = d.get2 l u ch := by
  rw [Dev.get2, Dev.get2, h.field l ch hl, h.field u ch hu]

/-- The MACs' registers below their counters read as before (Tables 6.4 to 6.19). -/
abbrev MacStands (d e : Dev) : Prop := SameRegs 0x00400000 0x00400200 d e

/-- All the MACs' registers read as before. -/
abbrev MacWindow (d e : Dev) : Prop := SameRegs 0x00400000 0x00500000 d e

theorem MacWindow.stands {d e : Dev} (h : MacWindow d e) : MacStands d e := fun off ch a b => h off ch a (Nat.lt_trans b (by decide))

/-- A raised fault stands beside the MACs' registers. -/
theorem MacWindow.raiseFault (d : Dev) (x : FaultAt) : MacWindow d (d.raiseFault x) := SameRegs.raiseFault d x (.inl (by decide))

namespace Dev

/-! ## Counters (Table 6.20) -/

theorem get2_set2_self (d : Dev) {lo hi : Fld} {v : Nat} (ch : Nat) (hl : lo.lo = 0 ∧ lo.w = 32) (hh : hi.lo = 0 ∧ hi.w = 32)
    (ho : lo.off ≠ hi.off) (hv : v < 2 ^ 64) : (d.set2 lo hi v ch).get2 lo hi ch = v := by
  have hlo : (d.set2 lo hi v ch).get lo ch = v % 2 ^ 32 := by
    rw [set2, get_set_off _ _ _ _ _ _ ho, get_set_self _ _ _ _ (by omega), hl.2]
  have hhi : (d.set2 lo hi v ch).get hi ch = v / 2 ^ 32 % 2 ^ 32 := by
    rw [set2, get_set_self _ _ _ _ (by omega), hh.2]
  rw [get2, hlo, hhi]
  omega

/-- A counter of a MAC, as a number. -/
def macCounter (d : Dev) (k m : Nat) : Nat := d.get2 (MAC.CNT_LO_COUNT_L k) (MAC.CNT_HI_COUNT_H k) m

theorem macCounter_macCount_self (d : Dev) (k n m : Nat) :
    (d.macCount k n m).macCounter k m = min (2 ^ 64 - 1) (d.macCounter k m + n) :=
  get2_set2_self _ _ ⟨rfl, rfl⟩ ⟨rfl, rfl⟩ (by simp only [MAC.CNT_LO_COUNT_L, MAC.CNT_HI_COUNT_H]; omega) (by omega)

theorem macCount_only (d : Dev) (k n m : Nat) : OnlyRegs d (d.macCount k n m) := .set2 ..

theorem macCount_kept (d : Dev) (k n m : Nat) : RegsKept d (d.macCount k n m) [(0x00400200 + 8 * k, m), (0x00400204 + 8 * k, m)] :=
  .set2 _ _ _ _ _ (.head _) (.tail _ (.head _))

/-- Another counter keeps its value. -/
theorem macCounter_macCount_ne (d : Dev) {j k : Nat} (n m : Nat) (h : j ≠ k) : (d.macCount k n m).macCounter j m = d.macCounter j m :=
  (d.macCount_kept k n m).get2 _ _ _ (by simp [MAC.CNT_LO_COUNT_L]; omega) (by simp [MAC.CNT_HI_COUNT_H]; omega)

theorem macCount_stands (d : Dev) (k n m : Nat) : MacStands d (d.macCount k n m) :=
  (SameRegs.set _ _ _ _ (.inr (by simp only [MAC.CNT_LO_COUNT_L]; omega))).trans
    (.set _ _ _ _ (.inr (by simp only [MAC.CNT_HI_COUNT_H]; omega)))

end Dev

/-- The fifteen counters lie in the window. -/
theorem MacWindow.counter {d e : Dev} (h : MacWindow d e) {k : Nat} (m : Nat) (hk : k < 15) : e.macCounter k m = d.macCounter k m :=
  h.get2 _ _ _ (by simp only [MAC.CNT_LO_COUNT_L]; omega) (by simp only [MAC.CNT_HI_COUNT_H]; omega)

namespace Dev

/-! ## A MAC's unit -/

theorem mac_setMac (d : Dev) (m : Nat) (u : MacUnit) : (d.setMac m u).mac m = u := mapGet_mapPut_self ..

theorem mac_of_macs {d e : Dev} (h : e.macs = d.macs) (m : Nat) : e.mac m = d.mac m := by rw [mac, mac, h]

theorem setMac_time (d : Dev) (m : Nat) (u : MacUnit) : (d.setMac m u).time = d.time := (rfl)
theorem setMac_cc (d : Dev) (m : Nat) (u : MacUnit) : (d.setMac m u).cc = d.cc := (rfl)

section
variable (d : Dev) (i n : Nat)

theorem bwAdd_macs : (d.bwAdd i n).macs = d.macs := by obtain ⟨b, h⟩ := d.bwAdd_eq i n; rw [h]
theorem bwAdd_sent : (d.bwAdd i n).sent = d.sent := by obtain ⟨b, h⟩ := d.bwAdd_eq i n; rw [h]

end

section
variable (d : Dev) (m : Nat) (f : TxFrame) (x y : Bool) (t : Nat)

/-! A timestamp entry that becomes due (R328) leaves what waits and what is being sent. -/

theorem tsDue_regs : (d.tsDue m f x y t).regs = d.regs := by unfold tsDue; split <;> rfl
theorem tsDue_sent : (d.tsDue m f x y t).sent = d.sent := by unfold tsDue; split <;> rfl

theorem tsDue_queue : ((d.tsDue m f x y t).mac m).offers = (d.mac m).offers ∧ ((d.tsDue m f x y t).mac m).flight = (d.mac m).flight := by
  unfold tsDue
  split
  · exact ⟨rfl, rfl⟩
  · rw [mac_setMac]
    exact ⟨rfl, rfl⟩

end

/-! ## The end of the frame being sent (R171 to R173) -/

/-- The bytes of a frame that leave. -/
def bytesOut (x : TxFlight) : Option Nat → List Byte
  | some n => x.frame.bytes.take n
  | none => x.frame.bytes

/-- The frame has left the MAC. -/
def frameSent (d : Dev) (m : Nat) (x : TxFlight) (cutAt : Option Nat) (underrun : Bool) : Dev :=
  ((d.setMac m { d.mac m with flight := none }).emit (.frame m (bytesOut x cutAt) (x.trunc || cutAt.isSome) x.trunc underrun)).bwAdd
    (138 + m) ((bytesOut x cutAt).length + 4)

/-- It is counted, unless link loss or EN has cut it off. -/
def frameOut (d : Dev) (m : Nat) (x : TxFlight) (cutAt : Option Nat) (underrun : Bool) : Dev :=
  if cutAt.isSome && !underrun then d.frameSent m x cutAt underrun
  else ((d.frameSent m x cutAt underrun).macCount cTxFrames 1 m).macCount cTxOctets ((bytesOut x cutAt).length + 4) m

theorem txEnd_sending {d : Dev} {m : Nat} {x : TxFlight} (h : (d.mac m).flight = some x) (cutAt : Option Nat) (underrun : Bool) :
    d.txEnd m cutAt underrun = (d.frameOut m x cutAt underrun).tsDue m x.frame false (x.trunc || cutAt.isSome) x.time := by
  unfold txEnd
  rw [h]
  cases cutAt <;> rfl

theorem txEnd_idle {d : Dev} {m : Nat} (h : (d.mac m).flight = none) (cutAt : Option Nat) (underrun : Bool) :
    d.txEnd m cutAt underrun = d := by
  unfold txEnd
  rw [h]

section
variable (d : Dev) (m : Nat) (x : TxFlight) (cutAt : Option Nat) (underrun : Bool)

theorem frameSent_flight : ((d.frameSent m x cutAt underrun).mac m).flight = none := by
  rw [frameSent, mac_of_macs (bwAdd_macs ..)]
  exact congrArg MacUnit.flight (mac_setMac d m _)

theorem frameSent_sent : (d.frameSent m x cutAt underrun).sent =
    .frame m (bytesOut x cutAt) (x.trunc || cutAt.isSome) x.trunc underrun :: d.sent := bwAdd_sent ..

theorem frameSent_stands : MacStands d (d.frameSent m x cutAt underrun) :=
  .trans (e := (d.setMac m { d.mac m with flight := none }).emit (.frame m (bytesOut x cutAt) (x.trunc || cutAt.isSome) x.trunc underrun))
    (.of_regs rfl) (.bwAdd _ _ _)

/-- Counting the frame changes registers alone. -/
theorem frameOut_only : OnlyRegs (d.frameSent m x cutAt underrun) (d.frameOut m x cutAt underrun) := by
  unfold frameOut
  split
  · exact .refl _
  · exact (macCount_only ..).trans (macCount_only ..)

theorem frameOut_stands : MacStands d (d.frameOut m x cutAt underrun) := by
  have h := frameSent_stands d m x cutAt underrun
  exact .ite _ h (h.trans ((macCount_stands _ _ _ _).trans (macCount_stands _ _ _ _)))

theorem txEnd_flight : ((d.txEnd m cutAt underrun).mac m).flight = none := by
  cases h : (d.mac m).flight with
  | none => rwa [txEnd_idle h]
  | some x => rw [txEnd_sending h, (tsDue_queue ..).2, mac_of_macs (frameOut_only ..).get_macs, frameSent_flight]

theorem txEnd_stands : MacStands d (d.txEnd m cutAt underrun) := by
  cases h : (d.mac m).flight with
  | none =>
    rw [txEnd_idle h]
    exact .refl _ _ d
  | some x =>
    rw [txEnd_sending h]
    exact (frameOut_stands _ _ _ _ _).trans (.of_regs (tsDue_regs ..))

end

/-- A frame that is cut off is sent so far, with a complemented FCS. -/
theorem txEnd_cut_sent {d : Dev} {m : Nat} {x : TxFlight} (h : (d.mac m).flight = some x) (n : Nat) (underrun : Bool) :
    (d.txEnd m (some n) underrun).sent = .frame m (x.frame.bytes.take n) true x.trunc underrun :: d.sent := by
  rw [txEnd_sending h, tsDue_sent, (frameOut_only ..).get_sent, frameSent_sent, Option.isSome_some, Bool.or_true]
  rfl

theorem txSettle_idle {d : Dev} {m : Nat} (h : (d.mac m).flight = none) : d.txSettle m = d := by
  unfold txSettle
  rw [h]

/-- A frame that is still being sent stays (R173). -/
theorem txSettle_sending {d : Dev} {m : Nat} {x : TxFlight} (h : (d.mac m).flight = some x)
    (hg : d.txGone m x.start < x.frame.bytes.length + 4) : d.txSettle m = d := by
  unfold txSettle
  rw [h]
  exact if_neg (Nat.not_le.2 hg)

theorem txSettle_stands (d : Dev) (m : Nat) : MacStands d (d.txSettle m) := by
  unfold txSettle
  split
  · exact .refl _ _ d
  · exact .ite _ (txEnd_stands _ _ _ _) (.refl _ _ d)

theorem txCut_flight (d : Dev) (m : Nat) : ((d.txCut m).mac m).flight = none := by
  unfold txCut
  split
  · assumption
  · exact txEnd_flight ..

theorem txCut_stands (d : Dev) (m : Nat) : MacStands d (d.txCut m) := by
  unfold txCut
  split
  · exact .refl _ _ d
  · exact .trans (e := d.draw.2) (.of_regs rfl) (txEnd_stands _ _ _ _)

/-! ## A waiting frame leaves the queue, or is discarded (R173, R175, R205) -/

theorem flowFill_only (d : Dev) (m : Nat) (flow : Option Nat) : OnlyRegs d (d.flowFill m flow) := by
  unfold flowFill
  split
  · exact .refl d
  · exact ((OnlyRegs.set ..).trans (.put ..)).trans (.set ..)

theorem flowFill_window (d : Dev) (m : Nat) (flow : Option Nat) : MacWindow d (d.flowFill m flow) := by
  unfold flowFill
  split
  · exact .refl _ _ d
  · exact ((SameRegs.set _ _ _ _ (.inr (by decide))).trans (.put _ _ _ _ (.inr (by decide)))).trans (.set _ _ _ _ (.inr (by decide)))

section
variable (d : Dev) (m : Nat) (f : TxFrame)

theorem unoffer_mac : (d.unoffer m f).mac m =
    { d.mac m with offers := (d.mac m).offers.erase f, heads := (d.mac m).heads.set f.tc d.cc } := by
  rw [unoffer, mac_of_macs (flowFill_only ..).get_macs, newHead, mac_setMac, mac_setMac, setMac_cc]

theorem unoffer_time : (d.unoffer m f).time = d.time := by rw [unoffer, (flowFill_only ..).get_time, newHead, setMac_time, setMac_time]
theorem unoffer_cc : (d.unoffer m f).cc = d.cc := by rw [unoffer, (flowFill_only ..).get_cc, newHead, setMac_cc, setMac_cc]

theorem unoffer_window : MacWindow d (d.unoffer m f) := by
  refine .trans (e := d.setMac m { d.mac m with offers := (d.mac m).offers.erase f }) (.of_regs rfl) ?_
  exact .trans (e := newHead (d.setMac m { d.mac m with offers := (d.mac m).offers.erase f }) m f.tc) (.of_regs rfl) (flowFill_window _ _ _)

variable (cnt : Nat)

theorem txDiscard_queue : ((d.txDiscard m f cnt).mac m).offers = (d.mac m).offers ∧
    ((d.txDiscard m f cnt).mac m).flight = (d.mac m).flight := by
  have h := mac_of_macs (d.macCount_only cnt 1 m).get_macs m
  rw [← h]
  exact tsDue_queue ..

theorem txDiscard_stands : MacStands d (d.txDiscard m f cnt) := (macCount_stands _ _ _ _).trans (.of_regs (tsDue_regs ..))

theorem txDiscard_counted : (d.txDiscard m f cnt).macCounter cnt m = min (2 ^ 64 - 1) (d.macCounter cnt m + 1) := by
  have h : (d.txDiscard m f cnt).macCounter cnt m = (d.macCount cnt 1 m).macCounter cnt m :=
    (RegsKept.of_regs (k := []) (tsDue_regs ..)).get2 _ _ _ (by simp) (by simp)
  rw [h, macCounter_macCount_self]

end

end Dev

end Sys2Proof.Machine
end

section
/-!
Proofs, the MACs' links and enables (R160, R161, R163, R173): auto-negotiation, the fall of a link and of EN, and the commands.
-/

namespace Sys2Proof.Machine

theorem Dev.flag_of_get_one {d : Dev} {f : Fld} {ch : Nat} (h : d.get f ch = 1) : d.flag f ch = true := by simp [flag, h]
theorem Dev.flag_of_get_zero {d : Dev} {f : Fld} {ch : Nat} (h : d.get f ch = 0) : d.flag f ch = false := by simp [flag, h]

/-! ## Auto-negotiation (R161) -/

namespace Dev

/-- A MAC that runs has negotiated and trained. -/
def negotiate (d : Dev) (m : Nat) : Dev :=
  if d.flag MAC.STAT_RUN m then (d.put MAC.STAT_AN_DONE true m).put MAC.STAT_TRAIN_DONE true m else d

/-- A MAC shows both completions. -/
def Negotiated (d : Dev) (m : Nat) : Prop := d.get MAC.STAT_AN_DONE m = 1 ∧ d.get MAC.STAT_TRAIN_DONE m = 1

theorem negotiate_run (d : Dev) (m n : Nat) : (d.negotiate m).flag MAC.STAT_RUN n = d.flag MAC.STAT_RUN n := by
  unfold negotiate
  split
  · simp (disch := decide) only [flag, put_eq, get_set_fld]
  · rfl

theorem negotiate_self {d : Dev} {m : Nat} (h : d.flag MAC.STAT_RUN m = true) : (d.negotiate m).Negotiated m := by
  rw [negotiate, if_pos h]
  exact ⟨(get_set_fld _ _ _ _ _ _ (by decide) (by decide)).trans (get_set_self _ _ _ _ (by decide)), get_set_self _ _ _ _ (by decide)⟩

theorem negotiate_other {d : Dev} (m : Nat) {n : Nat} (hne : n ≠ m) (h : d.Negotiated n) : (d.negotiate m).Negotiated n := by
  obtain ⟨ha, ht⟩ := h
  unfold negotiate
  split
  · simp only [Negotiated, put_eq, get_set_reg _ _ _ _ _ _ (.inr hne)]
    exact ⟨ha, ht⟩
  · exact ⟨ha, ht⟩

/-- Of the MACs gone through, each one that runs shows both completions. -/
theorem foldl_negotiate (port n : Nat) (l : List Nat) : ∀ d : Dev, d.flag MAC.STAT_RUN n = true →
    (∃ k ∈ l, port * 4 + k = n) ∨ d.Negotiated n → (l.foldl (fun d k => d.negotiate (port * 4 + k)) d).Negotiated n := by
  induction l with
  | nil => exact fun d _ h => h.resolve_left (by simp)
  | cons k l ih =>
    intro d hr h
    refine ih _ ((negotiate_run ..).trans hr) ?_
    by_cases hn : n = port * 4 + k
    · exact .inr (hn ▸ negotiate_self (hn ▸ hr))
    · refine h.imp (fun ⟨j, hj, e⟩ => ⟨j, (List.mem_cons.1 hj).resolve_left fun hjk => hn (by rw [← e, hjk]), e⟩)
        (negotiate_other _ hn)

end Dev

theorem exec_autoNegotiationDone (p : Fin 16) (s : State) : exec (.autoNegotiationDone p) s = s.go fun d =>
    if d.flag MAC.PORT_CFG_AN_EN p && (d.get MAC.PORT_CFG_PHY p == 0 || d.get MAC.PORT_CFG_PHY p == 3) then
      (List.range 4).foldl (fun d k => d.negotiate (p * 4 + k)) d
    else d := rfl

/-- AUTO_NEGOTIATION_DONE. -/
theorem runsTo_autoNegotiationDone (p : Fin 16) (s : State) (ha : s.dev.flag MAC.PORT_CFG_AN_EN p = true)
    (hp : s.dev.get MAC.PORT_CFG_PHY p ∈ [0, 3]) : RunsTo (.autoNegotiationDone p) s fun d => ∀ k < 4,
      s.dev.flag MAC.STAT_RUN (p * 4 + k) = true →
        d.get MAC.STAT_AN_DONE (p * 4 + k) = 1 ∧ d.get MAC.STAT_TRAIN_DONE (p * 4 + k) = 1 :=
  runsTo_go (exec_autoNegotiationDone p s) (if_pos (by simpa [ha] using hp)) fun k hk hr =>
    Dev.foldl_negotiate p _ _ _ hr (.inl ⟨k, List.mem_range.2 hk, rfl⟩)

/-! ## The fall of a link and of EN (R173, R177) -/

namespace Dev

/-- The frame being sent is cut off and counts as dropped, as does one that EN cut off in the same cc. -/
def linkCut (d : Dev) (m : Nat) : Dev :=
  if (d.mac m).flight.isSome then (d.txCut m).macCount cTxLinkDrop 1 m
  else if (d.mac m).cutCc == some d.cc then (d.setMac m { d.mac m with cutCc := none }).macCount cTxLinkDrop 1 m
  else d

/-- A frame that waits leaves the queue and is discarded. -/
def dropFrame (m : Nat) (d : Dev) (f : TxFrame) : Dev := (d.unoffer m f).txDiscard m f cTxLinkDrop

theorem linkFall_eq (d : Dev) (m : Nat) :
    d.linkFall m = (((d.txSettle m).linkCut m).mac m).offers.foldl (dropFrame m) ((d.txSettle m).linkCut m) := rfl

theorem linkCut_flight (d : Dev) (m : Nat) : ((d.linkCut m).mac m).flight = none := by
  unfold linkCut
  split
  · rw [mac_of_macs (macCount_only ..).get_macs, txCut_flight]
  · next h =>
    have hn : (d.mac m).flight = none := by simpa using h
    split
    · rw [mac_of_macs (macCount_only ..).get_macs, mac_setMac]
      exact hn
    · exact hn

theorem linkCut_stands (d : Dev) (m : Nat) : MacStands d (d.linkCut m) := by
  unfold linkCut
  refine .ite _ ((txCut_stands d m).trans (macCount_stands _ _ _ _)) (.ite _ ?_ (.refl _ _ d))
  exact .trans (e := d.setMac m { d.mac m with cutCc := none }) (.of_regs rfl) (macCount_stands _ _ _ _)

theorem dropFrame_queue (d : Dev) (m : Nat) (f : TxFrame) : ((dropFrame m d f).mac m).offers = (d.mac m).offers.erase f ∧
    ((dropFrame m d f).mac m).flight = (d.mac m).flight := by
  obtain ⟨ho, hf⟩ := (d.unoffer m f).txDiscard_queue m f cTxLinkDrop
  rw [unoffer_mac] at ho hf
  exact ⟨ho, hf⟩

theorem dropFrame_stands (d : Dev) (m : Nat) (f : TxFrame) : MacStands d (dropFrame m d f) :=
  (unoffer_window d m f).stands.trans (txDiscard_stands _ m f _)

/-- Every waiting frame is discarded in turn: none is left. -/
theorem foldl_dropFrame (m : Nat) (fs : List TxFrame) : ∀ d : Dev, (d.mac m).offers = fs →
    ((fs.foldl (dropFrame m) d).mac m).offers = [] ∧ ((fs.foldl (dropFrame m) d).mac m).flight = (d.mac m).flight := by
  induction fs with
  | nil => exact fun d h => ⟨h, rfl⟩
  | cons f fs ih =>
    intro d h
    obtain ⟨ho, hf⟩ := dropFrame_queue d m f
    rw [h, List.erase_cons_head] at ho
    rw [← hf]
    exact ih _ ho

/-- Nothing waits behind a link that has fallen (log 53), and nothing is being sent. -/
theorem linkFall_queue (d : Dev) (m : Nat) : ((d.linkFall m).mac m).offers = [] ∧ ((d.linkFall m).mac m).flight = none := by
  obtain ⟨ho, hf⟩ := foldl_dropFrame m _ ((d.txSettle m).linkCut m) rfl
  rw [linkFall_eq]
  exact ⟨ho, hf.trans (linkCut_flight ..)⟩

theorem enFall_flight (d : Dev) (m : Nat) : ((d.enFall m).mac m).flight = none := by
  unfold enFall
  extract_lets a
  split
  · exact txCut_flight ..
  · next h => simpa using h

theorem enFall_stands (d : Dev) (m : Nat) : MacStands d (d.enFall m) := by
  refine (txSettle_stands d m).trans (.ite _ ?_ (.refl _ _ _))
  exact .trans (e := (d.txSettle m).setMac m { (d.txSettle m).mac m with cutCc := some (d.txSettle m).cc }) (.of_regs rfl)
    (txCut_stands _ _)

end Dev

/-! ## The commands -/

/-- The fault of a MAC whose link is down (Table 15.4). -/
def linkFault (m : Nat) : FaultAt := ⟨124, 3, 0, m⟩

theorem exec_linkUp (m : Mac) (s : State) : exec (.linkUp m) s = s.go fun d =>
    if d.flag MAC.STAT_RUN m && !d.flag MAC.STAT_LINK m then
      ((d.put MAC.STAT_LINK true m).raise MAC.EVT_STAT_LINK_UP m).dropFault (linkFault m)
    else d := rfl

theorem exec_linkDown (m : Mac) (s : State) : exec (.linkDown m) s = s.go fun d =>
    if d.flag MAC.STAT_LINK m then
      (((d.linkFall m).put MAC.STAT_LINK false m).raise MAC.EVT_STAT_LINK_DOWN m).raiseFault (linkFault m)
    else d := rfl

theorem exec_macEnable (m : Mac) (en : Bool) (s : State) : exec (.macEnable m en) s = s.go fun d =>
    if en then
      if (d.put MAC.CFG_EN en m).flag MAC.STAT_ACTIVE m then (d.put MAC.CFG_EN en m).put MAC.STAT_RUN true m
      else (d.put MAC.CFG_EN en m).raise MAC.EVT_STAT_INACTIVE m
    else ((d.put MAC.CFG_EN en m).enFall m).put MAC.STAT_RUN false m := rfl

namespace Dev

/-- Auto-negotiation and training begin again (Table 6.19; log 54). -/
def restart (d : Dev) (m : Nat) : Dev := (d.put MAC.STAT_AN_DONE false m).put MAC.STAT_TRAIN_DONE false m

theorem restart_only (d : Dev) (m : Nat) : OnlyRegs d (d.restart m) := (OnlyRegs.put ..).trans (.put ..)

theorem restart_done (d : Dev) (m : Nat) : (d.restart m).get MAC.STAT_AN_DONE m = 0 ∧ (d.restart m).get MAC.STAT_TRAIN_DONE m = 0 :=
  ⟨(get_set_fld _ _ _ _ _ _ (by decide) (by decide)).trans (get_set_self _ _ _ _ (by decide)), get_set_self _ _ _ _ (by decide)⟩

theorem restart_kept (d : Dev) (m : Nat) : RegsKept d (d.restart m) [(0x00400180, m)] :=
  (RegsKept.put d MAC.STAT_AN_DONE false m (List.mem_singleton_self _)).trans (.put _ _ _ _ (List.mem_singleton_self _))

end Dev

theorem exec_linkRestart (m : Mac) (s : State) : exec (.linkRestart m) s = s.go (·.restart m) := rfl

section
variable (m : Mac) (s : State)

/-- LINK_UP. -/
theorem runsTo_linkUp (hr : s.dev.get MAC.STAT_RUN m = 1) (hl : s.dev.get MAC.STAT_LINK m = 0) : RunsTo (.linkUp m) s fun d =>
    d.get MAC.STAT_LINK m = 1 ∧ d.get MAC.EVT_STAT_LINK_UP m = 1 ∧ linkFault m ∉ d.conds := by
  refine runsTo_go (exec_linkUp m s) (if_pos (by simp [Dev.flag_of_get_one hr, Dev.flag_of_get_zero hl]))
    ⟨?_, ?_, Dev.dropFault_not_mem _ _⟩
  · rw [(Dev.dropFault_kept _ _).field _ _ (by decide), Dev.raise_eq, Dev.get_set_off _ _ _ _ _ _ (by decide)]
    exact Dev.get_set_self _ _ _ _ (by decide)
  · rw [(Dev.dropFault_kept _ _).field _ _ (by decide)]
    exact Dev.get_set_self _ _ _ _ (by decide)

/-- LINK_DOWN. -/
theorem runsTo_linkDown (hl : s.dev.get MAC.STAT_LINK m = 1) : RunsTo (.linkDown m) s fun d =>
    d.get MAC.STAT_LINK m = 0 ∧ d.get MAC.EVT_STAT_LINK_DOWN m = 1 ∧ linkFault m ∈ d.conds ∧ (d.mac m).offers = [] ∧
      (d.mac m).flight = none := by
  obtain ⟨ho, hf⟩ := s.dev.linkFall_queue m
  have hm (d : Dev) : (d.raiseFault (linkFault m)).mac m = d.mac m := by
    refine Dev.mac_of_macs ?_ m
    obtain ⟨_, _, _, h⟩ := OnlyFaults.raiseFault d (linkFault m)
    rw [h]
  refine runsTo_go (exec_linkDown m s) (if_pos (Dev.flag_of_get_one hl)) ⟨?_, ?_, Dev.raiseFault_mem .., ?_⟩
  · rw [(MacWindow.raiseFault _ _).get _ _ (by decide) (by decide), Dev.raise_eq, Dev.get_set_off _ _ _ _ _ _ (by decide)]
    exact Dev.get_set_self _ _ _ _ (by decide)
  · rw [(MacWindow.raiseFault _ _).get _ _ (by decide) (by decide)]
    exact Dev.get_set_self _ _ _ _ (by decide)
  · rw [hm]
    exact ⟨ho, hf⟩

/-- MAC_ENABLE, EN rising. -/
theorem runsTo_macEnable_on (ha : s.dev.get MAC.STAT_ACTIVE m = 1) : RunsTo (.macEnable m true) s fun d =>
    d.get MAC.STAT_RUN m = 1 ∧ d.get MAC.CFG_EN m = 1 := by
  have ha' : (s.dev.put MAC.CFG_EN true m).flag MAC.STAT_ACTIVE m = true :=
    Dev.flag_of_get_one ((Dev.get_set_off _ _ _ _ _ _ (by decide)).trans ha)
  refine runsTo_go (exec_macEnable m true s) (if_pos ha') ⟨Dev.get_set_self _ _ _ _ (by decide), ?_⟩
  exact (Dev.get_set_off _ _ _ _ _ _ (by decide)).trans (Dev.get_set_self _ _ _ _ (by decide))

/-- MAC_ENABLE, EN falling. -/
theorem runsTo_macEnable_off : RunsTo (.macEnable m false) s fun d =>
    d.get MAC.STAT_RUN m = 0 ∧ d.get MAC.CFG_EN m = 0 ∧ (d.mac m).flight = none := by
  refine runsTo_go (exec_macEnable m false s) (if_neg Bool.false_ne_true)
    ⟨Dev.get_set_self _ _ _ _ (by decide), ?_, Dev.enFall_flight ..⟩
  rw [Dev.put_eq, Dev.get_set_off _ _ _ _ _ _ (by decide), (Dev.enFall_stands _ _).get _ _ (by decide) (by decide)]
  exact Dev.get_set_self _ _ _ _ (by decide)

/-- LINK_RESTART. -/
theorem regsTo_linkRestart : RegsTo (.linkRestart m) s fun d => d.get MAC.STAT_AN_DONE m = 0 ∧ d.get MAC.STAT_TRAIN_DONE m = 0 ∧
    RegsKept s.dev d [(0x00400180, m.val)] :=
  regsTo_go (exec_linkRestart m s) (Dev.restart_only ..) ⟨(Dev.restart_done ..).1, (Dev.restart_done ..).2, Dev.restart_kept _ _⟩

end

end Sys2Proof.Machine
end

section
/-!
Proofs, transmission (R170 to R173, R175): a waiting frame starts, the buffer runs empty, and the frames that are discarded.
-/

namespace Sys2Proof.Machine

namespace Dev

/-! ## A frame starts (R170, R172) -/

/-- The frame that is sent in place of one offered: its first MAX_LEN bytes where it is longer. -/
def cutToMax (d : Dev) (m : Nat) (f : TxFrame) : TxFrame :=
  if d.maxLen m < f.bytes.length + 4 then { f with bytes := f.bytes.take (d.maxLen m - 4) } else f

/-- An offer above MAX_LEN is counted. -/
def countLong (d : Dev) (m : Nat) (f : TxFrame) : Dev :=
  if d.maxLen m < f.bytes.length + 4 then (d.macCount cTxOversize 1 m).raise MAC.EVT_STAT_TX_OVERSIZE m else d

/-- A frame that has left the queue is being sent. -/
def launch (d : Dev) (m : Nat) (f : TxFrame) : Dev :=
  ((d.countLong m f).logAdd (138 + m) 1).setMac m { (d.countLong m f).mac m with
    flight := some ⟨d.cutToMax m f, (d.countLong m f).time, (d.countLong m f).cc, decide (d.maxLen m < f.bytes.length + 4)⟩ }

theorem countLong_only (d : Dev) (m : Nat) (f : TxFrame) : OnlyRegs d (d.countLong m f) := by
  unfold countLong
  split
  · exact (macCount_only ..).trans (.raise ..)
  · exact .refl d

theorem launch_mac (d : Dev) (m : Nat) (f : TxFrame) : (d.launch m f).mac m = { d.mac m with
    flight := some ⟨d.cutToMax m f, d.time, d.cc, decide (d.maxLen m < f.bytes.length + 4)⟩ } := by
  have h := d.countLong_only m f
  rw [launch, mac_setMac, mac_of_macs h.get_macs, h.get_time, h.get_cc]

/-- A frame that waits alone is the head of its class, and no other class has one. -/
theorem headOf_alone {d : Dev} {m : Nat} {f : TxFrame} (ho : (d.mac m).offers = [f]) (c : Nat) :
    d.headOf m c = if f.tc = c then some f else none := by
  rw [headOf, ho]
  by_cases h : f.tc = c
  · simp [h]
  · simp [h]

theorem heads_alone {d : Dev} {m : Nat} {f : TxFrame} (ho : (d.mac m).offers = [f]) (ht : f.tc < 8) :
    [7, 6, 5, 4, 3, 2, 1, 0].filterMap (fun c => d.headOf m c) = [f] := by
  simp only [headOf_alone ho]
  generalize f.tc = c at ht
  interval_cases c <;> rfl

theorem txStart_alone {d : Dev} {m : Nat} {avail : List Nat} {f : TxFrame} (hr : d.get MAC.STAT_RUN m = 1) (hl : d.get MAC.STAT_LINK m = 1)
    (hs : d.etherSilent = false) (hf : (d.mac m).flight = none) (ho : (d.mac m).offers = [f]) (ht : f.tc < 8)
    (hy : d.ready m f (avail.getD f.tc (f.bytes.length + 4)) = true) : d.txStart m avail = (d.unoffer m f).launch m f := by
  have hgo : (d.flag MAC.STAT_RUN m && d.flag MAC.STAT_LINK m && !d.etherSilent && (d.mac m).flight.isNone) = true := by
    simp [flag_of_get_one hr, flag_of_get_one hl, hs, hf]
  have hpick : [f].find? (fun f => d.ready m f (avail.getD f.tc (f.bytes.length + 4))) = some f := List.find?_cons_of_pos hy
  unfold txStart
  rw [txSettle_idle hf]
  dsimp only
  rw [if_pos hgo, heads_alone ho ht, hpick]
  simp only [launch, countLong, cutToMax, decide_eq_true_eq]

theorem txStart_silent {d : Dev} {m : Nat} (avail : List Nat) (hs : d.etherSilent = true) (hf : (d.mac m).flight = none) :
    d.txStart m avail = d := by
  unfold txStart
  rw [txSettle_idle hf]
  exact if_neg (by simp [hs])

theorem unoffer_maxLen (d : Dev) (m : Nat) (f : TxFrame) : (d.unoffer m f).maxLen m = d.maxLen m := by
  rw [maxLen, maxLen, (unoffer_window d m f).get _ _ (by decide) (by decide)]

/-! ## The transmit buffer runs empty (R171) -/

/-- THR, 0 counting as 1, rises by 1 below 32. -/
def raiseThr (d : Dev) (m : Nat) : Dev :=
  if max 1 (d.get MAC.TX_CT_THR m) < 32 then
    (d.set MAC.TX_CT_THR (max 1 (d.get MAC.TX_CT_THR m) + 1) m).raiseIf (max 1 (d.get MAC.TX_CT_THR m) + 1 == 32) MAC.EVT_STAT_CT_MAX m
  else d

/-- The frame ends and the underrun is counted and reported. -/
def starve (d : Dev) (m sent : Nat) : Dev :=
  ((d.txEnd m (some sent) true).macCount cTxUnderrun 1 m).raise MAC.EVT_STAT_TX_UNDERRUN m

theorem underrun_sending {d : Dev} {m : Nat} {x : TxFlight} (sent : Nat) (hx : (d.mac m).flight = some x)
    (hg : d.txGone m x.start < x.frame.bytes.length + 4) : d.underrun m sent = (d.starve m sent).raiseThr m := by
  unfold underrun
  rw [txSettle_sending hx hg]
  exact if_pos (by simp [hx])

theorem raiseThr_only (d : Dev) (m : Nat) : OnlyRegs d (d.raiseThr m) := by
  unfold raiseThr
  split
  · exact (OnlyRegs.set ..).trans (.raiseIf ..)
  · exact .refl d

theorem raiseThr_event (d : Dev) (m : Nat) : (d.raiseThr m).get MAC.EVT_STAT_TX_UNDERRUN m = d.get MAC.EVT_STAT_TX_UNDERRUN m := by
  unfold raiseThr
  split
  · exact (SameFld.raiseIf _ _ _ _ (by decide) m).trans (get_set_off _ _ _ _ _ _ (by decide))
  · rfl

theorem raiseThr_thr (d : Dev) (m : Nat) : (d.raiseThr m).get MAC.TX_CT_THR m =
    if max 1 (d.get MAC.TX_CT_THR m) < 32 then max 1 (d.get MAC.TX_CT_THR m) + 1 else d.get MAC.TX_CT_THR m := by
  unfold raiseThr
  split
  · next h =>
    rw [raiseIf_get_off _ _ _ (by decide), get_set_self _ _ _ _ (by decide)]
    exact Nat.mod_eq_of_lt (Nat.lt_of_le_of_lt (Nat.succ_le_of_lt h) (by decide))
  · rfl

theorem starve_only (d : Dev) (m sent : Nat) : OnlyRegs (d.txEnd m (some sent) true) (d.starve m sent) :=
  (macCount_only ..).trans (.raise ..)

theorem starve_event (d : Dev) (m sent : Nat) : (d.starve m sent).get MAC.EVT_STAT_TX_UNDERRUN m = 1 := get_set_self _ _ _ _ (by decide)

theorem starve_thr (d : Dev) (m sent : Nat) : (d.starve m sent).get MAC.TX_CT_THR m = d.get MAC.TX_CT_THR m := by
  rw [starve, raise_eq, get_set_off _ _ _ _ _ _ (by decide)]
  exact ((txEnd_stands d m (some sent) true).trans (macCount_stands _ _ _ _)).get _ _ (by decide) (by decide)

end Dev

/-! ## The commands -/

theorem exec_txFrameStart (m : Mac) (avail : List Nat) (s : State) : exec (.txFrameStart m avail) s = s.go (·.txStart m avail) := rfl

theorem exec_txUnderrun (m : Mac) (sent : Nat) (s : State) : exec (.txUnderrun m sent) s = s.go (·.underrun m sent) := rfl

theorem exec_txLinkDrop (m : Mac) (f : TxFrame) (s : State) : exec (.txLinkDrop m f) s = s.go fun d =>
    if d.flag MAC.STAT_LINK m then d else d.txDiscard m f cTxLinkDrop := rfl

/-- A head frame that its gate has starved is discarded (R175). -/
def Dev.gateDrop (d : Dev) (m : Nat) (f : TxFrame) : Dev :=
  if !d.gateStarved m f then d else ((d.unoffer m f).txDiscard m f cTxGateDrop).raise MAC.EVT_STAT_TX_GATE_DROP m

theorem exec_txGateDrop {m : Mac} {tc : Fin 8} {f : TxFrame} {s : State} (h : s.dev.headOf m tc = some f) :
    exec (.txGateDrop m tc) s = s.go (·.gateDrop m f) := by
  have e : exec (.txGateDrop m tc) s = s.go fun d =>
    match d.headOf m tc with
    | none => d
    | some f => d.gateDrop m f := rfl
  rw [e, State.go_eq, State.go_eq, h]

section
variable (m : Mac) (f : TxFrame) (s : State)

/-- TX_FRAME_START, a ready frame that waits alone. -/
theorem runsTo_txFrameStart (avail : List Nat) (hr : s.dev.get MAC.STAT_RUN m = 1) (hl : s.dev.get MAC.STAT_LINK m = 1)
    (hs : s.dev.etherSilent = false) (hf : (s.dev.mac m).flight = none) (ho : (s.dev.mac m).offers = [f]) (ht : f.tc < 8)
    (hy : s.dev.ready m f (avail.getD f.tc (f.bytes.length + 4)) = true) :
    RunsTo (.txFrameStart m avail) s fun d => (d.mac m).offers = [] ∧
      (d.mac m).flight = some ⟨s.dev.cutToMax m f, s.dev.time, s.dev.cc, decide (s.dev.maxLen m < f.bytes.length + 4)⟩ := by
  refine runsTo_go (exec_txFrameStart m avail s) (Dev.txStart_alone hr hl hs hf ho ht hy) ?_
  rw [Dev.launch_mac, Dev.cutToMax, Dev.unoffer_maxLen, Dev.unoffer_time, Dev.unoffer_cc, Dev.unoffer_mac, ho, List.erase_cons_head]
  exact ⟨rfl, rfl⟩

/-- TX_FRAME_START while no transmitter sends. -/
theorem runsTo_txFrameStart_silent (avail : List Nat) (hs : s.dev.etherSilent = true) (hf : (s.dev.mac m).flight = none) :
    RunsTo (.txFrameStart m avail) s fun d => d = s.dev :=
  runsTo_go (exec_txFrameStart m avail s) (Dev.txStart_silent avail hs hf) rfl

/-- TX_UNDERRUN. -/
theorem runsTo_txUnderrun (sent : Nat) (x : TxFlight) (hx : (s.dev.mac m).flight = some x)
    (hg : s.dev.txGone m x.start < x.frame.bytes.length + 4) : RunsTo (.txUnderrun m sent) s fun d => (d.mac m).flight = none ∧
      d.sent = .frame m (x.frame.bytes.take sent) true x.trunc true :: s.dev.sent ∧ d.get MAC.EVT_STAT_TX_UNDERRUN m = 1 ∧
      d.get MAC.TX_CT_THR m = if max 1 (s.dev.get MAC.TX_CT_THR m) < 32 then max 1 (s.dev.get MAC.TX_CT_THR m) + 1
        else s.dev.get MAC.TX_CT_THR m := by
  have ho := (s.dev.starve_only m sent).trans ((s.dev.starve m sent).raiseThr_only m)
  refine runsTo_go (exec_txUnderrun m sent s) (Dev.underrun_sending sent hx hg) ⟨?_, ?_, ?_, ?_⟩
  · rw [Dev.mac_of_macs ho.get_macs, Dev.txEnd_flight]
  · rw [ho.get_sent, Dev.txEnd_cut_sent hx]
  · rw [Dev.raiseThr_event, Dev.starve_event]
  · rw [Dev.raiseThr_thr, Dev.starve_thr]

/-- TX_LINK_DROP. -/
theorem runsTo_txLinkDrop (hl : s.dev.get MAC.STAT_LINK m = 0) : RunsTo (.txLinkDrop m f) s fun d =>
    d.macCounter cTxLinkDrop m = min (2 ^ 64 - 1) (s.dev.macCounter cTxLinkDrop m + 1) :=
  runsTo_go (exec_txLinkDrop m f s) (if_neg (by simp [Dev.flag_of_get_zero hl])) (Dev.txDiscard_counted ..)

variable {f s}

/-- TX_GATE_DROP, a frame that its gate has starved. -/
theorem runsTo_txGateDrop {tc : Fin 8} (hh : s.dev.headOf m tc = some f) (hg : s.dev.gateStarved m f = true) :
    RunsTo (.txGateDrop m tc) s fun d => (d.mac m).offers = (s.dev.mac m).offers.erase f ∧ d.get MAC.EVT_STAT_TX_GATE_DROP m = 1 ∧
      d.macCounter cTxGateDrop m = min (2 ^ 64 - 1) (s.dev.macCounter cTxGateDrop m + 1) := by
  have hk (d : Dev) : RegsKept d (d.raise MAC.EVT_STAT_TX_GATE_DROP m) [(0x00400184, m.val)] := .raise _ _ _ (.head _)
  refine runsTo_go (exec_txGateDrop hh) (if_neg (by simp [hg])) ⟨?_, Dev.get_set_self _ _ _ _ (by decide), ?_⟩
  · rw [Dev.mac_of_macs (OnlyRegs.raise ..).get_macs, (Dev.txDiscard_queue ..).1, Dev.unoffer_mac]
  · rw [Dev.macCounter, (hk _).get2 _ _ _ (by simp [MAC.CNT_LO_COUNT_L, cTxGateDrop]) (by simp [MAC.CNT_HI_COUNT_H, cTxGateDrop])]
    rw [← Dev.macCounter, Dev.txDiscard_counted, (Dev.unoffer_window _ _ _).counter _ (by decide)]

/-- TX_GATE_DROP otherwise. -/
theorem runsTo_txGateDrop_waits {tc : Fin 8} (hh : s.dev.headOf m tc = some f) (hg : s.dev.gateStarved m f = false) :
    RunsTo (.txGateDrop m tc) s fun d => d = s.dev := runsTo_go (exec_txGateDrop hh) (if_pos (by simp [hg])) rfl

end

/-- Settles O11: the links and enables of the MACs, the frame that starts, the one that underruns, and those that are discarded. -/
theorem macLinksAndTransmit : Obligations.MacLinksAndTransmit := by
  unfold Obligations.MacLinksAndTransmit
  refine ⟨⟨runsTo_autoNegotiationDone, fun m s => ?_⟩, fun m f s => ?_⟩
  · exact ⟨runsTo_linkUp m s, runsTo_linkDown m s, runsTo_macEnable_on m s, runsTo_macEnable_off m s, regsTo_linkRestart m s⟩
  · exact ⟨runsTo_txFrameStart m f s, runsTo_txFrameStart_silent m s, runsTo_txUnderrun m s, runsTo_txLinkDrop m f s,
      fun _ hh => ⟨runsTo_txGateDrop m hh, runsTo_txGateDrop_waits m hh⟩⟩

end Sys2Proof.Machine
end

section
/-!
Proofs, received frames (R164 to R169): what becomes of a frame that is handed on (R182, R191 to R194, R212) leaves the MACs' registers, and
the counters of a frame that is accepted or whose FCS is wrong.
-/

namespace Sys2Proof.Machine

namespace MacWindow

/-- A register from FLW's window on. -/
theorem set (d : Dev) (f : Fld) (v ch : Nat) (h : 0x00500000 ≤ f.off) : MacWindow d (d.set f v ch) := SameRegs.set _ _ _ _ (.inr h)

theorem count (d : Dev) (f : Fld) (n ch : Nat) (h : 0x00500000 ≤ f.off) : MacWindow d (d.count f n ch) := set _ _ _ _ h

theorem raise (d : Dev) (f : Fld) (ch : Nat) (h : 0x00500000 ≤ f.off) : MacWindow d (d.raise f ch) := set _ _ _ _ h

/-! ## A frame that is handed on (R182) -/

theorem takeMsgArrive (d : Dev) (bs : List Byte) : MacWindow d (d.takeMsgArrive bs) := by
  unfold Dev.takeMsgArrive
  refine .ite _ (.ite _ ?_ (.of_regs rfl)) (.refl _ _ d)
  exact (count _ _ _ _ (by decide)).trans (raise _ _ _ (by decide))

theorem hostRx (d : Dev) (m : Nat) (bs : List Byte) (trunc : Bool) (tc : Nat) (tag : Option (Nat × Nat)) (vid : Nat) :
    MacWindow d (d.hostRx m bs trunc tc tag vid) := by
  unfold Dev.hostRx
  split
  · exact (Notes.qProduce (.inl (by decide)) (by decide) (.inl (by decide)) _ _ _).1
  · exact (count _ _ _ _ (by decide)).trans (raise _ _ _ (by decide))

theorem legBack (d : Dev) (c g : Nat) : MacWindow d (d.legBack c g) := by
  unfold Dev.legBack
  refine .ite _ (.refl _ _ d) (.trans (e := d.putBit FLW.CTX_STAT_LEG_ACT g true c) ?_ (raise _ _ _ ?_))
  · exact set _ _ _ _ (by decide)
  · split <;> decide

theorem setCells (d : Dev) (c : Nat) (x : FlowCtx) : MacWindow d (d.setCells c x) := by
  unfold Dev.setCells
  extract_lets n a b
  have ha : MacWindow d a := .trans (e := d.setFlow c x) (.of_regs rfl) (set _ _ _ _ (by decide))
  have hb : MacWindow a b := set _ _ _ _ (by decide)
  exact (ha.trans hb).trans (set _ _ _ _ (by decide))

theorem keyAccept (d : Dev) (c : Nat) (p : HeldPkt) : MacWindow d (d.keyAccept c p) := by
  unfold Dev.keyAccept
  extract_lets x far a y swap hi z b
  have ha : MacWindow d a := SameRegs.raiseIf _ _ _ _ (.inr (by decide))
  have hb : MacWindow d b := ha.trans (.of_regs rfl)
  refine .ite _ (ha.trans ?_) (.ite _ (hb.trans ?_) (.ite _ (hb.trans ?_) (hb.trans (setCells _ _ _))))
  · exact .trans (e := a.setFlow c { y with pkts := y.pkts.map swap }) (.of_regs rfl) (count _ _ _ _ (by decide))
  · exact (count _ _ _ _ (by decide)).trans (raise _ _ _ (by decide))
  · exact count _ _ _ _ (by decide)

theorem ctxPacket (d : Dev) (c g : Nat) (u : Udp) : MacWindow d (d.ctxPacket c g u) := by
  unfold Dev.ctxPacket
  extract_lets p role fmt bad a x b key
  have ha : MacWindow d a := (count _ _ _ _ (by split <;> decide)).trans (legBack _ _ _)
  refine .ite _ (.refl _ _ d) (.ite _ ?_ (ha.trans (.trans (e := b) (.of_regs rfl) (keyAccept _ _ _))))
  exact (count _ _ _ _ (by decide)).trans (raise _ _ _ (by decide))

theorem classify (d : Dev) (m : Nat) (bs : List Byte) (p : EthParts) (trunc : Bool) (vid tc : Nat) :
    MacWindow d (d.classify m bs p trunc vid tc) := by
  unfold Dev.classify
  refine .ite _ (.ite _ (.refl _ _ d) (takeMsgArrive _ _)) (.ite _ (hostRx _ _ _ _ _ _ _) ?_)
  split
  · exact hostRx _ _ _ _ _ _ _
  · split
    · exact ctxPacket _ _ _ _
    · exact hostRx _ _ _ _ _ _ _

end MacWindow

/-! ## The checks of a frame (R164 to R169) -/

/-- A whole frame of 64 bytes to MAX_LEN that fits in the buffer, whatever its traffic class. -/
structure RxFits (d : Dev) (m : Nat) (bytes : List Byte) (i : RxInfo) : Prop where
  room : i.held + bytes.length + 16384 ≤ d.rxShare m
  whole : i.cut = false
  notShort : 64 ≤ bytes.length
  notLong : bytes.length ≤ d.maxLen m

/-- Is the FCS of a frame right? -/
def fcsRight (bytes : List Byte) : Bool := crc32 (bytes.take (bytes.length - 4)) == leNat (bytes.drop (bytes.length - 4))

namespace Dev

/-- The bytes of a received frame are counted by the monitor of its MAC (R487). -/
def rxBegin (d : Dev) (m : Nat) (bytes : List Byte) : Dev := d.bwAdd (74 + m) bytes.length

/-- A frame within MAX_LEN that passes every check is counted, its octets with the FCS (log 53), and handed on. -/
def rxAccept (d : Dev) (m : Nat) (bytes : List Byte) (vid : Nat) : Dev :=
  let p := ethParts (bytes.take (bytes.length - 4))
  (((d.macCount cRxFrames 1 m).macCount cRxOctets bytes.length m).logAdd (74 + m) 1).classify m (bytes.take (bytes.length - 4)) p false vid
    (d.rxClass m p.tag)

theorem rxBegin_eq (d : Dev) (m : Nat) (bytes : List Byte) : ∃ b, d.rxBegin m bytes = { d with bwAcc := b } := bwAdd_eq ..

section
variable (d : Dev) (m : Nat) (bytes : List Byte)

theorem rxBegin_regs : (d.rxBegin m bytes).regs = d.regs := by obtain ⟨b, h⟩ := d.rxBegin_eq m bytes; rw [h]
theorem rxBegin_rxShare : (d.rxBegin m bytes).rxShare m = d.rxShare m := by obtain ⟨b, h⟩ := d.rxBegin_eq m bytes; rw [h]; rfl
theorem rxBegin_maxLen : (d.rxBegin m bytes).maxLen m = d.maxLen m := by obtain ⟨b, h⟩ := d.rxBegin_eq m bytes; rw [h]; rfl
theorem rxBegin_addrOk (dst : Nat) : (d.rxBegin m bytes).addrOk m dst = d.addrOk m dst := by
  obtain ⟨b, h⟩ := d.rxBegin_eq m bytes; rw [h]; rfl
theorem rxBegin_vlanOf (tag : Option (Nat × Nat)) : (d.rxBegin m bytes).vlanOf m tag = d.vlanOf m tag := by
  obtain ⟨b, h⟩ := d.rxBegin_eq m bytes; rw [h]; rfl

end

/-- A frame that fits passes the checks for its length, and is judged by its FCS, its type, its address and its VLAN, in this order. -/
theorem rxFrame_fits {d : Dev} {m : Nat} {bytes : List Byte} {i : RxInfo} (h : RxFits d m bytes i) : d.rxFrame m bytes i =
    if fcsRight bytes = false then (d.rxBegin m bytes).macCount cRxFcs 1 m
    else if (ethParts (bytes.take (bytes.length - 4))).etype = 0x8808 then (d.rxBegin m bytes).macCount cRxPause 1 m
    else if d.addrOk m (beAt bytes 0 6) = false then (d.rxBegin m bytes).macCount cRxFilt 1 m
    else (d.vlanOf m (ethParts (bytes.take (bytes.length - 4))).tag).elim ((d.rxBegin m bytes).macCount cRxVlan 1 m)
      ((d.rxBegin m bytes).rxAccept m bytes) := by
  obtain ⟨hroom, hcut, hshort, hlong⟩ := h
  unfold rxFrame
  extract_lets len a p tc tooLong fcsOk n b c body
  have ha : a = d.rxBegin m bytes := rfl
  have hfits : ¬ a.rxShare m - (if tc = 7 then 0 else 16384) < i.held + len := by
    rw [ha, rxBegin_rxShare]
    split <;> omega
  have hmax : a.maxLen m = d.maxLen m := rxBegin_maxLen ..
  have hlong' : tooLong = false := decide_eq_false (by omega)
  have hn : n = len := by omega
  have hb : b = ((a.macCount cRxFrames 1 m).macCount cRxOctets len m).logAdd (74 + m) 1 := by rw [← hn]
  have hc : c = b := if_neg (by simp [hlong'])
  have hbody : body = bytes.take (len - 4) := if_neg (by simp [hlong'])
  rw [if_neg hfits, if_neg (Nat.not_lt.2 hshort), hcut, hlong', hc, hb, hbody]
  simp only [Bool.false_or, Bool.not_false, Bool.true_and, Bool.not_eq_true']
  rw [ha, rxBegin_addrOk, rxBegin_vlanOf]
  refine if_congr Iff.rfl rfl (if_congr Iff.rfl rfl (if_congr Iff.rfl rfl ?_))
  cases d.vlanOf m p.tag with
  | none => rw [Option.elim_none]
  | some vid =>
    rw [Option.elim_some, rxAccept]
    rfl

/-- What is handed on has been counted, and nothing that follows touches the counters. -/
theorem rxAccept_counts (d : Dev) (m : Nat) (bytes : List Byte) (vid : Nat) :
    (d.rxAccept m bytes vid).macCounter cRxFrames m = min (2 ^ 64 - 1) (d.macCounter cRxFrames m + 1) ∧
      (d.rxAccept m bytes vid).macCounter cRxOctets m = min (2 ^ 64 - 1) (d.macCounter cRxOctets m + bytes.length) := by
  have hk : MacWindow ((d.macCount cRxFrames 1 m).macCount cRxOctets bytes.length m) (d.rxAccept m bytes vid) :=
    (SameRegs.logAdd _ _ _ (.inl (by decide))).trans (MacWindow.classify _ _ _ _ _ _ _)
  constructor
  · rw [hk.counter _ (by decide), macCounter_macCount_ne _ _ _ (by decide), macCounter_macCount_self]
  · rw [hk.counter _ (by decide), macCounter_macCount_self, macCounter_macCount_ne _ _ _ (by decide)]

theorem rxBegin_macCounter (d : Dev) (m : Nat) (bytes : List Byte) (k : Nat) : (d.rxBegin m bytes).macCounter k m = d.macCounter k m :=
  (RegsKept.of_regs (k := []) (rxBegin_regs ..)).get2 _ _ _ (by simp) (by simp)

end Dev

/-! ## The command -/

section
variable {m : Mac} {bytes : List Byte} {i : RxInfo} {s : State}

theorem exec_rxFrame (m : Mac) (bytes : List Byte) (i : RxInfo) (s : State) : exec (.rxFrame m bytes i) s = s.go fun d =>
    if d.flag MAC.STAT_RUN m then d.rxFrame m bytes i else d := rfl

/-- RX_FRAME at a stopped MAC. -/
theorem runsTo_rxFrame_stopped (hr : s.dev.get MAC.STAT_RUN m = 0) : RunsTo (.rxFrame m bytes i) s fun d => d = s.dev :=
  runsTo_go (exec_rxFrame m bytes i s) (if_neg (by simp [Dev.flag_of_get_zero hr])) rfl

variable (hr : s.dev.get MAC.STAT_RUN m = 1) (hf : RxFits s.dev m bytes i)
include hr hf

/-- RX_FRAME, a frame that is accepted. -/
theorem runsTo_rxFrame_accepted (hc : fcsRight bytes = true) (ht : (ethParts (bytes.take (bytes.length - 4))).etype ≠ 0x8808)
    (ha : s.dev.addrOk m (beAt bytes 0 6) = true) (hv : (s.dev.vlanOf m (ethParts (bytes.take (bytes.length - 4))).tag).isSome = true) :
    RunsTo (.rxFrame m bytes i) s fun d =>
      d.macCounter cRxFrames m = min (2 ^ 64 - 1) (s.dev.macCounter cRxFrames m + 1) ∧
      d.macCounter cRxOctets m = min (2 ^ 64 - 1) (s.dev.macCounter cRxOctets m + bytes.length) := by
  obtain ⟨vid, hvid⟩ := Option.isSome_iff_exists.1 hv
  have he : s.dev.rxFrame m bytes i = (s.dev.rxBegin m bytes).rxAccept m bytes vid := by
    rw [Dev.rxFrame_fits hf, if_neg (by simp [hc]), if_neg ht, if_neg (by simp [ha]), hvid, Option.elim_some]
  refine runsTo_go (exec_rxFrame m bytes i s) ((if_pos (Dev.flag_of_get_one hr)).trans he) ?_
  rw [← s.dev.rxBegin_macCounter m bytes, ← s.dev.rxBegin_macCounter m bytes]
  exact Dev.rxAccept_counts ..

/-- RX_FRAME, a frame whose FCS is wrong. -/
theorem runsTo_rxFrame_fcs (hc : fcsRight bytes = false) : RunsTo (.rxFrame m bytes i) s fun d =>
    d.macCounter cRxFcs m = min (2 ^ 64 - 1) (s.dev.macCounter cRxFcs m + 1) ∧
      RegsKept s.dev d [(0x00400210, m.val), (0x00400214, m.val)] := by
  have he : s.dev.rxFrame m bytes i = (s.dev.rxBegin m bytes).macCount cRxFcs 1 m := (Dev.rxFrame_fits hf).trans (if_pos hc)
  refine runsTo_go (exec_rxFrame m bytes i s) ((if_pos (Dev.flag_of_get_one hr)).trans he) ⟨?_, ?_⟩
  · rw [Dev.macCounter_macCount_self, Dev.rxBegin_macCounter]
  · exact (RegsKept.of_regs (s.dev.rxBegin_regs m bytes)).trans (Dev.macCount_kept _ _ _ _)

end

/-- Settles O13: a stopped MAC receives nothing; a frame that fits is counted and handed on, or counted for its FCS alone. -/
theorem macReceive : Obligations.MacReceive := by
  unfold Obligations.MacReceive
  intro m bytes i s
  refine ⟨runsTo_rxFrame_stopped, fun hr hroom hshort hcut hlong => ?_⟩
  have hf : RxFits s.dev m bytes i := ⟨hroom, hcut, hshort, hlong⟩
  exact ⟨fun hc => runsTo_rxFrame_accepted hr hf (beq_iff_eq.2 hc), fun hc => runsTo_rxFrame_fcs hr hf (beq_eq_false_iff_ne.2 hc)⟩

end Sys2Proof.Machine
end

section
/-!
Proofs, flow contexts and bundles (chapter 7): fields cleared together, what a slot's presence changes, and what a bundle's start and stop leave
of the contexts (R192, R194, R216).
-/

namespace Sys2Proof.Machine

/-- A field that is among those cleared, or that was 0, is 0 afterwards, where the others lie apart from it. -/
theorem Dev.get_clear_zero {f : Fld} (hf : f.lo + f.w ≤ 32) (ch : Nat) (fs : List Fld) (h : ∀ x ∈ fs, x = f ∨ BitsApart f x) :
    ∀ d : Dev, f ∈ fs ∨ d.get f ch = 0 → (d.clear fs ch).get f ch = 0 := by
  induction fs with
  | nil => exact fun d hd => hd.resolve_left List.not_mem_nil
  | cons x fs ih =>
    intro d hd
    refine ih (fun y m => h y (.tail _ m)) (d.set x 0 ch) ?_
    by_cases hx : x = f
    · exact .inr (by rw [hx, get_set_self _ _ _ _ hf, Nat.zero_mod])
    · exact hd.imp (fun m => (List.mem_cons.1 m).resolve_left (Ne.symm hx))
        ((SameFld.set d x 0 ch ((h x (.head _)).resolve_left hx) ch).trans ·)

/-- Counters cleared together, none overlapping another. -/
theorem Dev.get_clear_all {fs : List Fld} (h : ∀ f ∈ fs, f.lo + f.w ≤ 32 ∧ ∀ x ∈ fs, x = f ∨ BitsApart f x) (d : Dev) (ch : Nat) :
    ∀ f ∈ fs, (d.clear fs ch).get f ch = 0 := fun f m => get_clear_zero (h f m).1 ch fs (h f m).2 d (.inl m)

/-! ## The presence of a slot (R24, R228) -/

/-- The MACs', the flows' and the queues' registers read as before, and nothing but registers and synchronisers differs. -/
def OnlySyncs (d e : Dev) : Prop := SameRegs 0x00400000 0x00700000 d e ∧ ∃ r x, e = { d with regs := r, syncs := x }

namespace OnlySyncs

variable {d e f : Dev}

theorem refl (d : Dev) : OnlySyncs d d := ⟨.refl _ _ d, _, _, rfl⟩

theorem trans (h : OnlySyncs d e) (k : OnlySyncs e f) : OnlySyncs d f := by
  obtain ⟨hs, _, _, rfl⟩ := h
  obtain ⟨ks, r, x, rfl⟩ := k
  exact ⟨hs.trans ks, r, x, rfl⟩

theorem put (d : Dev) (x : Fld) (b : Bool) (ch : Nat) (h : x.off < 0x00400000 ∨ 0x00700000 ≤ x.off) : OnlySyncs d (d.put x b ch) :=
  ⟨.put _ _ _ _ h, _, _, rfl⟩

theorem raiseIf (d : Dev) (b : Bool) (x : Fld) (ch : Nat) (h : x.off < 0x00400000 ∨ 0x00700000 ≤ x.off) :
    OnlySyncs d (d.raiseIf b x ch) := by
  cases b
  · exact refl d
  · exact ⟨.raise _ _ _ h, _, _, rfl⟩

theorem setSync (d : Dev) (n : Nat) (u : SyncUnit) : OnlySyncs d (d.setSync n u) := ⟨.of_regs rfl, _, _, rfl⟩

theorem ite (c : Prop) [Decidable c] {x y : Dev} (h : OnlySyncs d x) (k : OnlySyncs d y) : OnlySyncs d (if c then x else y) := by
  split
  · exact h
  · exact k

theorem refreshHolding (d : Dev) (n : Nat) : OnlySyncs d (d.refreshHolding n) := by
  unfold Dev.refreshHolding
  extract_lets slot u h was a b
  have hb : OnlySyncs d b :=
    ((raiseIf d _ _ _ (.inr (by decide))).trans (raiseIf _ _ _ _ (.inr (by decide)))).trans (put _ _ _ _ (.inr (by decide)))
  exact ite _ hb (hb.trans (setSync ..))

theorem refreshPresence (d : Dev) (slot : Nat) (b : Bool) : OnlySyncs d (d.refreshPresence slot b) := by
  unfold Dev.refreshPresence
  extract_lets ok
  split
  · exact (put _ _ _ _ (.inl (by decide))).trans (put _ _ _ _ (.inl (by decide)))
  · next n _ =>
    extract_lets mm u a
    have ha : OnlySyncs d a := ite _ (setSync ..) (refl d)
    exact ((ha.trans (put _ _ _ _ (.inr (by decide)))).trans (put _ _ _ _ (.inl (by decide)))).trans (refreshHolding ..)

theorem get_flows (h : OnlySyncs d e) : e.flows = d.flows := by obtain ⟨-, _, _, rfl⟩ := h; rfl

end OnlySyncs

/-! ## What a bundle's operations leave of the contexts -/

/-- The registers of the contexts and of the cell memory read as before (Tables 7.11 to 7.16), and a context that does not run holds what it
held. -/
structure BdlWork (d e : Dev) : Prop where
  ctx : SameRegs 0x00500000 0x00508000 d e
  cells : SameRegs 0x00600000 0x00600100 d e
  flow : ∀ c, d.ctxRuns c = false → e.flow c = d.flow c

/-- A register beside those of the contexts and of the cell memory. -/
abbrev BesideCtx (off : Nat) : Prop := (off < 0x00500000 ∨ 0x00508000 ≤ off) ∧ (off < 0x00600000 ∨ 0x00600100 ≤ off)

theorem Dev.flow_of_flows {d e : Dev} (h : e.flows = d.flows) (c : Nat) : e.flow c = d.flow c := by rw [flow, flow, h]

theorem Dev.flow_setFlow_self (d : Dev) (c : Nat) (x : FlowCtx) : (d.setFlow c x).flow c = x := mapGet_mapPut_self ..

theorem Dev.flow_setFlow_ne (d : Dev) {c k : Nat} (x : FlowCtx) (h : k ≠ c) : (d.setFlow c x).flow k = d.flow k :=
  mapGet_mapPut_ne (fun e => h (Prod.mk.inj e).1) ..

namespace BdlWork

variable {d e f : Dev}

theorem refl (d : Dev) : BdlWork d d := ⟨.refl _ _ d, .refl _ _ d, fun _ _ => rfl⟩

theorem ctxRuns (h : BdlWork d e) (c : Nat) : e.ctxRuns c = d.ctxRuns c := by
  rw [Dev.ctxRuns, Dev.ctxRuns, Dev.flag, Dev.flag, h.ctx.get _ _ (by decide) (by decide)]

theorem trans (h : BdlWork d e) (k : BdlWork e f) : BdlWork d f :=
  ⟨h.ctx.trans k.ctx, h.cells.trans k.cells, fun c hc => (k.flow c ((h.ctxRuns c).trans hc)).trans (h.flow c hc)⟩

theorem set (d : Dev) (x : Fld) (v ch : Nat) (h : BesideCtx x.off) : BdlWork d (d.set x v ch) :=
  ⟨.set _ _ _ _ h.1, .set _ _ _ _ h.2, fun _ _ => rfl⟩

theorem put (d : Dev) (x : Fld) (b : Bool) (ch : Nat) (h : BesideCtx x.off) : BdlWork d (d.put x b ch) := set _ _ _ _ h
theorem raise (d : Dev) (x : Fld) (ch : Nat) (h : BesideCtx x.off) : BdlWork d (d.raise x ch) := set _ _ _ _ h

/-- A change of neither the registers nor the contexts. -/
theorem of_regs (h : e.regs = d.regs) (k : e.flows = d.flows) : BdlWork d e :=
  ⟨.of_regs h, .of_regs h, fun c _ => Dev.flow_of_flows k c⟩

theorem ite (c : Prop) [Decidable c] {x y : Dev} (h : BdlWork d x) (k : BdlWork d y) : BdlWork d (if c then x else y) := by
  split
  · exact h
  · exact k

/-- What a slot's presence changes. -/
theorem of_syncs (h : OnlySyncs d e) : BdlWork d e where
  ctx off ch a b := h.1 off ch (Nat.le_trans (by decide) a) (Nat.lt_trans b (by decide))
  cells off ch a b := h.1 off ch (Nat.le_trans (by decide) a) (Nat.lt_trans b (by decide))
  flow c _ := Dev.flow_of_flows h.get_flows c

end BdlWork

/-! ## The packets that a bundle's stop drops (log 102) -/

namespace Dev

/-- The packets of a context are dropped. -/
def dropPkts (d : Dev) (c : Nat) : Dev := d.setCells c { d.flow c with pkts := [], left := none }

/-- Those of the running contexts of a bundle are. -/
def dropHeld (d : Dev) (b : Nat) : Dev :=
  (d.running.filter fun c => decide (c < 4096) && d.bundleOf c == b).foldl dropPkts d

theorem setCells_regs {lo hi : Nat} (h : hi ≤ 0x00600120 ∨ 0x00600128 ≤ lo) (d : Dev) (c : Nat) (x : FlowCtx) :
    SameRegs lo hi d (d.setCells c x) := by
  have hs : SameRegs lo hi d (d.setFlow c x) := .of_regs rfl
  have hf : 0x00600120 < lo ∨ hi ≤ 0x00600120 := by omega
  exact ((hs.trans (.set _ _ _ _ hf)).trans (.put _ _ _ _ hf)).trans
    (.set _ _ _ _ (show 0x00600124 < lo ∨ hi ≤ 0x00600124 by omega))

theorem setCells_flow_ne (d : Dev) {c k : Nat} (x : FlowCtx) (h : k ≠ c) : (d.setCells c x).flow k = d.flow k := flow_setFlow_ne d x h

theorem dropPkts_flow_ne (d : Dev) {c k : Nat} (h : k ≠ c) : (d.dropPkts c).flow k = d.flow k := setCells_flow_ne d _ h

theorem foldl_dropPkts_flow {k : Nat} (l : List Nat) (h : k ∉ l) : ∀ d : Dev, (l.foldl dropPkts d).flow k = d.flow k := by
  induction l with
  | nil => exact fun _ => rfl
  | cons c l ih =>
    obtain ⟨hc, hl⟩ := not_or.1 (List.mem_cons.not.1 h)
    intro d
    rw [List.foldl_cons, ih hl, dropPkts_flow_ne d hc]

theorem dropHeld_regs {lo hi : Nat} (h : hi ≤ 0x00600120 ∨ 0x00600128 ≤ lo) (d : Dev) (b : Nat) : SameRegs lo hi d (d.dropHeld b) :=
  .foldl _ (fun _ _ => setCells_regs h _ _ _) _ _

theorem dropHeld_work (d : Dev) (b : Nat) : BdlWork d (d.dropHeld b) where
  ctx := dropHeld_regs (.inl (by decide)) d b
  cells := dropHeld_regs (.inl (by decide)) d b
  flow c hc := foldl_dropPkts_flow _ (fun m => by simp [running, hc] at m) d

/-! ## A bundle follows its EN and its format (R192, R216) -/

/-- The slot of a bundle is absent (R192). -/
def bdlGone (d : Dev) (b : Nat) : Dev :=
  ((d.put (FLW.BDL_STAT_PRESENT b) false).raise (FLW.BDL_EVT_ABSENT b)).refreshPresence (1152 + b) false

theorem bdlAbsent_eq (d : Dev) (b : Nat) : d.bdlAbsent b = if d.flag (FLW.BDL_STAT_PRESENT b) then d.bdlGone b else d := rfl

/-- A bundle starts, its shadows taking effect. -/
def bdlStart (d : Dev) (b : Nat) : Dev :=
  ((d.put (FLW.BDL_STAT_CFG_ERR b) false).put (FLW.BDL_STAT_RUN b) true).commit (0x00508004 + 16 * b) 0

/-- It no longer runs, and its slot is absent. -/
def bdlDown (d : Dev) (b : Nat) (err : Bool) : Dev := ((d.put (FLW.BDL_STAT_CFG_ERR b) err).put (FLW.BDL_STAT_RUN b) false).bdlAbsent b

/-- It holds nothing, and its raster stops. -/
def bdlEmpty (d : Dev) (b : Nat) : Dev := (d.setBdl b BdlUnit.init).genStop (1152 + b)

theorem bdlRefresh_eq (d : Dev) (b : Nat) : d.bdlRefresh b =
    if d.flag (FLW.BDL_CTL_EN b) && d.bdlFmtOk b then
      if d.flag (FLW.BDL_STAT_RUN b) then d.put (FLW.BDL_STAT_CFG_ERR b) false else d.bdlStart b
    else ((d.bdlDown b (d.flag (FLW.BDL_CTL_EN b))).bdlEmpty b).dropHeld b := rfl

end Dev

/-! A bundle's registers lie beside those of the contexts and of the cell memory. -/

theorem besideCtx_bdlStat {b : Nat} (hb : b < 512) : BesideCtx (0x00508008 + 16 * b) := by omega
theorem besideCtx_bdlEvt {b : Nat} (hb : b < 512) : BesideCtx (0x0050800C + 16 * b) := by omega

namespace BdlWork

variable {b : Nat} (hb : b < 512)
include hb

theorem bdlGone (d : Dev) : BdlWork d (d.bdlGone b) :=
  ((put _ _ _ _ (besideCtx_bdlStat hb)).trans (raise _ _ _ (besideCtx_bdlEvt hb))).trans
    (of_syncs (.refreshPresence ..))

theorem bdlAbsent (d : Dev) : BdlWork d (d.bdlAbsent b) := ite _ (bdlGone hb d) (refl d)

theorem refreshVideo (d : Dev) : BdlWork d (d.refreshVideo b) := put _ _ _ _ (besideCtx_bdlStat hb)

theorem bdlErr (d : Dev) (v : Bool) : BdlWork d (d.put (FLW.BDL_STAT_CFG_ERR b) v) := put _ _ _ _ (besideCtx_bdlStat hb)

theorem bdlRun (d : Dev) (v : Bool) : BdlWork d (d.put (FLW.BDL_STAT_RUN b) v) := put _ _ _ _ (besideCtx_bdlStat hb)

theorem bdlStart (d : Dev) : BdlWork d (d.bdlStart b) :=
  .trans (e := (d.put (FLW.BDL_STAT_CFG_ERR b) false).put (FLW.BDL_STAT_RUN b) true) ((bdlErr hb d _).trans (bdlRun hb _ _)) (of_regs rfl rfl)

theorem bdlDown (d : Dev) (err : Bool) : BdlWork d (d.bdlDown b err) := ((bdlErr hb d err).trans (bdlRun hb _ _)).trans (bdlAbsent hb _)

theorem bdlRefresh (d : Dev) : BdlWork d (d.bdlRefresh b) := by
  rw [Dev.bdlRefresh_eq]
  have hempty (e : Dev) : BdlWork e (e.bdlEmpty b) := of_regs rfl rfl
  exact ite _ (ite _ (bdlErr hb d _) (bdlStart hb d)) (((bdlDown hb d _).trans (hempty _)).trans (Dev.dropHeld_work ..))

end BdlWork

end Sys2Proof.Machine
end

section
/-!
Proofs, the start and the stop of a flow context (R181, R194, R196, R203, R204).
-/

namespace Sys2Proof.Machine

namespace Dev

/-! ## A write of CTX_CTL.EN changes no start check -/

/-- EN of a context is written. -/
def ctxEn (d : Dev) (c : Nat) (en : Bool) : Dev := d.put FLW.CTX_CTL_EN en c

section
variable (d : Dev) (c : Nat) (en : Bool)

theorem ctxEn_only : OnlyRegs d (d.ctxEn c en) := .put ..

theorem ctxEn_en : (d.ctxEn c en).get FLW.CTX_CTL_EN c = b2n en := (get_set_self _ _ _ _ (by decide)).trans (b2n_mod en)

theorem ctxEn_get {f : Fld} (h : BitsApart f FLW.CTX_CTL_EN) (ch : Nat) : (d.ctxEn c en).get f ch = d.get f ch := SameFld.set d _ _ c h ch

theorem ctxEn_reg {off : Nat} (h : off ≠ 0x00500100) (ch : Nat) : (d.ctxEn c en).reg off ch = d.reg off ch := reg_set_ne d _ _ (.inl h)

theorem ctxEn_ctxRuns (k : Nat) : (d.ctxEn c en).ctxRuns k = d.ctxRuns k := by
  rw [ctxRuns, ctxRuns, flag, flag, ctxEn_get _ _ _ (by decide)]

theorem ctxEn_running : (d.ctxEn c en).running = d.running := by
  rw [running, running, show (d.ctxEn c en).ctxRuns = d.ctxRuns from funext (d.ctxEn_ctxRuns c en), (d.ctxEn_only c en).get_flows]

theorem ctxEn_bundleOf (k : Nat) : (d.ctxEn c en).bundleOf k = d.bundleOf k := ctxEn_get _ _ _ (by decide) k

theorem ctxEn_role (k : Nat) : (d.ctxEn c en).role k = d.role k := ctxEn_get _ _ _ (by decide) k

theorem ctxEn_roleKind (k : Nat) : (d.ctxEn c en).roleKind k = d.roleKind k := by
  rw [roleKind, roleKind, ctxEn_role, ctxEn_get _ _ _ (by decide)]

theorem ctxEn_mediaBad (k : Nat) : (d.ctxEn c en).mediaBad k = d.mediaBad k := by
  simp (disch := decide) only [mediaBad, ctxEn_role, ctxEn_bundleOf, ctxEn_get]

theorem ctxEn_legDiffers (a b : Nat) : (d.ctxEn c en).legDiffers a b = d.legDiffers a b := by
  simp (disch := decide) only [legDiffers, List.any_cons, List.any_nil, ctxEn_get, ctxEn_reg]

theorem ctxEn_unicast (k : Nat) : (d.ctxEn c en).unicast k = d.unicast k := by
  rw [unicast, unicast, flag, flag, ctxEn_get _ _ _ (by decide), ctxEn_get _ _ _ (by decide)]

theorem ctxEn_ctxBad (k : Nat) : (d.ctxEn c en).ctxBad k = d.ctxBad k := by
  simp (disch := decide) only [ctxBad, ctxEn_running, ctxEn_bundleOf, ctxEn_role, ctxEn_roleKind, ctxEn_mediaBad, ctxEn_legDiffers,
    ctxEn_unicast, flag, ctxEn_get]

theorem ctxEn_egressWaits (k : Nat) : (d.ctxEn c en).egressWaits k = d.egressWaits k := by
  simp (disch := decide) only [egressWaits, outRuns, outFmt, ctxEn_bundleOf, flag, ctxEn_get]

end

/-! ## The start of a context -/

/-- A context that is refused (R181). -/
def ctxRefuse (d : Dev) (c : Nat) : Dev := (d.put FLW.CTX_STAT_CFG_ERR true c).raise FLW.CTX_EVT_CFG_ERR c

/-- Its status as it starts. -/
def ctxShow (d : Dev) (c : Nat) : Dev := (d.clear [FLW.CTX_STAT_CFG_ERR, FLW.CTX_STAT_QUOTA_ERR] c).put FLW.CTX_STAT_RUN true c

/-- A context runs and holds nothing yet. -/
def ctxBegin (d : Dev) (c : Nat) : Dev := ((d.ctxShow c).setFlow c { FlowCtx.init with run := true }).put QM.Q_STAT_RUN true c

/-- An ingress context takes its cells (R194), and its legs count as active (R192; log 55). -/
def takeCells (d : Dev) (c : Nat) : Dev :=
  let d := d.set QM.CELL_STAT_FREE (d.get QM.CELL_STAT_FREE - d.get QM.Q_QUOTA_CELLS c)
  let d := d.set FLW.CTX_STAT_LEG_ACT (b2n (d.legOn c 0) + 2 * b2n (d.legOn c 1)) c
  d.setFlow c { d.flow c with legAt := (d.cc, d.cc) }

/-- A bundle whose video context starts has played no frame of it. -/
def awaitVideo (d : Dev) (c : Nat) : Dev :=
  if d.role c ≤ 1 then d.setBdl (d.bundleOf c) { d.bdl (d.bundleOf c) with stamp := none, first := none, next := none } else d

/-- An egress flow's first leg to run draws the number of its first packet (log 2). -/
def drawSeq (d : Dev) (c : Nat) (fresh : Bool) : Dev :=
  if fresh then { d.draw.2 with flowSeq := mapPut d.draw.2.flowSeq ((c - 4096) / 2, 0) 0 (d.draw.1 % 2 ^ 32) } else d

variable {d : Dev} {c : Nat}

theorem ctxStart_bad (hr : d.ctxRuns c = false) (hb : d.ctxBad c = true) : d.ctxStart c = d.ctxRefuse c := by
  unfold ctxStart
  rw [if_neg (by simp [hr]), if_pos hb, ctxRefuse]

theorem ctxStart_ingress (hc : c < 4096) (hr : d.ctxRuns c = false) (hb : d.ctxBad c = false)
    (hq : d.get QM.Q_QUOTA_CELLS c ≤ d.get QM.CELL_STAT_FREE) : d.ctxStart c =
      ((((d.ctxBegin c).takeCells c).awaitVideo c).refreshVideo (((d.ctxBegin c).takeCells c).bundleOf c)).bdlRefresh
        (((d.ctxBegin c).takeCells c).bundleOf c) := by
  unfold ctxStart
  rw [if_neg (by simp [hr]), if_neg (by simp [hb]), if_neg (by simpa using fun _ => hq)]
  exact if_pos hc

theorem ctxStart_egress (hc : 4096 ≤ c) (hr : d.ctxRuns c = false) (hb : d.ctxBad c = false) : d.ctxStart c =
    ((d.ctxBegin c).put FLW.CTX_STAT_WAIT ((d.ctxBegin c).egressWaits c) c).drawSeq c (!(d.running.any fun x => partner x c)) := by
  unfold ctxStart
  rw [if_neg (by simp [hr]), if_neg (by simp [hb]), if_neg (by simp [Nat.not_lt.2 hc])]
  exact if_neg (Nat.not_lt.2 hc)

theorem ctxRefuse_only (d : Dev) (c : Nat) : OnlyRegs d (d.ctxRefuse c) := (OnlyRegs.put ..).trans (.raise ..)

theorem ctxRefuse_kept (d : Dev) (c : Nat) : RegsKept d (d.ctxRefuse c) [(0x005001A0, c), (0x005001A4, c)] :=
  (RegsKept.put d FLW.CTX_STAT_CFG_ERR true c (.head _)).trans (.raise _ _ _ (.tail _ (.head _)))

theorem ctxRefuse_reports (d : Dev) (c : Nat) : (d.ctxRefuse c).get FLW.CTX_STAT_RUN c = d.get FLW.CTX_STAT_RUN c ∧
    (d.ctxRefuse c).get FLW.CTX_STAT_CFG_ERR c = 1 ∧ (d.ctxRefuse c).get FLW.CTX_EVT_CFG_ERR c = 1 := by
  refine ⟨?_, ?_, get_set_self _ _ _ _ (by decide)⟩
  · exact (get_set_off _ _ _ _ _ _ (by decide)).trans (get_set_fld _ _ _ _ _ _ (by decide) (by decide))
  · exact (get_set_off _ _ _ _ _ _ (by decide)).trans (get_set_self _ _ _ _ (by decide))

/-! ## What the start shows -/

theorem ctxShow_kept (d : Dev) (c : Nat) : OffsKept d (d.ctxShow c) [0x005001A0] :=
  .of_kept (x := [(0x005001A0, c)])
    ((RegsKept.clear _ _ (by simp [FLW.CTX_STAT_CFG_ERR, FLW.CTX_STAT_QUOTA_ERR]) d).trans (.put _ _ _ _ (.head _))) (by simp)

theorem ctxBegin_kept (d : Dev) (c : Nat) : OffsKept d (d.ctxBegin c) [0x005001A0, 0x00600120] := by
  have hf : OffsKept (d.ctxShow c) ((d.ctxShow c).setFlow c { FlowCtx.init with run := true }) [0x005001A0] := .of_regs rfl
  exact ((d.ctxShow_kept c).trans hf |>.mono (by decide)).trans (.set _ _ _ _ (by decide))

theorem ctxBegin_run (d : Dev) (c : Nat) : (d.ctxBegin c).get FLW.CTX_STAT_RUN c = 1 :=
  (get_set_off _ _ _ _ _ _ (by decide)).trans (get_set_self _ _ _ _ (by decide))

/-- The quota leaves the cells that are free. -/
theorem takeCells_free {d : Dev} (c : Nat) : (d.takeCells c).get QM.CELL_STAT_FREE =
    (d.get QM.CELL_STAT_FREE - d.get QM.Q_QUOTA_CELLS c) % 2 ^ QM.CELL_STAT_FREE.w :=
  (get_set_off _ _ _ _ _ _ (by decide)).trans (get_set_self _ _ _ _ (by decide))

theorem takeCells_kept (d : Dev) (c : Nat) : OffsKept d (d.takeCells c) [0x00600008, 0x005001A0] :=
  .trans (e := (d.set QM.CELL_STAT_FREE (d.get QM.CELL_STAT_FREE - d.get QM.Q_QUOTA_CELLS c)).set FLW.CTX_STAT_LEG_ACT
      (b2n ((d.set QM.CELL_STAT_FREE (d.get QM.CELL_STAT_FREE - d.get QM.Q_QUOTA_CELLS c)).legOn c 0) +
        2 * b2n ((d.set QM.CELL_STAT_FREE (d.get QM.CELL_STAT_FREE - d.get QM.Q_QUOTA_CELLS c)).legOn c 1)) c)
    ((OffsKept.set _ _ _ _ (by decide)).trans (.set _ _ _ _ (by decide))) (.of_regs rfl)

theorem takeCells_run (d : Dev) (c : Nat) : (d.takeCells c).get FLW.CTX_STAT_RUN c = d.get FLW.CTX_STAT_RUN c :=
  (get_set_fld _ _ _ _ _ _ (by decide) (by decide)).trans (get_set_off _ _ _ _ _ _ (by decide))

theorem awaitVideo_work (d : Dev) (c : Nat) : BdlWork d (d.awaitVideo c) := .ite _ (.of_regs rfl rfl) (.refl d)

theorem drawSeq_get (d : Dev) (c : Nat) (fresh : Bool) (f : Fld) (ch : Nat) : (d.drawSeq c fresh).get f ch = d.get f ch := by
  cases fresh <;> rfl

theorem bundleOf_lt (d : Dev) (c : Nat) : d.bundleOf c < 512 := bitsOf_lt ..

/-- The waiting of an egress context follows its bundle and the output stage. -/
theorem egressWaits_kept {d e : Dev} (h : OffsKept d e [0x005001A0, 0x00600120]) (c : Nat) : e.egressWaits c = d.egressWaits c := by
  have hb : e.bundleOf c = d.bundleOf c := h.field _ _ (by decide)
  simp (disch := decide) only [egressWaits, outRuns, outFmt, hb, flag, h.field]

/-! ## The stop of a context (R194) -/

/-- A context's status as it stops. -/
def ctxHide (d : Dev) (c : Nat) : Dev := d.clear [FLW.CTX_STAT_RUN, FLW.CTX_STAT_WAIT, FLW.CTX_STAT_LEG_ACT] c

/-- Its queue's status. -/
def queueHide (d : Dev) (c : Nat) : Dev := d.clear [QM.Q_STAT_RUN, QM.Q_STAT_FILL, QM.Q_STAT_FULL] c

/-- It holds nothing. -/
def ctxEnd (d : Dev) (c : Nat) : Dev := ((d.ctxHide c).setFlow c FlowCtx.init).queueHide c

/-- Its quota is free again. -/
def freeCells (d : Dev) (c : Nat) : Dev := d.set QM.CELL_STAT_FREE (d.get QM.CELL_STAT_FREE + d.get QM.Q_QUOTA_CELLS c)

/-- VIDEO of a bundle, and the bundle of a context, follow a change of the context. -/
def ctxFollow (d : Dev) (b c : Nat) : Dev := (d.refreshVideo b).bdlRefresh ((d.refreshVideo b).bundleOf c)

theorem ctxStop_ingress (hc : c < 4096) (hr : d.ctxRuns c = true) :
    d.ctxStop c = ((d.ctxEnd c).freeCells c).ctxFollow ((d.ctxEnd c).bundleOf c) c := by
  unfold ctxStop
  rw [if_pos hr]
  exact if_pos hc

theorem ctxHide_kept (d : Dev) (c : Nat) : OffsKept d (d.ctxHide c) [0x005001A0] :=
  .of_kept (x := [(0x005001A0, c)]) (.clear _ _ (by simp [FLW.CTX_STAT_RUN, FLW.CTX_STAT_WAIT, FLW.CTX_STAT_LEG_ACT]) d) (by simp)

theorem queueHide_kept (d : Dev) (c : Nat) : OffsKept d (d.queueHide c) [0x00600120] :=
  .of_kept (x := [(0x00600120, c)]) (.clear _ _ (by simp [QM.Q_STAT_RUN, QM.Q_STAT_FILL, QM.Q_STAT_FULL]) d) (by simp)

theorem ctxEnd_kept (d : Dev) (c : Nat) : OffsKept d (d.ctxEnd c) [0x005001A0, 0x00600120] := by
  have hf : OffsKept (d.ctxHide c) ((d.ctxHide c).setFlow c FlowCtx.init) [0x005001A0] := .of_regs rfl
  exact (((d.ctxHide_kept c).trans hf).mono (by decide)).trans ((queueHide_kept _ c).mono (by decide))

theorem ctxEnd_run (d : Dev) (c : Nat) : (d.ctxEnd c).get FLW.CTX_STAT_RUN c = 0 :=
  ((queueHide_kept _ c).field _ _ (by decide)).trans (get_clear_zero (by decide) c _ (by decide) d (.inl (.head _)))

theorem ctxEnd_flow (d : Dev) (c : Nat) : (d.ctxEnd c).flow c = FlowCtx.init :=
  (flow_of_flows (OnlyRegs.clear ..).get_flows c).trans (flow_setFlow_self ..)

theorem freeCells_flow (d : Dev) (c : Nat) : (d.freeCells c).flow c = d.flow c := flow_of_flows (OnlyRegs.set ..).get_flows c

/-- What follows the change of a context leaves its registers, the free cells, and what a stopped context holds. -/
theorem ctxFollow_work (d : Dev) {b : Nat} (hb : b < 512) (c : Nat) : BdlWork d (d.ctxFollow b c) :=
  (BdlWork.refreshVideo hb d).trans (.bdlRefresh (bundleOf_lt _ c) _)

/-- What an ingress context's start leaves once its cells are taken. -/
theorem ctxStart_work (d : Dev) (c : Nat) : BdlWork (d.takeCells c)
    ((((d.takeCells c).awaitVideo c).refreshVideo ((d.takeCells c).bundleOf c)).bdlRefresh ((d.takeCells c).bundleOf c)) :=
  ((awaitVideo_work _ c).trans (.refreshVideo (bundleOf_lt _ c) _)).trans (.bdlRefresh (bundleOf_lt _ c) _)

end Dev

/-! ## The command -/

section
variable {c : Ctx} {s : State}

theorem exec_contextEnable_start (c : Ctx) (s : State) :
    exec (.contextEnable c true) s = s.go fun d => (d.ctxEn c true).ctxStart c := rfl

theorem exec_contextEnable_stop (c : Ctx) (s : State) :
    exec (.contextEnable c false) s = s.go fun d => (d.ctxEn c false).ctxStop c := rfl

/-- CONTEXT_ENABLE, an ingress context whose checks pass and whose quota is free. -/
theorem runsTo_contextEnable_ingress (hc : c.val < 4096) (hr : s.dev.ctxRuns c = false) (hb : s.dev.ctxBad c = false)
    (hq : s.dev.get QM.Q_QUOTA_CELLS c ≤ s.dev.get QM.CELL_STAT_FREE) :
    RunsTo (.contextEnable c true) s fun d => d.get FLW.CTX_STAT_RUN c = 1 ∧ d.get FLW.CTX_CTL_EN c = 1 ∧
      d.get QM.CELL_STAT_FREE = s.dev.get QM.CELL_STAT_FREE - s.dev.get QM.Q_QUOTA_CELLS c := by
  have hget (f : Fld) (h : BitsApart f FLW.CTX_CTL_EN) (ch : Nat) := s.dev.ctxEn_get c true h ch
  refine runsTo_go (exec_contextEnable_start c s) (Dev.ctxStart_ingress hc ((s.dev.ctxEn_ctxRuns c true c).trans hr)
    ((s.dev.ctxEn_ctxBad c true c).trans hb) (by rwa [hget _ (by decide), hget _ (by decide)])) ?_
  have hw := Dev.ctxStart_work ((s.dev.ctxEn c true).ctxBegin c) c
  have hbegin := (s.dev.ctxEn c true).ctxBegin_kept c
  have htake := ((s.dev.ctxEn c true).ctxBegin c).takeCells_kept c
  refine ⟨?_, ?_, ?_⟩
  · exact (hw.ctx.get _ _ (by decide) (by decide)).trans ((Dev.takeCells_run ..).trans (Dev.ctxBegin_run ..))
  · exact (hw.ctx.get _ _ (by decide) (by decide)).trans ((htake.field _ _ (by decide)).trans
      ((hbegin.field _ _ (by decide)).trans (Dev.ctxEn_en ..)))
  · rw [hw.cells.get _ _ (by decide) (by decide), Dev.takeCells_free, hbegin.field _ _ (by decide), hbegin.field _ _ (by decide),
      hget _ (by decide), hget _ (by decide)]
    exact Nat.mod_eq_of_lt (Nat.lt_of_le_of_lt (Nat.sub_le ..) (bitsOf_lt ..))

/-- CONTEXT_ENABLE, an egress context whose checks pass. -/
theorem runsTo_contextEnable_egress (hc : 4096 ≤ c.val) (hr : s.dev.ctxRuns c = false) (hb : s.dev.ctxBad c = false) :
    RunsTo (.contextEnable c true) s fun d => d.get FLW.CTX_STAT_RUN c = 1 ∧ d.get FLW.CTX_CTL_EN c = 1 ∧
      d.get FLW.CTX_STAT_WAIT c = b2n (s.dev.egressWaits c) := by
  have hbegin := (s.dev.ctxEn c true).ctxBegin_kept c
  refine runsTo_go (exec_contextEnable_start c s) (Dev.ctxStart_egress hc ((s.dev.ctxEn_ctxRuns c true c).trans hr)
    ((s.dev.ctxEn_ctxBad c true c).trans hb)) ?_
  refine ⟨(Dev.drawSeq_get ..).trans ?_, (Dev.drawSeq_get ..).trans ?_, (Dev.drawSeq_get ..).trans ?_⟩
  · exact (Dev.get_set_fld _ _ _ _ _ _ (by decide) (by decide)).trans (Dev.ctxBegin_run ..)
  · exact (Dev.get_set_off _ _ _ _ _ _ (by decide)).trans ((hbegin.field _ _ (by decide)).trans (Dev.ctxEn_en ..))
  · rw [Dev.put_eq, Dev.get_set_self _ _ _ _ (by decide), Dev.egressWaits_kept hbegin, Dev.ctxEn_egressWaits]
    exact b2n_mod _

/-- CONTEXT_ENABLE, a context that fails a check. -/
theorem regsTo_contextEnable_refused (hr : s.dev.get FLW.CTX_STAT_RUN c = 0) (hb : s.dev.ctxBad c = true) :
    RegsTo (.contextEnable c true) s fun d => d.get FLW.CTX_STAT_RUN c = 0 ∧ d.get FLW.CTX_STAT_CFG_ERR c = 1 ∧
      d.get FLW.CTX_EVT_CFG_ERR c = 1 ∧
      RegsKept s.dev d [(0x00500100, c.val), (0x005001A0, c.val), (0x005001A4, c.val)] := by
  have he : (s.dev.ctxEn c true).ctxStart c = (s.dev.ctxEn c true).ctxRefuse c :=
    Dev.ctxStart_bad ((s.dev.ctxEn_ctxRuns c true c).trans (Dev.flag_of_get_zero hr)) ((s.dev.ctxEn_ctxBad c true c).trans hb)
  obtain ⟨hrun, herr, hevt⟩ := (s.dev.ctxEn c true).ctxRefuse_reports c
  refine regsTo_go (exec_contextEnable_start c s) ?_ ?_ <;> rw [he]
  · exact (s.dev.ctxEn_only c true).trans (Dev.ctxRefuse_only ..)
  · exact ⟨hrun.trans ((s.dev.ctxEn_get c true (by decide) c).trans hr), herr, hevt,
      (RegsKept.put _ _ _ _ (.head _)).trans ((Dev.ctxRefuse_kept _ _).mono (List.subset_cons_self ..))⟩

/-- CONTEXT_ENABLE, the stop of a running ingress context. -/
theorem runsTo_contextEnable_stops (hc : c.val < 4096) (hr : s.dev.ctxRuns c = true) :
    RunsTo (.contextEnable c false) s fun d => d.get FLW.CTX_STAT_RUN c = 0 ∧ d.flow c = FlowCtx.init ∧
      d.get QM.CELL_STAT_FREE = (s.dev.get QM.CELL_STAT_FREE + s.dev.get QM.Q_QUOTA_CELLS c) % 2 ^ 19 := by
  have hget (f : Fld) (h : BitsApart f FLW.CTX_CTL_EN) (ch : Nat) := s.dev.ctxEn_get c false h ch
  refine runsTo_go (exec_contextEnable_stop c s) (Dev.ctxStop_ingress hc ((s.dev.ctxEn_ctxRuns c false c).trans hr)) ?_
  have hw := (((s.dev.ctxEn c false).ctxEnd c).freeCells c).ctxFollow_work (Dev.bundleOf_lt ((s.dev.ctxEn c false).ctxEnd c) c) c
  have hend := (s.dev.ctxEn c false).ctxEnd_kept c
  have hrun : (((s.dev.ctxEn c false).ctxEnd c).freeCells c).get FLW.CTX_STAT_RUN c = 0 :=
    (Dev.get_set_off _ _ _ _ _ _ (by decide)).trans (Dev.ctxEnd_run ..)
  refine ⟨?_, ?_, ?_⟩
  · exact (hw.ctx.get _ _ (by decide) (by decide)).trans hrun
  · exact (hw.flow c (Dev.flag_of_get_zero hrun)).trans ((Dev.freeCells_flow ..).trans (Dev.ctxEnd_flow ..))
  · rw [hw.cells.get _ _ (by decide) (by decide), Dev.freeCells, Dev.get_set_self _ _ _ _ (by decide), hend.field _ _ (by decide),
      hend.field _ _ (by decide), hget _ (by decide), hget _ (by decide)]
    rfl

end

end Sys2Proof.Machine
end

section
/-!
Proofs, bundles: their start and stop, the presence of their slots, the frame that their raster plays next, and a leg that falls silent (R185,
R186, R188, R192, R216); with them the obligation on flow contexts.
-/

namespace Sys2Proof.Machine

/-! The registers of a bundle are apart, and lie in the window that a slot's presence leaves alone. -/

theorem bdlStat_ne_ctl (b : Nat) : 0x00508008 + 16 * b ≠ 0x00508000 + 16 * b := by omega
theorem bdlStat_ne_evt (b : Nat) : 0x00508008 + 16 * b ≠ 0x0050800C + 16 * b := by omega
theorem bdlCtl_ne_stat (b : Nat) : 0x00508000 + 16 * b ≠ 0x00508008 + 16 * b := by omega
theorem bdlCtl_ne_evt (b : Nat) : 0x00508000 + 16 * b ≠ 0x0050800C + 16 * b := by omega
theorem bdlPlay_ne_ctl (b : Nat) : 0x00508004 + 16 * b ≠ 0x00508000 + 16 * b := by omega
theorem bdlPlay_ne_stat (b : Nat) : 0x00508004 + 16 * b ≠ 0x00508008 + 16 * b := by omega

theorem besideCtx_bdlCtl {b : Nat} (hb : b < 512) : BesideCtx (0x00508000 + 16 * b) := by omega

theorem bdlCtl_below {b : Nat} (hb : b < 512) : 0x00508000 + 16 * b < 0x00600120 := by omega
theorem bdlStat_below {b : Nat} (hb : b < 512) : 0x00508008 + 16 * b < 0x00600120 := by omega

/-- An offset among the MACs', the flows' and the queues' registers. -/
abbrev MidWindow (off : Nat) : Prop := 0x00400000 ≤ off ∧ off < 0x00700000

theorem midWindow_bdlCtl {b : Nat} (hb : b < 512) : MidWindow (0x00508000 + 16 * b) := by omega
theorem midWindow_bdlStat {b : Nat} (hb : b < 512) : MidWindow (0x00508008 + 16 * b) := by omega
theorem midWindow_bdlEvt {b : Nat} (hb : b < 512) : MidWindow (0x0050800C + 16 * b) := by omega

theorem OnlySyncs.get {d e : Dev} (h : OnlySyncs d e) (f : Fld) (ch : Nat) (m : MidWindow f.off) : e.get f ch = d.get f ch :=
  h.1.get f ch m.1 m.2

namespace Dev

variable {d : Dev} {b : Nat}

/-! ## The start of a bundle (R216) -/

/-- EN of a bundle is written. -/
def bdlEn (d : Dev) (b : Nat) (en : Bool) : Dev := d.put (FLW.BDL_CTL_EN b) en

theorem bdlEn_only (d : Dev) (b : Nat) (en : Bool) : OnlyRegs d (d.bdlEn b en) := .put ..

theorem bdlEnable_eq (d : Dev) (b : Nat) (en : Bool) : d.bdlEnable b en = (d.bdlEn b en).bdlRefresh b := rfl

theorem bdlEn_en (d : Dev) (b : Nat) (en : Bool) : (d.bdlEn b en).get (FLW.BDL_CTL_EN b) = b2n en :=
  (get_set_self _ _ _ _ (show 0 + 1 ≤ 32 by decide)).trans (b2n_mod en)

theorem bdlEn_stat (d : Dev) (b : Nat) (en : Bool) {f : Fld} (h : f.off = 0x00508008 + 16 * b) : (d.bdlEn b en).get f = d.get f :=
  get_set_off _ _ _ _ _ _ (h ▸ bdlStat_ne_ctl b)

theorem bdlEn_fmt (d : Dev) (b : Nat) (en : Bool) : (d.bdlEn b en).get (FLW.BDL_CTL_FMT b) = d.get (FLW.BDL_CTL_FMT b) :=
  get_set_fld _ _ _ _ _ _ (show 0 + 1 ≤ 32 by decide) (.inl (show 0 + 1 ≤ 8 by decide))

theorem bdlEn_work (hb : b < 512) (d : Dev) (en : Bool) : BdlWork d (d.bdlEn b en) := .put _ _ _ _ (besideCtx_bdlCtl hb)

theorem bdlEn_running (hb : b < 512) (d : Dev) (en : Bool) : (d.bdlEn b en).running = d.running := by
  rw [running, running, show (d.bdlEn b en).ctxRuns = d.ctxRuns from funext (bdlEn_work hb d en).ctxRuns,
    (bdlEn_only d b en).get_flows]

/-- Without ST 2022-6 video in it, a bundle takes every format of Table 3.2. -/
theorem bdlEn_fmtOk (hb : b < 512) (en : Bool) (hf : fmtValid (d.get (FLW.BDL_CTL_FMT b)) = true)
    (hs : ∀ c ∈ d.running, ¬(c < 4096 ∧ d.bundleOf c = b ∧ d.role c = 1)) : (d.bdlEn b en).bdlFmtOk b = true := by
  have hw := bdlEn_work hb d en
  have hbun (c : Nat) : (d.bdlEn b en).bundleOf c = d.bundleOf c := hw.ctx.get _ _ (by decide) (by decide)
  have hrole (c : Nat) : (d.bdlEn b en).role c = d.role c := hw.ctx.get _ _ (by decide) (by decide)
  have hsdi : ((d.bdlEn b en).running.any fun c => decide (c < 4096) && (d.bdlEn b en).bundleOf c == b && (d.bdlEn b en).role c == 1) = false := by
    rw [bdlEn_running hb, List.any_eq_false]
    intro c hc
    simpa [hbun, hrole, and_assoc] using hs c hc
  rw [bdlFmtOk, bdlEn_fmt, hf, hsdi]
  rfl

theorem bdlEnable_starts (he : (d.bdlEn b true).bdlFmtOk b = true) (hr : d.flag (FLW.BDL_STAT_RUN b) = false) :
    d.bdlEnable b true = (d.bdlEn b true).bdlStart b := by
  have hen : (d.bdlEn b true).flag (FLW.BDL_CTL_EN b) = true := flag_of_get_one (bdlEn_en d b true)
  have hrun : ¬(d.bdlEn b true).flag (FLW.BDL_STAT_RUN b) = true := by
    rw [flag, bdlEn_stat d b true rfl, ← flag, hr]
    decide
  rw [bdlEnable_eq, bdlRefresh_eq, if_pos (by rw [hen, he]; rfl), if_neg hrun]

theorem get_commit (d : Dev) (off ch : Nat) (f : Fld) (ch' : Nat) : (d.commit off ch).get f ch' = d.get f ch' := (rfl)

/-- What the start shows, and the shadows that it takes. -/
theorem bdlStart_shows (d : Dev) (b : Nat) : (d.bdlStart b).get (FLW.BDL_STAT_RUN b) = 1 ∧ (d.bdlStart b).get (FLW.BDL_STAT_CFG_ERR b) = 0 ∧
    (d.bdlStart b).actReg (0x00508004 + 16 * b) 0 = d.reg (0x00508004 + 16 * b) 0 := by
  refine ⟨(get_commit ..).trans ?_, (get_commit ..).trans ?_, ?_⟩
  · exact get_set_self _ _ _ _ (show 0 + 1 ≤ 32 by decide)
  · exact (get_set_fld _ _ _ _ _ _ (show 0 + 1 ≤ 32 by decide) (.inl (show 0 + 1 ≤ 3 by decide))).trans
      (get_set_self _ _ _ _ (show 3 + 1 ≤ 32 by decide))
  · exact (actReg_commit_self ..).trans ((reg_set_ne _ _ _ (.inl (bdlPlay_ne_stat b))).trans (reg_set_ne _ _ _ (.inl (bdlPlay_ne_stat b))))

/-! ## The presence of a bundle's slot (R192) -/

/-- An event and the slot's presence leave the bundle's status alone. -/
theorem bdlGone_present (hb : b < 512) (d : Dev) : (d.bdlGone b).get (FLW.BDL_STAT_PRESENT b) = 0 :=
  ((OnlySyncs.refreshPresence ..).get _ _ (midWindow_bdlStat hb)).trans ((get_set_off _ _ _ _ _ _ (bdlStat_ne_evt b)).trans
    (get_set_self _ _ _ _ (show 1 + 1 ≤ 32 by decide)))

theorem bdlGone_absent (hb : b < 512) (d : Dev) : (d.bdlGone b).get (FLW.BDL_EVT_ABSENT b) = 1 :=
  ((OnlySyncs.refreshPresence ..).get _ _ (midWindow_bdlEvt hb)).trans (get_set_self _ _ _ _ (show 0 + 1 ≤ 32 by decide))

theorem bdlGone_run (hb : b < 512) (d : Dev) : (d.bdlGone b).get (FLW.BDL_STAT_RUN b) = d.get (FLW.BDL_STAT_RUN b) :=
  ((OnlySyncs.refreshPresence ..).get _ _ (midWindow_bdlStat hb)).trans ((get_set_off _ _ _ _ _ _ (bdlStat_ne_evt b)).trans
    (get_set_fld _ _ _ _ _ _ (show 1 + 1 ≤ 32 by decide) (.inr (show 0 + 1 ≤ 1 by decide))))

theorem bdlGone_en (hb : b < 512) (d : Dev) : (d.bdlGone b).get (FLW.BDL_CTL_EN b) = d.get (FLW.BDL_CTL_EN b) :=
  ((OnlySyncs.refreshPresence ..).get _ _ (midWindow_bdlCtl hb)).trans ((get_set_off _ _ _ _ _ _ (bdlCtl_ne_evt b)).trans
    (get_set_off _ _ _ _ _ _ (bdlCtl_ne_stat b)))

/-- Without a synchroniser at the slot, its presence is that of its input. -/
theorem refreshPresence_none {slot : Nat} (h : d.syncAt slot = none) (ls : Bool) : d.refreshPresence slot ls =
    (d.put SLP.IN_STAT_SRC_ABSENT false slot).put SLP.IN_STAT_PRESENT (d.inputOk slot && (ls || d.flag SLP.IN_STAT_PRESENT slot)) slot := by
  unfold refreshPresence
  rw [h]

/-- The slot of a bundle that is absent has no input. -/
theorem inputOk_bundle (h : d.get (FLW.BDL_STAT_PRESENT b) = 0) : d.inputOk (1152 + b) = false := by
  unfold inputOk
  rw [if_neg (by omega), Nat.add_sub_cancel_left]
  exact flag_of_get_zero h

theorem bdlGone_slot (h : d.syncAt (1152 + b) = none) : (d.bdlGone b).get SLP.IN_STAT_PRESENT (1152 + b) = 0 := by
  have hz : ((d.put (FLW.BDL_STAT_PRESENT b) false).raise (FLW.BDL_EVT_ABSENT b)).get (FLW.BDL_STAT_PRESENT b) = 0 :=
    (get_set_off _ _ _ _ _ _ (bdlStat_ne_evt b)).trans (get_set_self _ _ _ _ (show 1 + 1 ≤ 32 by decide))
  have hn : ((d.put (FLW.BDL_STAT_PRESENT b) false).raise (FLW.BDL_EVT_ABSENT b)).syncAt (1152 + b) = none := h
  rw [bdlGone, refreshPresence_none hn, inputOk_bundle hz]
  exact get_set_self _ _ _ _ (by decide)

theorem bdlAbsent_gone (h : d.get (FLW.BDL_STAT_PRESENT b) = 1) : d.bdlAbsent b = d.bdlGone b :=
  (bdlAbsent_eq d b).trans (if_pos (flag_of_get_one h))

/-- A slot that becomes absent, or was so. -/
theorem bdlAbsent_stops (hb : b < 512) (d : Dev) : (d.bdlAbsent b).get (FLW.BDL_STAT_PRESENT b) = 0 ∧
    (d.bdlAbsent b).get (FLW.BDL_STAT_RUN b) = d.get (FLW.BDL_STAT_RUN b) ∧ (d.bdlAbsent b).get (FLW.BDL_CTL_EN b) = d.get (FLW.BDL_CTL_EN b) := by
  rw [bdlAbsent_eq]
  split
  · exact ⟨bdlGone_present hb d, bdlGone_run hb d, bdlGone_en hb d⟩
  · next h => exact ⟨by simpa [flag] using h, rfl, rfl⟩

/-- A complete line makes an absent slot present. -/
theorem bdlPresent_shows (hb : b < 512) (hg : (d.bdl b).good = true) (hp : d.get (FLW.BDL_STAT_PRESENT b) = 0) :
    (d.bdlPresent b).get (FLW.BDL_STAT_PRESENT b) = 1 ∧ (d.bdlPresent b).get (FLW.BDL_EVT_PRESENT b) = 1 := by
  have he : d.bdlPresent b = ((d.put (FLW.BDL_STAT_PRESENT b) true).raise (FLW.BDL_EVT_PRESENT b)).refreshPresence (1152 + b) true :=
    if_pos (by rw [hg, flag_of_get_zero hp]; rfl)
  have hs := OnlySyncs.refreshPresence ((d.put (FLW.BDL_STAT_PRESENT b) true).raise (FLW.BDL_EVT_PRESENT b)) (1152 + b) true
  rw [he, hs.get _ _ (midWindow_bdlStat hb), hs.get _ _ (midWindow_bdlEvt hb)]
  exact ⟨(get_set_off _ _ _ _ _ _ (bdlStat_ne_evt b)).trans (get_set_self _ _ _ _ (show 1 + 1 ≤ 32 by decide)),
    get_set_self _ _ _ _ (show 1 + 1 ≤ 32 by decide)⟩

/-! ## The stop of a bundle -/

theorem bdlEnable_stops (d : Dev) (b : Nat) : d.bdlEnable b false = (((d.bdlEn b false).bdlDown b false).bdlEmpty b).dropHeld b := by
  have hen : (d.bdlEn b false).flag (FLW.BDL_CTL_EN b) = false := flag_of_get_zero (bdlEn_en d b false)
  rw [bdlEnable_eq, bdlRefresh_eq, if_neg (by rw [hen]; exact Bool.false_ne_true), hen]

theorem bdlDown_shows (hb : b < 512) (d : Dev) (err : Bool) : (d.bdlDown b err).get (FLW.BDL_STAT_RUN b) = 0 ∧
    (d.bdlDown b err).get (FLW.BDL_STAT_PRESENT b) = 0 ∧ (d.bdlDown b err).get (FLW.BDL_CTL_EN b) = d.get (FLW.BDL_CTL_EN b) := by
  obtain ⟨hp, hr, he⟩ := bdlAbsent_stops hb ((d.put (FLW.BDL_STAT_CFG_ERR b) err).put (FLW.BDL_STAT_RUN b) false)
  exact ⟨hr.trans (get_set_self _ _ _ _ (show 0 + 1 ≤ 32 by decide)), hp, he.trans ((get_set_off _ _ _ _ _ _ (bdlCtl_ne_stat b)).trans
    (get_set_off _ _ _ _ _ _ (bdlCtl_ne_stat b)))⟩

/-- What a bundle holds, once dropped, leaves its status. -/
theorem bdlDrop_get (d : Dev) (b : Nat) {f : Fld} (hf : f.off < 0x00600120) : ((d.bdlEmpty b).dropHeld b).get f = d.get f :=
  (dropHeld_regs (.inl (Nat.le_refl _)) (d.bdlEmpty b) b).get f 0 (Nat.zero_le _) hf

/-! ## The frame that a bundle's raster plays next (R185, R186, R188) -/

/-- The target instant of a frame with a timestamp: PLAY_DELAY after its reference instant. -/
def frameTarget (d : Dev) (b c stamp : Nat) (delay : Nat) : Int :=
  d.refInst b (d.rtpInst stamp (clockTu (d.role c == 1))) (clockTu (d.role c == 1)) - d.resTu + nsTu (delay * 100 : Nat)

/-- A running raster would reach a target instant more than a line away. -/
def frameJumps (g : SrcGen) (f : Fmt) (target : Int) : Bool :=
  g.run && decide ((target - (g.frameT + periodTu (f.num, f.den))).natAbs > lineTu f)

/-- A frame is chosen: it is the bundle's next, and the raster's target is its own. -/
def playNext (d : Dev) (b : Nat) (f : Fmt) (x : Nat × Option Nat) (target : Int) : Dev :=
  let g := d.genOf (1152 + b)
  let e := (d.setBdl b { d.bdl b with next := some x }).raiseIf (frameJumps g f target) (FLW.BDL_EVT_STEP b)
  e.setGenOf (1152 + b) { g with code := e.get (FLW.BDL_CTL_FMT b), target := target,
                                 resume := if !g.run || frameJumps g f target then some target else g.resume }

variable {d : Dev} {b c : Nat} {f : Fmt} {x : Nat × Option Nat}

/-- The active copy, once the shadow is committed. -/
theorem getAct_commit (d : Dev) (b : Nat) :
    (d.commit (0x00508004 + 16 * b) 0).getAct (FLW.BDL_PLAY_PLAY_DELAY b) = d.get (FLW.BDL_PLAY_PLAY_DELAY b) :=
  congrArg (bitsOf · 0 16) (actReg_commit_self d _ 0)

theorem bdlFrame_eq (hv : d.videoCtx b = some c) (hf : d.bdlFmt b = some f) (hr : d.flag (FLW.BDL_STAT_RUN b) = true)
    (hx : d.nextFrame b c f = some x) : d.bdlFrame b =
      (d.commit (0x00508004 + 16 * b) 0).playNext b f x (d.frameTarget b c x.1 (d.get (FLW.BDL_PLAY_PLAY_DELAY b))) := by
  rw [← getAct_commit]
  unfold bdlFrame
  rw [hv, hf]
  dsimp only
  rw [if_pos hr, hx]
  rfl

/-- What a choice leaves but for STEP. -/
theorem playNext_act (d : Dev) (b : Nat) (f : Fmt) (x : Nat × Option Nat) (target : Int) :
    (d.playNext b f x target).act = d.act :=
  (OnlyRegs.raiseIf (d.setBdl b { d.bdl b with next := some x }) _ _ _).get_act

theorem playNext_next (d : Dev) (b : Nat) (f : Fmt) (x : Nat × Option Nat) (target : Int) :
    ((d.playNext b f x target).bdl b).next = some x := by
  have hb : (d.playNext b f x target).bdls = (d.setBdl b { d.bdl b with next := some x }).bdls :=
    (OnlyRegs.raiseIf (d.setBdl b { d.bdl b with next := some x }) _ _ _).get_bdls
  rw [bdl, hb, setBdl, mapGet_mapPut_self]

theorem playNext_gen (d : Dev) (b : Nat) (f : Fmt) (x : Nat × Option Nat) (target : Int) :
    ((d.playNext b f x target).genOf (1152 + b)).target = target ∧
    ((d.playNext b f x target).genOf (1152 + b)).resume =
      if !(d.genOf (1152 + b)).run || frameJumps (d.genOf (1152 + b)) f target then some target else (d.genOf (1152 + b)).resume := by
  unfold playNext genOf setGenOf
  rw [mapGet_mapPut_self]
  exact ⟨rfl, rfl⟩

theorem playNext_step (d : Dev) (b : Nat) {f : Fmt} (x : Nat × Option Nat) {target : Int}
    (h : frameJumps (d.genOf (1152 + b)) f target = true) : (d.playNext b f x target).get (FLW.BDL_EVT_STEP b) = 1 := by
  have hr : (d.playNext b f x target).get (FLW.BDL_EVT_STEP b) =
      ((d.setBdl b { d.bdl b with next := some x }).raiseIf (frameJumps (d.genOf (1152 + b)) f target) (FLW.BDL_EVT_STEP b)).get
        (FLW.BDL_EVT_STEP b) := rfl
  rw [hr, h]
  exact get_set_self _ _ _ _ (show 2 + 1 ≤ 32 by decide)

/-! ## A leg that falls silent (R192) -/

/-- A leg is lost. -/
def loseLeg (d : Dev) (c : Nat) (leg : Fin 2) : Dev :=
  (d.putBit FLW.CTX_STAT_LEG_ACT leg false c).raise (if leg.val = 0 then FLW.CTX_EVT_LEG_LOSS_0 else FLW.CTX_EVT_LEG_LOSS_1) c

/-- The event of a leg's loss, an event of its context. -/
theorem legLoss_off (leg : Fin 2) : (if leg.val = 0 then FLW.CTX_EVT_LEG_LOSS_0 else FLW.CTX_EVT_LEG_LOSS_1).off = 0x005001A4 := by
  split <;> rfl

theorem legLoss_in (leg : Fin 2) : (if leg.val = 0 then FLW.CTX_EVT_LEG_LOSS_0 else FLW.CTX_EVT_LEG_LOSS_1).lo +
    (if leg.val = 0 then FLW.CTX_EVT_LEG_LOSS_0 else FLW.CTX_EVT_LEG_LOSS_1).w ≤ 32 := by
  split <;> decide

theorem testBit_withoutLeg : ∀ v < 2 ^ 2, ∀ leg : Fin 2, v.testBit leg = true → ((v - 2 ^ leg.val) % 2 ^ 2).testBit leg = false := by decide

theorem loseLeg_only (d : Dev) (c : Nat) (leg : Fin 2) : OnlyRegs d (d.loseLeg c leg) := (OnlyRegs.putBit ..).trans (.raise ..)

theorem loseLeg_kept (d : Dev) (c : Nat) (leg : Fin 2) : RegsKept d (d.loseLeg c leg) [(0x005001A0, c), (0x005001A4, c)] :=
  (RegsKept.putBit _ _ _ _ _ (.head _)).trans (.raise _ _ _ (by rw [legLoss_off]; exact .tail _ (.head _)))

theorem loseLeg_event (d : Dev) (c : Nat) (leg : Fin 2) :
    (d.loseLeg c leg).get (if leg.val = 0 then FLW.CTX_EVT_LEG_LOSS_0 else FLW.CTX_EVT_LEG_LOSS_1) c = 1 := by
  have hw : (if leg.val = 0 then FLW.CTX_EVT_LEG_LOSS_0 else FLW.CTX_EVT_LEG_LOSS_1).w = 1 := by split <;> rfl
  exact (get_set_self _ _ _ _ (legLoss_in leg)).trans (by rw [hw]; rfl)

theorem loseLeg_act {leg : Fin 2} (h : (d.get FLW.CTX_STAT_LEG_ACT c).testBit leg = true) :
    ((d.loseLeg c leg).get FLW.CTX_STAT_LEG_ACT c).testBit leg = false := by
  have hv : (d.loseLeg c leg).get FLW.CTX_STAT_LEG_ACT c = (d.get FLW.CTX_STAT_LEG_ACT c - 2 ^ leg.val) % 2 ^ 2 := by
    rw [loseLeg, raise, get_set_off _ _ _ _ _ _ (by rw [legLoss_off]; decide), putBit, h, get_set_self _ _ _ _ (by decide)]
    rfl
  rw [hv]
  exact testBit_withoutLeg _ (bitsOf_lt ..) leg h

end Dev

section
variable {b : Bundle} {s : State}

theorem exec_bundleEnable (b : Bundle) (en : Bool) (s : State) : exec (.bundleEnable b en) s = s.go (·.bdlEnable b en) := rfl

theorem exec_bundleFrame (b : Bundle) (s : State) : exec (.bundleFrame b) s = s.go (·.bdlFrame b) := rfl

theorem exec_bundleLineTimeout (b : Bundle) (s : State) :
    exec (.bundleLineTimeout b) s = s.go fun d => if d.bdlTimedOut b then d.bdlAbsent b else d := rfl

theorem exec_legLoss (c : Flow) (leg : Fin 2) (s : State) : exec (.legLoss c leg) s = s.go fun d =>
    if d.ctxRuns c && (d.get FLW.CTX_STAT_LEG_ACT c).testBit leg && d.legSilent c leg then d.loseLeg c leg else d := rfl

/-- BUNDLE_ENABLE, the start of a bundle with a valid format. -/
theorem runsTo_bundleEnable_starts (hr : s.dev.flag (FLW.BDL_STAT_RUN b) = false) (hf : fmtValid (s.dev.get (FLW.BDL_CTL_FMT b)) = true)
    (hs : ∀ c ∈ s.dev.running, ¬(c < 4096 ∧ s.dev.bundleOf c = b ∧ s.dev.role c = 1)) :
    RunsTo (.bundleEnable b true) s fun d => d.get (FLW.BDL_STAT_RUN b) = 1 ∧ d.get (FLW.BDL_STAT_CFG_ERR b) = 0 ∧
      d.actReg (0x00508004 + 16 * b) 0 = s.dev.reg (0x00508004 + 16 * b) 0 := by
  have hb : b.val < 512 := Nat.lt_trans b.isLt (by decide)
  refine runsTo_go (exec_bundleEnable b true s) (Dev.bdlEnable_starts (Dev.bdlEn_fmtOk hb true hf hs) hr) ?_
  obtain ⟨hrun, herr, hact⟩ := (s.dev.bdlEn b true).bdlStart_shows b
  exact ⟨hrun, herr, hact.trans (Dev.reg_set_ne _ _ _ (.inl (bdlPlay_ne_ctl b)))⟩

/-- BUNDLE_ENABLE, the stop of a bundle. -/
theorem runsTo_bundleEnable_stops (b : Bundle) (s : State) : RunsTo (.bundleEnable b false) s fun d =>
    d.get (FLW.BDL_STAT_RUN b) = 0 ∧ d.get (FLW.BDL_STAT_PRESENT b) = 0 ∧ d.get (FLW.BDL_CTL_EN b) = 0 := by
  have hb : b.val < 512 := Nat.lt_trans b.isLt (by decide)
  refine runsTo_go (exec_bundleEnable b false s) (Dev.bdlEnable_stops ..) ?_
  obtain ⟨hrun, hpres, hen⟩ := Dev.bdlDown_shows hb (s.dev.bdlEn b false) false
  exact ⟨(Dev.bdlDrop_get _ _ (bdlStat_below hb)).trans hrun, (Dev.bdlDrop_get _ _ (bdlStat_below hb)).trans hpres,
    (Dev.bdlDrop_get _ _ (bdlCtl_below hb)).trans (hen.trans (Dev.bdlEn_en ..))⟩

/-- BUNDLE_FRAME of a running bundle whose video context holds a frame to play. -/
theorem runsTo_bundleFrame {c : Nat} {f : Fmt} {x : Nat × Option Nat} (hr : s.dev.flag (FLW.BDL_STAT_RUN b) = true)
    (hv : s.dev.videoCtx b = some c) (hf : s.dev.bdlFmt b = some f) (hx : s.dev.nextFrame b c f = some x) {target : Int}
    (ht : s.dev.frameTarget b c x.1 (s.dev.get (FLW.BDL_PLAY_PLAY_DELAY b)) = target) {g : SrcGen} (hg : s.dev.genOf (1152 + b) = g) :
    RunsTo (.bundleFrame b) s fun d => d.actReg (0x00508004 + 16 * b) 0 = s.dev.reg (0x00508004 + 16 * b) 0 ∧
      (d.bdl b).next = some x ∧ (d.genOf (1152 + b)).target = target ∧ (g.run = false → (d.genOf (1152 + b)).resume = some target) ∧
      (g.run = true → lineTu f < (target - (g.frameT + periodTu (f.num, f.den))).natAbs →
        (d.genOf (1152 + b)).resume = some target ∧ d.get (FLW.BDL_EVT_STEP b) = 1) := by
  refine runsTo_go (exec_bundleFrame b s) (Dev.bdlFrame_eq hv hf hr hx) ?_
  rw [ht]
  have hg' : (s.dev.commit (0x00508004 + 16 * b) 0).genOf (1152 + b) = g := hg
  obtain ⟨htgt, hres⟩ := (s.dev.commit (0x00508004 + 16 * b) 0).playNext_gen b f x target
  rw [hg'] at hres
  refine ⟨?_, Dev.playNext_next .., htgt, fun hrun => ?_, fun hrun hfar => ?_⟩
  · rw [Dev.actReg, Dev.playNext_act]
    exact Dev.actReg_commit_self ..
  · rw [hres, hrun]
    rfl
  · have hj : Dev.frameJumps g f target = true := by rw [Dev.frameJumps, hrun, decide_eq_true hfar]; rfl
    refine ⟨?_, Dev.playNext_step _ b x (hg'.symm ▸ hj)⟩
    rw [hres, hj, Bool.or_true]
    rfl

/-- BUNDLE_LINE_TIMEOUT after TMO_LINES lines, at a slot without a synchroniser. -/
theorem runsTo_bundleLineTimeout_over (ht : s.dev.bdlTimedOut b = true) (hp : s.dev.get (FLW.BDL_STAT_PRESENT b) = 1)
    (hn : s.dev.syncAt (1152 + b) = none) : RunsTo (.bundleLineTimeout b) s fun d => d.get (FLW.BDL_STAT_PRESENT b) = 0 ∧
      d.get (FLW.BDL_EVT_ABSENT b) = 1 ∧ d.get SLP.IN_STAT_PRESENT (1152 + b) = 0 := by
  have hb : b.val < 512 := Nat.lt_trans b.isLt (by decide)
  exact runsTo_go (exec_bundleLineTimeout b s) ((if_pos ht).trans (Dev.bdlAbsent_gone hp))
    ⟨Dev.bdlGone_present hb _, Dev.bdlGone_absent hb _, Dev.bdlGone_slot hn⟩

theorem runsTo_bundleLineTimeout_early (ht : s.dev.bdlTimedOut b = false) : RunsTo (.bundleLineTimeout b) s fun d => d = s.dev :=
  runsTo_go (exec_bundleLineTimeout b s) (if_neg (by rw [ht]; exact Bool.false_ne_true)) rfl

end

section
variable {c : Flow} {leg : Fin 2} {s : State} (hr : s.dev.ctxRuns c = true) (ha : (s.dev.get FLW.CTX_STAT_LEG_ACT c).testBit leg = true)
include hr ha

/-- LEG_LOSS of a delivering leg that is silent. -/
theorem regsTo_legLoss (hs : s.dev.legSilent c leg = true) : RegsTo (.legLoss c leg) s fun d =>
    (d.get FLW.CTX_STAT_LEG_ACT c).testBit leg = false ∧
    d.get (if leg.val = 0 then FLW.CTX_EVT_LEG_LOSS_0 else FLW.CTX_EVT_LEG_LOSS_1) c = 1 ∧
    RegsKept s.dev d [(0x005001A0, c.val), (0x005001A4, c.val)] := by
  have hi : exec (.legLoss c leg) s = s.go fun _ => s.dev.loseLeg c leg := by
    rw [exec_legLoss, State.go_eq, State.go_eq, if_pos (by rw [hr, ha, hs]; rfl)]
  exact regsTo_go hi (s.dev.loseLeg_only c leg) ⟨Dev.loseLeg_act ha, s.dev.loseLeg_event c leg, s.dev.loseLeg_kept c leg⟩

theorem runsTo_legLoss_heard (hs : s.dev.legSilent c leg = false) : RunsTo (.legLoss c leg) s fun d => d = s.dev :=
  runsTo_go (exec_legLoss c leg s) (if_neg (by rw [hr, ha, hs]; exact Bool.false_ne_true)) rfl

end

/-- Settles O14: each command's meaning is cut into the operations that it is made of (`ctxBegin`, `takeCells`, `bdlStart`, `bdlGone`,
`playNext`, `loseLeg`), and what follows a context's start or stop leaves the contexts' registers alone (`BdlWork`). -/
theorem flowContexts : Obligations.FlowContexts :=
  ⟨fun _ _ hc hr hb hq => runsTo_contextEnable_ingress hc hr hb hq,
    fun _ _ hc hr hb => runsTo_contextEnable_egress hc hr hb,
    fun _ _ hr hb => regsTo_contextEnable_refused hr hb,
    fun _ _ hc hr => runsTo_contextEnable_stops hc hr,
    fun _ _ hr hf hs => runsTo_bundleEnable_starts hr hf hs,
    runsTo_bundleEnable_stops,
    fun _ _ _ _ _ hr hv hf hx _ _ htu ht _ hg => runsTo_bundleFrame hr hv hf hx (by rw [Dev.frameTarget, htu, ht]) hg,
    fun b _ hg hp => Dev.bdlPresent_shows (Nat.lt_trans b.isLt (by decide)) hg hp,
    fun _ _ ht hp hn => runsTo_bundleLineTimeout_over ht hp hn,
    fun _ _ ht => runsTo_bundleLineTimeout_early ht,
    fun _ _ _ hr ha => ⟨regsTo_legLoss hr ha, runsTo_legLoss_heard hr ha⟩⟩

end Sys2Proof.Machine
end

section
/-!
Proofs, egress flows (R196 to R205, R213): the packet that a flow sends on its legs, the releases of video, audio and ancillary data, the
elements of the host's transmit queues, and the counters' clears.
-/

namespace Sys2Proof.Machine

/-- Nothing but registers and the MACs' units differs. -/
def OnlyMacs (d e : Dev) : Prop := ∃ r m, e = { d with regs := r, macs := m }

namespace OnlyMacs

variable {d e f : Dev}

theorem refl (d : Dev) : OnlyMacs d d := ⟨_, _, rfl⟩

theorem trans (h : OnlyMacs d e) (k : OnlyMacs e f) : OnlyMacs d f := by
  obtain ⟨_, _, rfl⟩ := h
  obtain ⟨r, m, rfl⟩ := k
  exact ⟨r, m, rfl⟩

theorem of_only (h : OnlyRegs d e) : OnlyMacs d e := by
  obtain ⟨r, rfl⟩ := h
  exact ⟨r, _, rfl⟩

theorem setMac (d : Dev) (m : Nat) (u : MacUnit) : OnlyMacs d (d.setMac m u) := ⟨_, _, rfl⟩

theorem tsDue (d : Dev) (m : Nat) (x : TxFrame) (a b : Bool) (t : Nat) : OnlyMacs d (d.tsDue m x a b t) := by
  unfold Dev.tsDue
  split
  · exact refl d
  · exact setMac ..

theorem offer (d : Dev) (m : Nat) (x : TxFrame) : OnlyMacs d (d.offer m x) := by
  unfold Dev.offer
  split
  · extract_lets a
    have ha : OnlyMacs d a := by
      simp only [a]
      split
      · exact setMac ..
      · exact refl d
    exact ha.trans (setMac ..)
  · exact (of_only (Dev.macCount_only ..)).trans (tsDue ..)

theorem legSend (d : Dev) (c : Nat) (rtp : List Byte) (late : Bool) : OnlyMacs d (d.legSend c rtp late) := by
  unfold Dev.legSend
  extract_lets m a b
  have ha : OnlyMacs d a := by
    simp only [a]
    split
    · exact of_only ((OnlyRegs.count ..).trans (.raise ..))
    · exact refl d
  split
  · exact ha.trans (of_only (.count ..))
  · exact ((ha.trans (of_only (.count ..))).trans (offer ..)).trans (of_only (Dev.flowFill_only ..))

theorem legSends (rtp : List Byte) (late : Bool) (cs : List Nat) : ∀ d : Dev, OnlyMacs d (cs.foldl (fun d c => d.legSend c rtp late) d) := by
  induction cs with
  | nil => exact refl
  | cons c cs ih => exact fun d => (legSend d c rtp late).trans (ih _)

theorem get_flowSeq (h : OnlyMacs d e) : e.flowSeq = d.flowSeq := by obtain ⟨_, _, rfl⟩ := h; rfl
theorem get_egAud (h : OnlyMacs d e) : e.egAud = d.egAud := by obtain ⟨_, _, rfl⟩ := h; rfl
theorem get_egrs (h : OnlyMacs d e) : e.egrs = d.egrs := by obtain ⟨_, _, rfl⟩ := h; rfl

end OnlyMacs

theorem Notes.get_macs {lo hi : Nat} {d e : Dev} (h : Notes lo hi d e) : e.macs = d.macs := by
  obtain ⟨-, _, _, _, _, _, _, rfl⟩ := h
  rfl

namespace Dev

/-! ## A packet on the legs of a flow (R203, R205) -/

/-- A video packet of a flow is counted for its bundle. -/
def logPkt (d : Dev) (c : Nat) : Dev := if d.role c ≤ 1 then d.logAdd (1322 + d.bundleOf c) 1 else d

/-- It is, and the flow's sequence number moves on. -/
def nextSeq (d : Dev) (f c : Nat) : Dev :=
  { d.logPkt c with flowSeq := mapPut (d.logPkt c).flowSeq (f, 0) 0 ((mapGet d.flowSeq (f, 0) 0 + 1) % 2 ^ 32) }

/-- The RTP packet of a flow. -/
def flowRtp (d : Dev) (f c stamp : Nat) (marker : Bool) (payload : List Byte) : List Byte :=
  [0x80, BitVec.ofNat 8 (d.get FLW.CTX_MEDIA_PT c + 128 * b2n marker)] ++ beBytes 2 (mapGet d.flowSeq (f, 0) 0) ++ beBytes 4 stamp ++
    beBytes 4 (d.get FLW.CTX_SSRC_SSRC c) ++
    (if d.role c = 0 || d.role c = 4 then beBytes 2 (mapGet d.flowSeq (f, 0) 0 / 65536) else []) ++ payload

variable {d : Dev} {f c : Nat} {rest : List Nat}

theorem logPkt_only (d : Dev) (c : Nat) : OnlyRegs d (d.logPkt c) := by
  unfold logPkt
  split
  · exact .logAdd ..
  · exact .refl d

/-- The Logbook's registers lie outside the windows from the lane groups' on. -/
theorem logPkt_window (d : Dev) (c : Nat) : SameRegs 0x00100000 0x00700000 d (d.logPkt c) :=
  .ite _ (.logAdd _ _ _ (.inl (by decide))) (.refl _ _ d)

theorem logPkt_legs (d : Dev) (c f : Nat) : (d.logPkt c).flowLegs f = d.flowLegs f := by
  have h (x : Fld) (k : Nat) (a : 0x00100000 ≤ x.off) (b : x.off < 0x00700000) : (d.logPkt c).flag x k = d.flag x k :=
    congrArg (· != 0) ((logPkt_window d c).get x k a b)
  simp (disch := decide) only [flowLegs, ctxRuns, h]

theorem flowSend_eq (hl : d.flowLegs f = c :: rest) (stamp : Nat) (marker late : Bool) (payload : List Byte) :
    d.flowSend f stamp marker late payload = (c :: rest).foldl (fun e k => e.legSend k (d.flowRtp f c stamp marker payload) late)
      (d.nextSeq f c) := by
  have hp : (d.logPkt c).flowLegs f = c :: rest := (logPkt_legs ..).trans hl
  rw [← hp]
  unfold flowSend
  rw [hl]
  rfl

/-- A packet changes the flow's number, the registers and the MACs alone. -/
theorem flowSend_keeps (hl : d.flowLegs f = c :: rest) (stamp : Nat) (marker late : Bool) (payload : List Byte) :
    OnlyMacs (d.nextSeq f c) (d.flowSend f stamp marker late payload) := by
  rw [flowSend_eq hl]
  exact .legSends ..

theorem flowSend_seq (hl : d.flowLegs f = c :: rest) (stamp : Nat) (marker late : Bool) (payload : List Byte) :
    mapGet (d.flowSend f stamp marker late payload).flowSeq (f, 0) 0 = (mapGet d.flowSeq (f, 0) 0 + 1) % 2 ^ 32 := by
  rw [(flowSend_keeps hl ..).get_flowSeq]
  exact mapGet_mapPut_self ..

theorem flowSend_egAud (hl : d.flowLegs f = c :: rest) (stamp : Nat) (marker late : Bool) (payload : List Byte) :
    (d.flowSend f stamp marker late payload).egAud = d.egAud :=
  (flowSend_keeps hl ..).get_egAud.trans (logPkt_only d c).get_egAud

theorem flowSend_egrs (hl : d.flowLegs f = c :: rest) (stamp : Nat) (marker late : Bool) (payload : List Byte) :
    (d.flowSend f stamp marker late payload).egrs = d.egrs :=
  (flowSend_keeps hl ..).get_egrs.trans (logPkt_only d c).get_egrs

/-! ## What a leg offers to its MAC -/

theorem newHead_offers (d : Dev) (m k : Nat) : ((d.newHead m k).mac m).offers = (d.mac m).offers := by rw [newHead, mac_setMac]

/-- A frame that is offered while the link is up joins those that wait. -/
theorem offer_waits {m : Nat} (hl : d.flag MAC.STAT_LINK m = true) (x : TxFrame) :
    ((d.offer m x).mac m).offers = (d.mac m).offers ++ [x] := by
  unfold offer
  rw [if_pos hl]
  extract_lets a
  have ha : (a.mac m).offers = (d.mac m).offers := by
    simp only [a]
    split
    · exact newHead_offers ..
    · rfl
  rw [mac_setMac]
  exact congrArg (· ++ [x]) ha

/-- A leg's counters of a packet. -/
def legCount (d : Dev) (c : Nat) (late : Bool) : Dev :=
  (if late then (d.count FLW.CNT_LATE_COUNT 1 c).raise FLW.CTX_EVT_LATE c else d).count
    (if c % 2 = 0 then FLW.CNT_PKT_0_COUNT else FLW.CNT_PKT_1_COUNT) 1 c

theorem legCount_only (d : Dev) (c : Nat) (late : Bool) : OnlyRegs d (d.legCount c late) := by
  cases late
  · exact .count ..
  · exact ((OnlyRegs.count ..).trans (.raise ..)).trans (.count ..)

/-- The registers below those of a context's events. -/
theorem legCount_below (d : Dev) (c : Nat) (late : Bool) : SameRegs 0 0x005001A4 d (d.legCount c late) := by
  have hk : 0x005001A4 ≤ (if c % 2 = 0 then FLW.CNT_PKT_0_COUNT else FLW.CNT_PKT_1_COUNT).off := by split <;> decide
  cases late
  · exact .count _ _ _ _ (.inr hk)
  · exact ((SameRegs.count _ _ _ _ (.inr (by decide))).trans (.raise _ _ _ (.inr (by decide)))).trans (.count _ _ _ _ (.inr hk))

/-- The frame of a leg, offered where fewer than 64 wait. -/
theorem legSend_offers {m : Nat} (hm : d.get (FLW.LEG_MAC_MAC 0) c = m) (hw : ((d.mac m).offers.filter (·.flow == some c)).length < 64)
    (rtp : List Byte) (late : Bool) : d.legSend c rtp late = ((d.legCount c late).offer m
      ⟨(d.legCount c late).egressFrame c rtp, (d.legCount c late).get (FLW.LEG_QOS_TC 0) c, none, some c⟩).flowFill m (some c) := by
  have hmac : ((if late then (d.count FLW.CNT_LATE_COUNT 1 c).raise FLW.CTX_EVT_LATE c else d).mac m) = d.mac m := by cases late <;> rfl
  unfold legSend
  rw [hm]
  exact if_neg (by rw [hmac]; exact Nat.not_le.2 hw)

/-- A leg that runs alone. -/
theorem flowSend_alone {m : Nat} (hl : d.flowLegs f = [c]) (hm : d.get (FLW.LEG_MAC_MAC 0) c = m) (hk : d.flag MAC.STAT_LINK m = true)
    (hw : ((d.mac m).offers.filter (·.flow == some c)).length < 64) (stamp : Nat) (marker late : Bool) (payload : List Byte) :
    ∃ x, ((d.flowSend f stamp marker late payload).mac m).offers = (d.mac m).offers ++ [x] ∧ x.flow = some c ∧
      x.tc = d.get (FLW.LEG_QOS_TC 0) c := by
  have hlog := logPkt_window d c
  have hreg (x : Fld) (k : Nat) (a : 0x00100000 ≤ x.off) (b : x.off < 0x00700000) :
      (d.nextSeq f c).get x k = d.get x k := hlog.get x k a b
  have hmac : (d.nextSeq f c).mac m = d.mac m := mac_of_macs (logPkt_only d c).get_macs m
  rw [flowSend_eq hl, List.foldl_cons, List.foldl_nil, legSend_offers ((hreg _ _ (by decide) (by decide)).trans hm) (by rw [hmac]; exact hw),
    mac_of_macs (flowFill_only ..).get_macs, offer_waits]
  · rw [mac_of_macs (legCount_only ..).get_macs, hmac]
    exact ⟨_, rfl, rfl, ((legCount_below _ c late).get _ _ (by decide) (by decide)).trans (hreg _ _ (by decide) (by decide))⟩
  · rw [flag, (legCount_below _ c late).get _ _ (by decide) (by decide), hreg _ _ (by decide) (by decide), ← flag, hk]

/-! ## Releases (R197, R200, R201) -/

/-- Without a leg that may send, nothing is released (R196). -/
theorem release_idle (hl : d.flowLegs f = []) : d.videoRelease f = d ∧ d.audioRelease f = d ∧ d.ancRelease f = d := by
  unfold videoRelease audioRelease ancRelease
  rw [hl]
  exact ⟨rfl, rfl, rfl⟩

/-- The legs of a flow do not depend on what its engine holds. -/
theorem setEgr_legs (d : Dev) (o : Nat) (u : EgrUnit) (f : Nat) : (d.setEgr o u).flowLegs f = d.flowLegs f := (rfl)

section
variable {o code : Nat} {fm : Fmt} {h r : EgRow}

theorem videoRelease_row (hl : d.flowLegs f = c :: rest) (ho : o = 1152 + d.bundleOf c) (hf : fmtOf (d.outFmt o) = some fm)
    (hr : d.role c = 0) : d.videoRelease f = d.rowRelease f c o (d.outFmt o) fm := by
  subst ho
  unfold videoRelease
  rw [hl]
  dsimp only
  rw [hf]
  exact if_pos hr

variable (hh : (d.egr o).rows.head? = some h)
    (hr : (d.egr o).rows.find? (fun r => r.start == h.start && r.field2 == h.field2 && r.row == (d.egr o).row) = some r)
include hh hr

/-- The row due is sent from its release instant on, or at once where the flow is not scheduled. -/
theorem rowRelease_sends (hd : d.scheduled c = false ∨ d.releaseAt c code fm r.start r.field2 (d.egr o).num ≤ d.timeTu) :
    ∃ u stamp marker late payload, d.rowRelease f c o code fm = (d.setEgr o u).flowSend f stamp marker late payload := by
  have hn : ¬(d.scheduled c && decide (d.timeTu < d.releaseAt c code fm r.start r.field2 (d.egr o).num)) = true := by
    rw [Bool.and_eq_true, decide_eq_true_iff]
    rintro ⟨hs, ht⟩
    exact hd.elim (fun hs' => Bool.false_ne_true (hs'.symm.trans hs)) (Int.not_le.2 ht)
  unfold rowRelease
  dsimp only
  rw [hh]
  dsimp only
  rw [hr]
  exact ⟨_, _, _, _, _, if_neg hn⟩

theorem rowRelease_waits (hs : d.scheduled c = true) (ht : d.timeTu < d.releaseAt c code fm r.start r.field2 (d.egr o).num) :
    d.rowRelease f c o code fm = d := by
  unfold rowRelease
  dsimp only
  rw [hh]
  dsimp only
  rw [hr]
  exact if_pos (by rw [hs, decide_eq_true ht]; rfl)

end

/-- What waits of an audio flow, less `n` ticks. -/
def dropAud (d : Dev) (f n : Nat) : Dev := { d with egAud := mapPut d.egAud (f, 0) [] ((mapGet d.egAud (f, 0) []).drop n) }

theorem dropAud_legs (d : Dev) (f n k : Nat) : (d.dropAud f n).flowLegs k = d.flowLegs k := (rfl)

theorem audioRelease_sends {n : Nat} (hl : d.flowLegs f = c :: rest) (hr : d.role c = 2 ∨ d.role c = 3)
    (hn : n = if d.flag FLW.CTX_MEDIA_PT125 c then 6 else 48) (hq : n ≤ (mapGet d.egAud (f, 0) []).length) :
    ∃ stamp payload, d.audioRelease f = (d.dropAud f n).flowSend f stamp false false payload := by
  have hc : ((d.role c == 2 || d.role c == 3) && decide (n ≤ (mapGet d.egAud (f, 0) []).length)) = true := by
    rw [Bool.and_eq_true, Bool.or_eq_true, beq_iff_eq, beq_iff_eq, decide_eq_true_iff]
    exact ⟨hr, hq⟩
  subst hn
  unfold audioRelease
  rw [hl]
  exact ⟨_, _, if_pos hc⟩

/-- What is left of the ancillary data of an output once `k` packets have left. -/
def ancLeft (k : Nat) (e : EgAnc) (r : List EgAnc) : List EgAnc := if k < e.pkts.length then { e with pkts := e.pkts.drop k } :: r else r

theorem ancRelease_sends {o k : Nat} {fm : Fmt} {e : EgAnc} {r : List EgAnc} (hl : d.flowLegs f = c :: rest)
    (ho : o = 1152 + d.bundleOf c) (hf : fmtOf (d.outFmt o) = some fm) (hr : d.role c = 4) (ha : (d.egr o).anc = e :: r)
    (hp : (d.egr o).start ≠ e.start) (hk : ancFit (d.maxPl c - 8) e.pkts = k) :
    ∃ stamp marker payload, d.ancRelease f =
      (d.setEgr o { d.egr o with anc := ancLeft k e r }).flowSend f stamp marker false payload := by
  subst ho hk
  unfold ancRelease
  rw [hl]
  dsimp only
  rw [ha, hf]
  dsimp only
  rw [if_pos (by rw [hr, bne_iff_ne.2 hp, Bool.true_or, Bool.or_true]; rfl)]
  simp only [ancLeft, decide_eq_true_eq]
  exact ⟨_, _, _, rfl⟩

/-! ## A host transmit element (R213) -/

/-- The length of an element's frame. -/
def elemLen (e : List Byte) : Nat := leNat (e.take 2)

/-- Its frame, filled up to 60 bytes. -/
def elemFrame (e : List Byte) : List Byte :=
  (e.drop 16).take (elemLen e) ++ List.replicate (60 - ((e.drop 16).take (elemLen e)).length) 0

/-- The timestamp that it asks for. -/
def elemTs (e : List Byte) : Option Nat := if (e.getD 3 0).toNat.testBit 3 then some (leNat ((e.drop 4).take 2)) else none

theorem elemFrame_take {e : List Byte} (h : elemLen e + 16 ≤ e.length) : (elemFrame e).take (elemLen e) = (e.drop 16).take (elemLen e) := by
  have hlen : ((e.drop 16).take (elemLen e)).length = elemLen e := by
    rw [List.length_take, List.length_drop]
    omega
  exact List.take_left' hlen

/-- The element size of a queue stands once an element of it has been taken. -/
theorem qConsume_esz (d : Dev) (q size : Nat) : (d.qConsume q size).2.get QM.Q_CFG_ESZ q = d.get QM.Q_CFG_ESZ q := by
  unfold qConsume
  split
  · split
    · rfl
    · extract_lets a i
      have ha : a.get QM.Q_CFG_ESZ q = d.get QM.Q_CFG_ESZ q := when_get ((RegsKept.bwAdd (k := []) d _ _).field _ _ List.not_mem_nil)
      have hs : ((a.set QM.Q_CONS_IDX i q).qStatus q).get QM.Q_CFG_ESZ q = a.get QM.Q_CFG_ESZ q := by
        simp (disch := decide) only [qStatus, put_eq, get_set_off]
      have hn : Notes 0x00600000 0x00700000 ((a.set QM.Q_CONS_IDX i q).qStatus q)
          ((((a.set QM.Q_CONS_IDX i q).qStatus q).qWriteBack q i).qNotify q) :=
        (Notes.qWriteBack _ _ _).trans (.qNotify (.inl (by decide)) (by decide) _ _)
      exact (hn.get _ _ (by decide) (by decide)).trans (hs.trans ha)
  · exact (pulseFault_get ..).trans (get_set_off _ _ _ _ _ _ (by decide))

theorem qConsume_mac (d : Dev) (q size m : Nat) : (d.qConsume q size).2.mac m = d.mac m ∧
    (d.qConsume q size).2.flag MAC.STAT_LINK m = d.flag MAC.STAT_LINK m := by
  have hn := Notes.qConsume (lo := 0x00100000) (hi := 0x00600000) (.inl (by decide)) (by decide) (.inl (by decide)) d q size
  exact ⟨mac_of_macs hn.get_macs m, congrArg (· != 0) (hn.get MAC.STAT_LINK m (by decide) (by decide))⟩

/-- An element of the MAC's own queue, whose frame fits. -/
theorem hostTx_offers {m q : Nat} {e : List Byte} (hen : d.flag (FLW.HQ_TX_EN m) = true) (hq : q = d.get (FLW.HQ_TXQ m))
    (hu : d.qUsable q true 16 = true) (hf : d.qFill q ≠ 0) (hlen : elemLen e + 16 ≤ 2 ^ d.get QM.Q_CFG_ESZ q)
    (hm : (e.getD 2 0).toNat % 64 = m) :
    d.hostTx m e = (d.qConsume q 16).2.offer m ⟨elemFrame e, (e.getD 3 0).toNat % 8, elemTs e, none⟩ := by
  have hok : ¬(decide (elemLen e > 2 ^ (d.qConsume q 16).2.get QM.Q_CFG_ESZ q - 16) || (e.getD 2 0).toNat % 64 != m) = true := by
    rw [qConsume_esz, hm, bne_self_eq_false, Bool.or_false, decide_eq_true_iff]
    omega
  subst hq
  unfold hostTx
  rw [if_pos hen]
  dsimp only
  rw [if_pos (qConsume_next hu hf).1]
  exact if_neg hok

end Dev

/-! ## The commands -/

section
variable {f : Flow} {c : Nat} {rest : List Nat} {s : State}

theorem exec_videoPacketRelease (f : Flow) (s : State) : exec (.videoPacketRelease f) s = s.go (·.videoRelease f) := rfl

theorem exec_audioPacketRelease (f : Flow) (s : State) : exec (.audioPacketRelease f) s = s.go (·.audioRelease f) := rfl

theorem exec_ancPacketRelease (f : Flow) (s : State) : exec (.ancPacketRelease f) s = s.go (·.ancRelease f) := rfl

theorem exec_hostTxElement (m : Mac) (e : List Byte) (s : State) : exec (.hostTxElement m e) s = s.go (·.hostTx m e) := rfl

theorem runsTo_release_idle (hl : s.dev.flowLegs f = []) : RunsTo (.videoPacketRelease f) s (fun d => d = s.dev) ∧
    RunsTo (.audioPacketRelease f) s (fun d => d = s.dev) ∧ RunsTo (.ancPacketRelease f) s (fun d => d = s.dev) := by
  obtain ⟨hv, ha, hn⟩ := Dev.release_idle hl
  exact ⟨runsTo_go (exec_videoPacketRelease f s) hv rfl, runsTo_go (exec_audioPacketRelease f s) ha rfl,
    runsTo_go (exec_ancPacketRelease f s) hn rfl⟩

/-- VIDEO_PACKET_RELEASE of a flow of ST 2110-20 video that has a row due. -/
theorem runsTo_videoPacketRelease {o : Nat} {fm : Fmt} {h r : EgRow} (hl : s.dev.flowLegs f = c :: rest) (ho : o = 1152 + s.dev.bundleOf c)
    (hf : fmtOf (s.dev.outFmt o) = some fm) (hv : s.dev.role c = 0) (hh : (s.dev.egr o).rows.head? = some h)
    (hr : (s.dev.egr o).rows.find? (fun r => r.start == h.start && r.field2 == h.field2 && r.row == (s.dev.egr o).row) = some r) :
    (s.dev.scheduled c = false ∨ s.dev.releaseAt c (s.dev.outFmt o) fm r.start r.field2 (s.dev.egr o).num ≤ s.dev.timeTu →
      RunsTo (.videoPacketRelease f) s fun d => mapGet d.flowSeq (f.val, 0) 0 = (mapGet s.dev.flowSeq (f.val, 0) 0 + 1) % 2 ^ 32) ∧
    (s.dev.scheduled c = true → s.dev.timeTu < s.dev.releaseAt c (s.dev.outFmt o) fm r.start r.field2 (s.dev.egr o).num →
      RunsTo (.videoPacketRelease f) s fun d => d = s.dev) := by
  have hrow := Dev.videoRelease_row hl ho hf hv
  refine ⟨fun hd => ?_, fun hs ht => ?_⟩
  · obtain ⟨u, stamp, marker, late, payload, he⟩ := Dev.rowRelease_sends (f := f) hh hr hd
    exact runsTo_go (exec_videoPacketRelease f s) (hrow.trans he)
      (Dev.flowSend_seq ((Dev.setEgr_legs s.dev o u f).trans hl) stamp marker late payload)
  · exact runsTo_go (exec_videoPacketRelease f s) (hrow.trans (Dev.rowRelease_waits hh hr hs ht)) rfl

/-- AUDIO_PACKET_RELEASE of a flow with the samples of a packet. -/
theorem runsTo_audioPacketRelease {n : Nat} (hl : s.dev.flowLegs f = c :: rest) (hr : s.dev.role c = 2 ∨ s.dev.role c = 3)
    (hn : n = if s.dev.flag FLW.CTX_MEDIA_PT125 c then 6 else 48) (hq : n ≤ (mapGet s.dev.egAud (f.val, 0) []).length) :
    RunsTo (.audioPacketRelease f) s fun d => mapGet d.flowSeq (f.val, 0) 0 = (mapGet s.dev.flowSeq (f.val, 0) 0 + 1) % 2 ^ 32 ∧
      mapGet d.egAud (f.val, 0) [] = (mapGet s.dev.egAud (f.val, 0) []).drop n := by
  obtain ⟨stamp, payload, he⟩ := Dev.audioRelease_sends hl hr hn hq
  have hl' : (s.dev.dropAud f n).flowLegs f = c :: rest := (Dev.dropAud_legs ..).trans hl
  refine runsTo_go (exec_audioPacketRelease f s) he ⟨Dev.flowSend_seq hl' .., ?_⟩
  rw [Dev.flowSend_egAud hl']
  exact mapGet_mapPut_self ..

/-- ANC_PACKET_RELEASE of a flow whose ancillary data belong to a frame that is over. -/
theorem runsTo_ancPacketRelease {o k : Nat} {fm : Fmt} {e : EgAnc} {r : List EgAnc} (hl : s.dev.flowLegs f = c :: rest)
    (ho : o = 1152 + s.dev.bundleOf c) (hf : fmtOf (s.dev.outFmt o) = some fm) (hr : s.dev.role c = 4) (ha : (s.dev.egr o).anc = e :: r)
    (hp : (s.dev.egr o).start ≠ e.start) (hk : Dev.ancFit (s.dev.maxPl c - 8) e.pkts = k) :
    RunsTo (.ancPacketRelease f) s fun d => mapGet d.flowSeq (f.val, 0) 0 = (mapGet s.dev.flowSeq (f.val, 0) 0 + 1) % 2 ^ 32 ∧
      (d.egr o).anc = if k < e.pkts.length then { e with pkts := e.pkts.drop k } :: r else r := by
  obtain ⟨stamp, marker, payload, he⟩ := Dev.ancRelease_sends hl ho hf hr ha hp hk
  have hl' : (s.dev.setEgr o { s.dev.egr o with anc := Dev.ancLeft k e r }).flowLegs f = c :: rest := (Dev.setEgr_legs ..).trans hl
  refine runsTo_go (exec_ancPacketRelease f s) he ⟨Dev.flowSend_seq hl' .., ?_⟩
  rw [Dev.egr, Dev.flowSend_egrs hl', Dev.setEgr, mapGet_mapPut_self]
  rfl

end

/-- HOST_TX_ELEMENT of a frame for the MAC of the queue, whose link is up. -/
theorem runsTo_hostTxElement {m : Mac} {e : List Byte} {q : Nat} {s : State} (hen : s.dev.flag (FLW.HQ_TX_EN m) = true)
    (hq : q = s.dev.get (FLW.HQ_TXQ m)) (hu : s.dev.qUsable q true 16 = true) (hf : s.dev.qFill q ≠ 0)
    (hfit : leNat (e.take 2) + 16 ≤ 2 ^ s.dev.get QM.Q_CFG_ESZ q) (hlen : leNat (e.take 2) + 16 ≤ e.length)
    (hm : (e.getD 2 0).toNat % 64 = m) (hk : s.dev.flag MAC.STAT_LINK m = true) :
    RunsTo (.hostTxElement m e) s fun d => ∃ x, (d.mac m).offers = (s.dev.mac m).offers ++ [x] ∧
      x.tc = (e.getD 3 0).toNat % 8 ∧ x.bytes.take (leNat (e.take 2)) = (e.drop 16).take (leNat (e.take 2)) := by
  obtain ⟨hmac, hlink⟩ := s.dev.qConsume_mac q 16 m
  refine runsTo_go (exec_hostTxElement m e s) (Dev.hostTx_offers hen hq hu hf hfit hm) ?_
  rw [Dev.offer_waits (hlink.trans hk), hmac]
  exact ⟨_, rfl, rfl, Dev.elemFrame_take hlen⟩

/-! ## The counters' clears (Tables 7.8 and 7.15) -/

/-- A clear changes the registers of its fields alone. -/
theorem RegsKept.clear_regs (d : Dev) (fs : List Fld) (ch : Nat) : RegsKept d (d.clear fs ch) (fs.map fun f => (f.off, ch)) :=
  .clear _ _ (fun _ hf => List.mem_map_of_mem hf) d

theorem exec_flwCntClr (c : Ctx) (s : State) : exec (.flwCntClr c) s = s.go fun d => d.clear [FLW.CNT_PKT_0_COUNT, FLW.CNT_PKT_1_COUNT,
    FLW.CNT_DUP_COUNT, FLW.CNT_LOST_COUNT, FLW.CNT_LATE_COUNT] c := rfl

theorem exec_flwBlkCntClr (s : State) : exec .flwBlkCntClr s = s.go fun d =>
    d.clear [FLW.CNT_NOMATCH_COUNT, FLW.CNT_HDR_ERR_COUNT, FLW.CNT_TX_BAD_COUNT] := rfl

theorem regsTo_flwCntClr (c : Ctx) (s : State) : RegsTo (.flwCntClr c) s fun d =>
    (∀ f ∈ [FLW.CNT_PKT_0_COUNT, FLW.CNT_PKT_1_COUNT, FLW.CNT_DUP_COUNT, FLW.CNT_LOST_COUNT, FLW.CNT_LATE_COUNT], d.get f c = 0) ∧
    RegsKept s.dev d [(0x005001B0, c.val), (0x005001B4, c.val), (0x005001B8, c.val), (0x005001BC, c.val), (0x005001C0, c.val)] :=
  regsTo_go (exec_flwCntClr c s) (.clear ..) ⟨Dev.get_clear_all (by decide) s.dev c, .clear_regs _ _ _⟩

theorem regsTo_flwBlkCntClr (s : State) : RegsTo .flwBlkCntClr s fun d =>
    (∀ f ∈ [FLW.CNT_NOMATCH_COUNT, FLW.CNT_HDR_ERR_COUNT, FLW.CNT_TX_BAD_COUNT], d.get f = 0) ∧
    RegsKept s.dev d [(0x00500010, 0), (0x00500014, 0), (0x00500018, 0)] :=
  regsTo_go (exec_flwBlkCntClr s) (.clear ..) ⟨Dev.get_clear_all (by decide) s.dev 0, .clear_regs _ _ _⟩

/-- Settles O15: a release is a packet on the flow's legs (`flowSend`), which changes the flow's number, the registers and the MACs alone
(`OnlyMacs`); a leg that runs alone, and a host element, offer one frame (`offer_waits`). -/
theorem egressFlows : Obligations.EgressFlows :=
  ⟨fun _ _ hl => runsTo_release_idle hl,
    fun _ _ _ _ _ _ _ _ _ hl ho hf hv hu hh hr => by
      subst hu
      exact runsTo_videoPacketRelease hl ho hf hv hh hr,
    fun _ _ _ _ _ hl hr hn hq => runsTo_audioPacketRelease hl hr hn hq,
    fun _ _ _ _ _ _ _ _ _ hl ho hf hr ha hp hk => runsTo_ancPacketRelease hl ho hf hr ha hp hk,
    fun _ _ _ stamp mk late pl _ hl hm hk hw => Dev.flowSend_alone hl hm.symm hk hw stamp mk late pl,
    fun _ _ _ _ hen hq hu hf hfit hlen hm hk => runsTo_hostTxElement hen hq hu hf hfit hlen hm hk,
    regsTo_flwCntClr, regsTo_flwBlkCntClr⟩

end Sys2Proof.Machine
end

section
/-!
Proofs, the frame synchronisers (chapter 8): what HOLDING and a slot's presence change, and the start, the stop, the choice and the play of
a synchroniser outside a gang (R222, R224, R226 to R229, R234).
-/

namespace Sys2Proof.Machine

/-! ## A field beside those that change -/

/-- A field whose bits lie apart from those set keeps its value. -/
theorem Dev.get_set_apart {f x : Fld} (h : BitsApart f x) (d : Dev) (v ch c : Nat) : (d.set x v ch).get f c = d.get f c :=
  SameFld.set d x v ch h c

/-- The fields that follow HOLDING (R228). -/
def holdFlds : List Fld := [FS.SYNC_STAT_HOLDING, FS.SYNC_EVT_HOLD_START, FS.SYNC_EVT_HOLD_END]

/-- Those that follow the input of a slot with a synchroniser (R225, R228). -/
def inputFlds : List Fld := FS.SYNC_STAT_FMT_MM :: SLP.IN_STAT_SRC_ABSENT :: holdFlds

namespace SameFld

variable {f : Fld} {d e : Dev}

/-- A change of anything but the registers. -/
theorem of_regs (h : e.regs = d.regs) : SameFld f d e := fun ch => by rw [Dev.get, Dev.get, Dev.reg, Dev.reg, h]

theorem put (d : Dev) (x : Fld) (b : Bool) (ch : Nat) (h : BitsApart f x) : SameFld f d (d.put x b ch) := set _ _ _ _ h

theorem ite (c : Prop) [Decidable c] {x y : Dev} (h : SameFld f d x) (k : SameFld f d y) : SameFld f d (if c then x else y) := by
  split
  · exact h
  · exact k

/-- The Logbook's counters lie below the windows of the media (Table 17.1). -/
theorem logAdd_media (h : 0x00100000 ≤ f.off) (d : Dev) (i n : Nat) : SameFld f d (d.logAdd i n) := fun ch =>
  (SameRegs.logAdd (lo := 0x00100000) (hi := f.off + 1) d i n (.inl (by decide))).get f ch h (Nat.lt_succ_self _)

theorem refreshHolding (h : ∀ x ∈ holdFlds, BitsApart f x) (d : Dev) (n : Nat) : SameFld f d (d.refreshHolding n) := by
  unfold Dev.refreshHolding
  extract_lets slot u holds was a b
  have hb : SameFld f d b :=
    ((raiseIf d _ _ _ (h _ (by decide))).trans (raiseIf _ _ _ _ (h _ (by decide)))).trans (put _ _ _ _ (h _ (by decide)))
  exact ite _ hb (hb.trans (of_regs rfl))

/-- PRESENT follows the input of a slot without a synchroniser alone (R24). -/
theorem refreshPresence {slot : Nat} (h : ∀ x ∈ inputFlds, BitsApart f x) (hp : d.syncAt slot = none → BitsApart f SLP.IN_STAT_PRESENT)
    (b : Bool) : SameFld f d (d.refreshPresence slot b) := by
  unfold Dev.refreshPresence
  extract_lets ok
  split
  · next hn => exact (put _ _ _ _ (h _ (by decide))).trans (put _ _ _ _ (hp hn))
  · next n _ =>
    extract_lets mm u a
    have ha : SameFld f d a := ite _ (of_regs rfl) (refl d)
    exact ((ha.trans (put _ _ _ _ (h _ (by decide)))).trans (put _ _ _ _ (h _ (by decide)))).trans
      (refreshHolding (fun x m => h x (.tail _ (.tail _ m))) _ _)

end SameFld

namespace OnlySyncs

variable {d e : Dev}

theorem set (d : Dev) (x : Fld) (v ch : Nat) (h : x.off < 0x00400000 ∨ 0x00700000 ≤ x.off) : OnlySyncs d (d.set x v ch) :=
  ⟨.set _ _ _ _ h, _, _, rfl⟩

theorem get_act (h : OnlySyncs d e) : e.act = d.act := by obtain ⟨-, _, _, rfl⟩ := h; rfl
theorem get_syncOf (h : OnlySyncs d e) : e.syncOf = d.syncOf := by obtain ⟨-, _, _, rfl⟩ := h; rfl

end OnlySyncs

namespace Dev

/-! ## What a synchroniser holds -/

theorem syncUnit_setSync_self (d : Dev) (n : Nat) (u : SyncUnit) : (d.setSync n u).syncUnit n = u := mapGet_mapPut_self ..

theorem syncUnit_of_syncs {d e : Dev} (h : e.syncs = d.syncs) (n : Nat) : e.syncUnit n = d.syncUnit n := by rw [syncUnit, syncUnit, h]

theorem syncAt_of_syncOf {d e : Dev} (h : e.syncOf = d.syncOf) (slot : Nat) : e.syncAt slot = d.syncAt slot := by rw [syncAt, syncAt, h]

/-- HOLDING leaves the frame that plays. -/
theorem refreshHolding_playing (d : Dev) (n : Nat) : ((d.refreshHolding n).syncUnit n).playing = (d.syncUnit n).playing := by
  unfold refreshHolding
  extract_lets slot u h was a b
  have hb : b.syncUnit n = d.syncUnit n :=
    syncUnit_of_syncs (((OnlyRegs.raiseIf d _ _ _).trans (.raiseIf _ _ _ _)).trans (.put _ _ _ _)).get_syncs n
  split
  · rw [hb]
  · rw [syncUnit_setSync_self]
    exact congrArg (·.playing) hb

/-- HOLDING is 0 while no frame has played (R228). -/
theorem refreshHolding_idle {d : Dev} {n : Nat} (h : (d.syncUnit n).playing = none) :
    (d.refreshHolding n).get FS.SYNC_STAT_HOLDING n = 0 := by
  unfold refreshHolding
  extract_lets slot u holds was a b
  have hf : holds = false := by simp [holds, u, h]
  have hb : b.get FS.SYNC_STAT_HOLDING n = b2n holds := by
    rw [show b = a.set _ _ _ from rfl, get_set_self _ _ _ _ (by decide), hf]
    rfl
  rw [if_neg (by simp [hf])]
  exact hb.trans (by rw [hf]; rfl)

/-- The sixteen delay lines of a synchroniser hold `x` blocks each (R231). -/
def delayLines (d : Dev) (n x : Nat) : Dev := (List.range 16).foldl (fun d c => d.poolSet (1, 16 * n + c) x) d

theorem delayLines_keeps (d : Dev) (n x : Nat) : (d.delayLines n x).regs = d.regs ∧ (d.delayLines n x).syncs = d.syncs := by
  unfold delayLines
  generalize List.range 16 = l
  induction l generalizing d with
  | nil => exact ⟨rfl, rfl⟩
  | cons c l ih => exact ih (d.poolSet (1, 16 * n + c) x)

@[simp] theorem setSync_regs (d : Dev) (n : Nat) (u : SyncUnit) : (d.setSync n u).regs = d.regs := (rfl)
@[simp] theorem setIns_regs (d : Dev) (n : Nat) (x : InStage) : (d.setIns n x).regs = d.regs := (rfl)
@[simp] theorem setIns_syncs (d : Dev) (n : Nat) (x : InStage) : (d.setIns n x).syncs = d.syncs := (rfl)
@[simp] theorem setGenOf_regs (d : Dev) (n : Nat) (g : SrcGen) : (d.setGenOf n g).regs = d.regs := (rfl)
@[simp] theorem setGenOf_syncs (d : Dev) (n : Nat) (g : SrcGen) : (d.setGenOf n g).syncs = d.syncs := (rfl)
@[simp] theorem genStop_regs (d : Dev) (n : Nat) : (d.genStop n).regs = d.regs := setGenOf_regs ..
@[simp] theorem genStop_syncs (d : Dev) (n : Nat) : (d.genStop n).syncs = d.syncs := setGenOf_syncs ..

/-! ## The start (R222, R224) -/

theorem flag_en (d : Dev) (n : Nat) (b : Bool) : (d.put FS.SYNC_CTL_EN b n).flag FS.SYNC_STAT_RUN n = d.flag FS.SYNC_STAT_RUN n :=
  congrArg (· != 0) (get_set_apart (by decide) ..)

/-- EN is none of the fields that the start conditions read. The closing `rfl` is for the conditions' decision procedures, which `simp` leaves
as they were. -/
theorem syncStartCode_en (d : Dev) (n : Nat) (b : Bool) : (d.put FS.SYNC_CTL_EN b n).syncStartCode n = d.syncStartCode n := by
  have hat (slot : Nat) : (d.set FS.SYNC_CTL_EN (b2n b) n).syncAt slot = d.syncAt slot := rfl
  have hrate : (d.set FS.SYNC_CTL_EN (b2n b) n).cadRate (d.get FS.SYNC_CTL_CAD n) = d.cadRate (d.get FS.SYNC_CTL_CAD n) := by
    have hc : d.get FS.SYNC_CTL_CAD n < 2 ^ 4 := bitsOf_lt ..
    rw [cadRate, cadRate, get_set_off _ _ _ _ _ _ (show 0x00020100 + 4 * d.get FS.SYNC_CTL_CAD n ≠ 0x00700100 by omega)]
  simp (disch := decide) only [put_eq, syncStartCode, syncRate, syncBlocks, gangOk, flag, get_set_apart, hat, hrate]
  rfl

/-- What a start sets in the registers: the store's charge and blocks, and the synchroniser's status. -/
def syncClaim (d : Dev) (n : Nat) : Dev :=
  let units := storeUnits (d.get FS.SYNC_CTL_FMT n)
  let blocks := d.syncBlocks n
  let d := d.set FS.BLK_STAT_UNITS_USED (d.get FS.BLK_STAT_UNITS_USED + units)
  let d := d.set FS.BLK_STAT_SYNC_RUN (d.get FS.BLK_STAT_SYNC_RUN + 1)
  let d := d.set FS.ADP_STAT_BLK_FREE (d.get FS.ADP_STAT_BLK_FREE - blocks)
  let d := (d.set FS.SYNC_STAT_ERR 0 n).put FS.SYNC_STAT_RUN true n
  (d.put FS.SYNC_STAT_EMPTY true n).put FS.SYNC_STAT_FROZEN (d.flag FS.SYNC_CTL_FRZ n) n

/-- What it sets beside them: the delay lines, the synchroniser's holdings, its raster and its slot. -/
def syncSit (d : Dev) (n slot units blocks : Nat) : Dev :=
  let d := (d.delayLines n (blocks / 16)).setSync n { SyncUnit.init with units := units, blocks := blocks }
  let seq := if slot < 1152 then (d.insOf slot).seq else (d.genOf slot).seq
  { d.setGenOf (slot + 2048) { SrcGen.init with seq := seq } with syncOf := mapPut d.syncOf (slot, 0) 0 (n + 1) }

theorem syncRun_eq (d : Dev) (n : Nat) : d.syncRun n =
    (((d.syncClaim n).syncSit n (d.get FS.SYNC_CTL_SLOT n) (storeUnits (d.get FS.SYNC_CTL_FMT n)) (d.syncBlocks n)).put SLP.IN_STAT_PRESENT
      false (d.get FS.SYNC_CTL_SLOT n)).refreshPresence (d.get FS.SYNC_CTL_SLOT n) false := rfl

theorem syncClaim_status (d : Dev) (n : Nat) : (d.syncClaim n).get FS.SYNC_STAT_RUN n = 1 ∧ (d.syncClaim n).get FS.SYNC_STAT_EMPTY n = 1 ∧
    (d.syncClaim n).get FS.SYNC_STAT_ERR n = 0 := by
  simp (disch := decide) only [syncClaim, put_eq, get_set_apart, get_set_self]
  decide

theorem storeUnits_pos (fmt : Nat) : 0 < storeUnits fmt := by
  unfold storeUnits
  split <;> decide

/-- A charge that R222 admits is held. -/
theorem syncClaim_units {d : Dev} {n : Nat} (h : storeUnits (d.get FS.SYNC_CTL_FMT n) ≤ 2048 - d.get FS.BLK_STAT_UNITS_USED) :
    (d.syncClaim n).get FS.BLK_STAT_UNITS_USED = d.get FS.BLK_STAT_UNITS_USED + storeUnits (d.get FS.SYNC_CTL_FMT n) := by
  simp (disch := decide) only [syncClaim, put_eq, get_set_apart, get_set_self]
  have hpos := storeUnits_pos (d.get FS.SYNC_CTL_FMT n)
  exact Nat.mod_eq_of_lt (show _ < 4096 by omega)

theorem syncSit_regs (d : Dev) (n slot units blocks : Nat) : (d.syncSit n slot units blocks).regs = d.regs := by
  simp only [syncSit, setGenOf_regs, setSync_regs, delayLines_keeps]

theorem syncSit_at (d : Dev) (n slot units blocks : Nat) : (d.syncSit n slot units blocks).syncAt slot = some n := by
  rw [syncAt, syncSit, mapGet_mapPut_self]

/-- Condition 3 of R222. -/
theorem syncStartCode_units {d : Dev} {n : Nat} (h : d.syncStartCode n = 0) :
    storeUnits (d.get FS.SYNC_CTL_FMT n) ≤ 2048 - d.get FS.BLK_STAT_UNITS_USED := by
  by_contra hu
  revert h
  unfold syncStartCode
  extract_lets slot fmt rateOk
  rw [if_pos (show storeUnits fmt > _ from Nat.lt_of_not_le hu)]
  split
  · decide
  · split <;> decide

/-- A status code fits its field. -/
theorem syncStartCode_lt (d : Dev) (n : Nat) : d.syncStartCode n < 2 ^ 3 := by
  unfold syncStartCode
  extract_lets slot fmt rateOk
  repeat' split
  all_goals decide

/-- What a synchroniser's start shows, beside the charge. -/
theorem syncRun_get {f : Fld} (d : Dev) (n : Nat) (hi : ∀ x ∈ inputFlds, BitsApart f x) (hp : BitsApart f SLP.IN_STAT_PRESENT) (ch : Nat) :
    (d.syncRun n).get f ch = (d.syncClaim n).get f ch := by
  rw [syncRun_eq]
  exact (SameFld.refreshPresence hi (fun _ => hp) _ _).trans ((SameFld.put _ _ _ _ hp _).trans (SameFld.of_regs (syncSit_regs ..) _))

/-- A slot with a synchroniser that has no frame to play is absent (R224). -/
theorem slotAbsent_shows {d : Dev} {slot n : Nat} (h : d.syncAt slot = some n) :
    ((d.put SLP.IN_STAT_PRESENT false slot).refreshPresence slot false).syncAt slot = some n ∧
    ((d.put SLP.IN_STAT_PRESENT false slot).refreshPresence slot false).get SLP.IN_STAT_PRESENT slot = 0 := by
  have hat : (d.put SLP.IN_STAT_PRESENT false slot).syncAt slot = some n := h
  refine ⟨(syncAt_of_syncOf (OnlySyncs.refreshPresence ..).get_syncOf slot).trans hat, ?_⟩
  exact (SameFld.refreshPresence (by decide) (fun hn => by rw [hat] at hn; cases hn) _ _).trans (get_set_self _ _ _ _ (by decide))

theorem syncRun_slot (d : Dev) (n : Nat) : (d.syncRun n).syncAt (d.get FS.SYNC_CTL_SLOT n) = some n ∧
    (d.syncRun n).get SLP.IN_STAT_PRESENT (d.get FS.SYNC_CTL_SLOT n) = 0 := by
  rw [syncRun_eq]
  exact slotAbsent_shows (syncSit_at ..)

/-- A write of EN = 1 that is refused (R222). -/
def syncRefuse (d : Dev) (n e : Nat) : Dev := (d.set FS.SYNC_STAT_ERR e n).raise FS.SYNC_EVT_CFG_ERR n

theorem syncStart_stopped {d : Dev} {n : Nat} (h : d.flag FS.SYNC_STAT_RUN n = false) : d.syncStart n =
    if d.syncStartCode n = 0 then (d.put FS.SYNC_CTL_EN true n).syncRun n
    else (d.put FS.SYNC_CTL_EN true n).syncRefuse n (d.syncStartCode n) := by
  have hr : (d.put FS.SYNC_CTL_EN true n).flag FS.SYNC_STAT_RUN n = false := (flag_en ..).trans h
  have he : d.syncStart n = if (d.put FS.SYNC_CTL_EN true n).flag FS.SYNC_STAT_RUN n then d.put FS.SYNC_CTL_EN true n
      else if (d.put FS.SYNC_CTL_EN true n).syncStartCode n = 0 then (d.put FS.SYNC_CTL_EN true n).syncRun n
      else (d.put FS.SYNC_CTL_EN true n).syncRefuse n ((d.put FS.SYNC_CTL_EN true n).syncStartCode n) := rfl
  rw [he, if_neg (by simp [hr]), syncStartCode_en]

/-! ## The stop (R224) -/

/-- What a stop gives back in the registers. -/
def syncReturn (d : Dev) (n : Nat) : Dev :=
  let u := d.syncUnit n
  let d := d.set FS.BLK_STAT_UNITS_USED (d.get FS.BLK_STAT_UNITS_USED - u.units)
  let d := d.set FS.BLK_STAT_SYNC_RUN (d.get FS.BLK_STAT_SYNC_RUN - 1)
  let d := d.set FS.ADP_STAT_BLK_FREE (d.get FS.ADP_STAT_BLK_FREE + u.blocks)
  d.put FS.SYNC_STAT_RUN false n

/-- It holds nothing. -/
def syncEmpty (d : Dev) (n : Nat) : Dev := (d.put FS.SYNC_STAT_EMPTY true n).setSync n SyncUnit.init

/-- Its delay lines and its raster end, and its slot carries V = 0 words until the next line of its input. -/
def rasterEnd (d : Dev) (n slot : Nat) : Dev :=
  let d := d.delayLines n 0
  let seq := (d.genOf (slot + 2048)).seq
  let d := (d.setIns slot { d.insOf slot with mute := true, seq := seq }).genStop (slot + 2048)
  if slot < 1152 then d else d.setGenOf slot { d.genOf slot with seq := seq }

theorem rasterEnd_keeps (d : Dev) (n slot : Nat) : (d.rasterEnd n slot).regs = d.regs ∧ (d.rasterEnd n slot).syncs = d.syncs := by
  unfold rasterEnd
  split
  · simp only [genStop_regs, genStop_syncs, setIns_regs, setIns_syncs, delayLines_keeps, and_self]
  · simp only [setGenOf_regs, setGenOf_syncs, genStop_regs, genStop_syncs, setIns_regs, setIns_syncs, delayLines_keeps, and_self]

/-- Its slot has no synchroniser. -/
def slotFree (d : Dev) (slot : Nat) : Dev := { d with syncOf := mapPut d.syncOf (slot, 0) 0 0 }

theorem slotFree_regs (d : Dev) (slot : Nat) : (d.slotFree slot).regs = d.regs := (rfl)
theorem slotFree_syncs (d : Dev) (slot : Nat) : (d.slotFree slot).syncs = d.syncs := (rfl)
theorem slotFree_at (d : Dev) (slot : Nat) : (d.slotFree slot).syncAt slot = none := by rw [syncAt, slotFree, mapGet_mapPut_self]

theorem syncStop_running {d : Dev} {n : Nat} (h : d.flag FS.SYNC_STAT_RUN n = true) : d.syncStop n =
    ((((((d.put FS.SYNC_CTL_EN false n).syncReturn n).refreshHolding n).syncEmpty n).rasterEnd n
      (d.get FS.SYNC_CTL_SLOT n)).slotFree (d.get FS.SYNC_CTL_SLOT n)).refreshPresence (d.get FS.SYNC_CTL_SLOT n) false := by
  have hs : (d.put FS.SYNC_CTL_EN false n).get FS.SYNC_CTL_SLOT n = d.get FS.SYNC_CTL_SLOT n := get_set_apart (by decide) ..
  rw [← hs]
  exact if_pos ((flag_en ..).trans h)

/-- What a stop shows: what it returned, and EMPTY. -/
theorem syncStop_get {f : Fld} {d : Dev} {n : Nat} (h : d.flag FS.SYNC_STAT_RUN n = true) (hi : ∀ x ∈ inputFlds, BitsApart f x)
    (hp : BitsApart f SLP.IN_STAT_PRESENT) (he : BitsApart f FS.SYNC_STAT_EMPTY) (ch : Nat) :
    (d.syncStop n).get f ch = ((d.put FS.SYNC_CTL_EN false n).syncReturn n).get f ch := by
  rw [syncStop_running h]
  have hempty (e : Dev) : SameFld f e (e.syncEmpty n) := (SameFld.put e _ _ _ he).trans (.of_regs rfl)
  exact (SameFld.refreshPresence hi (fun _ => hp) _ ch).trans ((SameFld.of_regs ((slotFree_regs ..).trans (rasterEnd_keeps ..).1) ch).trans
    ((hempty _ ch).trans (SameFld.refreshHolding (fun x m => hi x (.tail _ (.tail _ m))) _ _ ch)))

theorem syncReturn_status (d : Dev) (n : Nat) : (d.syncReturn n).get FS.SYNC_STAT_RUN n = 0 ∧
    (d.syncReturn n).get FS.SYNC_CTL_EN n = d.get FS.SYNC_CTL_EN n ∧
    (d.syncReturn n).get FS.BLK_STAT_UNITS_USED = d.get FS.BLK_STAT_UNITS_USED - (d.syncUnit n).units := by
  simp (disch := decide) only [syncReturn, put_eq, get_set_apart, get_set_self]
  exact ⟨rfl, trivial, Nat.mod_eq_of_lt (Nat.lt_of_le_of_lt (Nat.sub_le ..) (bitsOf_lt ..))⟩

/-- Without a synchroniser at the slot, its presence is in the registers alone. -/
theorem refreshPresence_vacant {d : Dev} {slot : Nat} (h : d.syncAt slot = none) (b : Bool) : OnlyRegs d (d.refreshPresence slot b) := by
  rw [refreshPresence_none h]
  exact (OnlyRegs.put ..).trans (.put ..)

/-- A stop leaves the slot without a synchroniser, and the synchroniser without frames. -/
theorem syncStop_holds {d : Dev} {n : Nat} (h : d.flag FS.SYNC_STAT_RUN n = true) :
    (d.syncStop n).syncAt (d.get FS.SYNC_CTL_SLOT n) = none ∧ (d.syncStop n).syncUnit n = SyncUnit.init := by
  rw [syncStop_running h]
  generalize ((d.put FS.SYNC_CTL_EN false n).syncReturn n).refreshHolding n = e
  generalize d.get FS.SYNC_CTL_SLOT n = slot
  have ho := refreshPresence_vacant (((e.syncEmpty n).rasterEnd n slot).slotFree_at slot) false
  have hs := ho.get_syncs.trans ((slotFree_syncs ..).trans ((e.syncEmpty n).rasterEnd_keeps n slot).2)
  exact ⟨(syncAt_of_syncOf ho.get_syncOf slot).trans (slotFree_at ..), (syncUnit_of_syncs hs n).trans (syncUnit_setSync_self ..)⟩

/-! ## The choice (R226) -/

/-- A synchroniser outside a gang chooses for itself. -/
theorem syncChoice_alone {d : Dev} {n : Nat} (h : d.gangOf n = [n]) (k : Int) (p : SyncFrame → Bool) :
    d.syncChoice n k p = d.syncChoose n k p := by
  rw [syncChoice, h]

/-- The latest frame due at frame k is chosen. -/
theorem syncChoose_due {d : Dev} {n : Nat} {k : Int} {fs : List SyncFrame} {f : SyncFrame}
    (hfs : ((d.syncUnit n).frames.filter fun f => decide (f.due ≤ k)) = fs) (h : fs.getLast? = some f) :
    d.syncChoose n k (fun _ => true) = d.chooseFrame n fs f := by
  simp only [syncChoose, Bool.and_true, hfs, h]

/-- Where none is due, the frame that played last is. -/
theorem syncChoose_none {d : Dev} {n : Nat} {k : Int} (h : ((d.syncUnit n).frames.filter fun f => decide (f.due ≤ k)) = []) :
    d.syncChoose n k (fun _ => true) = d.chooseRepeat n := by
  simp only [syncChoose, Bool.and_true, h, List.getLast?_nil]

theorem chooseFrame_choice (d : Dev) (n : Nat) (fs : List SyncFrame) (f : SyncFrame) :
    ((d.chooseFrame n fs f).syncUnit n).choice = some (some f.buf) := by
  unfold chooseFrame
  extract_lets u lost e
  have he : (e.syncUnit n).choice = some (some f.buf) := by rw [syncUnit_setSync_self]
  split
  · exact he
  · exact he

theorem chooseRepeat_shows {d : Dev} {n : Nat} (h : (d.syncUnit n).playing.isSome = true) :
    ((d.chooseRepeat n).syncUnit n).choice = some none ∧ (d.chooseRepeat n).get FS.SYNC_EVT_REPEAT n = 1 ∧
    (d.chooseRepeat n).get FS.CNT_REPEAT_COUNT n = sat32 (d.get FS.CNT_REPEAT_COUNT n + 1) := by
  unfold chooseRepeat
  extract_lets u r
  rw [if_pos h]
  refine ⟨?_, get_set_self _ _ _ _ (by decide), ?_⟩
  · exact congrArg (·.choice) (syncUnit_setSync_self d n { u with choice := some none, repeats := r })
  · exact (get_set_apart (by decide) ..).trans (count_get _ _ _ rfl rfl)

/-! ## The play (R226, R228) -/

/-- What the play of a frame shows: EMPTY over, the buffer and the delay. -/
def playShown (d : Dev) (n : Nat) (k : Int) (f : SyncFrame) : Dev :=
  let c := d.get FS.SYNC_CTL_CAD n
  let dNs := (frameTu (d.cadRate c) (d.cadOfs c) k - f.start) / tuPerNs
  let d := d.raiseIf (d.flag FS.SYNC_STAT_EMPTY n) FS.SYNC_EVT_START n
  ((d.put FS.SYNC_STAT_EMPTY false n).set FS.SYNC_STAT_BUF f.buf n).set FS.SYNC_DLY_D_NS dNs.toNat n

/-- The holdings once a frame plays: the frames passed over are gone. -/
def playUnit (u : SyncUnit) (f : SyncFrame) : SyncUnit :=
  { u with frames := u.frames.filter fun g => g != f && !g.passed, playing := some f, prev := u.playing, choice := none, repeats := 0 }

theorem playShown_apart {f : Fld} (h : ∀ x ∈ [FS.SYNC_EVT_START, FS.SYNC_STAT_EMPTY, FS.SYNC_STAT_BUF, FS.SYNC_DLY_D_NS], BitsApart f x)
    (d : Dev) (n : Nat) (k : Int) (x : SyncFrame) : SameFld f d (d.playShown n k x) :=
  (((SameFld.raiseIf _ _ _ _ (h _ (by decide))).trans (.put _ _ _ _ (h _ (by decide)))).trans (.set _ _ _ _ (h _ (by decide)))).trans
    (.set _ _ _ _ (h _ (by decide)))

theorem playShown_status (d : Dev) (n : Nat) (k : Int) (f : SyncFrame) :
    (d.playShown n k f).get FS.SYNC_STAT_EMPTY n = 0 ∧ (d.playShown n k f).get FS.SYNC_STAT_BUF n = f.buf % 4 := by
  simp (disch := decide) only [playShown, put_eq, get_set_apart, get_set_self]
  exact ⟨rfl, rfl⟩

theorem playFrame_eq (d : Dev) (n : Nat) (k : Int) (f : SyncFrame) : d.playFrame n k f =
    (((d.playShown n k f).setSync n (playUnit (d.syncUnit n) f)).put SLP.IN_STAT_PRESENT true (d.get FS.SYNC_CTL_SLOT n)).refreshHolding n := by
  have hs : ((d.playShown n k f).setSync n (playUnit (d.syncUnit n) f)).get FS.SYNC_CTL_SLOT n = d.get FS.SYNC_CTL_SLOT n :=
    playShown_apart (by decide) d n k f n
  rw [← hs]
  rfl

theorem playFrame_only (d : Dev) (n : Nat) (k : Int) (f : SyncFrame) : OnlySyncs d (d.playFrame n k f) := by
  rw [playFrame_eq]
  have hshown : OnlySyncs d (d.playShown n k f) :=
    (((OnlySyncs.raiseIf _ _ _ _ (.inr (by decide))).trans (.put _ _ _ _ (.inr (by decide)))).trans (.set _ _ _ _ (.inr (by decide)))).trans
      (.set _ _ _ _ (.inr (by decide)))
  exact ((hshown.trans (.setSync ..)).trans (.put _ _ _ _ (.inl (by decide)))).trans (.refreshHolding ..)

/-- What the play of a frame shows. -/
theorem playFrame_shows (d : Dev) (n : Nat) (k : Int) (f : SyncFrame) :
    ((d.playFrame n k f).syncUnit n).playing = some f ∧ (d.playFrame n k f).get FS.SYNC_STAT_EMPTY n = 0 ∧
    (d.playFrame n k f).get FS.SYNC_STAT_BUF n = f.buf % 4 ∧ (d.playFrame n k f).get SLP.IN_STAT_PRESENT (d.get FS.SYNC_CTL_SLOT n) = 1 := by
  have hget {x : Fld} (h : ∀ y ∈ SLP.IN_STAT_PRESENT :: holdFlds, BitsApart x y) :
      (d.playFrame n k f).get x n = (d.playShown n k f).get x n := by
    rw [playFrame_eq]
    exact (SameFld.refreshHolding (fun y m => h y (.tail _ m)) _ _ n).trans ((SameFld.put _ _ _ _ (h _ (.head _)) n).trans
      (SameFld.of_regs rfl n))
  obtain ⟨hempty, hbuf⟩ := d.playShown_status n k f
  refine ⟨?_, (hget (by decide)).trans hempty, (hget (by decide)).trans hbuf, ?_⟩
  · rw [playFrame_eq, refreshHolding_playing]
    exact congrArg (·.playing) (syncUnit_setSync_self ..)
  · rw [playFrame_eq]
    exact (SameFld.refreshHolding (by decide) _ _ _).trans (get_set_self _ _ _ _ (by decide))

/-- What follows the play at a frame start: the raster's target, and the Logbook's count. -/
def playNoted (d : Dev) (n : Nat) (k : Int) : Dev := (d.syncTarget n k).logAdd (330 + n) 1

theorem playNoted_get {x : Fld} (h : 0x00100000 ≤ x.off) (d : Dev) (n : Nat) (k : Int) (ch : Nat) :
    (d.playNoted n k).get x ch = d.get x ch :=
  (SameFld.logAdd_media h (d.syncTarget n k) _ _ ch).trans (SameFld.of_regs rfl ch)

theorem playNoted_syncs (d : Dev) (n : Nat) (k : Int) : (d.playNoted n k).syncs = d.syncs :=
  (OnlyRegs.logAdd (d.syncTarget n k) _ _).get_syncs

theorem playNoted_act (d : Dev) (n : Nat) (k : Int) : (d.playNoted n k).act = d.act := (OnlyRegs.logAdd (d.syncTarget n k) _ _).get_act

section
variable {d : Dev} {n b : Nat} {f : SyncFrame} (hc : (d.syncUnit n).choice = some (some b))
  (hf : (d.syncUnit n).frames.find? (·.buf == b) = some f)
include hc hf

theorem syncPlay_chosen (k : Int) : d.syncPlay n k = ((d.commit 0x00700104 n).playFrame n k f).playNoted n k := by
  have hu : (d.commit 0x00700104 n).syncUnit n = d.syncUnit n := rfl
  unfold syncPlay
  extract_lets e e' u
  have he : e' = e := if_neg (by rw [hu, hc]; exact Bool.false_ne_true)
  have hu' : u = d.syncUnit n := by rw [show u = e'.syncUnit n from rfl, he, hu]
  simp only [hu', hc, hf, he, e, playNoted]

theorem syncPlay_shows (k : Int) : ((d.syncPlay n k).syncUnit n).playing = some f ∧ (d.syncPlay n k).get FS.SYNC_STAT_EMPTY n = 0 ∧
    (d.syncPlay n k).get FS.SYNC_STAT_BUF n = f.buf % 4 ∧ (d.syncPlay n k).get SLP.IN_STAT_PRESENT (d.get FS.SYNC_CTL_SLOT n) = 1 ∧
    (d.syncPlay n k).actReg 0x00700104 n = d.reg 0x00700104 n := by
  rw [syncPlay_chosen hc hf]
  obtain ⟨hplay, hempty, hbuf, hslot⟩ := (d.commit 0x00700104 n).playFrame_shows n k f
  refine ⟨?_, (playNoted_get (by decide) ..).trans hempty, (playNoted_get (by decide) ..).trans hbuf,
    (playNoted_get (by decide) ..).trans hslot, ?_⟩
  · rw [syncUnit_of_syncs (playNoted_syncs ..)]
    exact hplay
  · rw [actReg, playNoted_act, (playFrame_only ..).get_act]
    exact actReg_commit_self ..

end

/-! ## A frame whose input fails (R227) -/

theorem inputFails_alone {d : Dev} {n b : Nat} (hg : d.gangOf n = [n]) (hw : (d.syncUnit n).writing = some b) :
    d.inputFails n = d.frameFail n b := by
  simp only [inputFails, hw, hg, List.foldl_cons, List.foldl_nil, if_true]

theorem frameFail_shows {d : Dev} {n b : Nat} (hw : (d.syncUnit n).writing = some b) :
    ((d.frameFail n b).syncUnit n).writing = none ∧
    ((d.frameFail n b).syncUnit n).frames = (d.syncUnit n).frames.filter (·.buf != b) ∧
    (d.frameFail n b).get FS.SYNC_EVT_INCOMPLETE n = 1 ∧
    (d.frameFail n b).get FS.CNT_INCOMPLETE_COUNT n = sat32 (d.get FS.CNT_INCOMPLETE_COUNT n + 1) := by
  unfold frameFail
  extract_lets u w c e
  have hw' : w = none := if_pos hw
  refine ⟨?_, ?_, get_set_self _ _ _ _ (by decide), (get_set_apart (by decide) ..).trans (count_get _ _ _ rfl rfl)⟩
  · rw [syncUnit_setSync_self, hw']
  · rw [syncUnit_setSync_self]

/-! ## HOLD_TMO (R228, R234) -/

/-- A frame that is chosen, or complete and due, for the next frame start. -/
def nextPlays (d : Dev) (n : Nat) : Bool :=
  ((d.syncUnit n).choice.bind id).isSome || (d.syncUnit n).frames.any fun f =>
    f.complete && decide (f.due ≤ mapGet d.cadLast (d.get FS.SYNC_CTL_CAD n, 0) (-1) + 1)

/-- The complete frames are discarded. -/
def syncDiscard (d : Dev) (n : Nat) : Dev :=
  d.setSync n { d.syncUnit n with
    frames := (d.syncUnit n).frames.filter fun f => !f.complete, playing := none, prev := none, choice := none, repeats := 0 }

theorem syncTimeout_eq (d : Dev) (n : Nat) : d.syncTimeout n =
    if !d.nextPlays n && d.flag FS.SYNC_STAT_RUN n && d.flag FS.SYNC_STAT_HOLDING n && d.getAct FS.SYNC_HOLD_HOLD_TMO n != 0 &&
      decide (d.getAct FS.SYNC_HOLD_HOLD_TMO n ≤ (d.syncUnit n).repeats) then
      (((d.syncDiscard n).put FS.SYNC_STAT_EMPTY true n).raise FS.SYNC_EVT_EMPTY n).refreshHolding n
    else d := rfl

theorem syncTimeout_early {d : Dev} {n : Nat} (h : (d.syncUnit n).repeats < d.getAct FS.SYNC_HOLD_HOLD_TMO n) : d.syncTimeout n = d := by
  rw [syncTimeout_eq, if_neg (by simp [Nat.not_le.2 h])]

theorem nextPlays_none {d : Dev} {n : Nat} (hc : (d.syncUnit n).choice.bind id = none) (hd : ∀ f ∈ (d.syncUnit n).frames, f.complete = true →
    mapGet d.cadLast (d.get FS.SYNC_CTL_CAD n, 0) (-1) + 1 < f.due) : d.nextPlays n = false := by
  rw [nextPlays, hc, Option.isSome_none, Bool.false_or, List.any_eq_false]
  intro f hf hp
  obtain ⟨hcomplete, hdue⟩ := Bool.and_eq_true_iff.1 hp
  exact absurd (of_decide_eq_true hdue) (Int.not_le.2 (hd f hf hcomplete))

/-- What the time-out shows. -/
theorem syncTimeout_shows {d : Dev} {n : Nat} (hp : d.nextPlays n = false) (hr : d.flag FS.SYNC_STAT_RUN n = true)
    (hh : d.flag FS.SYNC_STAT_HOLDING n = true) (ht : d.getAct FS.SYNC_HOLD_HOLD_TMO n ≠ 0)
    (hn : d.getAct FS.SYNC_HOLD_HOLD_TMO n ≤ (d.syncUnit n).repeats) :
    (d.syncTimeout n).get FS.SYNC_STAT_EMPTY n = 1 ∧ (d.syncTimeout n).get FS.SYNC_EVT_EMPTY n = 1 ∧
    ((d.syncTimeout n).syncUnit n).playing = none ∧ (d.syncTimeout n).get FS.SYNC_STAT_HOLDING n = 0 := by
  rw [syncTimeout_eq, if_pos (by simp [hp, hr, hh, ht, hn])]
  have hidle : ((((d.syncDiscard n).put FS.SYNC_STAT_EMPTY true n).raise FS.SYNC_EVT_EMPTY n).syncUnit n).playing = none :=
    congrArg (·.playing) (syncUnit_setSync_self ..)
  refine ⟨?_, ?_, (refreshHolding_playing ..).trans hidle, refreshHolding_idle hidle⟩
  · rw [SameFld.refreshHolding (by decide), raise_eq, get_set_apart (by decide)]
    exact get_set_self _ _ _ _ (by decide)
  · rw [SameFld.refreshHolding (by decide)]
    exact get_set_self _ _ _ _ (by decide)

end Dev

/-! ## The commands -/

section
variable {n : Fin 512} {k : Int} {s : State}

theorem exec_syncStart (n : Fin 512) (s : State) : exec (.syncStart n) s = s.go fun d => d.syncStart n := rfl

theorem exec_syncStop (n : Fin 512) (s : State) : exec (.syncStop n) s = s.go fun d => d.syncStop n := rfl

theorem exec_syncFreeze (n : Fin 512) (v : Bool) (s : State) : exec (.syncFreeze n v) s = s.go fun d =>
    (d.put FS.SYNC_CTL_FRZ v n).put FS.SYNC_STAT_FROZEN v n := rfl

theorem exec_syncFrameChoice (n : Fin 512) (k : Int) (s : State) : exec (.syncFrameChoice n k) s = s.go fun d =>
    if d.flag FS.SYNC_STAT_RUN n then d.syncChoice n k fun _ => true else d := rfl

theorem exec_syncFramePlay (n : Fin 512) (k : Int) (s : State) : exec (.syncFramePlay n k) s = s.go fun d =>
    if d.flag FS.SYNC_STAT_RUN n then d.syncPlay n k else d := rfl

theorem exec_syncFrameIncomplete (n : Fin 512) (s : State) : exec (.syncFrameIncomplete n) s = s.go fun d => d.inputFails n := rfl

theorem exec_syncHoldTimeout (n : Fin 512) (s : State) : exec (.syncHoldTimeout n) s = s.go fun d => d.syncTimeout n := rfl

/-- SYNC_START of a stopped synchroniser, no condition failing. -/
theorem runsTo_syncStart (hr : s.dev.flag FS.SYNC_STAT_RUN n = false) (hc : s.dev.syncStartCode n = 0) : RunsTo (.syncStart n) s fun d =>
    d.get FS.SYNC_STAT_RUN n = 1 ∧ d.get FS.SYNC_STAT_EMPTY n = 1 ∧ d.get FS.SYNC_STAT_ERR n = 0 ∧
    d.syncAt (s.dev.get FS.SYNC_CTL_SLOT n) = some n.val ∧ d.get SLP.IN_STAT_PRESENT (s.dev.get FS.SYNC_CTL_SLOT n) = 0 ∧
    d.get FS.BLK_STAT_UNITS_USED = s.dev.get FS.BLK_STAT_UNITS_USED + storeUnits (s.dev.get FS.SYNC_CTL_FMT n) := by
  refine runsTo_go (exec_syncStart n s) ((Dev.syncStart_stopped hr).trans (if_pos hc)) ?_
  set e := s.dev.put FS.SYNC_CTL_EN true n with he
  have hen {f : Fld} (h : BitsApart f FS.SYNC_CTL_EN) (ch : Nat) : e.get f ch = s.dev.get f ch := Dev.get_set_apart h ..
  have hce : e.syncStartCode n = 0 := (Dev.syncStartCode_en ..).trans hc
  obtain ⟨hrun, hempty, herr⟩ := e.syncClaim_status n
  obtain ⟨hat, hpres⟩ := e.syncRun_slot n
  rw [← hen (by decide) n, ← hen (f := FS.SYNC_CTL_FMT) (by decide) n, ← hen (f := FS.BLK_STAT_UNITS_USED) (by decide) 0]
  exact ⟨(e.syncRun_get n (by decide) (by decide) n).trans hrun, (e.syncRun_get n (by decide) (by decide) n).trans hempty,
    (e.syncRun_get n (by decide) (by decide) n).trans herr, hat, hpres,
    (e.syncRun_get n (by decide) (by decide) 0).trans (Dev.syncClaim_units (Dev.syncStartCode_units hce))⟩

/-- SYNC_START refused. -/
theorem regsTo_syncStart_refused (hr : s.dev.flag FS.SYNC_STAT_RUN n = false) (hc : s.dev.syncStartCode n ≠ 0) :
    RegsTo (.syncStart n) s fun d => d.get FS.SYNC_STAT_RUN n = 0 ∧ d.get FS.SYNC_STAT_ERR n = s.dev.syncStartCode n ∧
      d.get FS.SYNC_EVT_CFG_ERR n = 1 ∧ RegsKept s.dev d [(0x00700100, n.val), (0x00700108, n.val), (0x00700110, n.val)] := by
  have hi : exec (.syncStart n) s = s.go fun d => (d.put FS.SYNC_CTL_EN true n).syncRefuse n (d.syncStartCode n) := by
    rw [exec_syncStart, State.go_eq, State.go_eq, Dev.syncStart_stopped hr, if_neg hc]
  refine regsTo_go hi (((OnlyRegs.put ..).trans (.set ..)).trans (.raise ..)) ⟨?_, ?_, Dev.get_set_self _ _ _ _ (by decide), ?_⟩
  · rw [Dev.syncRefuse, Dev.raise_eq, Dev.get_set_apart (by decide), Dev.get_set_apart (by decide), Dev.put_eq, Dev.get_set_apart (by decide)]
    simpa [Dev.flag] using hr
  · rw [Dev.syncRefuse, Dev.raise_eq, Dev.get_set_apart (by decide), Dev.get_set_self _ _ _ _ (by decide)]
    exact Nat.mod_eq_of_lt (Dev.syncStartCode_lt ..)
  · exact ((RegsKept.put _ _ _ _ (by simp [FS.SYNC_CTL_EN])).trans (.set _ _ _ _ (by simp [FS.SYNC_STAT_ERR]))).trans
      (.raise _ _ _ (by simp [FS.SYNC_EVT_CFG_ERR]))

/-- SYNC_STOP of a running synchroniser. -/
theorem runsTo_syncStop (hr : s.dev.flag FS.SYNC_STAT_RUN n = true) : RunsTo (.syncStop n) s fun d =>
    d.get FS.SYNC_STAT_RUN n = 0 ∧ d.get FS.SYNC_CTL_EN n = 0 ∧ d.syncAt (s.dev.get FS.SYNC_CTL_SLOT n) = none ∧
    d.syncUnit n = SyncUnit.init ∧
    d.get FS.BLK_STAT_UNITS_USED = s.dev.get FS.BLK_STAT_UNITS_USED - (s.dev.syncUnit n).units := by
  refine runsTo_go (exec_syncStop n s) rfl ?_
  obtain ⟨hrun, hen, hunits⟩ := (s.dev.put FS.SYNC_CTL_EN false n).syncReturn_status n
  obtain ⟨hat, hinit⟩ := Dev.syncStop_holds hr
  exact ⟨(Dev.syncStop_get hr (by decide) (by decide) (by decide) n).trans hrun,
    (Dev.syncStop_get hr (by decide) (by decide) (by decide) n).trans (hen.trans (Dev.get_set_self _ _ _ _ (by decide))), hat, hinit,
    (Dev.syncStop_get hr (by decide) (by decide) (by decide) 0).trans (hunits.trans
      (congrArg (· - (s.dev.syncUnit n).units) (Dev.get_set_apart (by decide) ..)))⟩

/-- SYNC_FREEZE. -/
theorem regsTo_syncFreeze (v : Bool) : RegsTo (.syncFreeze n v) s fun d =>
    d.get FS.SYNC_CTL_FRZ n = b2n v ∧ d.get FS.SYNC_STAT_FROZEN n = b2n v ∧
    RegsKept s.dev d [(0x00700100, n.val), (0x00700108, n.val)] := by
  have hbit : b2n v % 2 ^ 1 = b2n v := by cases v <;> rfl
  refine regsTo_go (exec_syncFreeze n v s) ((OnlyRegs.put ..).trans (.put ..)) ⟨?_, ?_, ?_⟩
  · rw [Dev.put_eq, Dev.put_eq, Dev.get_set_apart (by decide), Dev.get_set_self _ _ _ _ (by decide)]
    exact hbit
  · rw [Dev.put_eq, Dev.get_set_self _ _ _ _ (by decide)]
    exact hbit
  · exact (RegsKept.put _ _ _ _ (by simp [FS.SYNC_CTL_FRZ])).trans (.put _ _ _ _ (by simp [FS.SYNC_STAT_FROZEN]))

/-- SYNC_FRAME_CHOICE of a running synchroniser outside a gang. -/
theorem runsTo_syncFrameChoice (hg : s.dev.gangOf n = [n.val]) (hr : s.dev.flag FS.SYNC_STAT_RUN n = true) :
    (∀ f, ((s.dev.syncUnit n).frames.filter fun f => decide (f.due ≤ k)).getLast? = some f →
      RunsTo (.syncFrameChoice n k) s fun d => (d.syncUnit n).choice = some (some f.buf)) ∧
    (((s.dev.syncUnit n).frames.filter fun f => decide (f.due ≤ k)) = [] → (s.dev.syncUnit n).playing.isSome = true →
      RunsTo (.syncFrameChoice n k) s fun d => (d.syncUnit n).choice = some none ∧ d.get FS.SYNC_EVT_REPEAT n = 1 ∧
        d.get FS.CNT_REPEAT_COUNT n = sat32 (s.dev.get FS.CNT_REPEAT_COUNT n + 1)) := by
  have he : (if s.dev.flag FS.SYNC_STAT_RUN n then s.dev.syncChoice n k fun _ => true else s.dev) =
      s.dev.syncChoose n k fun _ => true := (if_pos hr).trans (Dev.syncChoice_alone hg k _)
  exact ⟨fun f hf => runsTo_go (exec_syncFrameChoice n k s) (he.trans (Dev.syncChoose_due rfl hf)) (Dev.chooseFrame_choice ..),
    fun hn hp => runsTo_go (exec_syncFrameChoice n k s) (he.trans (Dev.syncChoose_none hn)) (Dev.chooseRepeat_shows hp)⟩

end

/-- Settles O17: each command's meaning is cut into what it sets in the registers and what it changes beside them, and HOLDING and a slot's
presence change a few named fields alone (`holdFlds`, `inputFlds`). -/
theorem synchronisers : Obligations.Synchronisers :=
  ⟨fun _ _ => ⟨runsTo_syncStart, regsTo_syncStart_refused, runsTo_syncStop, regsTo_syncFreeze⟩,
    fun n k s => ⟨runsTo_syncFrameChoice,
      fun hr _ _ hc hf => runsTo_go (exec_syncFramePlay n k s) (if_pos hr) (Dev.syncPlay_shows hc hf k),
      fun hg _ hw => runsTo_go (exec_syncFrameIncomplete n s) (Dev.inputFails_alone hg hw) (Dev.frameFail_shows hw),
      fun _ _ _ hn => runsTo_go (exec_syncHoldTimeout n s) (Dev.syncTimeout_early hn) rfl,
      fun hr hh ht hc hd hn => runsTo_go (exec_syncHoldTimeout n s) rfl
        (Dev.syncTimeout_shows (Dev.nextPlays_none hc hd) hr hh ht hn)⟩⟩

end Sys2Proof.Machine
end

section
/-!
Proofs, the frame store (chapter 8): the BAR2 windows byte by byte, the store errors and the counters' clears (R237 to R240).
-/

namespace Sys2Proof.Machine

/-! ## The bytes of an access (R237) -/

namespace Dev

/-- A part of an access, byte by byte: the store address of each byte, and its place in the access. -/
def partBytes (p : Nat × Nat × Nat) : List (Nat × Nat) := (List.range p.2.2).map fun j => (p.1 + j, p.2.1 + j)

/-- The first `n` bytes of an access at a BAR2 offset, each at the address that its own window gives it. -/
def winBytes (d : Dev) (o n : Nat) : List (Nat × Nat) := (List.range n).map fun i => (d.bar2Addr (o + i), i)

/-- The BAR2 offset at which window `k` begins. Irreducible, for a comparison of two of them would count up to the size of a window. -/
@[irreducible] def winBase (k : Nat) : Nat := k * 0x4000000

theorem winBase_eq (k : Nat) : winBase k = k * 0x4000000 := by rw [winBase]

/-- The part of an access that falls in window `k`. -/
def winPart (d : Dev) (o len k : Nat) : Option (Nat × Nat × Nat) :=
  let a := max o (winBase k)
  let b := min (o + len) (winBase (k + 1))
  if a < b then some (d.bar2Addr a, a - o, b - a) else none

theorem bar2Parts_eq (d : Dev) (o len : Nat) : d.bar2Parts o len = (List.range 4).filterMap (d.winPart o len) := by
  unfold winPart
  simp only [winBase_eq]
  rfl

/-- Within a window addresses follow offsets. -/
theorem bar2Addr_add (d : Dev) {a j k : Nat} (ha : winBase k ≤ a) (hj : a + j < winBase (k + 1)) :
    d.bar2Addr (a + j) = d.bar2Addr a + j := by
  rw [winBase_eq] at ha hj
  have hw : a / 0x4000000 = k := by omega
  have hw' : (a + j) / 0x4000000 = k := by omega
  rw [bar2Addr, bar2Addr, hw, hw']
  omega

/-- The bytes of the part in one window continue those of the windows before it. -/
theorem winBytes_step (d : Dev) (o len k : Nat) : d.winBytes o (min (o + len) (winBase (k + 1)) - o) =
    d.winBytes o (min (o + len) (winBase k) - o) ++ (d.winPart o len k).toList.flatMap partBytes := by
  have hk : winBase k ≤ winBase (k + 1) := by simp only [winBase_eq]; omega
  unfold winPart
  extract_lets a b
  split
  · next h =>
    have hlen : b - o = (min (o + len) (winBase k) - o) + (b - a) := by omega
    have hstart : a - o = min (o + len) (winBase k) - o := by omega
    rw [hlen, hstart]
    simp only [winBytes, partBytes, List.range_add, List.map_append, List.map_map, Option.toList_some, List.flatMap_cons, List.flatMap_nil,
      List.append_nil]
    refine congrArg (_ ++ ·) (List.map_congr_left fun j hj => ?_)
    have hj' : j < b - a := List.mem_range.1 hj
    have ho : o + (min (o + len) (winBase k) - o + j) = a + j := by omega
    simp only [Function.comp, ho, d.bar2Addr_add (show winBase k ≤ a by omega) (show a + j < winBase (k + 1) by omega)]
  · next h =>
    have hsame : b - o = min (o + len) (winBase k) - o := by omega
    rw [hsame, Option.toList_none, List.flatMap_nil, List.append_nil]

/-- The parts of an access are its bytes up to the end of the windows, in order. -/
theorem bar2Parts_bytes (d : Dev) (o len : Nat) :
    (d.bar2Parts o len).flatMap partBytes = d.winBytes o (min (o + len) 0x10000000 - o) := by
  have key (K : Nat) : ((List.range K).filterMap (d.winPart o len)).flatMap partBytes = d.winBytes o (min (o + len) (winBase K) - o) := by
    induction K with
    | zero => simp [winBytes, winBase_eq]
    | succ K ih =>
      rw [List.range_succ, List.filterMap_append, List.flatMap_append, ih, winBytes_step]
      cases h : d.winPart o len K <;> simp [h]
  rw [bar2Parts_eq, key, winBase_eq]

/-- A byte of a part is a byte of the access within the windows, and the other way round. -/
theorem mem_bar2Parts {d : Dev} {o len x i : Nat} : (∃ p ∈ d.bar2Parts o len, (x, i) ∈ partBytes p) ↔
    i < len ∧ o + i < 0x10000000 ∧ d.bar2Addr (o + i) = x := by
  rw [← List.mem_flatMap, bar2Parts_bytes, winBytes, List.mem_map]
  constructor
  · rintro ⟨j, hj, he⟩
    obtain ⟨rfl, rfl⟩ := Prod.mk.inj he
    have := List.mem_range.1 hj
    exact ⟨by omega, by omega, rfl⟩
  · rintro ⟨hl, ho, rfl⟩
    exact ⟨i, List.mem_range.2 (by omega), rfl⟩

/-- A part has at least one byte. -/
theorem bar2Parts_pos {d : Dev} {o len : Nat} {p : Nat × Nat × Nat} (h : p ∈ d.bar2Parts o len) : 0 < p.2.2 := by
  obtain ⟨k, -, hk⟩ := List.mem_filterMap.1 h
  dsimp only at hk
  split at hk
  · obtain rfl := Option.some.inj hk
    show 0 < _ - _
    omega
  · cases hk

theorem mem_partBytes {p : Nat × Nat × Nat} {x i : Nat} : (x, i) ∈ partBytes p ↔ ∃ j < p.2.2, p.1 + j = x ∧ p.2.1 + j = i := by
  simp [partBytes]

end Dev

theorem memReads_eq_map (u : Byte) (m : Memory) (n : Nat) : ∀ a, memReads u m a n = (List.range n).map fun j => memRead u (a + j) m := by
  induction n with
  | zero => exact fun _ => rfl
  | succ n ih =>
    intro a
    rw [memReads, ih, List.range_succ_eq_map, List.map_cons, List.map_map]
    simp [Function.comp_def, Nat.add_assoc, Nat.add_comm 1]

/-- A read's bytes, each from the address that its own window gives it. -/
theorem readParts_eq (u : Byte) (d : Dev) (o len : Nat) (m : Memory) :
    ((d.bar2Parts o len).flatMap fun p => memReads u m p.1 p.2.2) =
      (List.range (min (o + len) 0x10000000 - o)).map fun i => memRead u (d.bar2Addr (o + i)) m := by
  have hpart (p : Nat × Nat × Nat) : memReads u m p.1 p.2.2 = (Dev.partBytes p).map fun x => memRead u x.1 m := by
    rw [memReads_eq_map, Dev.partBytes, List.map_map]
    rfl
  simp only [hpart, ← List.map_flatMap, Dev.bar2Parts_bytes, Dev.winBytes, List.map_map]
  rfl

/-! ## The bytes of a write (R238) -/

/-- One byte of a write, at a store address. -/
def putByte (bytes : List (Option Byte)) (m : Memory) (x : Nat × Nat) : Memory := bar2Put m x.1 (bytes[x.2]?).toList

theorem putByte_self {bytes : List (Option Byte)} {i a : Nat} {v : Byte} (hv : bytes[i]? = some (some v)) (hs : surfStart ≤ a) (he : a < storeEnd)
    (m : Memory) : memRead storeFill a (putByte bytes m (a, i)) = v := by
  have hp : putByte bytes m (a, i) = memWrite storeFill m a v := by
    simp only [putByte, hv, Option.toList_some, bar2Put, if_pos (And.intro hs he)]
  rw [hp, memRead_memWrite_self]

/-- What a byte does not reach: an address that it is not enabled for, or that no host write reaches. -/
theorem putByte_other {bytes : List (Option Byte)} {i a x : Nat}
    (h : ∀ v, bytes[i]? = some (some v) → surfStart ≤ a → a < storeEnd → a ≠ x) (m : Memory) :
    memRead storeFill x (putByte bytes m (a, i)) = memRead storeFill x m := by
  unfold putByte
  dsimp only
  match hb : bytes[i]? with
  | none => rfl
  | some none => rfl
  | some (some v) =>
    simp only [Option.toList_some, bar2Put]
    split
    · next hr => exact memRead_memWrite_ne (Ne.symm (h v hb hr.1 hr.2)) ..
    · rfl

/-- The bytes of a part, one by one. -/
theorem bar2Put_part (bytes : List (Option Byte)) (n : Nat) : ∀ (m : Memory) (a i : Nat),
    bar2Put m a ((bytes.drop i).take n) = (Dev.partBytes (a, i, n)).foldl (putByte bytes) m := by
  induction n with
  | zero => intros; rfl
  | succ n ih =>
    intro m a i
    have hrest : Dev.partBytes (a, i, n + 1) = (a, i) :: Dev.partBytes (a + 1, i + 1, n) := by
      simp [Dev.partBytes, List.range_succ_eq_map, Function.comp_def, Nat.add_assoc, Nat.add_comm 1]
    rw [hrest, List.foldl_cons, ← ih]
    by_cases hi : i < bytes.length
    · rw [List.drop_eq_getElem_cons hi, List.take_succ_cons, putByte, List.getElem?_eq_getElem hi]
      rfl
    · rw [List.drop_eq_nil_of_le (by omega), List.drop_eq_nil_of_le (by omega), List.take_nil, List.take_nil, putByte,
        List.getElem?_eq_none (by omega)]
      rfl

namespace Dev

/-- The store after a BAR2 write. -/
def bar2Stored (d : Dev) (o : Nat) (bytes : List (Option Byte)) (m : Memory) : Memory :=
  (d.bar2Parts o bytes.length).foldl (fun m p => bar2Put m p.1 ((bytes.drop p.2.1).take p.2.2)) m

theorem bar2Stored_eq (d : Dev) (o : Nat) (bytes : List (Option Byte)) (m : Memory) :
    d.bar2Stored o bytes m = (d.winBytes o (min (o + bytes.length) 0x10000000 - o)).foldl (putByte bytes) m := by
  rw [← bar2Parts_bytes, List.foldl_flatMap, bar2Stored]
  simp only [bar2Put_part]

theorem winBytes_succ (d : Dev) (o n : Nat) : d.winBytes o (n + 1) = d.winBytes o n ++ [(d.bar2Addr (o + n), n)] := by
  rw [winBytes, List.range_succ, List.map_append]
  rfl

/-- An address that no enabled byte reaches keeps its byte. -/
theorem winBytes_other {d : Dev} {o x : Nat} {bytes : List (Option Byte)} (m : Memory) (n : Nat)
    (h : ∀ i < n, ∀ v, bytes[i]? = some (some v) → surfStart ≤ d.bar2Addr (o + i) → d.bar2Addr (o + i) < storeEnd →
      d.bar2Addr (o + i) ≠ x) :
    memRead storeFill x ((d.winBytes o n).foldl (putByte bytes) m) = memRead storeFill x m := by
  induction n with
  | zero => rfl
  | succ n ih =>
    rw [winBytes_succ, List.foldl_append, List.foldl_cons, List.foldl_nil, putByte_other (h n (Nat.lt_succ_self n)),
      ih fun i hi => h i (Nat.lt_succ_of_lt hi)]

/-- The last enabled byte for an address of SURF and HOST stands there. -/
theorem winBytes_last {d : Dev} {o i : Nat} {v : Byte} {bytes : List (Option Byte)} (m : Memory) (hv : bytes[i]? = some (some v))
    (hs : surfStart ≤ d.bar2Addr (o + i)) (he : d.bar2Addr (o + i) < storeEnd) (n : Nat) (hi : i < n)
    (hl : ∀ j, i < j → j < n → d.bar2Addr (o + j) ≠ d.bar2Addr (o + i)) :
    memRead storeFill (d.bar2Addr (o + i)) ((d.winBytes o n).foldl (putByte bytes) m) = v := by
  induction n with
  | zero => omega
  | succ n ih =>
    rw [winBytes_succ, List.foldl_append, List.foldl_cons, List.foldl_nil]
    by_cases hn : i = n
    · subst hn
      exact putByte_self hv hs he _
    · rw [putByte_other fun _ _ _ _ => hl n (by omega) (Nat.lt_succ_self n)]
      exact ih (by omega) fun j hij hj => hl j hij (Nat.lt_succ_of_lt hj)

section
variable {d : Dev} {o x : Nat} {bytes : List (Option Byte)} (m : Memory)

/-- A write reaches no byte but those that are enabled. -/
theorem bar2Stored_other (h : ∀ i v, bytes[i]? = some (some v) → o + i < 0x10000000 → d.bar2Addr (o + i) ≠ x) :
    memRead storeFill x (d.bar2Stored o bytes m) = memRead storeFill x m := by
  rw [bar2Stored_eq]
  exact winBytes_other m _ fun i hi v hv _ _ => h i v hv (by omega)

/-- Nor any outside SURF and HOST. -/
theorem bar2Stored_outside (h : x < surfStart ∨ storeEnd ≤ x) : memRead storeFill x (d.bar2Stored o bytes m) = memRead storeFill x m := by
  rw [bar2Stored_eq]
  exact winBytes_other m _ fun i _ _ _ hs he hx => by omega

theorem bar2Stored_last {i : Nat} {v : Byte} (hv : bytes[i]? = some (some v)) (hi : o + i < 0x10000000)
    (hs : surfStart ≤ d.bar2Addr (o + i)) (he : d.bar2Addr (o + i) < storeEnd)
    (hl : ∀ j, i < j → j < bytes.length → o + j < 0x10000000 → d.bar2Addr (o + j) ≠ d.bar2Addr (o + i)) :
    memRead storeFill (d.bar2Addr (o + i)) (d.bar2Stored o bytes m) = v := by
  have hlen : i < bytes.length := (List.getElem?_eq_some_iff.1 hv).1
  rw [bar2Stored_eq]
  exact winBytes_last m hv hs he _ (by omega) fun j hij hj => hl j hij (by omega) (by omega)

end

/-! ## What an access meets (R238, R239) -/

/-- A part of the access reaches beyond the store. -/
def bar2Beyond (d : Dev) (o len : Nat) : Bool := (d.bar2Parts o len).any fun p => decide (storeEnd < p.1 + p.2.2)

/-- A part of the access begins below SURF. -/
def bar2Below (d : Dev) (o len : Nat) : Bool := (d.bar2Parts o len).any fun p => decide (p.1 < surfStart)

/-- A part of the access touches a granule with an uncorrectable error. -/
def bar2Bad (d : Dev) (o len : Nat) : Bool :=
  d.ueGran.any fun g => (d.bar2Parts o len).any fun p => decide (g * 32 < p.1 + p.2.2) && decide (p.1 < g * 32 + 32)

/-- The part that holds a byte of the access. -/
theorem bar2Parts_hold {d : Dev} {o len i : Nat} (hi : i < len) (ho : o + i < 0x10000000) :
    ∃ p ∈ d.bar2Parts o len, ∃ j < p.2.2, p.1 + j = d.bar2Addr (o + i) := by
  obtain ⟨p, hp, hm⟩ := mem_bar2Parts.2 ⟨hi, ho, rfl⟩
  obtain ⟨j, hj, hx, -⟩ := mem_partBytes.1 hm
  exact ⟨p, hp, j, hj, hx⟩

theorem bar2Beyond_of_byte {d : Dev} {o len i : Nat} (hi : i < len) (ho : o + i < 0x10000000) (hx : storeEnd ≤ d.bar2Addr (o + i)) :
    d.bar2Beyond o len = true := by
  obtain ⟨p, hp, j, hj, ha⟩ := bar2Parts_hold (d := d) hi ho
  exact List.any_eq_true.2 ⟨p, hp, decide_eq_true (by omega)⟩

theorem bar2Beyond_none {d : Dev} {o len : Nat} (h : ∀ i < len, d.bar2Addr (o + i) < storeEnd) : d.bar2Beyond o len = false := by
  rw [bar2Beyond, List.any_eq_false]
  intro p hp hb
  have hpos := bar2Parts_pos hp
  obtain ⟨hi, -, hx⟩ := mem_bar2Parts.1 ⟨p, hp, mem_partBytes.2 ⟨p.2.2 - 1, by omega, rfl, rfl⟩⟩
  have := h _ hi
  have := of_decide_eq_true hb
  omega

theorem bar2Below_of_first {d : Dev} {o len : Nat} (hl : 0 < len) (ho : o < 0x10000000) (hx : d.bar2Addr o < surfStart) :
    d.bar2Below o len = true := by
  obtain ⟨p, hp, j, hj, ha⟩ := bar2Parts_hold (d := d) hl ho
  rw [Nat.add_zero] at ha
  exact List.any_eq_true.2 ⟨p, hp, decide_eq_true (by omega)⟩

theorem bar2Bad_of_byte {d : Dev} {o len i : Nat} (hi : i < len) (ho : o + i < 0x10000000) (hg : d.bar2Addr (o + i) / 32 ∈ d.ueGran) :
    d.bar2Bad o len = true := by
  obtain ⟨p, hp, j, hj, ha⟩ := bar2Parts_hold (d := d) hi ho
  refine List.any_eq_true.2 ⟨_, hg, List.any_eq_true.2 ⟨p, hp, ?_⟩⟩
  rw [Bool.and_eq_true, decide_eq_true_eq, decide_eq_true_eq]
  omega

/-! ## The completions -/

/-- The block after a read: the completion, the Logbook's counts, and WIN_RANGE where a part lay beyond the store. -/
def bar2Reply (d : Dev) (len : Nat) (ps : List (Nat × Nat × Nat)) (ans : List Byte × Bool) (beyond : Bool) : Dev :=
  let d := if ans.2 then d else (d.bwAdd 267 len).hbmMoves false (ps.map fun p => (p.1, p.2.2))
  ({ d with bar2 := some ans }.logAdd 1746 1).raiseIf beyond FS.BLK_EVT_WIN_RANGE

theorem bar2Reply_bar2 (d : Dev) (len : Nat) (ps : List (Nat × Nat × Nat)) (ans : List Byte × Bool) (beyond : Bool) :
    (d.bar2Reply len ps ans beyond).bar2 = some ans := ((OnlyRegs.logAdd ..).trans (.raiseIf ..)).get_bar2

theorem bar2Reply_range (d : Dev) (len : Nat) (ps : List (Nat × Nat × Nat)) (ans : List Byte × Bool) :
    (d.bar2Reply len ps ans true).get FS.BLK_EVT_WIN_RANGE = 1 := get_set_self _ _ _ _ (by decide)

/-- The block after a write: the Logbook's counts, the events of what was discarded, and the granules whose correction it supersedes. -/
def bar2Wrote (d : Dev) (o : Nat) (bytes : List (Option Byte)) : Dev :=
  let ps := d.bar2Parts o bytes.length
  let part (p : Nat × Nat × Nat) : List (Option Byte) := (bytes.drop p.2.1).take p.2.2
  let range := d.bar2Beyond o bytes.length
  let wp := d.bar2Below o bytes.length
  let good := ps.flatMap fun p => (fullGranules p.1 (part p)).filter fun g => decide (surfStart ≤ g * 32)
  let d := ((d.logAdd 1747 1).bwAdd 266 bytes.length).raiseIf range FS.BLK_EVT_WIN_RANGE |>.raiseIf wp FS.BLK_EVT_WIN_WP
  let part' := ps.flatMap fun p => partGranules p.1 (part p)
  let d := if range || wp then d
    else (d.hbmMoves false (part'.map fun g => (g * 32, 32))).hbmMoves true (ps.map fun p => (p.1, p.2.2))
  { d with ueGran := d.ueGran.filter fun g => !good.contains g }

theorem bar2Wrote_wp {d : Dev} {o : Nat} {bytes : List (Option Byte)} (h : d.bar2Below o bytes.length = true) :
    (d.bar2Wrote o bytes).get FS.BLK_EVT_WIN_WP = 1 := by
  unfold bar2Wrote
  extract_lets ps part range wp good a part' b
  have hwp : wp = true := h
  have hb : b = a := if_pos (by rw [hwp, Bool.or_true])
  have ha : a.get FS.BLK_EVT_WIN_WP = 1 := by
    rw [show a = Dev.raiseIf _ wp FS.BLK_EVT_WIN_WP 0 from rfl, raiseIf_true _ _ hwp]
    exact get_set_self _ _ _ _ (by decide)
  exact (SameFld.of_regs (d := a) (by rw [← hb]) 0).trans ha

/-! ## Store errors (R239, R240) -/

theorem eccCorrected_shows (d : Dev) : d.eccCorrected.get FS.ECC_CNT_CE_COUNT = sat32 (d.get FS.ECC_CNT_CE_COUNT + 1) ∧
    d.eccCorrected.get FS.BLK_EVT_ECC_CE = 1 ∧ d.eccCorrected.rising = d.rising ++ [devFault 140] := by
  refine ⟨?_, get_set_self _ _ _ _ (by decide), congrArg (· ++ _) (((OnlyRegs.logAdd ..).trans (.count ..)).trans (.raise ..)).get_rising⟩
  rw [eccCorrected, pulseFault_get, raise_eq, get_set_apart (by decide), count_get _ _ _ rfl rfl, SameFld.logAdd_media (by decide)]

/-- An uncorrectable error is counted and raised. -/
def ueNoted (d : Dev) : Dev := ((d.count FS.ECC_CNT_UE_COUNT).raise FS.BLK_EVT_ECC_UE).pulseFault (devFault 141)

/-- Its granule is known. -/
def ueMarked (d : Dev) (g : Nat) : Dev := if d.ueGran.contains g then d else { d with ueGran := g :: d.ueGran }

/-- The first one's address is captured. -/
def ueCaptured (d : Dev) (addr : Nat) : Dev :=
  if d.flag FS.ECC_ADDR_LO_VALID then d
  else ((d.raise FS.ECC_ADDR_LO_VALID).set FS.ECC_ADDR_LO_ADDR_L (addr / 32)).set FS.ECC_ADDR_HI_ADDR_H (addr / 2 ^ 32)

theorem eccUncorrectable_eq (d : Dev) (addr : Nat) : d.eccUncorrectable addr = ((d.ueNoted).ueMarked (addr / 32)).ueCaptured addr := rfl

theorem ueNoted_shows (d : Dev) : d.ueNoted.get FS.ECC_CNT_UE_COUNT = sat32 (d.get FS.ECC_CNT_UE_COUNT + 1) ∧
    d.ueNoted.get FS.BLK_EVT_ECC_UE = 1 := by
  refine ⟨?_, get_set_self _ _ _ _ (by decide)⟩
  rw [ueNoted, pulseFault_get, raise_eq, get_set_apart (by decide), count_get _ _ _ rfl rfl]

theorem ueMarked_regs (d : Dev) (g : Nat) : (d.ueMarked g).regs = d.regs := by
  unfold ueMarked
  split <;> rfl

theorem ueMarked_mem (d : Dev) (g : Nat) : g ∈ (d.ueMarked g).ueGran := by
  unfold ueMarked
  split
  · next h => exact List.contains_iff_mem.1 h
  · exact List.mem_cons_self ..

theorem ueCaptured_only (d : Dev) (addr : Nat) : OnlyRegs d (d.ueCaptured addr) := by
  unfold ueCaptured
  split
  · exact .refl d
  · exact ((OnlyRegs.raise ..).trans (.set ..)).trans (.set ..)

theorem ueCaptured_same {f : Fld} (h : ∀ x ∈ [FS.ECC_ADDR_LO_VALID, FS.ECC_ADDR_LO_ADDR_L, FS.ECC_ADDR_HI_ADDR_H], BitsApart f x) (d : Dev)
    (addr : Nat) : SameFld f d (d.ueCaptured addr) :=
  .ite _ (.refl d) (((SameFld.set _ _ _ _ (h _ (by decide))).trans (.set _ _ _ _ (h _ (by decide)))).trans (.set _ _ _ _ (h _ (by decide))))

theorem ueCaptured_first {d : Dev} {addr : Nat} (h : d.get FS.ECC_ADDR_LO_VALID = 0) (ha : addr < 48000000000) :
    (d.ueCaptured addr).get FS.ECC_ADDR_LO_VALID = 1 ∧ (d.ueCaptured addr).get FS.ECC_ADDR_LO_ADDR_L = addr / 32 % 2 ^ 27 ∧
    (d.ueCaptured addr).get FS.ECC_ADDR_HI_ADDR_H = addr / 2 ^ 32 := by
  rw [ueCaptured, if_neg (by simp [flag_of_get_zero h])]
  simp (disch := decide) only [raise_eq, get_set_apart, get_set_self]
  exact ⟨rfl, rfl, Nat.mod_eq_of_lt (show addr / 2 ^ 32 < 16 by omega)⟩

theorem eccUncorrectable_same {f : Fld} (h : ∀ x ∈ [FS.ECC_CNT_UE_COUNT, FS.BLK_EVT_ECC_UE, FS.ECC_ADDR_LO_VALID, FS.ECC_ADDR_LO_ADDR_L,
    FS.ECC_ADDR_HI_ADDR_H], BitsApart f x) (d : Dev) (addr : Nat) : SameFld f d (d.eccUncorrectable addr) := by
  have hnoted : SameFld f d d.ueNoted :=
    ((SameFld.set _ _ _ _ (h _ (by decide))).trans (.set _ _ _ _ (h _ (by decide)))).trans (.of_regs rfl)
  exact (hnoted.trans (.of_regs (ueMarked_regs ..))).trans (ueCaptured_same (fun x m => h x (.tail _ (.tail _ m))) _ addr)

theorem eccUncorrectable_counts (d : Dev) (addr : Nat) :
    (d.eccUncorrectable addr).get FS.ECC_CNT_UE_COUNT = sat32 (d.get FS.ECC_CNT_UE_COUNT + 1) ∧
    (d.eccUncorrectable addr).get FS.BLK_EVT_ECC_UE = 1 := by
  rw [eccUncorrectable_eq]
  obtain ⟨hcount, hevent⟩ := d.ueNoted_shows
  have hmark {f : Fld} : ((d.ueNoted).ueMarked (addr / 32)).get f = d.ueNoted.get f := SameFld.of_regs (ueMarked_regs ..) 0
  exact ⟨(ueCaptured_same (by decide) _ addr 0).trans (hmark.trans hcount), (ueCaptured_same (by decide) _ addr 0).trans (hmark.trans hevent)⟩

theorem eccUncorrectable_marks (d : Dev) (addr : Nat) : addr / 32 ∈ (d.eccUncorrectable addr).ueGran := by
  rw [eccUncorrectable_eq, (ueCaptured_only ..).get_ueGran]
  exact ueMarked_mem ..

theorem eccUncorrectable_first {d : Dev} {addr : Nat} (h : d.get FS.ECC_ADDR_LO_VALID = 0) (ha : addr < 48000000000) :
    (d.eccUncorrectable addr).get FS.ECC_ADDR_LO_VALID = 1 ∧ (d.eccUncorrectable addr).get FS.ECC_ADDR_LO_ADDR_L = addr / 32 % 2 ^ 27 ∧
    (d.eccUncorrectable addr).get FS.ECC_ADDR_HI_ADDR_H = addr / 2 ^ 32 := by
  have hnoted : d.ueNoted.get FS.ECC_ADDR_LO_VALID = d.get FS.ECC_ADDR_LO_VALID :=
    ((SameFld.set d _ _ _ (by decide)).trans (.set _ _ _ _ (by decide))) 0
  exact ueCaptured_first ((SameFld.of_regs (ueMarked_regs ..) 0).trans (hnoted.trans h)) ha

/-- The block that reads is told: a synchroniser by its event, the pool by its fault (R239). -/
def ueTold (d : Dev) (r : StoreReader) : Dev :=
  match r with
  | .syncPicture n => d.raise FS.SYNC_EVT_ECC_UE n
  | .pool => d.pulseFault (devFault 174)
  | _ => d

theorem ueTold_keeps (d : Dev) (r : StoreReader) : (d.ueTold r).ueGran = d.ueGran ∧
    ∀ f, BitsApart f FS.SYNC_EVT_ECC_UE → SameFld f d (d.ueTold r) := by
  cases r with
  | syncPicture n => exact ⟨(OnlyRegs.raise d FS.SYNC_EVT_ECC_UE n).get_ueGran, fun f h => .set d FS.SYNC_EVT_ECC_UE 1 n h⟩
  | pool => exact ⟨rfl, fun f _ => .of_regs rfl⟩
  | _ => exact ⟨rfl, fun f _ => .refl d⟩

/-! ## A scrub pass (R240) -/

/-- Errors counted one by one, in a count that saturates. -/
theorem foldl_counts {α : Type} {f : Fld} (hw : f.w = 32) {g : Dev → α → Dev} (hg : ∀ d x, (g d x).get f = sat32 (d.get f + 1))
    (l : List α) : ∀ d : Dev, (l.foldl g d).get f = sat32 (d.get f + l.length) := by
  induction l with
  | nil =>
    intro d
    have hlt : d.get f < 2 ^ f.w := bitsOf_lt ..
    rw [hw] at hlt
    exact (Nat.min_eq_right (Nat.le_pred_of_lt hlt)).symm
  | cons x l ih =>
    intro d
    rw [List.foldl_cons, ih, hg, List.length_cons]
    unfold sat32
    omega

end Dev

theorem SameFld.foldl {α : Type} {f : Fld} (g : Dev → α → Dev) (h : ∀ d x, SameFld f d (g d x)) (l : List α) :
    ∀ d, SameFld f d (l.foldl g d) := by
  induction l with
  | nil => exact SameFld.refl
  | cons x l ih => exact fun d => (h d x).trans (ih _)

namespace Dev

/-- The correctable errors that a pass finds. -/
def scrubCes (d : Dev) (ces : Nat) : Dev := (List.range ces).foldl (fun d _ => d.eccCorrected) d

/-- The uncorrectable ones. -/
def scrubUes (d : Dev) (ues : List Nat) : Dev := ues.foldl (fun d a => d.eccUncorrectable a) d

theorem scrubCes_counts (d : Dev) (ces : Nat) : (d.scrubCes ces).get FS.ECC_CNT_CE_COUNT = sat32 (d.get FS.ECC_CNT_CE_COUNT + ces) ∧
    (d.scrubCes ces).get FS.ECC_CNT_UE_COUNT = d.get FS.ECC_CNT_UE_COUNT := by
  have hsame (d : Dev) : SameFld FS.ECC_CNT_UE_COUNT d d.eccCorrected :=
    (((SameFld.logAdd_media (by decide) d _ _).trans (.set _ _ _ _ (by decide))).trans (.set _ _ _ _ (by decide))).trans (.of_regs rfl)
  refine ⟨?_, SameFld.foldl _ (fun d _ => hsame d) _ d 0⟩
  rw [scrubCes, foldl_counts rfl (fun d _ => d.eccCorrected_shows.1), List.length_range]

theorem scrubUes_counts (d : Dev) (ues : List Nat) :
    (d.scrubUes ues).get FS.ECC_CNT_UE_COUNT = sat32 (d.get FS.ECC_CNT_UE_COUNT + ues.length) ∧
    (d.scrubUes ues).get FS.ECC_CNT_CE_COUNT = d.get FS.ECC_CNT_CE_COUNT :=
  ⟨foldl_counts rfl (fun d a => (d.eccUncorrectable_counts a).1) ues d, SameFld.foldl _ (eccUncorrectable_same (by decide)) ues d 0⟩

end Dev

/-! ## The commands -/

theorem exec_bar2Write (o : Fin 0x10000000) (bytes : List (Option Byte)) (s : State) : exec (.bar2Write o bytes) s =
    .next { s with store := s.dev.bar2Stored o bytes s.store, dev := s.dev.bar2Wrote o bytes } := rfl

/-- The completion of a read (R238, R239). -/
def State.bar2Answer (s : State) (o len : Nat) : List Byte × Bool :=
  if s.dev.bar2Beyond o len || s.dev.bar2Bad o len then (List.replicate len 0xFF, true)
  else ((s.dev.bar2Parts o len).flatMap fun p => memReads storeFill s.store p.1 p.2.2, false)

theorem exec_bar2Read (o : Fin 0x10000000) (len : Nat) (s : State) : exec (.bar2Read o len) s = s.go fun d =>
    d.bar2Reply len (s.dev.bar2Parts o len) (s.bar2Answer o len) (s.dev.bar2Beyond o len) := rfl

theorem exec_eccCe (s : State) : exec .eccCe s = s.go fun d => d.eccCorrected := rfl

theorem exec_eccUe (addr : Fin 48000000000) (r : StoreReader) (s : State) : exec (.eccUe addr r) s = s.go fun d =>
    (d.eccUncorrectable addr).ueTold r := rfl

theorem exec_patrolScrub (ces : Nat) (ues : List (Fin 48000000000)) (s : State) : exec (.patrolScrub ces ues) s = s.go fun d =>
    if d.flag FS.SCRUB_CFG_EN then (d.scrubCes ces).scrubUes (ues.map (·.val)) else d := rfl

theorem exec_fsCntClr (s : State) : exec .fsCntClr s = s.go fun d => d.clear [FS.ECC_CNT_CE_COUNT, FS.ECC_CNT_UE_COUNT] := rfl

theorem exec_eccAddrClr (s : State) : exec .eccAddrClr s = s.go fun d =>
    d.clear [FS.ECC_ADDR_LO_VALID, FS.ECC_ADDR_LO_ADDR_L, FS.ECC_ADDR_HI_ADDR_H] := rfl

theorem exec_syncCntClr (n : Fin 512) (s : State) : exec (.syncCntClr n) s = s.go fun d =>
    d.clear [FS.CNT_REPEAT_COUNT, FS.CNT_DROP_COUNT, FS.CNT_INCOMPLETE_COUNT, FS.CNT_ANC_DROP_COUNT] n := rfl

/-- BAR2_WRITE. -/
theorem bar2Write_runs (o : Fin 0x10000000) (bytes : List (Option Byte)) (s : State) : ∃ d st,
    exec (.bar2Write o bytes) s = .next { s with store := st, dev := d } ∧
    (∀ x, (∀ i v, bytes[i]? = some (some v) → o.val + i < 0x10000000 → s.dev.bar2Addr (o.val + i) ≠ x) →
      memRead storeFill x st = memRead storeFill x s.store) ∧
    (∀ i v, bytes[i]? = some (some v) → o.val + i < 0x10000000 → surfStart ≤ s.dev.bar2Addr (o.val + i) →
      s.dev.bar2Addr (o.val + i) < storeEnd →
      (∀ j, i < j → j < bytes.length → o.val + j < 0x10000000 → s.dev.bar2Addr (o.val + j) ≠ s.dev.bar2Addr (o.val + i)) →
      memRead storeFill (s.dev.bar2Addr (o.val + i)) st = v) ∧
    (∀ x, x < surfStart ∨ storeEnd ≤ x → memRead storeFill x st = memRead storeFill x s.store) ∧
    (bytes ≠ [] → s.dev.bar2Addr o < surfStart → d.get FS.BLK_EVT_WIN_WP = 1) :=
  ⟨_, _, exec_bar2Write o bytes s, fun _ => Dev.bar2Stored_other _, fun _ _ => Dev.bar2Stored_last _, fun _ => Dev.bar2Stored_outside _,
    fun hb hx => Dev.bar2Wrote_wp (Dev.bar2Below_of_first (List.length_pos_of_ne_nil hb) o.isLt hx)⟩

section
variable {o : Fin 0x10000000} {len : Nat} {s : State}

/-- BAR2_READ of the store. -/
theorem runsTo_bar2Read (hl : o.val + len ≤ 0x10000000) (ha : ∀ i < len, s.dev.bar2Addr (o.val + i) < storeEnd) (hu : s.dev.ueGran = []) :
    RunsTo (.bar2Read o len) s fun d =>
      d.bar2 = some ((List.range len).map fun i => memRead storeFill (s.dev.bar2Addr (o.val + i)) s.store, false) := by
  have hbad : s.dev.bar2Bad o len = false := by rw [Dev.bar2Bad, hu, List.any_nil]
  have hans : s.bar2Answer o len = ((List.range len).map fun i => memRead storeFill (s.dev.bar2Addr (o.val + i)) s.store, false) := by
    rw [State.bar2Answer, Dev.bar2Beyond_none ha, hbad, Bool.or_self, if_neg Bool.false_ne_true, readParts_eq,
      Nat.min_eq_left hl, Nat.add_sub_cancel_left]
  exact runsTo_go (exec_bar2Read o len s) rfl ((Dev.bar2Reply_bar2 ..).trans (congrArg some hans))

theorem State.bar2Answer_error (h : (s.dev.bar2Beyond o len || s.dev.bar2Bad o len) = true) :
    s.bar2Answer o len = (List.replicate len 0xFF, true) := if_pos h

/-- BAR2_READ, in part beyond the store. -/
theorem runsTo_bar2Read_beyond {i : Nat} (hi : i < len) (ho : o.val + i < 0x10000000) (hx : storeEnd ≤ s.dev.bar2Addr (o.val + i)) :
    RunsTo (.bar2Read o len) s fun d => d.bar2 = some (List.replicate len 0xFF, true) ∧ d.get FS.BLK_EVT_WIN_RANGE = 1 := by
  have hb := Dev.bar2Beyond_of_byte hi ho hx
  refine runsTo_go (exec_bar2Read o len s) rfl
    ⟨(Dev.bar2Reply_bar2 ..).trans (congrArg some (State.bar2Answer_error (by rw [hb, Bool.true_or]))), ?_⟩
  rw [hb]
  exact Dev.bar2Reply_range ..

/-- BAR2_READ, in part on a granule with an uncorrectable error. -/
theorem runsTo_bar2Read_bad {i : Nat} (hi : i < len) (ho : o.val + i < 0x10000000) (hg : s.dev.bar2Addr (o.val + i) / 32 ∈ s.dev.ueGran) :
    RunsTo (.bar2Read o len) s fun d => d.bar2 = some (List.replicate len 0xFF, true) :=
  runsTo_go (exec_bar2Read o len s) rfl ((Dev.bar2Reply_bar2 ..).trans
    (congrArg some (State.bar2Answer_error (by rw [Dev.bar2Bad_of_byte hi ho hg, Bool.or_true]))))

end

/-- ECC_UE. -/
theorem runsTo_eccUe (addr : Fin 48000000000) (r : StoreReader) (s : State) : RunsTo (.eccUe addr r) s fun d =>
    d.get FS.ECC_CNT_UE_COUNT = sat32 (s.dev.get FS.ECC_CNT_UE_COUNT + 1) ∧ d.get FS.BLK_EVT_ECC_UE = 1 ∧
    addr.val / 32 ∈ d.ueGran ∧ (s.dev.get FS.ECC_ADDR_LO_VALID = 0 → d.get FS.ECC_ADDR_LO_VALID = 1 ∧
      d.get FS.ECC_ADDR_LO_ADDR_L = addr.val / 32 % 2 ^ 27 ∧ d.get FS.ECC_ADDR_HI_ADDR_H = addr.val / 2 ^ 32) := by
  obtain ⟨hgran, hfld⟩ := (s.dev.eccUncorrectable addr).ueTold_keeps r
  obtain ⟨hcount, hevent⟩ := s.dev.eccUncorrectable_counts addr
  refine runsTo_go (exec_eccUe addr r s) rfl ⟨(hfld _ (by decide) 0).trans hcount, (hfld _ (by decide) 0).trans hevent,
    hgran ▸ s.dev.eccUncorrectable_marks addr, fun hv => ?_⟩
  obtain ⟨hvalid, hlo, hhi⟩ := Dev.eccUncorrectable_first hv addr.isLt
  exact ⟨(hfld _ (by decide) 0).trans hvalid, (hfld _ (by decide) 0).trans hlo, (hfld _ (by decide) 0).trans hhi⟩

/-- PATROL_SCRUB while it is enabled. -/
theorem runsTo_patrolScrub (ces : Nat) (ues : List (Fin 48000000000)) {s : State} (he : s.dev.flag FS.SCRUB_CFG_EN = true) :
    RunsTo (.patrolScrub ces ues) s fun d => d.get FS.ECC_CNT_CE_COUNT = sat32 (s.dev.get FS.ECC_CNT_CE_COUNT + ces) ∧
      d.get FS.ECC_CNT_UE_COUNT = sat32 (s.dev.get FS.ECC_CNT_UE_COUNT + ues.length) := by
  refine runsTo_go (exec_patrolScrub ces ues s) (if_pos he) ?_
  obtain ⟨hce, hue⟩ := s.dev.scrubCes_counts ces
  obtain ⟨hues, hces⟩ := (s.dev.scrubCes ces).scrubUes_counts (ues.map (·.val))
  exact ⟨hces.trans hce, by rw [hues, hue, List.length_map]⟩

theorem regsTo_fsCntClr (s : State) : RegsTo .fsCntClr s fun d => d.get FS.ECC_CNT_CE_COUNT = 0 ∧ d.get FS.ECC_CNT_UE_COUNT = 0 ∧
    RegsKept s.dev d [(0x00700014, 0), (0x00700018, 0)] := by
  have hz := Dev.get_clear_all (fs := [FS.ECC_CNT_CE_COUNT, FS.ECC_CNT_UE_COUNT]) (by decide) s.dev 0
  exact regsTo_go (exec_fsCntClr s) (.clear ..) ⟨hz _ (by decide), hz _ (by decide), .clear_regs _ _ _⟩

theorem regsTo_eccAddrClr (s : State) : RegsTo .eccAddrClr s fun d =>
    d.get FS.ECC_ADDR_LO_VALID = 0 ∧ d.get FS.ECC_ADDR_LO_ADDR_L = 0 ∧ d.get FS.ECC_ADDR_HI_ADDR_H = 0 ∧
    RegsKept s.dev d [(0x0070001C, 0), (0x00700020, 0)] := by
  have hz := Dev.get_clear_all (fs := [FS.ECC_ADDR_LO_VALID, FS.ECC_ADDR_LO_ADDR_L, FS.ECC_ADDR_HI_ADDR_H]) (by decide) s.dev 0
  exact regsTo_go (exec_eccAddrClr s) (.clear ..) ⟨hz _ (by decide), hz _ (by decide), hz _ (by decide), .clear _ _ (by decide) _⟩

theorem regsTo_syncCntClr (n : Fin 512) (s : State) : RegsTo (.syncCntClr n) s fun d =>
    d.get FS.CNT_REPEAT_COUNT n = 0 ∧ d.get FS.CNT_DROP_COUNT n = 0 ∧ d.get FS.CNT_INCOMPLETE_COUNT n = 0 ∧
    d.get FS.CNT_ANC_DROP_COUNT n = 0 ∧
    RegsKept s.dev d [(0x00700120, n.val), (0x00700124, n.val), (0x00700128, n.val), (0x0070012C, n.val)] := by
  have hz := Dev.get_clear_all (fs := [FS.CNT_REPEAT_COUNT, FS.CNT_DROP_COUNT, FS.CNT_INCOMPLETE_COUNT, FS.CNT_ANC_DROP_COUNT])
    (by decide) s.dev n
  exact regsTo_go (exec_syncCntClr n s) (.clear ..)
    ⟨hz _ (by decide), hz _ (by decide), hz _ (by decide), hz _ (by decide), .clear_regs _ _ _⟩

/-- Settles O18: the parts of an access are its bytes in order, each at the address of its own window (`bar2Parts_bytes`), so a write is a
chain of single bytes and a read a list of them; each store error is counted by itself, in counts that saturate (`foldl_counts`). -/
theorem frameStore : Obligations.FrameStore :=
  ⟨⟨bar2Write_runs, fun _ _ _ => runsTo_bar2Read, fun _ _ _ _ => runsTo_bar2Read_beyond, fun _ _ _ _ => runsTo_bar2Read_bad⟩,
    fun s => ⟨runsTo_go (exec_eccCe s) rfl s.dev.eccCorrected_shows, fun addr r => runsTo_eccUe addr r s,
      fun ces ues => runsTo_patrolScrub ces ues, regsTo_fsCntClr s, regsTo_eccAddrClr s, fun n => regsTo_syncCntClr n s⟩⟩

end Sys2Proof.Machine
end

section
/-!
Proofs, the work of a Plotter engine (chapter 9): what a frame leaves of the engine's fields, which bytes of the store its picture takes, and
the coefficient memory (R243, R244, R246, R253, R273).
-/

namespace Sys2Proof.Machine

/-! ## The bytes of a picture (R221, R260) -/

/-- Three samples take four bytes, and those left over four more. -/
theorem packSamples_length (xs : List (BitVec 10)) : (packSamples xs).length = packedLen xs.length := by
  induction xs using packSamples.induct with
  | case1 => rfl
  | case2 a => rw [packSamples, leBytes_length, List.length_singleton, packedLen]
  | case3 a b => rw [packSamples, leBytes_length, List.length_cons, List.length_singleton, packedLen]
  | case4 a b c r ih =>
    simp only [packSamples, List.length_append, List.length_cons, leBytes_length, ih, packedLen]
    omega

/-- A line of 4:2:2 has four samples for each pair of pixels. -/
theorem line422_length (w : Nat) (p : Nat → Pix) : (line422 w p).length = 4 * (w / 2) := by
  simp [line422, List.length_flatMap, Nat.mul_comm]

/-- An operation that leaves a byte as it was, done for each of a list. -/
theorem memRead_foldl {α : Type} {u : Byte} {x : Nat} (f : Memory → α → Memory) (l : List α)
    (h : ∀ y ∈ l, ∀ m, memRead u x (f m y) = memRead u x m) : ∀ m, memRead u x (l.foldl f m) = memRead u x m := by
  induction l with
  | nil => exact fun _ => rfl
  | cons y l ih => exact fun m => (ih (fun z hz => h z (.tail _ hz)) _).trans (h y (.head _) m)

/-- Rows reach no byte outside a range that holds each of them. -/
theorem putRows_outside {a lo hi x : Nat} {rows : List (Nat × List Samp)} (m : Memory)
    (h : ∀ r ∈ rows, lo ≤ a + r.1 ∧ a + r.1 + packedLen r.2.length ≤ hi) (hx : x < lo ∨ hi ≤ x) :
    memRead storeFill x (putRows m a rows) = memRead storeFill x m :=
  memRead_foldl _ rows (fun r hr m => by
    obtain ⟨hlo, hhi⟩ := h r hr
    refine memRead_memWrites_out _ _ _ _ _ ?_
    rw [packSamples_length]
    omega) m

namespace Dev

/-! ## The freeze buffer (R246) -/

/-- The formats of both modes (Table 9.1): a line fits its pitch, and a picture its share of the buffer, or all of it in MODE 0. -/
theorem engPicture_fits {d : Dev} {e : Nat} (h : d.engFmtOk e = true) :
    packedLen (4 * ((picDims (d.get PLT.ENG_CFG_FMT e)).1 / 2)) ≤ linePitch (d.get PLT.ENG_CFG_FMT e) ∧
      (picDims (d.get PLT.ENG_CFG_FMT e)).2 * linePitch (d.get PLT.ENG_CFG_FMT e) + (d.engOuts e - 1) * 5591040 ≤ 22364160 := by
  have hHd : ∀ f ∈ [1, 2, 3, 7, 8, 9, 0xA, 0xB, 0x10, 0x11, 0x12],
      packedLen (4 * ((picDims f).1 / 2)) ≤ linePitch f ∧ (picDims f).2 * linePitch f ≤ 5591040 := by decide
  have hUhd : ∀ f ∈ [0x18, 0x19, 0x1A, 0x20, 0x21, 0x22],
      packedLen (4 * ((picDims f).1 / 2)) ≤ linePitch f ∧ (picDims f).2 * linePitch f ≤ 22364160 := by decide
  rw [engOuts]
  unfold engFmtOk at h
  split at h
  · next hm =>
    obtain ⟨hline, hpic⟩ := hHd _ (List.contains_iff_mem.1 h)
    have hn : d.engNout e ≤ 4 := by rw [engNout]; omega
    rw [if_pos hm]
    exact ⟨hline, by omega⟩
  · next hm =>
    obtain ⟨hline, hpic⟩ := hUhd _ (List.contains_iff_mem.1 h)
    rw [if_neg hm]
    exact ⟨hline, by omega⟩

theorem composeLine_length (d : Dev) (m : Memory) (e : Nat) (feeds : FeedRows) (late : List (Nat × Nat)) (out y : Nat) :
    (d.composeLine m e feeds late out y).length = 4 * ((picDims (d.get PLT.ENG_CFG_FMT e)).1 / 2) := by
  rw [composeLine, line422_length]

theorem composePic_length (d : Dev) (m : Memory) (e : Nat) (late : List (Nat × Nat)) (k : Nat) :
    (d.composePic m e late k).length = (picDims (d.get PLT.ENG_CFG_FMT e)).2 := by
  rw [composePic, List.length_map, List.length_range]

/-- A picture's row has two samples for each pixel of its format, and its number lies below the height. -/
theorem composePic_row {d : Dev} {m : Memory} {e k : Nat} {late : List (Nat × Nat)} {r : List Samp × Nat}
    (h : r ∈ (d.composePic m e late k).zipIdx) :
    r.1.length = 4 * ((picDims (d.get PLT.ENG_CFG_FMT e)).1 / 2) ∧ r.2 < (picDims (d.get PLT.ENG_CFG_FMT e)).2 := by
  obtain ⟨y, -, hy⟩ := List.mem_map.1 (List.fst_mem_of_mem_zipIdx h)
  rw [← hy, composeLine_length, ← d.composePic_length m e late k]
  exact ⟨rfl, List.snd_lt_of_mem_zipIdx h⟩

/-- An engine's pictures stay within its own buffer. -/
theorem freezeStore_outside {d : Dev} {e x : Nat} (h : d.engFmtOk e = true) (m : Memory) (late : List (Nat × Nat))
    (hx : x < surfBase + e * 22364160 ∨ surfBase + (e + 1) * 22364160 ≤ x) :
    memRead storeFill x (d.freezeStore m e late) = memRead storeFill x m := by
  obtain ⟨hline, hpics⟩ := engPicture_fits h
  refine memRead_foldl _ _ (fun k hk m' => putRows_outside m' (fun row hrow => ?_) hx) m
  obtain ⟨r, hr, rfl⟩ := List.mem_map.1 hrow
  obtain ⟨hlen, hlt⟩ := composePic_row hr
  have hk' : k ≤ d.engOuts e - 1 := Nat.le_pred_of_lt (List.mem_range.1 hk)
  have hrows : (r.2 + 1) * linePitch (d.get PLT.ENG_CFG_FMT e) ≤ _ := Nat.mul_le_mul_right _ hlt
  rw [Nat.add_mul, Nat.one_mul] at hrows
  rw [hlen]
  dsimp only
  omega

end Dev

/-! ## The fields that a frame leaves alone (R243, R263, R272, R273) -/

/-- The fields that shedding, the layers' absence, late lines and invalid tiles set at a frame. -/
def frameFlds : List Fld :=
  [PLT.ENG_EVT_SHED_ON, PLT.ENG_EVT_SHED_OFF, PLT.LAY_STAT_ABSENT, PLT.LAY_STAT_LATE, PLT.ENG_CNT_LATE_COUNT, PLT.ENG_EVT_LATE,
    PLT.ENG_CNT_OTC_COUNT, PLT.ENG_EVT_OTC_ERR]

namespace SameFld

variable {f : Fld}

/-- The Logbook's counts of the store's traffic lie below the windows of the media (Table 17.1). -/
theorem hbmMoves_media (h : 0x00100000 ≤ f.off) (d : Dev) (wr : Bool) (xs : List (Nat × Nat)) : SameFld f d (d.hbmMoves wr xs) := fun ch =>
  (SameRegs.hbmMoves (lo := 0x00100000) (hi := f.off + 1) d wr xs (.inl (by decide))).get f ch h (Nat.lt_succ_self _)

theorem engTraffic (h : 0x00100000 ≤ f.off) (d : Dev) (m : Memory) (e : Nat) (shed : Bool) : SameFld f d (d.engTraffic m e shed) :=
  ite _ (hbmMoves_media h _ _ _) ((hbmMoves_media h _ _ _).trans (hbmMoves_media h _ _ _))

/-- A frame's rasters and its feeds' rows are no registers. -/
theorem engRasters (d : Dev) (e : Nat) (fk : Int) (pics : List (List (List Samp))) : SameFld f d (d.engRasters e fk pics) := by
  unfold Dev.engRasters
  extract_lets code t a
  exact (foldl _ (fun _ _ => of_regs (Dev.setGenOf_regs ..)) _ d).trans
    (foldl _ (fun d o => of_regs (OnlyWords.setEgr d o _).get_regs) _ a)

theorem engShed (h : ∀ x ∈ PLT.ENG_STAT_SHED :: frameFlds, BitsApart f x) (d : Dev) (e : Nat) : SameFld f d (d.engShed e) :=
  ((raiseIf d _ _ _ (h _ (by decide))).trans (raiseIf _ _ _ _ (h _ (by decide)))).trans (put _ _ _ _ (h _ (by decide)))

theorem engAbsence (h : ∀ x ∈ frameFlds, BitsApart f x) (d : Dev) (e : Nat) : SameFld f d (d.engAbsence e) :=
  foldl _ (fun _ _ => put _ _ _ _ (h _ (by decide))) _ d

/-- An error of a frame: its count, its event and its fault. -/
theorem frameError (d : Dev) {cnt evt : Fld} (hc : BitsApart f cnt) (he : BitsApart f evt) (n e : Nat) (x : FaultAt) :
    SameFld f d (((d.count cnt n e).raise evt e).pulseFault x) :=
  ((set _ _ _ _ hc).trans (set _ _ _ _ he)).trans (of_regs rfl)

theorem engErrors (ho : 0x00100000 ≤ f.off) (h : ∀ x ∈ frameFlds, BitsApart f x) (d : Dev) (m : Memory) (e : Nat)
    (late : List (Nat × Nat)) : SameFld f d (d.engErrors m e late) := by
  unfold Dev.engErrors
  extract_lets a b n
  have ha : SameFld f d a := foldl _ (fun _ _ => put _ _ _ _ (h _ (by decide))) _ d
  have hb : SameFld f d b :=
    ha.trans (ite _ (refl a) ((logAdd_media ho a _ _).trans (frameError _ (h _ (by decide)) (h _ (by decide)) _ _ _)))
  exact hb.trans (ite _ (refl b) (frameError b (h _ (by decide)) (h _ (by decide)) _ _ _))

end SameFld

namespace Dev

/-! ## The frame (R243, R244, R273) -/

/-- Is a frame start one that R244 admits? -/
def frameDue (d : Dev) (e : Nat) : Bool :=
  let g := d.genOf (1536 + 4 * e)
  d.flag PLT.ENG_STAT_RUN e && (g.run || g.resume.isSome || decide (g.target ≤ d.engFrameT e))

/-- The layer lines whose data are late, of those named: none within the traffic's bound (R272). -/
def lateLines (d : Dev) (late : List (Fin 16 × Nat)) : List (Nat × Nat) :=
  if d.fetchLate then late.map fun x => (x.1.val, x.2) else []

/-- The engine counts a frame. -/
def frameCounted (d : Dev) (e : Nat) : Dev := d.set PLT.ENG_FRAME_FRAME (d.get PLT.ENG_FRAME_FRAME e + 1) e

/-- What is settled of a frame before it is composed: the layers' absence, the errors, and the Logbook's count. -/
def frameJudged (d : Dev) (m : Memory) (e : Nat) (late : List (Nat × Nat)) : Dev :=
  ((d.engAbsence e).engErrors m e late).logAdd (842 + e) 1

/-- A frame goes to the rasters, moves its data, and is counted. -/
def framePlayed (d : Dev) (m : Memory) (e : Nat) (fk : Int) (pics : List (List (List Samp))) (shed : Bool) : Dev :=
  ((d.engRasters e fk pics).engTraffic m e shed).frameCounted e

theorem frameJudged_same {f : Fld} (ho : 0x00100000 ≤ f.off) (h : ∀ x ∈ frameFlds, BitsApart f x) (d : Dev) (m : Memory) (e : Nat)
    (late : List (Nat × Nat)) : SameFld f d (d.frameJudged m e late) :=
  ((SameFld.engAbsence h d e).trans (.engErrors ho h _ _ _ _)).trans (.logAdd_media ho _ _ _)

/-- A frame that plays is counted, modulo 2^32, and SHED stays. -/
theorem framePlayed_shows (d : Dev) (m : Memory) (e : Nat) (fk : Int) (pics : List (List (List Samp))) (shed : Bool) :
    (d.framePlayed m e fk pics shed).get PLT.ENG_FRAME_FRAME e = (d.get PLT.ENG_FRAME_FRAME e + 1) % 2 ^ 32 ∧
      (d.framePlayed m e fk pics shed).get PLT.ENG_STAT_SHED e = d.get PLT.ENG_STAT_SHED e := by
  have hsame {f : Fld} (h : 0x00100000 ≤ f.off) : SameFld f d ((d.engRasters e fk pics).engTraffic m e shed) :=
    (SameFld.engRasters d e fk pics).trans (.engTraffic h _ _ _ _)
  rw [framePlayed, frameCounted, get_set_self _ _ _ _ (by decide), get_set_apart (by decide), hsame (by decide), hsame (by decide)]
  exact ⟨rfl, rfl⟩

/-- SHED takes the state of the shedding ladder. -/
theorem engShed_shed (d : Dev) (e : Nat) : (d.engShed e).get PLT.ENG_STAT_SHED e = b2n d.shedding := by
  unfold engShed
  extract_lets was a
  have ha : a.shedding = d.shedding := by
    rw [shedding, ((OnlyRegs.raiseIf d _ _ _).trans (.raiseIf _ _ _ _)).get_ladder]
    rfl
  rw [put_eq, get_set_self _ _ _ _ (by decide), ha]
  exact b2n_mod _

theorem engShed_flag (d : Dev) (e : Nat) : (d.engShed e).flag PLT.ENG_STAT_SHED e = d.shedding := by
  rw [flag, engShed_shed]
  cases d.shedding <;> rfl

theorem engFmtOk_of_same {d d' : Dev} (hf : SameFld PLT.ENG_CFG_FMT d d') (hm : SameFld PLT.ENG_CFG_MODE d d') (e : Nat) :
    d'.engFmtOk e = d.engFmtOk e := by
  rw [engFmtOk, engFmtOk, flag, flag, hf, hm]

/-- The format and the mode, which decide where an engine's picture lies, are none of the fields that a frame sets. -/
theorem engFmtOk_judged (d : Dev) (m : Memory) (e : Nat) (late : List (Nat × Nat)) :
    ((d.engShed e).frameJudged m e late).engFmtOk e = d.engFmtOk e := by
  have hsame {f : Fld} (ho : 0x00100000 ≤ f.off) (h : ∀ x ∈ PLT.ENG_STAT_SHED :: frameFlds, BitsApart f x) :
      SameFld f d ((d.engShed e).frameJudged m e late) :=
    (SameFld.engShed h d e).trans (frameJudged_same ho (fun x hx => h x (.tail _ hx)) _ _ _ _)
  exact engFmtOk_of_same (hsame (by decide) (by decide)) (hsame (by decide) (by decide)) e

theorem frameDue_of {d : Dev} {e : Nat} {g : SrcGen} (hr : d.flag PLT.ENG_STAT_RUN e = true) (hg : d.genOf (1536 + 4 * e) = g)
    (h : g.run = true ∨ g.resume.isSome = true ∨ g.target ≤ d.engFrameT e) : d.frameDue e = true := by
  simpa [frameDue, hr, hg, or_assoc] using h

theorem not_frameDue_of {d : Dev} {e : Nat} {g : SrcGen} (hg : d.genOf (1536 + 4 * e) = g) (hn : g.run = false) (hs : g.resume = none)
    (ht : d.engFrameT e < g.target) : d.frameDue e = false := by
  simp [frameDue, hg, hn, hs, ht]

end Dev

/-! ## The commands -/

section
variable {e : Eng} {late : List (Fin 16 × Nat)} {s : State}

theorem exec_engineFrame (e : Eng) (late : List (Fin 16 × Nat)) (s : State) : exec (.engineFrame e late) s =
    let d := s.dev.engShed e
    let j := d.frameJudged s.store e (s.dev.lateLines late)
    let pics := (List.range (j.engOuts e)).map (j.composePic s.store e (s.dev.lateLines late))
    if s.dev.frameDue e then
      if d.flag PLT.ENG_STAT_SHED e then .next { s with dev := d.framePlayed s.store e (s.dev.engFrameT e) [] true }
      else .next { s with
        store := j.freezeStore s.store e (s.dev.lateLines late), dev := j.framePlayed s.store e (s.dev.engFrameT e) pics false }
    else .next s := rfl

theorem runsTo_engineFrame_shed (hd : s.dev.frameDue e = true) (hs : s.dev.shedding = true) : RunsTo (.engineFrame e late) s fun d =>
    d.get PLT.ENG_FRAME_FRAME e = (s.dev.get PLT.ENG_FRAME_FRAME e + 1) % 2 ^ 32 ∧ d.get PLT.ENG_STAT_SHED e = 1 := by
  obtain ⟨hframe, hshed⟩ := (s.dev.engShed e).framePlayed_shows s.store e (s.dev.engFrameT e) [] true
  refine ⟨_, by rw [exec_engineFrame, if_pos hd, Dev.engShed_flag, if_pos hs], ?_, ?_⟩
  · rw [hframe, SameFld.engShed (by decide) s.dev e e]
  · rw [hshed, Dev.engShed_shed, hs]
    rfl

theorem engineFrame_composed (hd : s.dev.frameDue e = true) (hs : s.dev.shedding = false) (hf : s.dev.engFmtOk e = true) : ∃ d st,
    exec (.engineFrame e late) s = .next { s with store := st, dev := d } ∧
    d.get PLT.ENG_FRAME_FRAME e = (s.dev.get PLT.ENG_FRAME_FRAME e + 1) % 2 ^ 32 ∧ d.get PLT.ENG_STAT_SHED e = 0 ∧
    ∀ x, x < surfBase + e * 22364160 ∨ surfBase + (e + 1) * 22364160 ≤ x → memRead storeFill x st = memRead storeFill x s.store := by
  have hjudged {f : Fld} (ho : 0x00100000 ≤ f.off) (h : ∀ x ∈ frameFlds, BitsApart f x) :=
    Dev.frameJudged_same ho h (s.dev.engShed e) s.store e (s.dev.lateLines late)
  have hfmt := (s.dev.engFmtOk_judged s.store e (s.dev.lateLines late)).trans hf
  refine ⟨_, _, by rw [exec_engineFrame, if_pos hd, Dev.engShed_flag, if_neg (by simp [hs])], ?_, ?_,
    fun x hx => Dev.freezeStore_outside hfmt _ _ hx⟩
  · rw [(Dev.framePlayed_shows ..).1, hjudged (by decide) (by decide), SameFld.engShed (by decide) s.dev e e]
  · rw [(Dev.framePlayed_shows ..).2, hjudged (by decide) (by decide), Dev.engShed_shed, hs]
    rfl

theorem runsTo_engineFrame_early (hd : s.dev.frameDue e = false) : RunsTo (.engineFrame e late) s fun d => d = s.dev :=
  ⟨s.dev, by rw [exec_engineFrame, if_neg (by simp [hd])], rfl⟩

end

/-! ## The coefficient memory and the counters (R253, Tables 9.11 and 9.12) -/

namespace Dev

/-- A coefficient written, and its active copy too where the engine is stopped (R8). -/
def coefWritten (d : Dev) (e i : Nat) (w : Word) : Dev :=
  let d := d.set PLT.COEF_DATA_COEF w.toNat (e * 1024 + i)
  if d.flag PLT.ENG_STAT_RUN e then d else d.commit 0x00800134 (e * 1024 + i)

/-- A coefficient read by a master. -/
def coefRead (d : Dev) (m : Master) (e i : Nat) : Dev :=
  let r : Word := if i < 768 then BitVec.ofNat 32 (d.get PLT.COEF_DATA_COEF (e * 1024 + i)) else 0
  { d with answer := mapPut d.answer (m.code, 0) (0, false) (r, false) }

/-- The index rises past an access. -/
def coefNext (d : Dev) (e i : Nat) : Dev := d.set PLT.COEF_IDX_IDX (i + 1) e

theorem coefWritten_reg (d : Dev) (e i : Nat) (w : Word) (off ch : Nat) :
    (d.coefWritten e i w).reg off ch = (d.set PLT.COEF_DATA_COEF w.toNat (e * 1024 + i)).reg off ch := by
  unfold coefWritten
  extract_lets a
  split
  · rfl
  · exact reg_commit ..

theorem coefNext_idx (d : Dev) (e i : Nat) : (d.coefNext e i).get PLT.COEF_IDX_IDX e = (i + 1) % 1024 := get_set_self _ _ _ _ (by decide)

theorem coefNext_kept (d : Dev) (e i : Nat) : RegsKept d (d.coefNext e i) [(0x00800130, e)] := .set _ _ _ _ (.head _)

end Dev

section
variable {m : Master} {w : Word} {e i : Nat} {s : State}

theorem exec_coefDataAccess (m : Master) (v : Option Word) (s : State) : exec (.coefDataAccess m v) s = s.go fun d =>
    match d.selOf m PLT.ENG_SEL_SEL 32 with
    | none => d
    | some e =>
      let i := d.get PLT.COEF_IDX_IDX e
      (match v with
        | some w => if i < 768 then d.coefWritten e i w else d
        | none => d.coefRead m e i).coefNext e i := by
  cases v <;> rfl

section
variable (he : s.dev.get PLT.ENG_SEL_SEL m.code = e) (hlt : e < 32) (hi : s.dev.get PLT.COEF_IDX_IDX e = i)
include he hlt hi

theorem exec_coefWrite (w : Word) : exec (.coefDataAccess m (some w)) s = s.go fun d =>
    (if i < 768 then d.coefWritten e i w else d).coefNext e i := by
  simp only [exec_coefDataAccess, State.go_eq, Dev.selOf_in he hlt, hi]

theorem exec_coefRead : exec (.coefDataAccess m none) s = s.go fun d => (d.coefRead m e i).coefNext e i := by
  simp only [exec_coefDataAccess, State.go_eq, Dev.selOf_in he hlt, hi]

theorem runsTo_coefWrite (hx : i < 768) : RunsTo (.coefDataAccess m (some w)) s fun d =>
    d.get PLT.COEF_DATA_COEF (e * 1024 + i) = w.toNat % 1024 ∧ d.get PLT.COEF_IDX_IDX e = (i + 1) % 1024 ∧
      RegsKept s.dev d [(0x00800134, e * 1024 + i), (0x00800130, e)] := by
  refine runsTo_go (exec_coefWrite he hlt hi w) (by rw [if_pos hx]) ⟨?_, Dev.coefNext_idx .., ?_⟩
  · rw [Dev.coefNext, Dev.get_set_off _ _ _ _ _ _ (by decide), Dev.get, Dev.coefWritten_reg]
    exact Dev.get_set_self s.dev PLT.COEF_DATA_COEF w.toNat _ (by decide)
  · refine RegsKept.trans (fun off ch h => ?_) ((Dev.coefNext_kept _ e i).mono fun _ => .tail _)
    rw [Dev.coefWritten_reg]
    exact RegsKept.set s.dev PLT.COEF_DATA_COEF w.toNat _ (.head _) off ch h

theorem regsTo_coefWrite_ignored (hx : 768 ≤ i) : RegsTo (.coefDataAccess m (some w)) s fun d =>
    d.get PLT.COEF_IDX_IDX e = (i + 1) % 1024 ∧ RegsKept s.dev d [(0x00800130, e)] := by
  have hexec := exec_coefWrite he hlt hi w
  simp only [if_neg (Nat.not_lt.2 hx)] at hexec
  exact regsTo_go hexec (.set ..) ⟨s.dev.coefNext_idx e i, s.dev.coefNext_kept e i⟩

theorem runsTo_coefRead : RunsTo (.coefDataAccess m none) s fun d => d.get PLT.COEF_IDX_IDX e = (i + 1) % 1024 ∧
    mapGet d.answer (m.code, 0) (0, false) =
      (if i < 768 then BitVec.ofNat 32 (s.dev.get PLT.COEF_DATA_COEF (e * 1024 + i)) else 0, false) ∧
    RegsKept s.dev d [(0x00800130, e)] :=
  runsTo_go (exec_coefRead he hlt hi) rfl ⟨Dev.coefNext_idx .., mapGet_mapPut_self ..,
    (RegsKept.of_regs rfl).trans (Dev.coefNext_kept (s.dev.coefRead m e i) e i)⟩

end

end

theorem exec_engineCntClr (e : Eng) (s : State) : exec (.engineCntClr e) s = s.go fun d =>
    d.clear [PLT.ENG_CNT_LATE_COUNT, PLT.ENG_CNT_REJ_COUNT, PLT.ENG_CNT_OTC_COUNT] e := rfl

theorem regsTo_engineCntClr (e : Eng) (s : State) : RegsTo (.engineCntClr e) s fun d => d.get PLT.ENG_CNT_LATE_COUNT e = 0 ∧
    d.get PLT.ENG_CNT_REJ_COUNT e = 0 ∧ d.get PLT.ENG_CNT_OTC_COUNT e = 0 ∧
    RegsKept s.dev d [(0x00800120, e.val), (0x00800124, e.val), (0x00800128, e.val)] := by
  have hz := Dev.get_clear_all (fs := [PLT.ENG_CNT_LATE_COUNT, PLT.ENG_CNT_REJ_COUNT, PLT.ENG_CNT_OTC_COUNT]) (by decide) s.dev e
  exact regsTo_go (exec_engineCntClr e s) (.clear ..) ⟨hz _ (by decide), hz _ (by decide), hz _ (by decide), .clear_regs _ _ _⟩

/-- Settles O20: a frame sets no field that decides where its picture lies (`engFmtOk_judged`), and each row of the picture lies within the
engine's own share of SURF (`freezeStore_outside`); an access to the coefficients is a write or an answer, and then the index's step. -/
theorem engineWork : Obligations.EngineWork :=
  ⟨fun _ _ _ _ hr hg => ⟨fun hadmits => ⟨runsTo_engineFrame_shed (Dev.frameDue_of hr hg hadmits),
      engineFrame_composed (Dev.frameDue_of hr hg hadmits)⟩,
      fun hn hs ht => runsTo_engineFrame_early (Dev.not_frameDue_of hg hn hs ht)⟩,
    fun _ _ _ _ _ he hlt hi => ⟨runsTo_coefWrite he hlt hi, regsTo_coefWrite_ignored he hlt hi, runsTo_coefRead he hlt hi⟩,
    regsTo_engineCntClr⟩

end Sys2Proof.Machine
end

section
/-!
Proofs, the Sounding matrix (chapter 10): what the work on its channels leaves alone, the check of the shadow set, and the settling of O21
(R293 to R295).
-/

namespace Sys2Proof.Machine

/-- A step that brings about a property of its element, and that takes it from no other, brings it about for every element of a list. -/
theorem foldl_establishes {α : Type} {Q : α → Dev → Prop} {g : Dev → α → Dev} (hset : ∀ d x, Q x (g d x))
    (hkeep : ∀ d x y, Q y d → Q y (g d x)) (l : List α) : ∀ d y, y ∈ l ∨ Q y d → Q y (l.foldl g d) := by
  induction l with
  | nil => exact fun _ _ h => h.resolve_left List.not_mem_nil
  | cons x l ih =>
    intro d y h
    refine ih (g d x) y ?_
    rcases h with h | h
    · exact (List.mem_cons.1 h).symm.imp id fun (e : y = x) => e ▸ hset d x
    · exact .inr (hkeep d x y h)

/-! ## Work on channels -/

/-- The offsets of the registers that work on a channel sets: the pool's free blocks, the matrix's events, its use and its clips, and the
channel's status (Tables 10.6 to 10.10). -/
def chanOffs : List Nat := [0x00700028, 0x00900004, 0x00900014, 0x00900020, 0x00900114]

/-- Work on some channels of the matrix: registers beside those, the active copies, what takes gave to follow and every other channel stand
as they were. -/
structure ChanWork (cs : List Nat) (d e : Dev) : Prop where
  regs : OffsKept d e chanOffs
  act : e.act = d.act
  follow : e.follow = d.follow
  others : ∀ c ∉ cs, e.amxOut c = d.amxOut c

theorem Dev.amxOut_of_amx {d e : Dev} (h : e.amx = d.amx) (c : Nat) : e.amxOut c = d.amxOut c := by rw [amxOut, amxOut, h]

theorem Dev.amxOut_setAmx_self (d : Dev) (ch : Nat) (a : AmxOut) : (d.setAmx ch a).amxOut ch = a := mapGet_mapPut_self ..

namespace ChanWork

variable {cs : List Nat} {d e f : Dev} {ch : Nat}

theorem refl (d : Dev) : ChanWork cs d d := ⟨.refl _ _, rfl, rfl, fun _ _ => rfl⟩

theorem trans (h : ChanWork cs d e) (k : ChanWork cs e f) : ChanWork cs d f :=
  ⟨h.regs.trans k.regs, k.act.trans h.act, k.follow.trans h.follow, fun c n => (k.others c n).trans (h.others c n)⟩

theorem mono {cs' : List Nat} (h : ChanWork cs d e) (s : ∀ c ∈ cs, c ∈ cs') : ChanWork cs' d e :=
  { h with others := fun c n => h.others c fun m => n (s c m) }

theorem of_only (h : OnlyRegs d e) (k : OffsKept d e chanOffs) : ChanWork cs d e :=
  ⟨k, h.get_act, h.get_follow, fun c _ => Dev.amxOut_of_amx h.get_amx c⟩

theorem set (d : Dev) (x : Fld) (v c : Nat) (h : x.off ∈ chanOffs) : ChanWork cs d (d.set x v c) := of_only (.set ..) (.set _ _ _ _ h)

theorem put (d : Dev) (x : Fld) (b : Bool) (c : Nat) (h : x.off ∈ chanOffs) : ChanWork cs d (d.put x b c) := set _ _ _ _ h

theorem raiseIf (d : Dev) (b : Bool) (x : Fld) (c : Nat) (h : x.off ∈ chanOffs) : ChanWork cs d (d.raiseIf b x c) := by
  cases b
  · exact refl d
  · exact set _ _ _ _ h

theorem when (b : Bool) (g : Dev → Dev) (h : ChanWork cs d (g d)) : ChanWork cs d (d.when b g) := by
  cases b
  · exact refl d
  · exact h

theorem ite (c : Prop) [Decidable c] {x y : Dev} (h : ChanWork cs d x) (k : ChanWork cs d y) : ChanWork cs d (if c then x else y) := by
  split
  · exact h
  · exact k

theorem setAmx (d : Dev) (a : AmxOut) : ChanWork [ch] d (d.setAmx ch a) :=
  ⟨.of_regs rfl, rfl, rfl, fun _ n => mapGet_mapPut_ne (fun e => n (List.mem_singleton.2 (Prod.mk.inj e).1)) ..⟩

theorem foldl {α : Type} (g : Dev → α → Dev) (h : ∀ d x, ChanWork cs d (g d x)) (l : List α) : ∀ d, ChanWork cs d (l.foldl g d) := by
  induction l with
  | nil => exact refl
  | cons x l ih => exact fun d => (h d x).trans (ih _)

/-- Work on one channel after the other. -/
theorem foldl_chans (g : Dev → Nat → Dev) (h : ∀ d x, ChanWork [x] d (g d x)) (l : List Nat) : ∀ d, ChanWork l d (l.foldl g d) := by
  induction l with
  | nil => exact refl
  | cons x l ih =>
    exact fun d => ((h d x).mono (by simp)).trans ((ih _).mono fun _ => .tail _)

/-- A register of the matrix beside those that work on a channel sets. -/
theorem get (h : ChanWork cs d e) (x : Fld) (c : Nat) (n : x.off ∉ chanOffs) : e.get x c = d.get x c := h.regs.field x c n

theorem actReg (h : ChanWork cs d e) (off c : Nat) : e.actReg off c = d.actReg off c := Dev.actReg_of_act h.act off c

/-! ## The operations of chapter 10 on a channel -/

theorem amxBlocks (d : Dev) (n : Nat) : ChanWork cs d (d.amxBlocks ch n) := by
  have hp : ChanWork cs d (d.poolSet (0, ch) n) := ⟨.of_regs rfl, rfl, rfl, fun _ _ => rfl⟩
  exact ((hp.trans (set _ _ _ _ (by decide))).trans (set _ _ _ _ (by decide))).trans (set _ _ _ _ (by decide))

theorem amxStat (d : Dev) : ChanWork cs d (d.amxStat ch) :=
  ((set _ _ _ _ (by decide)).trans (put _ _ _ _ (by decide))).trans (put _ _ _ _ (by decide))

theorem amxSumUsed (d : Dev) : ChanWork cs d d.amxSumUsed := set _ _ _ _ (by decide)

theorem amxFade (d : Dev) (k : Nat) (old : Option Nat) : ChanWork [ch] d (d.amxFade ch k old) :=
  ite _ (refl d) ((raiseIf _ _ _ _ (by decide)).trans (setAmx _ _))

theorem amxRamp (d : Dev) (k : Nat) (b : Bool) : ChanWork [ch] d (d.amxRamp ch k b) := ite _ (setAmx _ _) (refl d)

theorem amxDelay (d : Dev) : ChanWork [ch] d (d.amxDelay ch) :=
  ite _ (refl d) (ite _ ((amxBlocks _ _).trans (setAmx _ _)) ((amxBlocks _ _).trans (setAmx _ _)))

end ChanWork

/-! ## The shadow set of a channel becomes active (R293) -/

/-- The active copies of a channel's configuration hold its shadows. -/
def InForce (ch : Nat) (d : Dev) : Prop := ∀ k < 5, d.actReg (0x00900100 + 4 * k) ch = d.reg (0x00900100 + 4 * k) ch

theorem config_beside {k : Nat} (h : k < 5) : 0x00900100 + 4 * k ∉ chanOffs := by simp [chanOffs]; omega

theorem InForce.of_work {cs : List Nat} {d e : Dev} {ch : Nat} (h : InForce ch d) (w : ChanWork cs d e) : InForce ch e := fun k hk => by
  rw [w.actReg, w.regs _ _ (config_beside hk), h k hk]

namespace Dev

/-- A channel's shadows are copied. -/
def chanShadows (d : Dev) (ch : Nat) : Dev := [0, 1, 2, 3, 4].foldl (fun d k => d.commit (0x00900100 + 4 * k) ch) d

theorem chanShadows_regs (d : Dev) (ch : Nat) : (d.chanShadows ch).regs = d.regs := (rfl)

theorem chanShadows_inForce (d : Dev) (ch : Nat) : InForce ch (d.chanShadows ch) := fun k hk =>
  foldl_establishes (Q := fun k d => d.actReg (0x00900100 + 4 * k) ch = d.reg (0x00900100 + 4 * k) ch)
    (fun d x => d.actReg_commit_self _ _)
    (fun d x y h => by
      by_cases e : y = x
      · rw [e, actReg_commit_self, reg_commit]
      · rw [actReg_commit_ne _ (.inl (by omega)), reg_commit, h])
    _ d k (.inl (by simp; omega))

theorem chanShadows_other (d : Dev) {ch c : Nat} (h : c ≠ ch) (off : Nat) : (d.chanShadows ch).actReg off c = d.actReg off c := by
  simp only [chanShadows, List.foldl, actReg_commit_ne _ (.inr h)]

theorem amxApply_work (d : Dev) (ch : Nat) : ChanWork [ch] (d.chanShadows ch) (d.amxApply ch) :=
  ((ChanWork.foldl _ (fun _ _ => (ChanWork.amxRamp _ _ _).trans (.amxFade _ _ _)) _ _).trans (.amxDelay _)).trans (.amxStat _)

theorem amxApply_regs (d : Dev) (ch : Nat) : OffsKept d (d.amxApply ch) chanOffs :=
  (OffsKept.of_regs (d.chanShadows_regs ch)).trans (d.amxApply_work ch).regs

theorem amxApply_inForce (d : Dev) (ch : Nat) : InForce ch (d.amxApply ch) := (d.chanShadows_inForce ch).of_work (d.amxApply_work ch)

theorem amxApply_keeps {d : Dev} {ch c : Nat} (h : InForce c d) : InForce c (d.amxApply ch) := by
  by_cases e : c = ch
  · exact e ▸ d.amxApply_inForce c
  · exact InForce.of_work (fun k hk => (d.chanShadows_other e _).trans (h k hk)) (d.amxApply_work ch)

/-- All the channels take their shadows. -/
def applied (d : Dev) : Dev := d.amxChans.foldl amxApply d

theorem applied_regs (d : Dev) : OffsKept d d.applied chanOffs := by
  unfold applied
  generalize d.amxChans = l
  induction l generalizing d with
  | nil => exact .refl d _
  | cons ch l ih => exact (d.amxApply_regs ch).trans (ih _)

theorem applied_inForce (d : Dev) : ∀ ch ∈ d.amxChans, InForce ch d.applied := fun ch h =>
  foldl_establishes (fun d x => d.amxApply_inForce x) (fun _ _ _ => amxApply_keeps) _ d ch (.inl h)

end Dev

/-! ## The check of the shadow set (R294) -/

theorem filter_keys_mapPut {α : Type} [DecidableEq α] (p : Key → Bool) {k : Key} (h : p k = false) (dflt v : α) (m : Map α) :
    ((mapPut m k dflt v).filter fun e => p e.1) = m.filter fun e => p e.1 := by
  unfold mapPut
  split
  · induction m with
    | nil => rfl
    | cons e m ih =>
      by_cases hk : e.1 = k
      · simp [mapDel, hk, h, ih]
      · simp [mapDel, hk, List.filter_cons, ih]
  · induction m with
    | nil => simp [mapIns, h]
    | cons e m ih =>
      by_cases hk : e.1 = k
      · simp [mapIns, hk, h]
      · by_cases hl : keyLt k e.1 = true
        · simp [mapIns, hk, hl, h]
        · simp [mapIns, hk, hl, List.filter_cons, ih]

namespace Dev

/-- A register below the channels' is none of their configuration. -/
theorem amxChans_set (d : Dev) {f : Fld} (v ch : Nat) (h : f.off < 0x00900100) : (d.set f v ch).amxChans = d.amxChans := by
  have hf := filter_keys_mapPut (fun k => decide (0x00900100 ≤ k.1) && decide (k.1 ≤ 0x00900110)) (k := (f.off, ch))
    (by simp; omega) (resetWord f.off ch) (putBits (d.reg f.off ch) f.lo f.w v) d.regs
  simp only [amxChans, set, setReg, hf]

/-- The check reads the channels' registers and the pool's free blocks. -/
theorem amxCheck_set (d : Dev) {f : Fld} (v ch : Nat) (h : f.off < 0x00900100) (hp : f.off ≠ 0x00700028) :
    (d.set f v ch).amxCheck = d.amxCheck := by
  have hget (x : Fld) (c : Nat) (hx : 0x00900100 ≤ x.off ∨ x.off = 0x00700028) : (d.set f v ch).get x c = d.get x c :=
    get_set_off _ _ _ _ _ _ (by omega)
  have hin (k c : Nat) : (d.set f v ch).get (AMX.SRC_EN k) c = d.get (AMX.SRC_EN k) c ∧
      (d.set f v ch).get (AMX.SRC_SRC k) c = d.get (AMX.SRC_SRC k) c :=
    ⟨hget _ _ (.inl (Nat.le_add_right _ _)), hget _ _ (.inl (Nat.le_add_right _ _))⟩
  have hcfg (c : Nat) : (d.set f v ch).get AMX.OUT_CFG_XF_LEN c = d.get AMX.OUT_CFG_XF_LEN c ∧
      (d.set f v ch).get AMX.OUT_CFG_DELAY c = d.get AMX.OUT_CFG_DELAY c ∧
      (d.set f v ch).get AMX.OUT_STAT_ADP_BLK c = d.get AMX.OUT_STAT_ADP_BLK c :=
    ⟨hget _ _ (by decide), hget _ _ (by decide), hget _ _ (by decide)⟩
  have hsums : (d.set f v ch).amxSums false = d.amxSums false := funext fun c => by
    simp only [amxSums, amxSrc, hin, if_neg Bool.false_ne_true]
  simp only [amxCheck, amxMore, flag, d.amxChans_set v ch h, hin, hcfg, hsums, hget FS.ADP_STAT_BLK_FREE 0 (by decide)]
  rfl

theorem amxCheck_code (d : Dev) : d.amxCheck.1 < 16 := by
  unfold amxCheck
  extract_lets cs
  split
  · exact (by decide : 2 < 16)
  · split
    · exact (by decide : 5 < 16)
    · split
      · decide
      · split <;> decide

/-- The outcome of the check is shown. -/
def showCheck (d : Dev) : Dev := (d.set AMX.BLK_STAT_RESULT d.amxCheck.1).set AMX.BLK_STAT_FAIL_CH d.amxCheck.2

/-- A set that fails is refused and counted. -/
def refuseSet (d : Dev) : Dev := (d.raise AMX.BLK_EVT_COMMIT_REJ).count AMX.CNT_REJ_COUNT

section
variable (d : Dev)

theorem showCheck_only : OnlyRegs d d.showCheck := .trans (.set ..) (.set ..)

theorem showCheck_kept : RegsKept d d.showCheck [(0x00900010, 0)] :=
  (RegsKept.set d AMX.BLK_STAT_RESULT _ 0 (.head _)).trans (.set _ AMX.BLK_STAT_FAIL_CH _ 0 (.head _))

theorem showCheck_get {f : Fld} (h : BitsApart f AMX.BLK_STAT_RESULT) (k : BitsApart f AMX.BLK_STAT_FAIL_CH) (ch : Nat) :
    d.showCheck.get f ch = d.get f ch := by
  rw [showCheck, get_set_apart k, get_set_apart h]

theorem showCheck_result : d.showCheck.get AMX.BLK_STAT_RESULT = d.amxCheck.1 := by
  rw [showCheck, get_set_apart (by decide), get_set_self _ _ _ _ (by decide)]
  exact Nat.mod_eq_of_lt d.amxCheck_code

theorem showCheck_fail : d.showCheck.get AMX.BLK_STAT_FAIL_CH = d.amxCheck.2 % 2 ^ 15 := get_set_self _ _ _ _ (by decide)

theorem refuseSet_only : OnlyRegs d d.refuseSet := .trans (.raise ..) (.count ..)

theorem refuseSet_kept : RegsKept d d.refuseSet [(0x00900004, 0), (0x00900024, 0)] :=
  (RegsKept.raise _ _ _ (.head _)).trans (.count _ _ _ _ (.tail _ (.head _)))

theorem refuseSet_reports : d.refuseSet.get AMX.BLK_EVT_COMMIT_REJ = 1 ∧
    d.refuseSet.get AMX.CNT_REJ_COUNT = sat32 (d.get AMX.CNT_REJ_COUNT + 1) := by
  constructor
  · exact (get_set_apart (by decide) ..).trans (get_set_self _ _ _ _ (by decide))
  · rw [refuseSet, count_get _ _ _ rfl rfl]
    exact congrArg (fun n => sat32 (n + 1)) (get_set_apart (by decide) ..)

end

/-! ## The start and the stop at a tick (R295) -/

/-- No fade and no change of a delay is under way on a channel. -/
def Settled (ch : Nat) (d : Dev) : Prop := (d.amxOut ch).dlyFade = none ∧ ∀ i ∈ (d.amxOut ch).ins, i.fade = none

theorem Settled.of_amxOut {d e : Dev} {ch : Nat} (h : Settled ch d) (he : e.amxOut ch = d.amxOut ch) : Settled ch e := by
  rwa [Settled, he]

/-- A channel of which the map lists nothing is as at reset. -/
theorem amxOut_unlisted {d : Dev} {ch : Nat} (h : ch ∉ d.amx.map (·.1.1)) : d.amxOut ch = AmxOut.init := by
  have key (m : Map AmxOut) (hm : ch ∉ m.map (·.1.1)) : mapFind (ch, 0) m = none := by
    induction m with
    | nil => rfl
    | cons e m ih =>
      obtain ⟨he, hm⟩ := not_or.1 (List.mem_cons.not.1 hm)
      rw [mapFind, if_neg (fun hk => he (congrArg Prod.fst hk).symm), ih hm]
  rw [amxOut, mapGet, key _ h]
  rfl

theorem mem_amxChans_of_listed {d : Dev} {ch : Nat} (h : ch ∈ d.amx.map (·.1.1)) : ch ∈ d.amxChans :=
  List.mem_eraseDups.2 (List.mem_append_right _ h)

theorem amxStartChan_work (d : Dev) (ch : Nat) : ChanWork [ch] d (d.amxStartChan ch) :=
  ((ChanWork.setAmx _ _).trans (.amxBlocks _ _)).trans (.amxStat _)

theorem amxStartChan_settled (d : Dev) (ch : Nat) : Settled ch (d.amxStartChan ch) := by
  unfold amxStartChan
  extract_lets ins n x a
  have ha : Settled ch a := by
    rw [Settled, amxOut_setAmx_self]
    exact ⟨rfl, by simp [ins]⟩
  have hw : ChanWork [] a ((a.amxBlocks ch (dlyBlocks n)).amxStat ch) := (ChanWork.amxBlocks _ _).trans (.amxStat _)
  exact ha.of_amxOut (hw.others ch List.not_mem_nil)

theorem amxStartChan_keeps {d : Dev} {ch c : Nat} (h : Settled c d) : Settled c (d.amxStartChan ch) := by
  by_cases e : c = ch
  · exact e ▸ d.amxStartChan_settled c
  · exact h.of_amxOut ((d.amxStartChan_work ch).others c (by simpa using e))

section
variable (d : Dev)

/-- Nothing waits for an instant. -/
def noDue : Dev := { d with commitAt := mapPut d.commitAt (1, 0) none none }

theorem noDue_regs : d.noDue.regs = d.regs := (rfl)

theorem noDue_get (f : Fld) (ch : Nat) : d.noDue.get f ch = d.get f ch := (rfl)

theorem noDue_commitAt : mapGet d.noDue.commitAt (1, 0) none = none := mapGet_mapPut_self d.commitAt (1, 0) none none

end

/-- The matrix runs, its start no longer waits, and every channel's shadows are copied. -/
def startSet (d : Dev) : Dev :=
  let d := (d.put AMX.BLK_STAT_RUN true).noDue
  d.amxChans.foldl chanShadows d

theorem amxStart_eq (d : Dev) : d.amxStart = (d.startSet.amxChans.foldl amxStartChan d.startSet).amxSumUsed := (rfl)

theorem foldl_chanShadows_regs (l : List Nat) : ∀ d : Dev, (l.foldl chanShadows d).regs = d.regs := by
  induction l with
  | nil => exact fun _ => rfl
  | cons ch l ih => exact fun d => (ih _).trans (d.chanShadows_regs ch)

theorem startSet_run (d : Dev) : d.startSet.get AMX.BLK_STAT_RUN = 1 := by
  have h : d.startSet.get AMX.BLK_STAT_RUN = (d.put AMX.BLK_STAT_RUN true).get AMX.BLK_STAT_RUN :=
    SameFld.of_regs (foldl_chanShadows_regs _ _) 0
  rw [h, put_get _ _ _ (by decide) rfl]
  rfl

theorem amxStart_work (d : Dev) : ChanWork d.startSet.amxChans d.startSet d.amxStart :=
  (ChanWork.foldl_chans _ amxStartChan_work _ _).trans (.amxSumUsed _)

/-- A start leaves no channel with a fade: it begins each that the map lists, and the others are as at reset. -/
theorem amxStart_settled (d : Dev) (ch : Nat) : Settled ch d.amxStart := by
  have h : Settled ch (d.startSet.amxChans.foldl amxStartChan d.startSet) := by
    refine foldl_establishes (fun d x => d.amxStartChan_settled x) (fun _ _ _ => amxStartChan_keeps) _ _ ch ?_
    by_cases hl : ch ∈ d.startSet.amx.map (·.1.1)
    · exact .inl (mem_amxChans_of_listed hl)
    · refine .inr ?_
      rw [Settled, amxOut_unlisted hl]
      exact ⟨rfl, by decide⟩
  rw [amxStart_eq]
  exact h.of_amxOut ((ChanWork.amxSumUsed _).others ch List.not_mem_nil)

/-- The matrix runs no more, and no commit is armed. -/
def stopShown (d : Dev) : Dev := (d.put AMX.BLK_STAT_RUN false).put AMX.BLK_STAT_ARMED false

/-- The blocks of the channels are returned. -/
def blocksBack (d : Dev) : Dev := d.amxChans.foldl (fun d ch => d.amxBlocks ch 0) d

/-- The matrix runs no more, its channels' blocks are returned, and its channels are as at reset. -/
def stopSet (d : Dev) : Dev :=
  { d.stopShown.blocksBack with amx := [], commitAt := mapPut d.commitAt (1, 0) none none }

theorem amxStop_eq (d : Dev) : d.amxStop = (d.stopShown.amxChans.foldl amxStat d.stopSet).amxSumUsed := (rfl)

theorem blocksBack_work (d : Dev) : ChanWork [] d d.blocksBack := .foldl _ (fun _ _ => .amxBlocks _ _) _ _

theorem stopSet_regs (d : Dev) : d.stopSet.regs = d.stopShown.blocksBack.regs := by rw [stopSet]

theorem foldl_amxStat_only (l : List Nat) (d : Dev) : OnlyRegs d (l.foldl amxStat d) :=
  .foldl _ (fun _ _ => ((OnlyRegs.set ..).trans (.put ..)).trans (.put ..)) _ _

theorem stopSet_amx (d : Dev) : d.stopSet.amx = [] := (rfl)

theorem amxSumUsed_only (d : Dev) : OnlyRegs d d.amxSumUsed := .set ..

theorem amxStop_amx (d : Dev) : d.amxStop.amx = [] := by
  rw [amxStop_eq, ((foldl_amxStat_only _ _).trans (amxSumUsed_only _)).get_amx, stopSet_amx]

theorem amxStop_get (d : Dev) (f : Fld) (ch : Nat) (h : f.off ∉ chanOffs) : d.amxStop.get f ch = d.stopShown.get f ch := by
  have hw (l : List Nat) : ChanWork [] d.stopSet (l.foldl amxStat d.stopSet).amxSumUsed :=
    (ChanWork.foldl _ (fun _ _ => .amxStat _) _ _).trans (.amxSumUsed _)
  rw [amxStop_eq, (hw _).get f ch h, SameFld.of_regs d.stopSet_regs, d.stopShown.blocksBack_work.get f ch h]

theorem amxStop_status (d : Dev) : d.amxStop.get AMX.BLK_STAT_RUN = 0 ∧ d.amxStop.get AMX.BLK_STAT_ARMED = 0 := by
  constructor
  · rw [amxStop_get _ _ _ (by decide), stopShown, put_eq, get_set_apart (by decide), put_get _ _ _ (by decide) rfl]
    rfl
  · rw [amxStop_get _ _ _ (by decide), stopShown, put_get _ _ _ (by decide) rfl]
    rfl

theorem amxStop_value (d : Dev) (ch : Nat) : d.amxStop.amxValue ch = 0 := by
  rw [amxValue, amxOut, amxStop_amx]
  rfl

theorem amxStart_run (d : Dev) : d.amxStart.get AMX.BLK_STAT_RUN = 1 := by
  rw [(amxStart_work d).get _ _ (by decide), startSet_run]

theorem amxTurn_starts {d : Dev} (hr : d.flag AMX.BLK_STAT_RUN = false) (he : d.flag AMX.BLK_CTL_EN = true)
    (hc : (mapGet d.commitAt (1, 0) none).isSome = true) (ht : d.amxReady = true) : d.amxTurn = d.amxStart := by
  simp [amxTurn, hr, he, hc, ht]

theorem amxTurn_stops {d : Dev} (hr : d.flag AMX.BLK_STAT_RUN = true) (he : d.flag AMX.BLK_CTL_EN = false) : d.amxTurn = d.amxStop := by
  simp [amxTurn, hr, he]

theorem amxTurn_agrees {d : Dev} (h : d.flag AMX.BLK_STAT_RUN = d.flag AMX.BLK_CTL_EN) : d.amxTurn = d := by
  cases hr : d.flag AMX.BLK_STAT_RUN <;> simp [amxTurn, ← h, hr]

theorem amxTurn_waits {d : Dev} (hr : d.flag AMX.BLK_STAT_RUN = false) (h : d.amxReady = false ∨ mapGet d.commitAt (1, 0) none = none) :
    d.amxTurn = d := by
  rcases h with h | h <;> simp [amxTurn, hr, h]

/-! ## Commits and EN (R293 to R295) -/

section
variable (d : Dev)

theorem amxDue_regs : d.amxDue.regs = d.regs := (rfl)

theorem amxDue_get (f : Fld) (ch : Nat) : d.amxDue.get f ch = d.get f ch := (rfl)

theorem amxDue_commitAt : mapGet d.amxDue.commitAt (1, 0) none = some (d.cadNow + nsTu 2000) :=
  mapGet_mapPut_self d.commitAt (1, 0) none (some _)

end

theorem cadNow_of_only {d e : Dev} (h : OnlyRegs d e) : e.cadNow = d.cadNow := by
  rw [cadNow, cadNow, timeTu, timeTu, resTu, resTu, h.get_time, h.get_res]

/-- The matrix's commit point disarms, and shows the check of the set that is armed. -/
def commitShown (d : Dev) : Dev := (d.put AMX.BLK_STAT_ARMED false).showCheck

theorem amxCheck_put (d : Dev) {f : Fld} (b : Bool) (h : f.off < 0x00900100) (hp : f.off ≠ 0x00700028) :
    (d.put f b).amxCheck = d.amxCheck := amxCheck_set _ _ _ h hp

theorem amxCommitPoint_due {d : Dev} (ha : d.flag AMX.BLK_STAT_ARMED = true) (hr : d.amxReady = true) :
    d.amxCommitPoint = if d.amxCheck.1 = 1 then d.commitShown.applied.amxSumUsed.raise AMX.BLK_EVT_COMMIT_OK
      else d.commitShown.refuseSet := by
  rw [amxCommitPoint, if_pos (by rw [ha, hr]; rfl), commitShown, showCheck, amxCheck_put _ _ (by decide) (by decide)]
  rfl

theorem amxCommitPoint_waits {d : Dev} (h : d.flag AMX.BLK_STAT_ARMED = false ∨ d.amxReady = false) : d.amxCommitPoint = d := by
  rcases h with h | h <;> simp [amxCommitPoint, h]

section
variable (d : Dev)

theorem commitShown_only : OnlyRegs d d.commitShown := (OnlyRegs.put ..).trans (showCheck_only _)

theorem commitShown_kept : RegsKept d d.commitShown [(0x00900010, 0)] :=
  (RegsKept.put d AMX.BLK_STAT_ARMED _ 0 (.head _)).trans (showCheck_kept _)

theorem commitShown_armed : d.commitShown.get AMX.BLK_STAT_ARMED = 0 :=
  (showCheck_get _ (by decide) (by decide) 0).trans (put_get d false 0 (by decide) rfl)

theorem commitShown_result : d.commitShown.get AMX.BLK_STAT_RESULT = d.amxCheck.1 := by
  rw [commitShown, showCheck_result, amxCheck_put _ _ (by decide) (by decide)]

theorem commitShown_fail : d.commitShown.get AMX.BLK_STAT_FAIL_CH = d.amxCheck.2 % 2 ^ 15 := by
  rw [commitShown, showCheck_fail, amxCheck_put _ _ (by decide) (by decide)]

theorem commitShown_amxChans : d.commitShown.amxChans = d.amxChans := by
  rw [commitShown, showCheck, amxChans_set _ _ _ (by decide), amxChans_set _ _ _ (by decide), put_eq, amxChans_set _ _ _ (by decide)]

/-- EN stored, and the check of the set shown. -/
def enableShown : Dev := (d.put AMX.BLK_CTL_EN true).showCheck

theorem enableShown_only : OnlyRegs d d.enableShown := (OnlyRegs.put ..).trans (showCheck_only _)

theorem enableShown_kept : RegsKept d d.enableShown [(0x00900008, 0), (0x00900010, 0)] :=
  (RegsKept.put d AMX.BLK_CTL_EN _ 0 (.head _)).trans ((showCheck_kept _).mono fun _ => .tail _)

theorem put_en_run (en : Bool) : (d.put AMX.BLK_CTL_EN en).get AMX.BLK_STAT_RUN = d.get AMX.BLK_STAT_RUN := get_set_apart (by decide) ..

theorem put_en_get (en : Bool) : (d.put AMX.BLK_CTL_EN en).get AMX.BLK_CTL_EN = b2n en := put_get d en 0 (by decide) rfl

theorem enableShown_run : d.enableShown.get AMX.BLK_STAT_RUN = d.get AMX.BLK_STAT_RUN :=
  (showCheck_get _ (by decide) (by decide) 0).trans (d.put_en_run true)

theorem enableShown_en : d.enableShown.get AMX.BLK_CTL_EN = 1 :=
  (showCheck_get _ (by decide) (by decide) 0).trans (d.put_en_get true)

theorem enableShown_result : d.enableShown.get AMX.BLK_STAT_RESULT = d.amxCheck.1 := by
  rw [enableShown, showCheck_result, amxCheck_put _ _ (by decide) (by decide)]

theorem put_en_flag (en : Bool) : (d.put AMX.BLK_CTL_EN en).flag AMX.BLK_STAT_RUN = d.flag AMX.BLK_STAT_RUN :=
  congrArg (· != 0) (d.put_en_run en)

theorem amxEnable_running (en : Bool) (hr : d.flag AMX.BLK_STAT_RUN = true) : d.amxEnable en = d.put AMX.BLK_CTL_EN en := by
  rw [amxEnable, if_pos ((d.put_en_flag en).trans hr)]

theorem amxEnable_stopped (hr : d.flag AMX.BLK_STAT_RUN = false) :
    d.amxEnable true = if d.amxCheck.1 = 1 then d.enableShown.amxDue else d.enableShown.refuseSet := by
  rw [amxEnable, if_neg (by rw [put_en_flag, hr]; exact Bool.false_ne_true), if_pos rfl, enableShown, showCheck,
    amxCheck_put _ _ (by decide) (by decide)]
  rfl

theorem amxEnable_off (hr : d.flag AMX.BLK_STAT_RUN = false) : d.amxEnable false = (d.put AMX.BLK_CTL_EN false).noDue := by
  rw [amxEnable, if_neg (by rw [put_en_flag, hr]; exact Bool.false_ne_true), if_neg Bool.false_ne_true, noDue]

end

/-- A flag of one bit that is off reads 0, one that is on reads 1. -/
theorem get_of_flag {d : Dev} {f : Fld} {ch : Nat} {b : Bool} (hw : f.w = 1) (h : d.flag f ch = b) : d.get f ch = b2n b := by
  rw [← h, b2n_flag d f ch hw]

end Dev

theorem exec_amxCommit (s : State) : exec .amxCommit s = s.go fun d =>
    d.when (d.flag AMX.BLK_STAT_RUN && !d.flag AMX.BLK_STAT_ARMED) fun d => (d.put AMX.BLK_STAT_ARMED true).amxDue := rfl

theorem exec_amxCommitPoint (s : State) : exec .amxCommitPoint s = s.go (·.amxCommitPoint) := rfl

theorem exec_matrixEnable (en : Bool) (s : State) : exec (.matrixEnable en) s = s.go (·.amxEnable en) := rfl

section
variable {s : State}

theorem runsTo_amxCommit_arms (hr : s.dev.flag AMX.BLK_STAT_RUN = true) (ha : s.dev.flag AMX.BLK_STAT_ARMED = false) :
    RunsTo .amxCommit s fun d => d.get AMX.BLK_STAT_ARMED = 1 ∧ mapGet d.commitAt (1, 0) none = some (s.dev.cadNow + nsTu 2000) ∧
      RegsKept s.dev d [(0x00900010, 0)] :=
  runsTo_go (exec_amxCommit s) (e := (s.dev.put AMX.BLK_STAT_ARMED true).amxDue) (by rw [hr, ha]; rfl)
    ⟨s.dev.put_get true 0 (by decide) rfl, Dev.amxDue_commitAt _,
      (RegsKept.put s.dev AMX.BLK_STAT_ARMED true 0 (.head _)).trans (.of_regs (Dev.amxDue_regs _))⟩

theorem runsTo_amxCommit_idle (h : s.dev.flag AMX.BLK_STAT_RUN = false ∨ s.dev.flag AMX.BLK_STAT_ARMED = true) :
    RunsTo .amxCommit s fun d => d = s.dev :=
  runsTo_go (exec_amxCommit s) (by rcases h with h | h <;> simp [Dev.when, h]) rfl

theorem runsTo_amxCommitPoint_waits (h : s.dev.flag AMX.BLK_STAT_ARMED = false ∨ s.dev.amxReady = false) :
    RunsTo .amxCommitPoint s fun d => d = s.dev :=
  runsTo_go (exec_amxCommitPoint s) (Dev.amxCommitPoint_waits h) rfl

theorem runsTo_amxCommitPoint_applies (ha : s.dev.flag AMX.BLK_STAT_ARMED = true) (hr : s.dev.amxReady = true)
    (hc : s.dev.amxCheck.1 = 1) : RunsTo .amxCommitPoint s fun d =>
      d.get AMX.BLK_STAT_ARMED = 0 ∧ d.get AMX.BLK_STAT_RESULT = 1 ∧ d.get AMX.BLK_EVT_COMMIT_OK = 1 ∧
      (∀ ch ∈ s.dev.amxChans, ∀ k < 5, d.actReg (0x00900100 + 4 * k) ch = s.dev.reg (0x00900100 + 4 * k) ch) := by
  have hw (d : Dev) : ChanWork [] d (d.amxSumUsed.raise AMX.BLK_EVT_COMMIT_OK) :=
    (ChanWork.amxSumUsed _).trans (.set _ _ _ _ (by decide))
  have hregs := s.dev.commitShown.applied_regs.trans (hw _).regs
  refine runsTo_go (exec_amxCommitPoint s) ((Dev.amxCommitPoint_due ha hr).trans (if_pos hc))
    ⟨?_, ?_, Dev.get_set_self _ _ _ _ (by decide), fun ch hch k hk => ?_⟩
  · rw [hregs.field _ _ (by decide), Dev.commitShown_armed]
  · rw [hregs.field _ _ (by decide), Dev.commitShown_result, hc]
  · have hin := (s.dev.commitShown.applied_inForce ch (by rwa [Dev.commitShown_amxChans])).of_work (hw _)
    rw [hin k hk, hregs _ _ (config_beside hk), s.dev.commitShown_kept _ _ (by simp; omega)]

theorem regsTo_amxCommitPoint_refuses (ha : s.dev.flag AMX.BLK_STAT_ARMED = true) (hr : s.dev.amxReady = true)
    (hc : s.dev.amxCheck.1 ≠ 1) : RegsTo .amxCommitPoint s fun d =>
      d.get AMX.BLK_STAT_ARMED = 0 ∧ d.get AMX.BLK_STAT_RESULT = s.dev.amxCheck.1 ∧
      d.get AMX.BLK_STAT_FAIL_CH = s.dev.amxCheck.2 % 2 ^ 15 ∧ d.get AMX.BLK_EVT_COMMIT_REJ = 1 ∧
      d.get AMX.CNT_REJ_COUNT = sat32 (s.dev.get AMX.CNT_REJ_COUNT + 1) ∧
      RegsKept s.dev d [(0x00900010, 0), (0x00900004, 0), (0x00900024, 0)] := by
  have heq := (Dev.amxCommitPoint_due ha hr).trans (if_neg hc)
  have hkept := s.dev.commitShown.refuseSet_kept
  obtain ⟨hrej, hcnt⟩ := s.dev.commitShown.refuseSet_reports
  refine regsTo_go (exec_amxCommitPoint s) (heq ▸ s.dev.commitShown_only.trans (Dev.refuseSet_only _)) (heq ▸ ⟨?_, ?_, ?_, hrej, ?_, ?_⟩)
  · rw [hkept.field _ _ (by decide), Dev.commitShown_armed]
  · rw [hkept.field _ _ (by decide), Dev.commitShown_result]
  · rw [hkept.field _ _ (by decide), Dev.commitShown_fail]
  · rw [hcnt, s.dev.commitShown_kept.field _ _ (by decide)]
  · exact (s.dev.commitShown_kept.mono (by simp)).trans (hkept.mono (by simp))

theorem runsTo_matrixEnable_waits (hr : s.dev.flag AMX.BLK_STAT_RUN = false) (hc : s.dev.amxCheck.1 = 1) :
    RunsTo (.matrixEnable true) s fun d => d.get AMX.BLK_STAT_RUN = 0 ∧ d.get AMX.BLK_CTL_EN = 1 ∧ d.get AMX.BLK_STAT_RESULT = 1 ∧
      mapGet d.commitAt (1, 0) none = some (s.dev.cadNow + nsTu 2000) ∧ RegsKept s.dev d [(0x00900008, 0), (0x00900010, 0)] := by
  refine runsTo_go (exec_matrixEnable true s) ((s.dev.amxEnable_stopped hr).trans (if_pos hc))
    ⟨?_, ?_, ?_, ?_, s.dev.enableShown_kept.trans (.of_regs (Dev.amxDue_regs _))⟩
  · rw [Dev.amxDue_get, Dev.enableShown_run, Dev.get_of_flag rfl hr]
    rfl
  · rw [Dev.amxDue_get, Dev.enableShown_en]
  · rw [Dev.amxDue_get, Dev.enableShown_result, hc]
  · rw [Dev.amxDue_commitAt, Dev.cadNow_of_only s.dev.enableShown_only]

theorem regsTo_matrixEnable_refuses (hr : s.dev.flag AMX.BLK_STAT_RUN = false) (hc : s.dev.amxCheck.1 ≠ 1) :
    RegsTo (.matrixEnable true) s fun d => d.get AMX.BLK_STAT_RUN = 0 ∧ d.get AMX.BLK_CTL_EN = 1 ∧
      d.get AMX.BLK_STAT_RESULT = s.dev.amxCheck.1 ∧ d.get AMX.BLK_EVT_COMMIT_REJ = 1 ∧
      d.get AMX.CNT_REJ_COUNT = sat32 (s.dev.get AMX.CNT_REJ_COUNT + 1) ∧
      RegsKept s.dev d [(0x00900008, 0), (0x00900010, 0), (0x00900004, 0), (0x00900024, 0)] := by
  have heq := (s.dev.amxEnable_stopped hr).trans (if_neg hc)
  have hkept := s.dev.enableShown.refuseSet_kept
  obtain ⟨hrej, hcnt⟩ := s.dev.enableShown.refuseSet_reports
  refine regsTo_go (exec_matrixEnable true s) (heq ▸ s.dev.enableShown_only.trans (Dev.refuseSet_only _))
    (heq ▸ ⟨?_, ?_, ?_, hrej, ?_, ?_⟩)
  · rw [hkept.field _ _ (by decide), s.dev.enableShown_run, Dev.get_of_flag rfl hr]
    rfl
  · rw [hkept.field _ _ (by decide), Dev.enableShown_en]
  · rw [hkept.field _ _ (by decide), Dev.enableShown_result]
  · rw [hcnt, s.dev.enableShown_kept.field _ _ (by decide)]
  · exact (s.dev.enableShown_kept.mono (by simp)).trans (hkept.mono (by simp))

theorem runsTo_matrixEnable_off (hr : s.dev.flag AMX.BLK_STAT_RUN = false) : RunsTo (.matrixEnable false) s fun d =>
    d.get AMX.BLK_CTL_EN = 0 ∧ mapGet d.commitAt (1, 0) none = none ∧ RegsKept s.dev d [(0x00900008, 0)] :=
  runsTo_go (exec_matrixEnable false s) (s.dev.amxEnable_off hr)
    ⟨(Dev.noDue_get ..).trans (s.dev.put_en_get false), Dev.noDue_commitAt _,
      (RegsKept.put s.dev AMX.BLK_CTL_EN false 0 (.head _)).trans (.of_regs (Dev.noDue_regs _))⟩

theorem regsTo_matrixEnable_running (en : Bool) (hr : s.dev.flag AMX.BLK_STAT_RUN = true) : RegsTo (.matrixEnable en) s fun d =>
    d.get AMX.BLK_CTL_EN = b2n en ∧ d.get AMX.BLK_STAT_RUN = 1 ∧ RegsKept s.dev d [(0x00900008, 0)] := by
  have heq := s.dev.amxEnable_running en hr
  exact regsTo_go (exec_matrixEnable en s) (heq ▸ .put ..)
    (heq ▸ ⟨s.dev.put_en_get en, (s.dev.put_en_run en).trans (Dev.get_of_flag rfl hr), .put s.dev AMX.BLK_CTL_EN en 0 (.head _)⟩)

end

/-- Settles O21: work on the channels leaves BLK_STAT and the shadows alone (`ChanWork`), so that each channel's active copies still hold its
shadows when the last channel has taken its own (`InForce`); a start begins every channel that the map lists (`amxStart_settled`). -/
theorem matrixControl : Obligations.MatrixControl :=
  ⟨fun _ => ⟨runsTo_amxCommit_arms, runsTo_amxCommit_idle, runsTo_amxCommitPoint_waits, runsTo_amxCommitPoint_applies,
      regsTo_amxCommitPoint_refuses⟩,
    fun _ => ⟨runsTo_matrixEnable_waits, regsTo_matrixEnable_refuses, runsTo_matrixEnable_off, regsTo_matrixEnable_running⟩,
    fun d => ⟨fun hr he hc ht => by
        rw [Dev.amxTurn_starts hr he hc ht]
        exact ⟨d.amxStart_run, fun ch _ => d.amxStart_settled ch⟩,
      fun hr he => by
        rw [Dev.amxTurn_stops hr he]
        obtain ⟨hrun, harmed⟩ := d.amxStop_status
        exact ⟨hrun, harmed, d.amxStop_amx, d.amxStop_value⟩,
      Dev.amxTurn_agrees, Dev.amxTurn_waits⟩⟩

end Sys2Proof.Machine
end

section
/-!
Proofs, the Sounding matrix at a tick: audio follow (R289), a channel's sample (R281, R284), the tick index through everything that the audio
plane does at a tick (R279), and the settling of O22.
-/

namespace Sys2Proof.Machine

/-! ## Audio follow (R289) -/

namespace Dev

section
variable (d : Dev) (f g : Fld) (v ch : Nat)

theorem getAct_setActF_self (h : f.lo + f.w ≤ 32) : (d.setActF f v ch).getAct f ch = v % 2 ^ f.w := by
  rw [getAct, setActF, actReg_setAct_self, bitsOf_putBits_self _ _ _ _ h]

theorem getAct_setActF_fld (h : f.lo + f.w ≤ 32) (ho : g.off = f.off) (ha : f.lo + f.w ≤ g.lo ∨ g.lo + g.w ≤ f.lo) :
    (d.setActF f v ch).getAct g ch = d.getAct g ch := by
  rw [getAct, getAct, setActF, ho, actReg_setAct_self, bitsOf_putBits_ne _ _ _ _ _ _ h ha]

theorem actReg_setActF_ne {c : Nat} (h : c ≠ ch) (off : Nat) : (d.setActF f v ch).actReg off c = d.actReg off c :=
  actReg_setAct_ne _ _ (.inr h)

theorem reg_setActF (off c : Nat) : (d.setActF f v ch).reg off c = d.reg off c := (rfl)

theorem get_setActF (c : Nat) : (d.setActF f v ch).get g c = d.get g c := (rfl)

theorem setActF_follow : (d.setActF f v ch).follow = d.follow := (rfl)

theorem actReg_set (off c : Nat) : (d.set f v ch).actReg off c = d.actReg off c := (rfl)

end

/-- One channel with what audio follow writes, in the shadow and in the active copy. -/
def followWritten (d : Dev) (o s c : Nat) : Dev :=
  if s < 1536 then
    (((d.set (AMX.SRC_SRC 0) (s * 16 + c) (o * 16 + c)).set (AMX.SRC_EN 0) 1 (o * 16 + c)).setActF (AMX.SRC_SRC 0) (s * 16 + c)
      (o * 16 + c)).setActF (AMX.SRC_EN 0) 1 (o * 16 + c)
  else (d.set (AMX.SRC_EN 0) 0 (o * 16 + c)).setActF (AMX.SRC_EN 0) 0 (o * 16 + c)

/-- The source change that the write makes (R286 to R288): a fade where the take asks for one, and none where it does not (R149). -/
def followFade (d : Dev) (ch : Nat) (old : Option Nat) (fade : Bool) : Dev :=
  if !d.flag AMX.BLK_STAT_RUN then d
  else if fade then (d.amxFade ch 0 old).amxStat ch
  else if d.amxSrc true ch 0 = old then d
  else
    let a := d.amxOut ch
    (d.setAmx ch { a with ins := a.ins.modify 0 fun i => { i with fade := none } }).amxStat ch

/-- Audio follow on one channel. -/
def followChan (o s : Nat) (fade : Bool) (d : Dev) (c : Nat) : Dev :=
  (d.followWritten o s c).followFade (o * 16 + c) (d.amxSrc true (o * 16 + c) 0) fade

theorem amxFollow_eq (d : Dev) (o s : Nat) (fade : Bool) : d.amxFollow o s fade = (List.range 16).foldl (followChan o s fade) d := (rfl)

theorem followFade_work (d : Dev) (ch : Nat) (old : Option Nat) (fade : Bool) : ChanWork [ch] d (d.followFade ch old fade) :=
  .ite _ (.refl d) (.ite _ ((ChanWork.amxFade _ _ _).trans (.amxStat _))
    (.ite _ (.refl d) ((ChanWork.setAmx _ _).trans (.amxStat _))))

end Dev

/-- Input 0 of channel `c` of an output holds the source that the channel follows, in the shadow and in the active copy. -/
structure Follows (o s c : Nat) (d : Dev) : Prop where
  en : d.get (AMX.SRC_EN 0) (o * 16 + c) = if s < 1536 then 1 else 0
  act : d.getAct (AMX.SRC_EN 0) (o * 16 + c) = if s < 1536 then 1 else 0
  src : s < 1536 → d.get (AMX.SRC_SRC 0) (o * 16 + c) = (s * 16 + c) % 2 ^ 15 ∧
    d.getAct (AMX.SRC_SRC 0) (o * 16 + c) = (s * 16 + c) % 2 ^ 15

theorem Follows.of_regs {o s c : Nat} {d e : Dev} (h : Follows o s c d) (hr : e.reg 0x00900100 (o * 16 + c) = d.reg 0x00900100 (o * 16 + c))
    (ha : e.actReg 0x00900100 (o * 16 + c) = d.actReg 0x00900100 (o * 16 + c)) : Follows o s c e := by
  have hget (x : Fld) (hx : x.off = 0x00900100) : e.get x (o * 16 + c) = d.get x (o * 16 + c) := by rw [Dev.get, Dev.get, hx, hr]
  have hact (x : Fld) (hx : x.off = 0x00900100) : e.getAct x (o * 16 + c) = d.getAct x (o * 16 + c) := by
    rw [Dev.getAct, Dev.getAct, hx, ha]
  obtain ⟨hen, hacten, hsrc⟩ := h
  exact ⟨(hget _ rfl).trans hen, (hact _ rfl).trans hacten,
    fun hs => ⟨(hget _ rfl).trans (hsrc hs).1, (hact _ rfl).trans (hsrc hs).2⟩⟩

theorem Follows.of_work {cs : List Nat} {o s c : Nat} {d e : Dev} (h : Follows o s c d) (w : ChanWork cs d e) : Follows o s c e :=
  h.of_regs (w.regs _ _ (by decide)) (w.actReg _ _)

namespace Dev

section
variable (d : Dev) (o s c : Nat)

theorem followWritten_follows : Follows o s c (d.followWritten o s c) := by
  have hsrc : (AMX.SRC_SRC 0).lo + (AMX.SRC_SRC 0).w ≤ 32 := by decide
  have hen : (AMX.SRC_EN 0).lo + (AMX.SRC_EN 0).w ≤ 32 := by decide
  unfold followWritten
  split
  · next hs =>
    refine ⟨?_, ?_, fun _ => ⟨?_, ?_⟩⟩
    · rw [get_setActF, get_setActF, get_set_self _ _ _ _ hen, if_pos hs]
      rfl
    · rw [getAct_setActF_self _ _ _ _ hen, if_pos hs]
      rfl
    · rw [get_setActF, get_setActF, get_set_apart (by decide), get_set_self _ _ _ _ hsrc]
      rfl
    · rw [getAct_setActF_fld _ (AMX.SRC_EN 0) (AMX.SRC_SRC 0) _ _ hen rfl (by decide), getAct_setActF_self _ _ _ _ hsrc]
      rfl
  · next hs =>
    refine ⟨?_, ?_, fun h => absurd h hs⟩
    · rw [get_setActF, get_set_self _ _ _ _ hen, if_neg hs]
      rfl
    · rw [getAct_setActF_self _ _ _ _ hen, if_neg hs]
      rfl

theorem followWritten_reg {ch : Nat} (h : ch ≠ o * 16 + c) (off : Nat) : (d.followWritten o s c).reg off ch = d.reg off ch := by
  unfold followWritten
  split <;> simp only [reg_setActF, reg_set_ne _ _ _ (.inr h)]

theorem followWritten_actReg {ch : Nat} (h : ch ≠ o * 16 + c) (off : Nat) :
    (d.followWritten o s c).actReg off ch = d.actReg off ch := by
  unfold followWritten
  split <;> simp only [actReg_setActF_ne _ _ _ _ h, actReg_set]

theorem followWritten_follow : (d.followWritten o s c).follow = d.follow := by
  unfold followWritten
  split
  · rw [setActF_follow, setActF_follow, set_follow, set_follow]
  · rw [setActF_follow, set_follow]

variable (fade : Bool)

theorem followChan_work : ChanWork [o * 16 + c] (d.followWritten o s c) (followChan o s fade d c) := by
  rw [followChan]
  exact followFade_work ..

theorem followChan_follows : Follows o s c (followChan o s fade d c) := (d.followWritten_follows o s c).of_work (d.followChan_work o s c fade)

theorem followChan_keeps {b : Nat} (h : Follows o s b d) : Follows o s b (followChan o s fade d c) := by
  by_cases e : b = c
  · exact e ▸ d.followChan_follows o s b fade
  · have hch : o * 16 + b ≠ o * 16 + c := by omega
    exact (h.of_regs (d.followWritten_reg o s c hch _) (d.followWritten_actReg o s c hch _)).of_work (d.followChan_work o s c fade)

theorem amxFollow_follows : ∀ c < 16, Follows o s c (d.amxFollow o s fade) := fun c hc => by
  rw [amxFollow_eq]
  exact foldl_establishes (fun d c => d.followChan_follows o s c fade) (fun d c _ h => d.followChan_keeps o s c fade h) _ d c
    (.inl (List.mem_range.2 hc))

theorem amxFollow_follow : (d.amxFollow o s fade).follow = d.follow := by
  have key (l : List Nat) : ∀ d : Dev, (l.foldl (followChan o s fade) d).follow = d.follow := by
    induction l with
    | nil => exact fun _ => rfl
    | cons c l ih =>
      exact fun d => (ih _).trans ((d.followChan_work o s c fade).follow.trans (d.followWritten_follow o s c))
  rw [amxFollow_eq, key]

/-- What a take gave the output to follow is taken up. -/
def followTaken : Dev := { d with follow := mapPut d.follow (o, 0) none none }

theorem followTaken_follow : mapGet (d.followTaken o).follow (o, 0) none = none := mapGet_mapPut_self d.follow (o, 0) none none

end

end Dev

theorem exec_audioFollow (o : Slot) (s : State) : exec (.audioFollow o) s = s.go fun d =>
    match mapGet d.follow (o.val, 0) none with
    | none => d
    | some t => (d.followTaken o).amxFollow o t.1 t.2 := rfl

section
variable {o : Slot} {s : State}

theorem runsTo_audioFollow_none (h : mapGet s.dev.follow (o.val, 0) none = none) : RunsTo (.audioFollow o) s fun d => d = s.dev :=
  runsTo_go (exec_audioFollow o s) (by rw [h]) rfl

theorem runsTo_audioFollow {src : Nat} {fade : Bool} (h : mapGet s.dev.follow (o.val, 0) none = some (src, fade)) :
    RunsTo (.audioFollow o) s fun d => mapGet d.follow (o.val, 0) none = none ∧ ∀ c < 16, Follows o src c d :=
  runsTo_go (exec_audioFollow o s) (e := (s.dev.followTaken o).amxFollow o src fade) (by rw [h])
    ⟨by rw [Dev.amxFollow_follow, Dev.followTaken_follow], Dev.amxFollow_follows _ _ _ _⟩

end

/-! ## A channel at a tick (R281, R284) -/

namespace ChanWork

variable {cs : List Nat} {ch : Nat}

/-- What leaves may use a free value, and changes nothing else. -/
theorem amxLeave (d : Dev) (n : Nat) : ChanWork cs d (d.amxLeave n ch).2 := by
  have hdraw : ChanWork cs d d.draw.2 := ⟨.of_regs rfl, rfl, rfl, fun _ _ => rfl⟩
  unfold Dev.amxLeave
  extract_lets a bad v w
  have hv : ChanWork cs d v.2 := by
    simp only [v]
    split
    · exact refl d
    · exact hdraw
  have hw : ChanWork cs d w.2 := by
    simp only [w]
    split
    · exact refl d
    · exact hv
  split <;> exact hw

theorem amxDelayStep (d : Dev) : ChanWork [ch] d (d.amxDelayStep ch) := by
  unfold Dev.amxDelayStep
  extract_lets a
  split
  · exact refl d
  · exact ite _ ((setAmx _ _).trans (amxBlocks _ _)) (setAmx _ _)

end ChanWork

namespace Dev

/-- A saturated sample is counted and reported (R284). -/
def countClip (d : Dev) (b : Bool) : Dev :=
  d.when b fun d => ((d.count AMX.CNT_CLIP_COUNT).raise AMX.BLK_EVT_CLIP).pulseFault (devFault 172)

theorem countClip_work {cs : List Nat} (d : Dev) (b : Bool) : ChanWork cs d (d.countClip b) := by
  refine .when b _ ?_
  have hp (e : Dev) : ChanWork cs e (e.pulseFault (devFault 172)) := ⟨.of_regs rfl, rfl, rfl, fun _ _ => rfl⟩
  exact ((ChanWork.set _ _ _ _ (by decide)).trans (.set _ _ _ _ (by decide))).trans (hp _)

/-- The sum of a channel's inputs, rounded at 24 fractional bits (R284). -/
def chanSum (d : Dev) (xs : Map Int) (ch : Nat) : Int :=
  (((d.amxOut ch).ins.zipIdx.map fun x => d.amxInput xs ch x.2 x.1).sum + 2 ^ 23) / 2 ^ 24

/-- A channel after a tick at which `v` has left it. -/
def chanNext (d : Dev) (xs : Map Int) (ch : Nat) (v : Int) : AmxOut :=
  let a := d.amxOut ch
  { a with ins := a.ins.map amxNext, hist := (amxClamp (d.chanSum xs ch) :: a.hist).take (max 1 (d.get AMX.OUT_STAT_ADP_BLK ch * 4096)),
           out := v, peak := max a.peak v.natAbs, clip := a.clip || amxClamp (d.chanSum xs ch) != d.chanSum xs ch }

/-- A channel's sample computed, where `v` leaves. -/
def chanSet (d : Dev) (xs : Map Int) (ch : Nat) (v : Int) : Dev :=
  (d.setAmx ch (d.chanNext xs ch v)).countClip (amxClamp (d.chanSum xs ch) != d.chanSum xs ch)

theorem amxChan_eq (d : Dev) (n : Nat) (xs : Map Int) (ch : Nat) :
    d.amxChan n xs ch = (((d.amxLeave n ch).2.chanSet xs ch (d.amxLeave n ch).1).amxDelayStep ch).amxStat ch := (rfl)

theorem chanSet_work (d : Dev) (xs : Map Int) (ch : Nat) (v : Int) : ChanWork [ch] d (d.chanSet xs ch v) :=
  (ChanWork.setAmx _ _).trans (countClip_work _ _)

theorem chanSet_amxOut (d : Dev) (xs : Map Int) (ch : Nat) (v : Int) : (d.chanSet xs ch v).amxOut ch = d.chanNext xs ch v := by
  rw [chanSet, (countClip_work (cs := []) _ _).others ch List.not_mem_nil, amxOut_setAmx_self]

theorem amxChan_work (d : Dev) (n : Nat) (xs : Map Int) (ch : Nat) : ChanWork [ch] d (d.amxChan n xs ch) := by
  rw [amxChan_eq]
  exact (((ChanWork.amxLeave d n).trans (chanSet_work _ _ _ _)).trans (.amxDelayStep _)).trans (.amxStat _)

/-- What leaves a channel whose delay stands: the sum that DELAY asks for, where its granule is good. -/
theorem amxLeave_sum {d : Dev} {n ch : Nat} {v : Int} (hv : (d.amxOut ch).hist[(d.amxOut ch).dly]? = some v)
    (hf : (d.amxOut ch).dlyFade = none) (hb : (d.amxOut ch).dly = 0 ∨ d.poolBad (0, ch) (n - 1 - (d.amxOut ch).dly) = false) :
    d.amxLeave n ch = (v, d) := by
  have hgood : (d.poolBad (0, ch) (n - 1 - (d.amxOut ch).dly) && decide (0 < (d.amxOut ch).dly)) = false := by
    rcases hb with h | h <;> simp [h]
  simp only [amxLeave, hf, hv, hgood, if_neg Bool.false_ne_true]

theorem amxDelayStep_stands {d : Dev} {ch : Nat} (h : (d.amxOut ch).dlyFade = none) : d.amxDelayStep ch = d := by
  simp only [amxDelayStep, h]

theorem amxChan_amxOut {d : Dev} {n ch : Nat} (xs : Map Int) {v : Int} (hl : d.amxLeave n ch = (v, d)) (hf : (d.amxOut ch).dlyFade = none) :
    (d.amxChan n xs ch).amxOut ch = d.chanNext xs ch v := by
  have hd : ((d.chanSet xs ch v).amxOut ch).dlyFade = none := by rw [chanSet_amxOut]; exact hf
  rw [amxChan_eq, hl, amxDelayStep_stands hd, (ChanWork.amxStat (cs := []) _).others ch List.not_mem_nil, chanSet_amxOut]

theorem chanNext_head (d : Dev) (xs : Map Int) (ch : Nat) (v : Int) :
    (d.chanNext xs ch v).hist.head? = some (amxClamp (d.chanSum xs ch)) := by
  obtain ⟨k, hk⟩ : ∃ k, max 1 (d.get AMX.OUT_STAT_ADP_BLK ch * 4096) = k + 1 := ⟨_, (Nat.succ_pred_eq_of_pos (by omega)).symm⟩
  simp only [chanNext, hk, List.take_succ_cons, List.head?_cons]

end Dev

/-! ## The tick index through a tick (R279) -/

/-- TICK_LO and TICK_HI read as before. -/
abbrev TickStands (d e : Dev) : Prop := SameRegs 0x00900018 0x00900020 d e

/-- TICK shows an index. -/
def TickShows (n : Nat) (d : Dev) : Prop := d.get AMX.TICK_LO_TICK_L = n % 2 ^ 32 ∧ d.get AMX.TICK_HI_TICK_H = n / 2 ^ 32 % 2 ^ 32

theorem TickShows.of_stands {n : Nat} {d e : Dev} (h : TickShows n d) (k : TickStands d e) : TickShows n e := by
  obtain ⟨hlo, hhi⟩ := h
  exact ⟨(k.get _ _ (by decide) (by decide)).trans hlo, (k.get _ _ (by decide) (by decide)).trans hhi⟩

theorem TickStands.of_chan {cs : List Nat} {d e : Dev} (w : ChanWork cs d e) : TickStands d e := fun off ch a b =>
  w.regs off ch (by simp [chanOffs]; omega)

theorem TickStands.of_notes {d e : Dev} (h : Notes 0x00900018 0x00900020 d e) : TickStands d e := h.1

/-- A fold over what holds a block beside other things. -/
theorem SameRegs.foldl_on {α β : Type} {lo hi : Nat} (π : β → Dev) (g : β → α → β) (h : ∀ r x, SameRegs lo hi (π r) (π (g r x)))
    (l : List α) : ∀ r, SameRegs lo hi (π r) (π (l.foldl g r)) := by
  induction l with
  | nil => exact fun r => .refl lo hi (π r)
  | cons x l ih => exact fun r => (h r x).trans (ih _)

namespace Dev

theorem lvlFrame_tick (d : Dev) : TickStands d d.lvlFrame := by
  unfold lvlFrame
  extract_lets ins a b
  have ha : TickStands d a := .foldl _ (fun d ch => .set d AMX.LVL_IN_IN_PEAK _ ch (.inr (by decide))) _ _
  have hb : TickStands a b := .of_regs rfl
  refine (ha.trans hb).trans (.foldl _ (fun d ch => ?_) _ _)
  extract_lets x e
  have he : TickStands d e := SameRegs.trans (.set d AMX.LVL_OUT_OUT_PEAK _ ch (.inr (by decide)))
    (.put _ AMX.OUT_STAT_CLIPPED _ ch (.inr (by decide)))
  exact he.trans (TickStands.of_chan (.setAmx e _))

theorem amxTick_shows (d : Dev) (n : Nat) (xs : Map Int) : TickShows n (d.amxTick n xs) := by
  unfold amxTick
  extract_lets a b c e
  have ha : TickShows n a :=
    ⟨(get_set_off _ _ _ _ _ _ (by decide)).trans (get_set_self _ _ _ _ (by decide)), get_set_self _ _ _ _ (by decide)⟩
  split
  · have hb : TickStands a b := .logAdd _ _ _ (.inl (by decide))
    have hc : TickStands b c := .ite _ (.refl _ _ _) (lvlFrame_tick _)
    have he : TickStands c e := .of_regs rfl
    exact ha.of_stands (((hb.trans hc).trans he).trans (.foldl _ (fun d ch => TickStands.of_chan (d.amxChan_work n xs ch)) _ _))
  · exact ha

/-! ### What takes its samples at the tick -/

theorem metersTick_tick (d : Dev) (n : Nat) (xs : Map Int) : TickStands d (d.metersTick n xs) := by
  refine .foldl _ (fun d e => .foldl _ (fun d lay => ?_) _ _) _ _
  extract_lets ch
  split
  · refine .foldl _ (fun d b => ?_) _ _
    extract_lets c r
    exact .of_regs rfl
  · exact .refl _ _ _

theorem syncTick_tick (d : Dev) (n : Nat) (xs : Map Int) : TickStands d (d.syncTick n xs) := by
  refine .foldl _ (fun d e => ?_) _ _
  extract_lets slot f
  split
  · exact .refl _ _ _
  · split
    · extract_lets x a g
      have ha : TickStands d a := .of_regs (setSync_regs ..)
      exact ha.trans (.ite _ (.of_regs (setGenOf_regs ..)) (.refl _ _ _))
    · exact .refl _ _ _

theorem bdlTick_tick (d : Dev) (n : Nat) : TickStands d (d.bdlTick n) := by
  refine .foldl _ (fun d b => ?_) _ _
  extract_lets g
  exact .ite _ (.of_regs (setGenOf_regs ..)) (.refl _ _ _)

theorem outTick_tick (d : Dev) : TickStands d d.outTick := by
  refine .foldl _ (fun d o => ?_) _ _
  extract_lets x
  exact .of_regs (setOut_regs ..)

theorem egTick_tick (d : Dev) (n : Nat) : TickStands d (d.egTick n) := by
  refine .foldl _ (fun d f => ?_) _ _
  split
  · exact .refl _ _ _
  · exact .ite _ (.of_regs rfl) (.refl _ _ _)

theorem leavePkts_tick (d : Dev) (c : Nat) (gone : HeldPkt → Bool) : TickStands d (d.leavePkts c gone) := by
  unfold leavePkts
  extract_lets x
  split
  · exact .refl _ _ _
  · extract_lets l k lost a
    have ha : TickStands d a := setCells_regs (.inr (by decide)) _ _ _
    exact ha.trans (.ite _ (.refl _ _ _) ((SameRegs.count _ _ _ _ (.inl (by decide))).trans (.raise _ _ _ (.inl (by decide)))))

theorem audLeave_tick (d : Dev) : TickStands d d.audLeave := .foldl _ (fun d c => leavePkts_tick d c _) _ _

/-! ### The serial audio transmitters (R302, R308, R311) -/

theorem setAud_tick (d : Dev) (p : Nat) (u : AudPort) : TickStands d (d.setAud p u) := .of_regs rfl

theorem setDir_tick (d : Dev) (p : Nat) (tx : Bool) (a : AudDir) : TickStands d (d.setDir p tx a) :=
  (setAud_tick _ _ _).trans (.set _ _ _ _ (.inr (by cases tx <;> decide)))

theorem audSlip_tick (d : Dev) (ps : List Nat) (tx : Bool) : TickStands d (d.audSlip ps tx) := by
  refine .foldl _ (fun d p => ?_) _ _
  have hp (e : Dev) (x : FaultAt) : TickStands e (e.pulseFault x) := .of_regs rfl
  cases tx <;> exact ((SameRegs.count _ _ _ _ (.inr (by decide))).trans (.raise _ _ _ (.inr (by decide)))).trans (hp _ _)

theorem audPush_tick (d : Dev) (ps : List Nat) (tx : Bool) (frame : Nat → List Int) : TickStands d (d.audPush ps tx frame) := by
  unfold audPush
  extract_lets a
  have ha : TickStands d a := .foldl _ (fun _ _ => setDir_tick _ _ _ _) _ _
  exact .ite _ (ha.trans (SameRegs.trans (.foldl _ (fun _ _ => setDir_tick _ _ _ _) _ _) (audSlip_tick _ _ _))) ha

theorem audSend_tick (d : Dev) (l p : Nat) (f : List Int) : TickStands d (d.audSend l p f) :=
  (SameRegs.logAdd _ _ _ (.inl (by decide))).trans (.of_regs rfl)

theorem playFrames_tick (d : Dev) (l p : Nat) (elems : List (Port × List Byte)) : TickStands d (d.playFrames l p elems).2 := by
  unfold playFrames
  extract_lets u q n four size
  split
  · exact .refl _ _ _
  · split
    · exact .of_notes (.qRef (.inr (by decide)) _)
    · split <;> exact .refl _ _ _

theorem playTake_tick (d : Dev) (p : Nat) (fs : List (List Int)) : TickStands d (d.playTake p fs) := by
  unfold playTake
  extract_lets u a
  have ha : TickStands d a := setAud_tick _ _ _
  exact ha.trans (.ite _ (TickStands.of_notes (.qConsume (.inl (by decide)) (by decide) (.inr (by decide)) _ _ _)) (.refl _ _ _))

theorem audTxTick_tick (d : Dev) (l : Nat) (elems : List (Port × List Byte)) : TickStands d (d.audTxTick l elems) := by
  unfold audTxTick
  extract_lets ps n r a empty again fresh frame frames b
  have ha : TickStands d a := by
    refine SameRegs.foldl_on Prod.snd _ (fun r p => ?_) _ ([], d)
    dsimp only
    split
    · exact playFrames_tick _ _ _ _
    · exact .refl _ _ _
  have hb : TickStands a b := .ite _ (.foldl _ (fun _ _ => playTake_tick _ _ _) _ _)
    ((audSlip_tick _ _ _).trans (.foldl _ (fun _ _ =>
      (SameRegs.count _ _ _ _ (.inr (by decide))).trans (.raise _ _ _ (.inr (by decide)))) _ _))
  refine (ha.trans hb).trans (.ite _ (audPush_tick _ _ _ _) (.foldl _ (fun d x => ?_) _ _))
  extract_lets u y
  have hy : TickStands d y := audSend_tick _ _ _ _
  exact hy.trans (setAud_tick _ _ _)

theorem poolTraffic_tick (d : Dev) (n : Nat) : TickStands d (d.poolTraffic n) :=
  (SameRegs.hbmMoves _ _ _ (.inl (by decide))).trans (.hbmMoves _ _ _ (.inl (by decide)))

/-- Nothing that the audio plane does behind the matrix touches the tick index. -/
theorem matrixTick_shows (d : Dev) (n : Nat) (ports : List (Port × List Bool)) (elems : List (Port × List Byte)) :
    TickShows n (d.matrixTick n ports elems) := by
  unfold matrixTick
  extract_lets leads r r' e
  have he : TickShows n e := (amxTick_shows r'.2 n r'.1).of_stands ((((((metersTick_tick _ _ _).trans (syncTick_tick _ _ _)).trans
    (bdlTick_tick _ _)).trans (outTick_tick _)).trans (egTick_tick _ _)).trans (audLeave_tick _))
  exact he.of_stands (SameRegs.trans (.foldl _ (fun _ _ => audTxTick_tick _ _ _) _ _) (poolTraffic_tick _ _))

end Dev

theorem exec_matrixTick (n : Nat) (ports : List (Port × List Bool)) (elems : List (Port × List Byte)) (s : State) :
    exec (.matrixTick n ports elems) s =
      .next { s with dev := s.dev.matrixTick n ports elems, store := (s.dev.matrixTick n ports elems).poolStore n s.store } := rfl

theorem matrixTick_completes (n : Nat) (ports : List (Port × List Bool)) (elems : List (Port × List Byte)) (s : State) :
    ∃ t, exec (.matrixTick n ports elems) s = .next t ∧ t.nvm = s.nvm ∧ t.pending = s.pending ∧
      t.dev.get AMX.TICK_LO_TICK_L = n % 2 ^ 32 ∧ t.dev.get AMX.TICK_HI_TICK_H = n / 2 ^ 32 % 2 ^ 32 := by
  obtain ⟨hlo, hhi⟩ := s.dev.matrixTick_shows n ports elems
  refine ⟨{ s with dev := s.dev.matrixTick n ports elems, store := (s.dev.matrixTick n ports elems).poolStore n s.store },
    exec_matrixTick n ports elems s, rfl, rfl, ?_⟩
  dsimp only
  exact ⟨hlo, hhi⟩

/-- Settles O22: each channel's write stays while the others are written (`followChan_keeps`); nothing that follows TICK's write at a tick
touches it (`TickStands`); a channel whose delay stands holds `chanNext` after its tick. -/
theorem matrixAudio : Obligations.MatrixAudio := by
  refine ⟨fun o s => ⟨runsTo_audioFollow_none, fun src fade h hs => ?_, fun src fade h hs => ?_⟩, matrixTick_completes,
    fun d n xs ch v hv hf hb => ?_⟩
  · refine (runsTo_audioFollow h).imp fun d ⟨hnone, hfollows⟩ => ⟨hnone, fun c hc => ?_⟩
    obtain ⟨hen, hact, hsrc⟩ := hfollows c hc
    rw [if_pos hs] at hen hact
    rw [Nat.mod_eq_of_lt (by omega)] at hsrc
    exact ⟨(hsrc hs).1, hen, (hsrc hs).2, hact⟩
  · refine (runsTo_audioFollow h).imp fun d ⟨hnone, hfollows⟩ => ⟨hnone, fun c hc => ?_⟩
    obtain ⟨hen, hact, -⟩ := hfollows c hc
    rw [if_neg (Nat.not_lt.2 hs)] at hen hact
    exact ⟨hen, hact⟩
  · have hout := Dev.amxChan_amxOut xs (Dev.amxLeave_sum hv hf hb) hf
    refine ⟨by rw [hout]; rfl, by rw [hout, Dev.chanNext_head]; rfl, fun c hc => (d.amxChan_work n xs ch).others c (by simpa using hc)⟩

end Sys2Proof.Machine
end

section
/-!
Proofs, the serial audio ports (chapter 11): what an operation on one port of a gang leaves of the others, the start and the stop of a
direction, frame synchronisation and the rate converter, and the settling of O23 (R298, R301, R304, R307, R314).
-/

namespace Sys2Proof.Machine

/-! ## A port and its directions -/

/-- A direction of a port. -/
def AudPort.dir (u : AudPort) (tx : Bool) : AudDir := if tx then u.tx else u.rx

/-- A port with one of its directions replaced. -/
def AudPort.withDir (u : AudPort) (tx : Bool) (a : AudDir) : AudPort := if tx then { u with tx := a } else { u with rx := a }

/-- A port with nothing on its way in a direction: no frames of a transmitter, no capture and no converter of a receiver. -/
def AudPort.emptied (u : AudPort) (tx : Bool) : AudPort :=
  if tx then { u with line := [], play := [] }
  else { u with cap := [], capTick := 0, capGap := false, good := 0, errs := 0, ramp := 0, base := 0 }

theorem AudPort.dir_withDir (u : AudPort) (tx : Bool) (a : AudDir) : (u.withDir tx a).dir tx = a := by cases tx <;> rfl

/-- A direction's enable (Table 11.6). -/
def enFld (tx : Bool) : Fld := if tx then AUD.PORT_CTL_TX_EN else AUD.PORT_CTL_RX_EN

/-- A direction's run flag (Table 11.9). -/
def runFld (tx : Bool) : Fld := if tx then AUD.STAT_TX_RUN else AUD.STAT_RX_RUN

/-- A direction's fill (Table 11.9). -/
def fillFld (tx : Bool) : Fld := if tx then AUD.STAT_TX_FILL else AUD.STAT_RX_FILL

theorem enFld_off (tx : Bool) : (enFld tx).off = 0x00A00100 := by cases tx <;> rfl
theorem runFld_off (tx : Bool) : (runFld tx).off = 0x00A00118 := by cases tx <;> rfl
theorem fillFld_off (tx : Bool) : (fillFld tx).off = 0x00A00118 := by cases tx <;> rfl

namespace Dev

theorem audDir_eq (d : Dev) (p : Nat) (tx : Bool) : d.audDir p tx = (d.audPort p).dir tx := (rfl)

theorem audRuns_eq (d : Dev) (p : Nat) (tx : Bool) : d.audRuns p tx = d.flag (runFld tx) p := (rfl)

theorem audPort_of_aud {d e : Dev} (h : e.aud = d.aud) (q : Nat) : e.audPort q = d.audPort q := by rw [audPort, audPort, h]

theorem audPort_set (d : Dev) (f : Fld) (v ch q : Nat) : (d.set f v ch).audPort q = d.audPort q := (rfl)

theorem audPort_setAud_self (d : Dev) (p : Nat) (u : AudPort) : (d.setAud p u).audPort p = u := mapGet_mapPut_self ..

theorem audPort_setAud_ne (d : Dev) {p q : Nat} (u : AudPort) (h : p ≠ q) : (d.setAud p u).audPort q = d.audPort q :=
  mapGet_mapPut_ne (fun e => h (Prod.mk.inj e).1.symm) ..

theorem audDir_setAud_self (d : Dev) (p : Nat) (u : AudPort) (tx : Bool) : (d.setAud p u).audDir p tx = u.dir tx := by
  rw [audDir_eq, audPort_setAud_self]

theorem audDir_set (d : Dev) (f : Fld) (v ch q : Nat) (tx : Bool) : (d.set f v ch).audDir q tx = d.audDir q tx := (rfl)

theorem get_setAud (d : Dev) (p : Nat) (u : AudPort) (f : Fld) (ch : Nat) : (d.setAud p u).get f ch = d.get f ch := (rfl)

theorem setDir_eq (d : Dev) (p : Nat) (tx : Bool) (a : AudDir) :
    d.setDir p tx a = (d.setAud p ((d.audPort p).withDir tx a)).set (fillFld tx) a.fifo.length p := (rfl)

theorem audDir_setDir_self (d : Dev) (p : Nat) (tx : Bool) (a : AudDir) : (d.setDir p tx a).audDir p tx = a := by
  rw [setDir_eq, audDir_set, audDir_setAud_self, AudPort.dir_withDir]

theorem get_setDir {f : Fld} (tx : Bool) (h : BitsApart f (fillFld tx)) (d : Dev) (p : Nat) (a : AudDir) (ch : Nat) :
    (d.setDir p tx a).get f ch = d.get f ch := by
  rw [setDir_eq, get_set_apart h, get_setAud]

theorem setDir_kept (d : Dev) (p : Nat) (tx : Bool) (a : AudDir) : RegsKept d (d.setDir p tx a) [(0x00A00118, p)] :=
  (RegsKept.of_regs rfl).trans (.set _ (fillFld tx) _ _ (by rw [fillFld_off]; exact .head _))

/-! ## A gang (R307) -/

theorem audGang_congr {d e : Dev} (h : SameFld AUD.PORT_CTL_GANG d e) (l : Nat) : e.audGang l = d.audGang l := by
  rw [audGang, audGang, h l]

theorem audLead_congr {d e : Dev} (h : SameFld AUD.PORT_CTL_GANG d e) (p : Nat) : e.audLead p = d.audLead p := by
  rw [audLead, audLead, audGang_congr h]

theorem audGang_nodup (d : Dev) (l : Nat) : (d.audGang l).Nodup := List.nodup_range.map fun _ _ => Nat.add_left_cancel

end Dev

/-! ## What work on one port leaves of another -/

/-- A port with its registers stands as it was. -/
structure PortKept (q : Nat) (d e : Dev) : Prop where
  port : e.audPort q = d.audPort q
  regs : ∀ off, e.reg off q = d.reg off q

namespace PortKept

variable {q p : Nat} {d e c : Dev}

theorem refl (d : Dev) : PortKept q d d := ⟨rfl, fun _ => rfl⟩

theorem trans (h : PortKept q d e) (k : PortKept q e c) : PortKept q d c :=
  ⟨k.port.trans h.port, fun off => (k.regs off).trans (h.regs off)⟩

theorem set (h : p ≠ q) (d : Dev) (f : Fld) (v : Nat) : PortKept q d (d.set f v p) :=
  ⟨d.audPort_set .., fun _ => Dev.reg_set_ne d f v (.inr h.symm)⟩

theorem clear (h : p ≠ q) (d : Dev) (fs : List Fld) : PortKept q d (d.clear fs p) :=
  ⟨Dev.audPort_of_aud (OnlyRegs.clear d fs p).get_aud q, fun _ => Dev.reg_clear_ne fs d (.inl h.symm)⟩

theorem setAud (h : p ≠ q) (d : Dev) (u : AudPort) : PortKept q d (d.setAud p u) := ⟨d.audPort_setAud_ne u h, fun _ => rfl⟩

theorem setDir (h : p ≠ q) (d : Dev) (tx : Bool) (a : AudDir) : PortKept q d (d.setDir p tx a) := (setAud h _ _).trans (set h _ _ _)

theorem when (b : Bool) (g : Dev → Dev) (h : PortKept q d (g d)) : PortKept q d (d.when b g) := by
  cases b
  · exact refl d
  · exact h

theorem ite (b : Prop) [Decidable b] {x y : Dev} (h : PortKept q d x) (k : PortKept q d y) : PortKept q d (if b then x else y) := by
  split
  · exact h
  · exact k

theorem get (h : PortKept q d e) (f : Fld) : e.get f q = d.get f q := by rw [Dev.get, Dev.get, h.regs]

theorem dir (h : PortKept q d e) (tx : Bool) : e.audDir q tx = d.audDir q tx := by rw [Dev.audDir_eq, Dev.audDir_eq, h.port]

theorem runs (h : PortKept q d e) (tx : Bool) : e.audRuns q tx = d.audRuns q tx := by
  rw [Dev.audRuns_eq, Dev.audRuns_eq, Dev.flag, Dev.flag, h.get]

theorem foldl {g : Dev → Nat → Dev} (hg : ∀ d p, p ≠ q → PortKept q d (g d p)) (l : List Nat) (h : q ∉ l) :
    ∀ d, PortKept q d (l.foldl g d) := by
  induction l with
  | nil => exact refl
  | cons p l ih =>
    obtain ⟨hp, hl⟩ := List.ne_and_not_mem_of_not_mem_cons h
    exact fun d => (hg d p hp.symm).trans (ih hl _)

/-- Work on each port of a gang finds a port as it was at first, and leaves it as the work on this port left it. -/
theorem foldl_visits {g : Dev → Nat → Dev} (hg : ∀ d p, p ≠ q → PortKept q d (g d p)) (l : List Nat) (hn : l.Nodup) (hq : q ∈ l) :
    ∀ d, ∃ e, PortKept q d e ∧ PortKept q (g e q) (l.foldl g d) := by
  induction l with
  | nil => exact absurd hq List.not_mem_nil
  | cons p l ih =>
    obtain ⟨hp, hl⟩ := List.nodup_cons.1 hn
    intro d
    by_cases e : p = q
    · subst e
      exact ⟨d, refl d, foldl hg l hp _⟩
    · obtain ⟨c, hc, hend⟩ := ih hl ((List.mem_cons.1 hq).resolve_left (Ne.symm e)) (g d p)
      exact ⟨c, (hg d p e).trans hc, hend⟩

end PortKept

namespace Dev

/-! ## A direction's start and stop (R298, R307, R314) -/

/-- One port of a gang starts in a direction. -/
def startPort (l : Nat) (tx : Bool) (d : Dev) (p : Nat) : Dev :=
  let d := ((d.setAud p ((d.audPort p).emptied tx)).setDir p tx AudDir.init).put (runFld tx) true p
  if !tx && d.audConv l then d.set AUD.SRC_STAT_STATE 1 p else d

/-- One port of a gang stops in a direction. -/
def stopPort (tx : Bool) (d : Dev) (p : Nat) : Dev :=
  let d := (d.setAud p ((d.audPort p).emptied tx)).when (!tx) (·.clear [AUD.SRC_STAT_STATE, AUD.SRC_STAT_RATE] p)
  (d.setDir p tx AudDir.init).put (runFld tx) false p

/-- The block with a direction to start at the next tick, or no longer. -/
def dirDue (d : Dev) (l : Nat) (tx due : Bool) : Dev := d.setDir l tx { d.audDir l tx with due := due }

/-- The block as a start that passes its check leaves it before the gang starts: no longer due, and the direction's code gone. -/
def startShown (d : Dev) (l : Nat) (tx : Bool) : Dev :=
  if (d.dirDue l tx false).get AUD.STAT_ERR l = (if tx then 1 else 2) then (d.dirDue l tx false).set AUD.STAT_ERR 0 l
  else d.dirDue l tx false

/-- The block with a direction's enable written. -/
def dirEn (d : Dev) (p : Nat) (tx en : Bool) : Dev := d.put (enFld tx) en p

section
variable (d : Dev) (l p : Nat) (tx : Bool)

/-- A direction's slots and channels hang on its format register alone. -/
theorem audFits_congr {d e : Dev} (h : ∀ f : Fld, f.off = 0x00A00104 ∨ f.off = 0x00A00108 → e.get f l = d.get f l) :
    e.audSlots l tx = d.audSlots l tx ∧ e.audNch l tx = d.audNch l tx := by
  cases tx
  · exact ⟨by simp [audSlots, h, AUD.RX_FMT_FMT, AUD.RX_FMT_NSLOT], by simp [audNch, h, AUD.RX_FMT_NCH]⟩
  · exact ⟨by simp [audSlots, h, AUD.TX_FMT_FMT, AUD.TX_FMT_NSLOT], by simp [audNch, h, AUD.TX_FMT_NCH]⟩

theorem startPort_others {q : Nat} (h : p ≠ q) : PortKept q d (startPort l tx d p) := by
  have hrun := ((PortKept.setAud h d ((d.audPort p).emptied tx)).trans (.setDir h _ tx AudDir.init)).trans (.set h _ (runFld tx) 1)
  exact .ite _ (hrun.trans (.set h _ _ _)) hrun

theorem startPort_runs : (startPort l tx d p).audRuns p tx = true ∧ (startPort l tx d p).audDir p tx = AudDir.init := by
  unfold startPort
  extract_lets e
  have hrun : e.audRuns p tx = true :=
    flag_of_get_one ((get_set_self _ _ _ _ (by cases tx <;> decide)).trans (by cases tx <;> rfl))
  have hdir : e.audDir p tx = AudDir.init := (audDir_set ..).trans (audDir_setDir_self ..)
  split
  · refine ⟨?_, (audDir_set ..).trans hdir⟩
    rw [← hrun, audRuns_eq, audRuns_eq, flag, flag, get_set_off _ _ _ _ _ _ (by rw [runFld_off]; decide)]
  · exact ⟨hrun, hdir⟩

theorem dirDue_fits (due : Bool) : (d.dirDue l tx due).audSlots l tx = d.audSlots l tx ∧
    (d.dirDue l tx due).audNch l tx = d.audNch l tx :=
  audFits_congr l tx fun f hf => (d.setDir_kept l tx _).field f l (by simp only [List.mem_singleton, Prod.mk.injEq]; omega)

theorem dirDue_runs (due : Bool) : (d.dirDue l tx due).audRuns l tx = d.audRuns l tx := by
  rw [audRuns_eq, audRuns_eq, flag, flag, dirDue, get_setDir tx (by cases tx <;> decide)]

theorem audStart_eq (hr : d.audRuns l tx = false) (hn : d.audNch l tx ≤ d.audSlots l tx) :
    d.audStart l tx = ((d.startShown l tx).audGang l).foldl (startPort l tx) (d.startShown l tx) := by
  obtain ⟨hslots, hnch⟩ := d.dirDue_fits l tx false
  have h : d.audStart l tx = if (d.dirDue l tx false).audRuns l tx then d.dirDue l tx false
      else if (d.dirDue l tx false).audSlots l tx < (d.dirDue l tx false).audNch l tx then (d.dirDue l tx false).audRefuse l tx
      else ((d.startShown l tx).audGang l).foldl (startPort l tx) (d.startShown l tx) := by cases tx <;> rfl
  rw [h, dirDue_runs, hr, hslots, hnch, if_neg Bool.false_ne_true, if_neg (Nat.not_lt.2 hn)]

theorem startShown_gang : (d.startShown l tx).audGang l = d.audGang l := by
  have hdue : SameFld AUD.PORT_CTL_GANG d (d.dirDue l tx false) := fun ch => get_setDir tx (by cases tx <;> decide) ..
  exact audGang_congr (.ite _ (hdue.trans (.set _ _ _ _ (by decide))) hdue) l

/-- A start that passes its check starts every port of the gang. -/
theorem audStart_starts (hr : d.audRuns l tx = false) (hn : d.audNch l tx ≤ d.audSlots l tx) :
    ∀ q ∈ d.audGang l, (d.audStart l tx).audRuns q tx = true ∧ (d.audStart l tx).audDir q tx = AudDir.init := by
  intro q hq
  rw [audStart_eq d l tx hr hn, startShown_gang]
  obtain ⟨e, -, hend⟩ := PortKept.foldl_visits (fun d p => startPort_others d l p tx) _ (d.audGang_nodup l) hq (d.startShown l tx)
  rw [hend.runs, hend.dir]
  exact e.startPort_runs l q tx

theorem stopPort_others {q : Nat} (h : p ≠ q) : PortKept q d (stopPort tx d p) :=
  (((PortKept.setAud h _ _).trans (.when _ _ (.clear h _ _))).trans (.setDir h _ _ _)).trans (.set h _ _ _)

theorem stopPort_stops : (stopPort tx d p).audRuns p tx = false ∧ (stopPort tx d p).audDir p tx = AudDir.init :=
  ⟨flag_of_get_zero ((get_set_self _ _ _ _ (by cases tx <;> decide)).trans (by cases tx <;> rfl)),
    (audDir_set ..).trans (audDir_setDir_self ..)⟩

theorem stopPort_ctl {f : Fld} (h : f.off = 0x00A00100) : SameFld f d (stopPort tx d p) := by
  have hf (x : Fld) (hx : x.off ≠ 0x00A00100) (d : Dev) (v ch c : Nat) : (d.set x v ch).get f c = d.get f c :=
    get_set_off _ _ _ _ _ _ (h ▸ hx.symm)
  intro ch
  unfold stopPort put
  rw [hf _ (by rw [runFld_off]; decide), setDir_eq, hf _ (by rw [fillFld_off]; decide), get_setAud]
  cases tx
  · exact (hf AUD.SRC_STAT_RATE (by decide) ..).trans (hf AUD.SRC_STAT_STATE (by decide) ..)
  · rfl

theorem audStop_eq : d.audStop l tx = (d.audGang l).foldl (stopPort tx) d := by cases tx <;> rfl

/-- A stop ends the direction on every port of the gang. -/
theorem audStop_stops : ∀ q ∈ d.audGang l, (d.audStop l tx).audRuns q tx = false ∧ (d.audStop l tx).audDir q tx = AudDir.init := by
  intro q hq
  obtain ⟨e, -, hend⟩ := PortKept.foldl_visits (fun d p => stopPort_others d p tx) _ (d.audGang_nodup l) hq d
  rw [audStop_eq, hend.runs, hend.dir]
  exact e.stopPort_stops q tx

theorem audStop_ctl {f : Fld} (h : f.off = 0x00A00100) : SameFld f d (d.audStop l tx) := by
  rw [audStop_eq]
  exact SameFld.foldl _ (fun d p => d.stopPort_ctl p tx h) _ d

/-! ### The enable's write -/

variable (en : Bool)

theorem dirEn_kept : RegsKept d (d.dirEn p tx en) [(0x00A00100, p)] := .put _ _ _ _ (by rw [enFld_off]; exact .head _)

theorem dirEn_en : (d.dirEn p tx en).get (enFld tx) p = b2n en :=
  (get_set_self _ _ _ _ (by cases tx <;> decide)).trans (by cases tx <;> cases en <;> rfl)

theorem dirEn_gang : SameFld AUD.PORT_CTL_GANG d (d.dirEn p tx en) := .put _ _ _ _ (by cases tx <;> decide)

theorem dirEn_runs (q : Nat) : (d.dirEn p tx en).audRuns q tx = d.audRuns q tx := by
  rw [audRuns_eq, audRuns_eq, flag, flag, (d.dirEn_kept p tx en).field _ _ (by simp [runFld_off])]

theorem dirEn_fits : (d.dirEn p tx en).audSlots p tx = d.audSlots p tx ∧ (d.dirEn p tx en).audNch p tx = d.audNch p tx :=
  audFits_congr p tx fun f hf => (d.dirEn_kept p tx en).field f p (by simp only [List.mem_singleton, Prod.mk.injEq]; omega)

theorem audEnable_eq : d.audEnable p tx en =
    if d.audLead p ≠ p then d.dirEn p tx en
    else if en then
      if d.audSlots p tx < d.audNch p tx ∧ d.audRuns p tx = false then (d.dirEn p tx en).audRefuse p tx
      else (d.dirEn p tx en).dirDue p tx true
    else (d.dirEn p tx en).audStop p tx := by
  have h : d.audEnable p tx en = if ((d.dirEn p tx en).audLead p != p) = true then d.dirEn p tx en
      else if en then
        if (decide ((d.dirEn p tx en).audSlots p tx < (d.dirEn p tx en).audNch p tx) && !(d.dirEn p tx en).audRuns p tx) = true then
          (d.dirEn p tx en).audRefuse p tx
        else (d.dirEn p tx en).dirDue p tx true
      else (d.dirEn p tx en).audStop p tx := (rfl)
  obtain ⟨hslots, hnch⟩ := d.dirEn_fits p tx en
  rw [h, audLead_congr (d.dirEn_gang p tx en), hslots, hnch, dirEn_runs]
  simp

/-- A refused start shows its code, and touches STAT and EVT_STAT alone. -/
theorem audRefuse_shows : (d.audRefuse p tx).get AUD.STAT_ERR p = (if tx then 1 else 2) ∧ (d.audRefuse p tx).get AUD.EVT_STAT_START_ERR p = 1 ∧
    (d.audRefuse p tx).audRuns p tx = d.audRuns p tx ∧ RegsKept d (d.audRefuse p tx) [(0x00A00118, p), (0x00A0011C, p)] := by
  have hev {f : Fld} (h : f.off = 0x00A00118) (d : Dev) : (d.raise AUD.EVT_STAT_START_ERR p).get f p = d.get f p :=
    get_set_off _ _ _ _ _ _ (by rw [h]; decide)
  refine ⟨(hev rfl _).trans ((get_set_self _ _ _ _ (by decide)).trans (by cases tx <;> rfl)), get_set_self _ _ _ _ (by decide), ?_,
    (RegsKept.set _ _ _ _ (by simp [AUD.STAT_ERR])).trans (.raise _ _ _ (by simp [AUD.EVT_STAT_START_ERR]))⟩
  rw [audRuns_eq, audRuns_eq, flag, flag, audRefuse, hev (runFld_off tx), get_set_apart (by cases tx <;> decide)]

end

end Dev

theorem exec_audioDirectionEnable (p : Port) (tx en : Bool) (s : State) :
    exec (.audioDirectionEnable p tx en) s = s.go (·.audEnable p tx en) := rfl

section
variable {p : Port} {s : State}

theorem runsTo_audioDirectionEnable_due (tx : Bool) (hl : s.dev.audLead p = p)
    (hf : s.dev.audRuns p tx = true ∨ s.dev.audNch p tx ≤ s.dev.audSlots p tx) : RunsTo (.audioDirectionEnable p tx true) s fun d =>
      d.get (enFld tx) p = 1 ∧ (d.audDir p tx).due = true ∧ d.audRuns p tx = s.dev.audRuns p tx ∧
      RegsKept s.dev d [(0x00A00100, p.val), (0x00A00118, p.val)] := by
  have hfits : ¬ (s.dev.audSlots p tx < s.dev.audNch p tx ∧ s.dev.audRuns p tx = false) := fun ⟨hlt, hr⟩ =>
    hf.elim (by simp [hr]) (Nat.not_le.2 hlt)
  refine runsTo_go (exec_audioDirectionEnable p tx true s)
    (by rw [Dev.audEnable_eq, if_neg (not_not.2 hl), if_pos rfl, if_neg hfits]) ⟨?_, ?_, ?_, ?_⟩
  · exact (Dev.get_setDir tx (by cases tx <;> decide) ..).trans (s.dev.dirEn_en p tx true)
  · rw [Dev.dirDue, Dev.audDir_setDir_self]
  · rw [Dev.dirDue_runs, Dev.dirEn_runs]
  · exact ((s.dev.dirEn_kept p tx true).mono (by simp)).trans (((s.dev.dirEn p tx true).setDir_kept p tx _).mono (by simp))

theorem regsTo_audioDirectionEnable_refuses (tx : Bool) (hl : s.dev.audLead p = p) (hr : s.dev.audRuns p tx = false)
    (hf : s.dev.audSlots p tx < s.dev.audNch p tx) : RegsTo (.audioDirectionEnable p tx true) s fun d =>
      d.audRuns p tx = false ∧ d.get AUD.STAT_ERR p = (if tx then 1 else 2) ∧ d.get AUD.EVT_STAT_START_ERR p = 1 ∧
      RegsKept s.dev d [(0x00A00100, p.val), (0x00A00118, p.val), (0x00A0011C, p.val)] := by
  have heq : s.dev.audEnable p tx true = (s.dev.dirEn p tx true).audRefuse p tx := by
    rw [Dev.audEnable_eq, if_neg (not_not.2 hl), if_pos rfl, if_pos ⟨hf, hr⟩]
  obtain ⟨hcode, hevent, hruns, hkept⟩ := (s.dev.dirEn p tx true).audRefuse_shows p tx
  refine regsTo_go (exec_audioDirectionEnable p tx true s) (heq ▸ (OnlyRegs.put ..).trans ((OnlyRegs.set ..).trans (.raise ..)))
    (heq ▸ ⟨?_, hcode, hevent, ?_⟩)
  · rw [hruns, Dev.dirEn_runs, hr]
  · exact ((s.dev.dirEn_kept p tx true).mono (by simp)).trans (hkept.mono fun _ => .tail _)

theorem runsTo_audioDirectionEnable_stops (tx : Bool) (hl : s.dev.audLead p = p) : RunsTo (.audioDirectionEnable p tx false) s fun d =>
    d.get (enFld tx) p = 0 ∧ ∀ q ∈ s.dev.audGang p, d.audRuns q tx = false ∧ d.audDir q tx = AudDir.init := by
  refine runsTo_go (exec_audioDirectionEnable p tx false s)
    (by rw [Dev.audEnable_eq, if_neg (not_not.2 hl), if_neg Bool.false_ne_true]) ⟨?_, ?_⟩
  · rw [Dev.audStop_ctl _ _ _ (enFld_off tx), Dev.dirEn_en]
    rfl
  · rw [← Dev.audGang_congr (s.dev.dirEn_gang p tx false)]
    exact Dev.audStop_stops _ _ _

theorem regsTo_audioDirectionEnable_member (tx en : Bool) (hl : s.dev.audLead p ≠ p) : RegsTo (.audioDirectionEnable p tx en) s fun d =>
    d.get (enFld tx) p = b2n en ∧ RegsKept s.dev d [(0x00A00100, p.val)] := by
  have heq : s.dev.audEnable p tx en = s.dev.dirEn p tx en := by rw [Dev.audEnable_eq, if_pos hl]
  exact regsTo_go (exec_audioDirectionEnable p tx en s) (heq ▸ .put ..) (heq ▸ ⟨s.dev.dirEn_en p tx en, s.dev.dirEn_kept p tx en⟩)

end

/-! ## Frame synchronisation (R301) -/

/-- Whether each port is in step in a direction, and its frame errors, stand as they were. -/
structure FrameKept (tx : Bool) (d e : Dev) : Prop where
  sync : ∀ q, (e.audDir q tx).sync = (d.audDir q tx).sync
  event : SameFld AUD.EVT_STAT_FRAME_ERR d e
  errors : SameFld AUD.CNT_FRAME_ERR_COUNT d e

namespace FrameKept

variable {tx : Bool} {d e c : Dev}

theorem refl (d : Dev) : FrameKept tx d d := ⟨fun _ => rfl, .refl d, .refl d⟩

theorem trans (h : FrameKept tx d e) (k : FrameKept tx e c) : FrameKept tx d c :=
  ⟨fun q => (k.sync q).trans (h.sync q), h.event.trans k.event, h.errors.trans k.errors⟩

/-- A change of neither the ports nor the registers. -/
theorem of_aud (h : e.aud = d.aud) (hr : e.regs = d.regs) : FrameKept tx d e :=
  ⟨fun q => by rw [Dev.audDir_eq, Dev.audDir_eq, Dev.audPort_of_aud h], .of_regs hr, .of_regs hr⟩

theorem set (d : Dev) (x : Fld) (v ch : Nat) (h : ∀ f ∈ [AUD.EVT_STAT_FRAME_ERR, AUD.CNT_FRAME_ERR_COUNT], BitsApart f x) :
    FrameKept tx d (d.set x v ch) :=
  ⟨fun q => by rw [Dev.audDir_set], .set _ _ _ _ (h _ (by simp)), .set _ _ _ _ (h _ (by simp))⟩

theorem setAud (d : Dev) (p : Nat) (u : AudPort) (h : (u.dir tx).sync = (d.audDir p tx).sync) : FrameKept tx d (d.setAud p u) where
  sync q := by
    by_cases e : p = q
    · rw [← e, Dev.audDir_setAud_self, h]
    · rw [(PortKept.setAud e d u).dir]
  event := .of_regs rfl
  errors := .of_regs rfl

theorem setDir (d : Dev) (p : Nat) (a : AudDir) (h : a.sync = (d.audDir p tx).sync) : FrameKept tx d (d.setDir p tx a) :=
  (setAud d p ((d.audPort p).withDir tx a) (by rw [AudPort.dir_withDir, h])).trans (set _ (fillFld tx) _ _ (by cases tx <;> decide))

theorem ite (b : Prop) [Decidable b] {x y : Dev} (h : FrameKept tx d x) (k : FrameKept tx d y) : FrameKept tx d (if b then x else y) := by
  split
  · exact h
  · exact k

theorem when (b : Bool) (g : Dev → Dev) (h : FrameKept tx d (g d)) : FrameKept tx d (d.when b g) := by
  cases b
  · exact refl d
  · exact h

theorem foldl {α : Type} (g : Dev → α → Dev) (h : ∀ d x, FrameKept tx d (g d x)) (l : List α) : ∀ d, FrameKept tx d (l.foldl g d) := by
  induction l with
  | nil => exact refl
  | cons x l ih => exact fun d => (h d x).trans (ih _)

theorem audSlip (d : Dev) (ps : List Nat) : FrameKept tx d (d.audSlip ps tx) := by
  refine foldl _ (fun d p => ?_) _ _
  have hp (e : Dev) (x : FaultAt) : FrameKept tx e (e.pulseFault x) := of_aud rfl rfl
  cases tx <;> exact ((set _ _ _ _ (by decide)).trans (set _ _ _ _ (by decide))).trans (hp _ _)

theorem audPop (d : Dev) (ps : List Nat) : FrameKept tx d (d.audPop ps tx) := by
  unfold Dev.audPop
  extract_lets a
  have ha : FrameKept tx d a := by
    refine foldl _ (fun d p => ?_) _ _
    extract_lets b
    exact ite _ (setDir d p { b with primed := true } rfl) (refl d)
  refine ite _ ha (ite _ (ha.trans (audSlip _ _)) (ha.trans (foldl _ (fun d p => ?_) _ _)))
  extract_lets b
  exact setDir d p { b with fifo := b.fifo.tail, last := b.fifo.headD [] } rfl

theorem audSend (d : Dev) (l p : Nat) (f : List Int) : FrameKept tx d (d.audSend l p f) := by
  have hlog : FrameKept tx d (d.logAdd (906 + p) 1) :=
    ⟨fun q => by rw [Dev.audDir_eq, Dev.audDir_eq, Dev.audPort_of_aud (OnlyRegs.logAdd ..).get_aud],
      SameFld.logAdd_media (by decide) d _ _, SameFld.logAdd_media (by decide) d _ _⟩
  exact hlog.trans (of_aud rfl rfl)

end FrameKept

namespace Dev

/-- A pulse at a toggle crossing shows in XING_MERGED at most, and leaves the serial audio ports. -/
theorem toggle_same {f : Fld} (h : BitsApart f GLB.XING_MERGED_MERGED) (d : Dev) (x unit most : Nat) : SameFld f d (d.toggle x unit most) := by
  unfold toggle
  extract_lets p merged r q
  cases merged
  · exact .of_regs rfl
  · exact (SameFld.of_regs rfl).trans (.set _ _ _ _ h)

theorem toggle_aud (d : Dev) (x unit most : Nat) : (d.toggle x unit most).aud = d.aud := by
  unfold toggle
  extract_lets p merged r q
  cases merged <;> rfl

/-- One port of a gang begins a frame. -/
def syncPort (tx : Bool) (d : Dev) (p : Nat) : Dev := d.setDir p tx { d.audDir p tx with sync := true }

/-- A frame error counted and reported. -/
def errorCounted (d : Dev) (p : Nat) : Dev := (d.count AUD.CNT_FRAME_ERR_COUNT 1 p).raise AUD.EVT_STAT_FRAME_ERR p

/-- A direction out of step. -/
def frameLost (d : Dev) (p : Nat) (tx : Bool) : Dev := d.setDir p tx { d.audDir p tx with sync := false, primed := false }

/-- A frame error on one port of a gang; a receiver's converter counts it as well. -/
def errorPort (tx : Bool) (d : Dev) (p : Nat) : Dev :=
  let d := (d.errorCounted p).frameLost p tx
  if tx then d else d.setAud p { d.audPort p with good := 0, errs := (d.audPort p).errs + 1 }

/-- The converter of one port of a gang leaves LOCKED. -/
def unlockPort (d : Dev) (p : Nat) : Dev :=
  if d.get AUD.SRC_STAT_STATE p = 2 then
    ((d.set AUD.SRC_STAT_STATE 1 p).raise AUD.EVT_STAT_SRC_UNLOCK p).setAud p { d.audPort p with good := 0, ramp := 0 }
  else d

/-- The converter of one port of a gang enters LOCKED. -/
def lockPort (d : Dev) (p : Nat) : Dev :=
  ((d.set AUD.SRC_STAT_STATE 2 p).raise AUD.EVT_STAT_SRC_LOCK p).setAud p { d.audPort p with ramp := 0 }

theorem srcUnlock_eq (d : Dev) (l : Nat) : d.srcUnlock l = (d.audGang l).foldl unlockPort d := (rfl)

section
variable (d : Dev) (l p : Nat) (tx : Bool)

theorem frameBegin_eq : d.frameBegin l tx =
    if tx then (d.audGang l).foldl (fun d p => d.audSend l p (d.audDir p true).last) (((d.audGang l).foldl (syncPort tx) d).audPop (d.audGang l) true)
    else (d.audGang l).foldl (syncPort tx) d := (rfl)

/-- A frame that begins brings every port of the gang in step. -/
theorem frameBegin_syncs : ∀ q ∈ d.audGang l, ((d.frameBegin l tx).audDir q tx).sync = true := by
  intro q hq
  obtain ⟨e, -, hend⟩ := PortKept.foldl_visits (g := syncPort tx) (fun d p h => .setDir h d tx _) _ (d.audGang_nodup l) hq d
  have hsync : (((d.audGang l).foldl (syncPort tx) d).audDir q tx).sync = true := by
    rw [hend.dir, syncPort, audDir_setDir_self]
  refine Eq.trans ?_ hsync
  rw [frameBegin_eq]
  cases tx
  · rfl
  · exact ((FrameKept.audPop _ _).trans (.foldl _ (fun d p => .audSend d l p _) _ _)).sync q

theorem errorPort_others {q : Nat} (h : p ≠ q) : PortKept q d (errorPort tx d p) := by
  have hlost : PortKept q d ((d.errorCounted p).frameLost p tx) :=
    ((PortKept.set h d _ _).trans (.set h _ _ _)).trans (.setDir h (d.errorCounted p) _ _)
  exact .ite _ hlost (hlost.trans (.setAud h _ _))

theorem errorPort_shows : ((errorPort tx d p).audDir p tx).sync = false ∧ (errorPort tx d p).get AUD.EVT_STAT_FRAME_ERR p = 1 ∧
    (errorPort tx d p).get AUD.CNT_FRAME_ERR_COUNT p = sat32 (d.get AUD.CNT_FRAME_ERR_COUNT p + 1) := by
  unfold errorPort
  extract_lets b
  have hsync : (b.audDir p tx).sync = false := congrArg AudDir.sync (audDir_setDir_self ..)
  have hevent : b.get AUD.EVT_STAT_FRAME_ERR p = 1 :=
    (get_setDir tx (by cases tx <;> decide) ..).trans (get_set_self _ _ _ _ (by decide))
  have hcount : b.get AUD.CNT_FRAME_ERR_COUNT p = sat32 (d.get AUD.CNT_FRAME_ERR_COUNT p + 1) :=
    (get_setDir tx (by cases tx <;> decide) ..).trans ((get_set_off _ _ _ _ _ _ (by decide)).trans (count_get _ _ _ rfl rfl))
  cases tx
  · rw [if_neg Bool.false_ne_true, audDir_setAud_self, get_setAud, get_setAud]
    exact ⟨hsync, hevent, hcount⟩
  · exact ⟨hsync, hevent, hcount⟩

theorem unlockPort_others {q : Nat} (h : p ≠ q) : PortKept q d (unlockPort d p) :=
  .ite _ (((PortKept.set h _ _ _).trans (.set h _ _ _)).trans (.setAud h _ _)) (.refl d)

theorem srcUnlock_frames : FrameKept tx d (d.srcUnlock l) := by
  refine .foldl _ (fun d p => .ite _ ?_ (.refl d)) _ _
  exact ((FrameKept.set _ _ _ _ (by decide)).trans (.set _ _ _ _ (by decide))).trans (.setAud _ _ _ (by cases tx <;> rfl))

theorem frameError_eq : d.frameError l tx =
    let e := ((d.toggle 23 l 26).audGang l).foldl (errorPort tx) (d.toggle 23 l 26)
    if !tx && decide (3 ≤ (e.audPort l).errs) then e.srcUnlock l else e := (rfl)

/-- A frame error is counted on every port of the gang, and loses the step there. -/
theorem frameError_loses : ∀ q ∈ d.audGang l, ((d.frameError l tx).audDir q tx).sync = false ∧
    (d.frameError l tx).get AUD.EVT_STAT_FRAME_ERR q = 1 ∧
    (d.frameError l tx).get AUD.CNT_FRAME_ERR_COUNT q = sat32 (d.get AUD.CNT_FRAME_ERR_COUNT q + 1) := by
  intro q hq
  rw [← audGang_congr (d.toggle_same (by decide) 23 l 26)] at hq
  obtain ⟨c, hc, hend⟩ := PortKept.foldl_visits (fun d p => errorPort_others d p tx) _ (audGang_nodup _ l) hq (d.toggle 23 l 26)
  have hcount : c.get AUD.CNT_FRAME_ERR_COUNT q = d.get AUD.CNT_FRAME_ERR_COUNT q := (hc.get _).trans (toggle_same (by decide) d _ _ _ q)
  obtain ⟨hsync, hevent, herrors⟩ := c.errorPort_shows q tx
  rw [frameError_eq]
  extract_lets e
  have hkept : FrameKept tx e (if !tx && decide (3 ≤ (e.audPort l).errs) then e.srcUnlock l else e) :=
    .ite _ (e.srcUnlock_frames l tx) (.refl e)
  rw [hkept.sync, hkept.event, hkept.errors, hend.dir, hend.get, hend.get, ← hcount]
  exact ⟨hsync, hevent, herrors⟩

/-! ## The rate converter (R304) -/

/-- A converter that leaves LOCKED is in ACQ, and reported. -/
theorem srcUnlock_unlocks : ∀ q ∈ d.audGang l, d.get AUD.SRC_STAT_STATE q = 2 →
    (d.srcUnlock l).get AUD.SRC_STAT_STATE q = 1 ∧ (d.srcUnlock l).get AUD.EVT_STAT_SRC_UNLOCK q = 1 := by
  intro q hq hs
  obtain ⟨e, he, hend⟩ := PortKept.foldl_visits (fun d p => unlockPort_others d p) _ (d.audGang_nodup l) hq d
  rw [srcUnlock_eq, hend.get, hend.get, unlockPort, if_pos ((he.get _).trans hs), get_setAud, get_setAud]
  exact ⟨(get_set_off _ _ _ _ _ _ (by decide)).trans (get_set_self _ _ _ _ (by decide)), get_set_self _ _ _ _ (by decide)⟩

theorem lockPort_others {q : Nat} (h : p ≠ q) : PortKept q d (lockPort d p) :=
  ((PortKept.set h _ _ _).trans (.set h _ _ _)).trans (.setAud h _ _)

theorem foldl_lockPort_locks : ∀ q ∈ d.audGang l, ((d.audGang l).foldl lockPort d).get AUD.SRC_STAT_STATE q = 2 ∧
    ((d.audGang l).foldl lockPort d).get AUD.EVT_STAT_SRC_LOCK q = 1 := by
  intro q hq
  obtain ⟨e, -, hend⟩ := PortKept.foldl_visits (fun d p => lockPort_others d p) _ (d.audGang_nodup l) hq d
  rw [hend.get, hend.get, lockPort, get_setAud, get_setAud]
  exact ⟨(get_set_off _ _ _ _ _ _ (by decide)).trans (get_set_self _ _ _ _ (by decide)), get_set_self _ _ _ _ (by decide)⟩

/-! ### The frame sync's arrival -/

/-- The block that has seen a frame sync: a receiver's last one is timed. -/
def syncSeen : Dev := d.when (!tx) (·.mark .frameSync l)

theorem syncSeen_regs : (d.syncSeen l tx).regs = d.regs := by cases tx <;> rfl

theorem syncSeen_aud : (d.syncSeen l tx).aud = d.aud := by cases tx <;> rfl

theorem syncSeen_gang : (d.syncSeen l tx).audGang l = d.audGang l := audGang_congr (.of_regs (d.syncSeen_regs l tx)) l

variable {d l tx} {clocks : Nat} (rate : Nat) (frames : List (List Bool))

theorem frameSync_eq (hl : d.audLead l = l) (hr : d.audRuns l tx = true) (hv : d.audSlave l tx = true) :
    d.frameSync l tx clocks rate frames =
      if (d.audDir l tx).sync = false then (d.syncSeen l tx).frameBegin l tx
      else if clocks = d.audClocks l tx then
        (if tx then d.syncSeen l tx else (d.syncSeen l tx).frameTake l rate frames).frameBegin l tx
      else (d.syncSeen l tx).frameError l tx := by
  have hdir : (d.syncSeen l tx).audDir l tx = d.audDir l tx := by rw [audDir_eq, audDir_eq, audPort_of_aud (d.syncSeen_aud l tx)]
  have hclk : (d.syncSeen l tx).audClocks l tx = d.audClocks l tx := by cases tx <;> rfl
  have h : d.frameSync l tx clocks rate frames =
      if (decide (d.audLead l = l) && d.audRuns l tx && d.audSlave l tx) = true then
        if (!((d.syncSeen l tx).audDir l tx).sync) = true then (d.syncSeen l tx).frameBegin l tx
        else if clocks = (d.syncSeen l tx).audClocks l tx then
          (if tx then d.syncSeen l tx else (d.syncSeen l tx).frameTake l rate frames).frameBegin l tx
        else (d.syncSeen l tx).frameError l tx
      else d := (rfl)
  rw [h, if_pos (by simp [hl, hr, hv]), hdir, hclk]
  simp

end

end Dev

theorem exec_frameSyncRx (p : Port) (tx : Bool) (clocks rate : Nat) (frames : List (List Bool)) (s : State) :
    exec (.frameSyncRx p tx clocks rate frames) s = s.go (·.frameSync p tx clocks rate frames) := rfl

theorem exec_frameSyncMissing (p : Port) (tx : Bool) (s : State) : exec (.frameSyncMissing p tx) s = s.go fun d =>
    if d.audLead p = p && d.audRuns p tx && d.audSlave p tx && (d.audDir p tx).sync then
      (d.frameError p tx).when (!tx) fun d => (d.audGang p).foldl (fun d q => d.set AUD.SRC_STAT_RATE 0 q) d
    else d := rfl

theorem exec_srcLock (p : Port) (s : State) : exec (.srcLock p) s = s.go fun d =>
    if d.audLead p = p && d.get AUD.SRC_STAT_STATE p = 1 && 64 ≤ (d.audPort p).good && 30000 ≤ d.get AUD.SRC_STAT_RATE p &&
        d.get AUD.SRC_STAT_RATE p ≤ 100000 && d.lasted .srcRate p 100000000 then
      (d.audGang p).foldl Dev.lockPort d
    else d := rfl

theorem exec_srcUnlock (p : Port) (s : State) : exec (.srcUnlock p) s = s.go fun d =>
    if d.audLead p = p && d.lasted .frameSync p (8000000000 / max 1 (d.audPort p).base) then d.srcUnlock p else d := rfl

section
variable {p : Port} {tx : Bool} {s : State}

theorem runsTo_frameSyncRx_syncs (clocks rate : Nat) (frames : List (List Bool)) (hl : s.dev.audLead p = p)
    (hr : s.dev.audRuns p tx = true) (hv : s.dev.audSlave p tx = true) (hs : (s.dev.audDir p tx).sync = false) :
    RunsTo (.frameSyncRx p tx clocks rate frames) s fun d => ∀ q ∈ s.dev.audGang p, (d.audDir q tx).sync = true := by
  refine runsTo_go (exec_frameSyncRx p tx clocks rate frames s) ((Dev.frameSync_eq rate frames hl hr hv).trans (if_pos hs)) ?_
  rw [← s.dev.syncSeen_gang p tx]
  exact Dev.frameBegin_syncs _ _ _

theorem runsTo_frameSyncRx_errs {clocks : Nat} (rate : Nat) (frames : List (List Bool)) (hl : s.dev.audLead p = p)
    (hr : s.dev.audRuns p tx = true) (hv : s.dev.audSlave p tx = true) (hs : (s.dev.audDir p tx).sync = true)
    (hc : clocks ≠ s.dev.audClocks p tx) : RunsTo (.frameSyncRx p tx clocks rate frames) s fun d => ∀ q ∈ s.dev.audGang p,
      (d.audDir q tx).sync = false ∧ d.get AUD.EVT_STAT_FRAME_ERR q = 1 ∧
      d.get AUD.CNT_FRAME_ERR_COUNT q = sat32 (s.dev.get AUD.CNT_FRAME_ERR_COUNT q + 1) := by
  refine runsTo_go (exec_frameSyncRx p tx clocks rate frames s)
    ((Dev.frameSync_eq rate frames hl hr hv).trans ((if_neg (by simp [hs])).trans (if_neg hc))) ?_
  rw [← s.dev.syncSeen_gang p tx]
  intro q hq
  rw [← SameFld.of_regs (f := AUD.CNT_FRAME_ERR_COUNT) (s.dev.syncSeen_regs p tx) q]
  exact Dev.frameError_loses _ _ _ q hq

theorem runsTo_frameSyncMissing (hl : s.dev.audLead p = p) (hr : s.dev.audRuns p tx = true) (hv : s.dev.audSlave p tx = true)
    (hs : (s.dev.audDir p tx).sync = true) : RunsTo (.frameSyncMissing p tx) s fun d => ∀ q ∈ s.dev.audGang p,
      (d.audDir q tx).sync = false ∧ d.get AUD.EVT_STAT_FRAME_ERR q = 1 ∧
      d.get AUD.CNT_FRAME_ERR_COUNT q = sat32 (s.dev.get AUD.CNT_FRAME_ERR_COUNT q + 1) := by
  refine runsTo_go (exec_frameSyncMissing p tx s) (if_pos (by simp [hl, hr, hv, hs])) fun q hq => ?_
  have hrate (e : Dev) : FrameKept tx e (e.when (!tx) fun d => (d.audGang p).foldl (fun d q => d.set AUD.SRC_STAT_RATE 0 q) d) :=
    .when _ _ (.foldl _ (fun d q => .set d _ _ _ (by decide)) _ _)
  rw [(hrate _).sync, (hrate _).event, (hrate _).errors]
  exact s.dev.frameError_loses p tx q hq

theorem runsTo_srcLock (hl : s.dev.audLead p = p) (hs : s.dev.get AUD.SRC_STAT_STATE p = 1) (hg : 64 ≤ (s.dev.audPort p).good)
    (hlo : 30000 ≤ s.dev.get AUD.SRC_STAT_RATE p) (hhi : s.dev.get AUD.SRC_STAT_RATE p ≤ 100000)
    (ht : s.dev.lasted .srcRate p 100000000 = true) : RunsTo (.srcLock p) s fun d => ∀ q ∈ s.dev.audGang p,
      d.get AUD.SRC_STAT_STATE q = 2 ∧ d.get AUD.EVT_STAT_SRC_LOCK q = 1 :=
  runsTo_go (exec_srcLock p s) (if_pos (by simp [hl, hs, hg, hlo, hhi, ht])) (s.dev.foldl_lockPort_locks p)

theorem runsTo_srcLock_early (ht : s.dev.lasted .srcRate p 100000000 = false) : RunsTo (.srcLock p) s fun d => d = s.dev :=
  runsTo_go (exec_srcLock p s) (if_neg (by simp [ht])) rfl

theorem runsTo_srcUnlock (hl : s.dev.audLead p = p)
    (ht : s.dev.lasted .frameSync p (8000000000 / max 1 (s.dev.audPort p).base) = true) :
    RunsTo (.srcUnlock p) s fun d => ∀ q ∈ s.dev.audGang p, s.dev.get AUD.SRC_STAT_STATE q = 2 →
      d.get AUD.SRC_STAT_STATE q = 1 ∧ d.get AUD.EVT_STAT_SRC_UNLOCK q = 1 :=
  runsTo_go (exec_srcUnlock p s) (if_pos (by simp [hl, ht])) (s.dev.srcUnlock_unlocks p)

theorem runsTo_srcUnlock_early (ht : s.dev.lasted .frameSync p (8000000000 / max 1 (s.dev.audPort p).base) = false) :
    RunsTo (.srcUnlock p) s fun d => d = s.dev :=
  runsTo_go (exec_srcUnlock p s) (if_neg (by simp [ht])) rfl

end

/-- Settles O23: work on one port of a gang leaves every other as it was (`PortKept`), so each port ends as the work on it left it
(`PortKept.foldl_visits`); what follows a frame sync leaves the step and the frame errors alone (`FrameKept`). That the lead's frame error
counts on the whole gang is log 59. -/
theorem audioPorts : Obligations.AudioPorts :=
  ⟨⟨fun _ tx _ => ⟨runsTo_audioDirectionEnable_due tx, regsTo_audioDirectionEnable_refuses tx, runsTo_audioDirectionEnable_stops tx,
        regsTo_audioDirectionEnable_member tx⟩,
      fun d p tx => d.audStart_starts p tx⟩,
    fun _ _ _ hl => ⟨fun hr hv => ⟨fun clocks rate frames => runsTo_frameSyncRx_syncs clocks rate frames hl hr hv,
        fun _ rate frames => runsTo_frameSyncRx_errs rate frames hl hr hv, runsTo_frameSyncMissing hl hr hv⟩,
      runsTo_srcLock hl, runsTo_srcLock_early, runsTo_srcUnlock hl, runsTo_srcUnlock_early⟩⟩

end Sys2Proof.Machine
end

section
/-!
Proofs, the Chronometer (R315 to R320): two's complement and values of 48 bits, one core-clock cycle, the steps of the time counter, and
INCR within its limits.
-/

namespace Sys2Proof.Machine

/-! ## Two's complement -/

theorem toSigned_bounds {n : Nat} (hn : 0 < n) (v : Nat) :
    -((2 ^ (n - 1) : Nat) : Int) ≤ toSigned n v ∧ toSigned n v < (2 ^ (n - 1) : Nat) := by
  have hp := Nat.two_pow_pred_add_two_pow_pred hn
  have hv : v % 2 ^ n < 2 ^ n := Nat.mod_lt _ (Nat.two_pow_pos n)
  unfold toSigned
  dsimp only
  split <;> omega

/-- A value in the range of `n` bits is what its code reads as. -/
theorem toSigned_ofSigned {n : Nat} {v : Int} (hn : 0 < n) (hlo : -((2 ^ (n - 1) : Nat) : Int) ≤ v) (hhi : v < (2 ^ (n - 1) : Nat)) :
    toSigned n (ofSigned n v) = v := by
  have hp := Nat.two_pow_pred_add_two_pow_pred hn
  have hmod : ofSigned n v % 2 ^ n = ofSigned n v := Nat.mod_eq_of_lt (by unfold ofSigned; omega)
  unfold toSigned
  rw [hmod]
  rcases Int.lt_or_le v 0 with hneg | hpos
  · have hc : v % (2 ^ n : Nat) = v + (2 ^ n : Nat) := by
      rw [← Int.add_emod_right, Int.emod_eq_of_lt (by omega) (by omega)]
    have : (ofSigned n v : Int) = v + (2 ^ n : Nat) := by unfold ofSigned; omega
    dsimp only
    split <;> omega
  · have hc : v % (2 ^ n : Nat) = v := Int.emod_eq_of_lt hpos (by omega)
    have : (ofSigned n v : Int) = v := by unfold ofSigned; omega
    dsimp only
    split <;> omega

theorem ofSigned_lt (n : Nat) (v : Int) : ofSigned n v < 2 ^ n := by
  have hp := Nat.two_pow_pos n
  have h := Int.emod_lt_of_pos v (Int.natCast_pos.2 hp)
  unfold ofSigned
  omega

namespace Dev

/-! ## Values of 48 bits -/

theorem get_lt (d : Dev) (f : Fld) (ch : Nat) : d.get f ch < 2 ^ f.w := bitsOf_lt _ _ _

/-- A low and a high register of 32 and 16 bits. -/
abbrev Split48 (lo hi : Fld) : Prop := (lo.lo = 0 ∧ lo.w = 32) ∧ (hi.lo = 0 ∧ hi.w = 16) ∧ lo.off ≠ hi.off

theorem get2_lt (d : Dev) {lo hi : Fld} (h : Split48 lo hi) (ch : Nat) : d.get2 lo hi ch < 2 ^ 48 := by
  obtain ⟨⟨-, hl⟩, ⟨-, hh⟩, -⟩ := h
  have hlo := d.get_lt lo ch
  have hhi := d.get_lt hi ch
  rw [hl] at hlo
  rw [hh] at hhi
  unfold get2
  omega

theorem get2_set2_lt (d : Dev) {lo hi : Fld} (h : Split48 lo hi) (ch : Nat) {v : Nat} (hv : v < 2 ^ 48) :
    (d.set2 lo hi v ch).get2 lo hi ch = v := by
  obtain ⟨⟨hl, hlw⟩, ⟨hh, hhw⟩, ho⟩ := h
  have hlo : (d.set2 lo hi v ch).get lo ch = v % 2 ^ 32 := by
    rw [set2, get_set_off _ _ _ _ _ _ ho, get_set_self _ _ _ _ (by omega), hlw]
  have hhi : (d.set2 lo hi v ch).get hi ch = v / 2 ^ 32 % 2 ^ 16 := by
    rw [set2, get_set_self _ _ _ _ (by omega), hhw]
  rw [get2, hlo, hhi]
  omega

/-! ## One core-clock cycle (R315) -/

/-- The counts of cycles go on. -/
def ccPassed (d : Dev) : Dev := { d with cc := d.cc + 1, aclk := if (d.cc + 1) % 32 = 0 then (d.aclk + 1) % 2 ^ 48 else d.aclk }

/-- The time counter goes on where the synthesised clocks run. -/
def ccTimed (d : Dev) : Dev := if d.inReset || !d.flag GLB.CLK_STAT_SYS_LOCK then d else d.timeTick

theorem idle_eq (d : Dev) : d.idle = d.ccTimed.ccPassed := by rw [idle, ccTimed, ccPassed]

/-- A cycle of the time counter changes the time, RES and what goes with them. -/
theorem timeTick_only (d : Dev) : ∃ t p x r a, d.timeTick = { d with time := t, prevTime := p, stepped := x, res := r, resAcc := a } :=
  ⟨_, _, _, _, _, rfl⟩

theorem ccTimed_keeps (d : Dev) : d.ccTimed.regs = d.regs ∧ d.ccTimed.cc = d.cc ∧ d.ccTimed.aclk = d.aclk := by
  unfold ccTimed
  split
  · exact ⟨rfl, rfl, rfl⟩
  · obtain ⟨t, p, x, r, a, h⟩ := d.timeTick_only
    exact h ▸ ⟨rfl, rfl, rfl⟩

theorem timeTick_time (d : Dev) : d.timeTick.time = (d.time + d.incr) % (2 ^ 48 * secUnits) := (rfl)

theorem ccTimed_time (d : Dev) : d.ccTimed.time = if d.inReset = true ∨ d.get GLB.CLK_STAT_SYS_LOCK = 0 then d.time
    else (d.time + d.incr) % (2 ^ 48 * secUnits) := by
  rw [ccTimed, apply_ite Dev.time, timeTick_time]
  simp only [flag, Bool.or_eq_true, Bool.not_eq_true', bne_eq_false_iff_eq]

theorem idle_time (d : Dev) : d.idle.time = if d.inReset = true ∨ d.get GLB.CLK_STAT_SYS_LOCK = 0 then d.time
    else (d.time + d.incr) % (2 ^ 48 * secUnits) := by
  rw [idle_eq, ← ccTimed_time, ccPassed]

theorem idle_cc (d : Dev) : d.idle.cc = d.cc + 1 := by rw [idle_eq, ccPassed, d.ccTimed_keeps.2.1]

theorem idle_aclk (d : Dev) : d.idle.aclk = if (d.cc + 1) % 32 = 0 then (d.aclk + 1) % 2 ^ 48 else d.aclk := by
  obtain ⟨-, hcc, haclk⟩ := d.ccTimed_keeps
  rw [idle_eq, ccPassed, hcc, haclk]

theorem idle_regs (d : Dev) : d.idle.regs = d.regs := d.ccTimed_keeps.1

/-! ## Steps (R318, R320) -/

theorem stepTo_time (d : Dev) (t : Int) : ((d.stepTo t).time : Int) = t % (2 ^ 48 * secUnits : Nat) :=
  Int.toNat_of_nonneg (Int.emod_nonneg t (by unfold secUnits; omega))

/-- RES takes the size of the step where it absorbs it. -/
theorem stepTo_res (d : Dev) (t : Int) : (d.stepTo t).res =
    d.res + if d.flag TIM.CTL_SLEW && d.cadInUse then (t - d.time) / 2 ^ 24 else 0 := by
  show (if d.flag TIM.CTL_SLEW && d.cadInUse then d.res + (t - d.time) / 2 ^ 24 else d.res) = _
  split
  · rfl
  · exact (Int.add_zero _).symm

theorem stepTo_event (d : Dev) (t : Int) : (d.stepTo t).get TIM.EVT_STAT_STEP = 1 := get_set_self _ _ _ _ (by decide)

theorem stepTo_count (d : Dev) (t : Int) : (d.stepTo t).get TIM.CNT_STEP_COUNT = sat32 (d.get TIM.CNT_STEP_COUNT + 1) :=
  (get_set_apart (by decide) ..).trans (count_get _ _ _ rfl rfl)

theorem timeSet_refuses {d : Dev} (h : 1000000000 ≤ d.get TIM.SET_NS_NS) : d.timeSet = d.raise TIM.EVT_STAT_STEP_ERR := if_pos h

/-- The instant that SET loads. -/
def setTime (d : Dev) : Nat := (d.get2 TIM.SET_SEC_LO_SEC_L TIM.SET_SEC_HI_SEC_H * 1000000000 + d.get TIM.SET_NS_NS) * 2 ^ 40

theorem timeSet_steps {d : Dev} (h : d.get TIM.SET_NS_NS < 1000000000) :
    d.timeSet = (d.stepTo d.setTime).raise TIM.SRV_STAT_TIME_VALID := if_neg (Nat.not_le.2 h)

/-- The counter takes the instant of SET whole, since SEC has 48 bits. -/
theorem stepTo_setTime {d : Dev} (h : d.get TIM.SET_NS_NS < 1000000000) : (d.stepTo d.setTime).time = d.setTime := by
  have hsec := d.get2_lt (lo := TIM.SET_SEC_LO_SEC_L) (hi := TIM.SET_SEC_HI_SEC_H) (by decide) 0
  have hlt : d.setTime < 2 ^ 48 * secUnits := by
    unfold setTime secUnits
    omega
  have ht := d.stepTo_time d.setTime
  rw [Int.emod_eq_of_lt (Int.natCast_nonneg _) (Int.ofNat_lt.2 hlt)] at ht
  exact Int.ofNat.inj ht

end Dev

/-! ## INCR (R316) -/

/-- INCR clamped to 1,000 ppm around a nominal value: the limits rounded inwards (log 60). -/
def clampIncr (n : Nat) (v : Int) : Nat :=
  if v < ((n * 999 + 999) / 1000 : Nat) then (n * 999 + 999) / 1000 else if v > (n * 1001 / 1000 : Nat) then n * 1001 / 1000 else v.toNat

theorem clampIncr_bounds (n : Nat) (v : Int) : n * 999 ≤ clampIncr n v * 1000 ∧ clampIncr n v * 1000 ≤ n * 1001 := by
  have hfloor : (n * 999 + 999) / 1000 ≤ n := by omega
  have hceil : n ≤ n * 1001 / 1000 := by omega
  unfold clampIncr
  split
  · omega
  · split <;> omega

theorem clampIncr_within {n w : Nat} (hlo : n * 999 ≤ w * 1000) (hhi : w * 1000 ≤ n * 1001) : clampIncr n w = w := by
  unfold clampIncr
  rw [if_neg (by omega), if_neg (by omega), Int.toNat_natCast]

namespace Dev

theorem setIncr_incr {d : Dev} (h : d.incrNom * 1001 / 1000 < 2 ^ 48) (v : Int) : (d.setIncr v).incr = clampIncr d.incrNom v := by
  have hb := clampIncr_bounds d.incrNom v
  have hlt : clampIncr d.incrNom v < 2 ^ 48 := by omega
  exact get2_set2_lt d (by decide) 0 hlt

/-- One of the two registers of INCR written. -/
def incrPut (d : Dev) (hi : Bool) (v : Word) : Dev :=
  if hi then d.set TIM.INCR_HI_INCR_H v.toNat else d.set TIM.INCR_LO_INCR_L v.toNat

theorem incrPut_only (d : Dev) (hi : Bool) (v : Word) : OnlyRegs d (d.incrPut hi v) := by
  cases hi
  · exact .set ..
  · exact .set ..

theorem incrPut_kept (d : Dev) (hi : Bool) (v : Word) : RegsKept d (d.incrPut hi v) [(0x00020030, 0), (0x00020034, 0)] := by
  cases hi
  · exact .set d TIM.INCR_LO_INCR_L _ 0 (by decide)
  · exact .set d TIM.INCR_HI_INCR_H _ 0 (by decide)

theorem incrPut_nom (d : Dev) (hi : Bool) (v : Word) : (d.incrPut hi v).incrNom = d.incrNom :=
  (d.incrPut_kept hi v).get2 _ _ _ (by decide) (by decide)

/-- The value that a write of one register gives. -/
theorem incrPut_incr (d : Dev) (hi : Bool) (v : Word) : (d.incrPut hi v).incr =
    if hi then d.get TIM.INCR_LO_INCR_L + v.toNat % 2 ^ 16 * 2 ^ 32 else v.toNat + d.get TIM.INCR_HI_INCR_H * 2 ^ 32 := by
  cases hi
  · have hlo : (d.set TIM.INCR_LO_INCR_L v.toNat).get TIM.INCR_LO_INCR_L = v.toNat :=
      (get_set_self _ _ _ _ (by decide)).trans (Nat.mod_eq_of_lt v.isLt)
    have hhi : (d.set TIM.INCR_LO_INCR_L v.toNat).get TIM.INCR_HI_INCR_H = d.get TIM.INCR_HI_INCR_H := get_set_apart (by decide) ..
    exact congrArg₂ (· + · * 2 ^ 32) hlo hhi
  · have hlo : (d.set TIM.INCR_HI_INCR_H v.toNat).get TIM.INCR_LO_INCR_L = d.get TIM.INCR_LO_INCR_L := get_set_apart (by decide) ..
    have hhi : (d.set TIM.INCR_HI_INCR_H v.toNat).get TIM.INCR_HI_INCR_H = v.toNat % 2 ^ 16 := get_set_self _ _ _ _ (by decide)
    exact congrArg₂ (· + · * 2 ^ 32) hlo hhi

end Dev

/-! ## The commands -/

theorem exec_timeSet (s : State) : exec .timeSet s = s.go (·.timeSet) := rfl

theorem exec_timeAdj (s : State) : exec .timeAdj s = s.go (·.timeAdj) := rfl

theorem exec_cadSnap (s : State) : exec .cadSnap s = s.go fun d => { d with res := 0, resAcc := 0 }.raise TIM.EVT_STAT_SNAP := rfl

theorem exec_incrWrite (hi : Bool) (v : Word) (s : State) : exec (.incrWrite hi v) s =
    s.go fun d => (d.incrPut hi v).setIncr (d.incrPut hi v).incr := rfl

section
variable {s : State}

theorem regsTo_timeSet_refuses (h : 1000000000 ≤ s.dev.get TIM.SET_NS_NS) : RegsTo .timeSet s fun d =>
    d.get TIM.EVT_STAT_STEP_ERR = 1 ∧ RegsKept s.dev d [(0x00020004, 0)] := by
  have heq := Dev.timeSet_refuses h
  exact regsTo_go (exec_timeSet s) (heq ▸ .raise ..)
    (heq ▸ ⟨Dev.get_set_self _ _ _ _ (by decide), .raise s.dev TIM.EVT_STAT_STEP_ERR 0 (.head _)⟩)

theorem runsTo_timeSet (h : s.dev.get TIM.SET_NS_NS < 1000000000) : RunsTo .timeSet s fun d =>
    d.time = (s.dev.get2 TIM.SET_SEC_LO_SEC_L TIM.SET_SEC_HI_SEC_H * 1000000000 + s.dev.get TIM.SET_NS_NS) * 2 ^ 40 ∧
    d.get TIM.SRV_STAT_TIME_VALID = 1 ∧ d.get TIM.EVT_STAT_STEP = 1 ∧
    d.get TIM.CNT_STEP_COUNT = sat32 (s.dev.get TIM.CNT_STEP_COUNT + 1) ∧
    d.res = s.dev.res + (if s.dev.flag TIM.CTL_SLEW && s.dev.cadInUse then ((d.time : Int) - s.dev.time) / 2 ^ 24 else 0) := by
  have ht := Dev.stepTo_setTime h
  refine runsTo_go (exec_timeSet s) (Dev.timeSet_steps h) ⟨ht, Dev.get_set_self _ _ _ _ (by decide),
    (Dev.get_set_apart (by decide) ..).trans (Dev.stepTo_event ..), (Dev.get_set_apart (by decide) ..).trans (Dev.stepTo_count ..), ?_⟩
  rw [(OnlyRegs.raise ..).get_res, (OnlyRegs.raise ..).get_time, ht]
  exact Dev.stepTo_res ..

theorem runsTo_timeAdj (s : State) : RunsTo .timeAdj s fun d =>
    (d.time : Int) = (s.dev.time + toSigned 32 (s.dev.get TIM.ADJ_NS) * 2 ^ 40) % (2 ^ 48 * secUnits : Nat) ∧
    d.get TIM.EVT_STAT_STEP = 1 ∧ d.get TIM.CNT_STEP_COUNT = sat32 (s.dev.get TIM.CNT_STEP_COUNT + 1) ∧
    d.res = s.dev.res + (if s.dev.flag TIM.CTL_SLEW && s.dev.cadInUse then toSigned 32 (s.dev.get TIM.ADJ_NS) * 2 ^ 16 else 0) := by
  refine runsTo_go (exec_timeAdj s) rfl ⟨Dev.stepTo_time .., Dev.stepTo_event .., Dev.stepTo_count .., ?_⟩
  have hsize (x : Int) : ((s.dev.time : Int) + x * 2 ^ 40 - s.dev.time) / 2 ^ 24 = x * 2 ^ 16 := by omega
  rw [Dev.timeAdj, Dev.stepTo_res, hsize]

theorem runsTo_cadSnap (s : State) : RunsTo .cadSnap s fun d => d.res = 0 ∧ d.time = s.dev.time ∧ d.get TIM.EVT_STAT_SNAP = 1 ∧
    RegsKept s.dev d [(0x00020004, 0)] :=
  runsTo_go (exec_cadSnap s) rfl ⟨rfl, rfl, Dev.get_set_self _ _ _ _ (by decide),
    (RegsKept.of_regs rfl).trans (.raise _ TIM.EVT_STAT_SNAP 0 (.head _))⟩

theorem regsTo_incrWrite (hi : Bool) (v : Word) (h : s.dev.incrNom * 1001 / 1000 < 2 ^ 48) : RegsTo (.incrWrite hi v) s fun d =>
    s.dev.incrNom * 999 ≤ d.incr * 1000 ∧ d.incr * 1000 ≤ s.dev.incrNom * 1001 ∧
    (∀ w, w = (if hi then s.dev.get TIM.INCR_LO_INCR_L + v.toNat % 2 ^ 16 * 2 ^ 32
        else v.toNat + s.dev.get TIM.INCR_HI_INCR_H * 2 ^ 32) →
      s.dev.incrNom * 999 ≤ w * 1000 → w * 1000 ≤ s.dev.incrNom * 1001 → d.incr = w) ∧
    RegsKept s.dev d [(0x00020030, 0), (0x00020034, 0)] := by
  have hnom := s.dev.incrPut_nom hi v
  have hincr := Dev.setIncr_incr (hnom.symm ▸ h) (s.dev.incrPut hi v).incr
  rw [hnom] at hincr
  obtain ⟨hlo, hhi⟩ := clampIncr_bounds s.dev.incrNom (s.dev.incrPut hi v).incr
  refine regsTo_go (exec_incrWrite hi v s) ((s.dev.incrPut_only hi v).trans (.set2 ..))
    ⟨hincr ▸ hlo, hincr ▸ hhi, fun w hw hl hu => ?_, (s.dev.incrPut_kept hi v).trans (.set2 _ _ _ _ _ (.head _) (.tail _ (.head _)))⟩
  rw [hincr, Dev.incrPut_incr, ← hw, clampIncr_within hl hu]

end

/-- Settles O24: every step goes through `stepTo`, and SET's instant fits the counter since SEC has 48 bits; INCR's limits, rounded inwards,
enclose the nominal value. That RES takes a step of SET rounded down to 2^-16 ns is log 60. -/
theorem chronometer : Obligations.Chronometer :=
  ⟨fun s => ⟨regsTo_timeSet_refuses, runsTo_timeSet, runsTo_timeAdj s, runsTo_cadSnap s⟩, fun hi v _ => regsTo_incrWrite hi v⟩

theorem step_idle {s : State} (h : s.pending = []) : step s = .next { s with dev := s.dev.idle } := by rw [step, h]

/-- Settles O56: the time counter and the counts of cycles are outside the registers. -/
theorem idleCycle : Obligations.IdleCycle := fun s h =>
  ⟨s.dev.idle, step_idle h, s.dev.idle_cc, .of_regs s.dev.idle_regs, s.dev.idle_time, s.dev.idle_aclk⟩

end Sys2Proof.Machine
end

section
/-!
Proofs, cadence frame starts (R331) and the general triggers (R334): a delivery, a firing with what it notes, and the instant that a
periodic trigger moves on to.
-/

namespace Sys2Proof.Machine

namespace Dev

/-! ## Cadence frame starts (R331) -/

/-- A pulse at a toggle crossing leaves the time and the frame starts delivered. -/
theorem toggle_cadence (d : Dev) (x unit most : Nat) :
    (d.toggle x unit most).cadLast = d.cadLast ∧ (d.toggle x unit most).time = d.time := by
  unfold toggle
  extract_lets p merged r q
  cases merged
  · exact ⟨rfl, rfl⟩
  · exact ⟨rfl, rfl⟩

/-- Frame start k of a cadence counts as delivered. -/
def cadDelivered (d : Dev) (c : Nat) (k : Int) : Dev := { d with cadLast := mapPut d.cadLast (c, 0) (-1) k }

/-- The engines that run on a cadence see its frame start. -/
def cadToggled (d : Dev) (c : Nat) : Dev :=
  ((d.flagSet PLT.ENG_STAT_RUN).filter fun e => d.get PLT.ENG_CFG_CAD e == c).foldl (fun d e => d.toggle 17 e 5) d

theorem cadFrame_eq (d : Dev) (c : Nat) : d.cadFrame c = if mapGet d.cadLast (c, 0) (-1) < d.cadIndex c then
    ((d.cadDelivered c (d.cadIndex c)).logAdd (1706 + c) 1).cadToggled c else d := (rfl)

theorem cadToggled_keeps (d : Dev) (c : Nat) : (d.cadToggled c).cadLast = d.cadLast ∧ (d.cadToggled c).time = d.time :=
  List.foldlRecOn (motive := fun e : Dev => e.cadLast = d.cadLast ∧ e.time = d.time) _ _ ⟨rfl, rfl⟩ fun e he x _ =>
    ⟨(e.toggle_cadence 17 x 5).1.trans he.1, (e.toggle_cadence 17 x 5).2.trans he.2⟩

theorem cadFrame_delivers {d : Dev} {c : Nat} (h : mapGet d.cadLast (c, 0) (-1) < d.cadIndex c) :
    mapGet (d.cadFrame c).cadLast (c, 0) (-1) = d.cadIndex c ∧ (d.cadFrame c).time = d.time := by
  have hlog := OnlyRegs.logAdd (d.cadDelivered c (d.cadIndex c)) (1706 + c) 1
  rw [cadFrame_eq, if_pos h, (cadToggled_keeps ..).1, (cadToggled_keeps ..).2, hlog.get_cadLast, hlog.get_time]
  exact ⟨mapGet_mapPut_self .., rfl⟩

theorem cadFrame_waits {d : Dev} {c : Nat} (h : d.cadIndex c ≤ mapGet d.cadLast (c, 0) (-1)) : d.cadFrame c = d :=
  if_neg (Int.not_lt.2 h)

/-! ## What a trigger does in the Logbook (R488, R489) -/

/-- The Chronometer's registers read as before. -/
abbrev TimStands (d e : Dev) : Prop := SameRegs 0x00020000 0x00030000 d e

theorem logSnap_tim (d : Dev) : TimStands d d.logSnap := by
  have hset (e : Dev) (f : Fld) (v ch : Nat) (h : 0x00030000 ≤ f.off) : TimStands e (e.set f v ch) := .set e f v ch (.inr h)
  have hbank (l : List Nat) (e : Dev) : TimStands e (l.foldl (fun d i =>
      (d.set LOG.SNAP_LO_SNAP_L (d.get LOG.CTR_LO_COUNT_L i) i).set LOG.SNAP_HI_SNAP_H (d.get LOG.CTR_HI_COUNT_H i) i) e) :=
    .foldl _ (fun d i => (hset d LOG.SNAP_LO_SNAP_L _ i (by decide)).trans (hset _ LOG.SNAP_HI_SNAP_H _ i (by decide))) l e
  unfold logSnap
  extract_lets a b
  have hb : TimStands a b := (hset a LOG.SNAP_SEQ_SEQ _ 0 (by decide)).trans (hset _ LOG.SNAP_NS_NS _ 0 (by decide))
  have hsec : TimStands b (b.set2 LOG.SNAP_SEC_LO_SEC_L LOG.SNAP_SEC_HI_SEC_H b.timeSec) :=
    (hset b LOG.SNAP_SEC_LO_SEC_L _ 0 (by decide)).trans (hset _ LOG.SNAP_SEC_HI_SEC_H _ 0 (by decide))
  exact (((hbank _ d).trans hb).trans hsec).trans (.raise _ _ _ (by decide))

theorem windowHold_regs (d : Dev) (on : Bool) : (d.windowHold on).regs = d.regs := by
  cases on
  · rfl
  · rfl

theorem logFreeze_tim (d : Dev) (on : Bool) : TimStands d (d.logFreeze on) := by
  unfold logFreeze
  extract_lets was e
  have he : TimStands d e := .when d _ _ (.of_regs (d.windowHold_regs on))
  exact ((he.trans (.put _ LOG.CTL_FREEZE _ _ (by decide))).trans (.put _ LOG.STAT_FROZEN _ _ (by decide))).trans
    (.raiseIf _ _ LOG.BLK_EVT_FROZEN_ON _ (by decide))

theorem logTrigger_tim (d : Dev) (n : Nat) : TimStands d (d.logTrigger n) :=
  (SameRegs.when d _ logSnap d.logSnap_tim).trans (.when _ _ _ (logFreeze_tim _ true))

end Dev

/-! ## The instant of a periodic trigger (R334) -/

/-- The first of the instants t + j × p behind `now`. -/
def nextInstant (t p now : Nat) : Nat := t + ((now - t) / p + 1) * p

theorem nextInstant_first {t p now : Nat} (hp : 0 < p) (h : t ≤ now) :
    now < nextInstant t p now ∧ nextInstant t p now ≤ now + p ∧ (nextInstant t p now - t) % p = 0 := by
  have hdiv := Nat.div_add_mod (now - t) p
  have hmod := Nat.mod_lt (now - t) hp
  have hnext : nextInstant t p now = t + (p * ((now - t) / p) + p) := by
    rw [nextInstant, Nat.add_mul, Nat.one_mul, Nat.mul_comm]
  refine ⟨by omega, by omega, ?_⟩
  rw [nextInstant, Nat.add_sub_cancel_left, Nat.mul_mod_left]

/-- Instants in whole ns stay so. -/
theorem nextInstant_ns {t p now u : Nat} (ht : u ∣ t) (hp : u ∣ p) : nextInstant t p now / u * u = nextInstant t p now :=
  Nat.div_mul_cancel ((Nat.dvd_add_right ht).2 (Nat.dvd_mul_left_of_dvd hp _))

namespace Dev

/-! ## A firing -/

/-- A firing notes its event, and whether it is late. -/
def trigNoted (d : Dev) (n : Nat) (late : Bool) : Dev := (d.putBit TIM.EVT_STAT_TRIG n true).put (TIM.TRIG_SEC_HI_LATE n) late

/-- A trigger's instant set, in ns. -/
def trigSet (d : Dev) (n ns : Nat) : Dev :=
  (d.set (TIM.TRIG_NS_NS n) (ns % 1000000000)).set2 (TIM.TRIG_SEC_LO_SEC_L n) (TIM.TRIG_SEC_HI_SEC_H n) (ns / 1000000000 % 2 ^ 48)

/-- Is a firing late? -/
def trigLate (d : Dev) (n : Nat) : Bool := d.stepped || decide (d.trigTime n ≤ d.prevTime)

/-- A trigger that has fired is disabled, or moves on by whole periods. -/
def trigMoved (d : Dev) (n t : Nat) : Dev :=
  if d.get (TIM.TRIG_PER_PERIOD n) * 2 ^ 40 = 0 then d.put (TIM.TRIG_SEC_HI_EN n) false
  else d.trigSet n (nextInstant t (d.get (TIM.TRIG_PER_PERIOD n) * 2 ^ 40) d.time / 2 ^ 40)

theorem trigFire_due {d : Dev} {n : Nat} (he : d.flag (TIM.TRIG_SEC_HI_EN n) = true) (h : d.trigTime n ≤ d.time) :
    d.trigFire n = ((d.trigNoted n (d.trigLate n)).trigMoved n (d.trigTime n)).logTrigger n :=
  if_pos (by rw [he, decide_eq_true h]; rfl)

theorem trigFire_waits {d : Dev} {n : Nat} (h : d.flag (TIM.TRIG_SEC_HI_EN n) = false ∨ d.time < d.trigTime n) : d.trigFire n = d :=
  if_neg (by rcases h with h | h <;> simp [h])

/-- A bit of a field read after it was set. -/
theorem putBit_testBit (d : Dev) {f : Fld} {i : Nat} (ch : Nat) (hf : f.lo + f.w ≤ 32) (hi : i < f.w) :
    ((d.putBit f i true ch).get f ch).testBit i = true := by
  rw [putBit, get_set_self _ _ _ _ hf, Nat.testBit_mod_two_pow, decide_eq_true hi, Bool.true_and]
  split
  · next h => exact beq_iff_eq.1 h
  · next h => rw [if_pos rfl, Nat.add_comm, Nat.testBit_two_pow_add_eq, eq_false_of_ne_true (mt beq_iff_eq.2 h), Bool.not_false]

theorem trigNoted_only (d : Dev) (n : Nat) (late : Bool) : OnlyRegs d (d.trigNoted n late) := (OnlyRegs.putBit ..).trans (.put ..)

/-- A trigger's instant is a whole number of ns. -/
theorem trigTime_ns (d : Dev) (n : Nat) : 2 ^ 40 ∣ d.trigTime n := Nat.dvd_mul_left ..

theorem trigSet_same {f : Fld} {n : Nat}
    (h : ∀ x ∈ [TIM.TRIG_NS_NS n, TIM.TRIG_SEC_LO_SEC_L n, TIM.TRIG_SEC_HI_SEC_H n], BitsApart f x) (d : Dev) (ns : Nat) :
    SameFld f d (d.trigSet n ns) :=
  ((SameFld.set d _ _ _ (h _ (.head _))).trans (.set _ _ _ _ (h _ (.tail _ (.head _))))).trans
    (.set _ _ _ _ (h _ (.tail _ (.tail _ (.head _)))))

/-- What a trigger shows, and its instant. -/
def trigFlds (n : Nat) : List Fld := [TIM.EVT_STAT_TRIG, TIM.TRIG_SEC_HI_EN n, TIM.TRIG_SEC_HI_LATE n, TIM.TRIG_NS_NS n,
  TIM.TRIG_SEC_LO_SEC_L n, TIM.TRIG_SEC_HI_SEC_H n]

theorem trigFlds_tim : ∀ n : Fin 8, ∀ f ∈ trigFlds n, 0x00020000 ≤ f.off ∧ f.off < 0x00030000 := by decide

section
variable (d : Dev) (n : Fin 8)

theorem trigNoted_event (late : Bool) : ((d.trigNoted n late).get TIM.EVT_STAT_TRIG).testBit n = true := by
  rw [trigNoted, put_eq, get_set_apart (by revert n; decide)]
  exact d.putBit_testBit 0 (by decide) n.isLt

theorem trigNoted_late (late : Bool) : (d.trigNoted n late).get (TIM.TRIG_SEC_HI_LATE n) = b2n late :=
  put_get _ _ _ (by revert n; decide) rfl

theorem trigNoted_en (late : Bool) : (d.trigNoted n late).get (TIM.TRIG_SEC_HI_EN n) = d.get (TIM.TRIG_SEC_HI_EN n) :=
  (get_set_apart (by revert n; decide) ..).trans (get_set_apart (by revert n; decide) ..)

theorem trigNoted_period (late : Bool) : (d.trigNoted n late).get (TIM.TRIG_PER_PERIOD n) = d.get (TIM.TRIG_PER_PERIOD n) :=
  (get_set_apart (by revert n; decide) ..).trans (get_set_apart (by revert n; decide) ..)

/-- A new instant leaves the events and EN. -/
theorem trigSet_status (ns : Nat) : SameFld TIM.EVT_STAT_TRIG d (d.trigSet n ns) ∧ SameFld (TIM.TRIG_SEC_HI_EN n) d (d.trigSet n ns) :=
  ⟨trigSet_same (by revert n; decide) d ns, trigSet_same (by revert n; decide) d ns⟩

theorem trigInstant_apart : Split48 (TIM.TRIG_SEC_LO_SEC_L n) (TIM.TRIG_SEC_HI_SEC_H n) ∧
    BitsApart (TIM.TRIG_NS_NS n) (TIM.TRIG_SEC_LO_SEC_L n) ∧ BitsApart (TIM.TRIG_NS_NS n) (TIM.TRIG_SEC_HI_SEC_H n) := by
  revert n
  decide

theorem trigSet_trigTime {ns : Nat} (h : ns < 2 ^ 48 * 1000000000) : (d.trigSet n ns).trigTime n = ns * 2 ^ 40 := by
  obtain ⟨hsplit, hlo, hhi⟩ := trigInstant_apart n
  have hsec : (d.trigSet n ns).get2 (TIM.TRIG_SEC_LO_SEC_L n) (TIM.TRIG_SEC_HI_SEC_H n) = ns / 1000000000 % 2 ^ 48 :=
    get2_set2_lt _ hsplit 0 (Nat.mod_lt _ (by decide))
  have hns : (d.trigSet n ns).get (TIM.TRIG_NS_NS n) = ns % 1000000000 % 2 ^ 32 :=
    (get_set_apart hhi ..).trans ((get_set_apart hlo ..).trans (get_set_self _ _ _ _ (le_refl 32)))
  rw [trigTime, hsec, hns]
  omega

/-- A trigger that is disabled. -/
theorem put_en_trig : (d.put (TIM.TRIG_SEC_HI_EN n) false).get TIM.EVT_STAT_TRIG = d.get TIM.EVT_STAT_TRIG ∧
    (d.put (TIM.TRIG_SEC_HI_EN n) false).get (TIM.TRIG_SEC_HI_EN n) = 0 ∧
    (d.put (TIM.TRIG_SEC_HI_EN n) false).get (TIM.TRIG_SEC_HI_LATE n) = d.get (TIM.TRIG_SEC_HI_LATE n) :=
  ⟨get_set_apart (by revert n; decide) .., put_get _ _ _ (by revert n; decide) rfl, get_set_apart (by revert n; decide) ..⟩

/-- The Logbook's part of a firing leaves the trigger. -/
theorem logTrigger_get {f : Fld} (h : f ∈ trigFlds n) : (d.logTrigger n).get f = d.get f :=
  (d.logTrigger_tim n).get f 0 (trigFlds_tim n f h).1 (trigFlds_tim n f h).2

theorem logTrigger_trigTime : (d.logTrigger n).trigTime n = d.trigTime n := by
  rw [trigTime, trigTime, get2, get2, logTrigger_get d n (by simp [trigFlds]), logTrigger_get d n (by simp [trigFlds]),
    logTrigger_get d n (by simp [trigFlds])]

end

section
variable {d : Dev} {n : Nat}

theorem trigMoved_single (hp : d.get (TIM.TRIG_PER_PERIOD n) = 0) (t : Nat) :
    d.trigMoved n t = d.put (TIM.TRIG_SEC_HI_EN n) false := if_pos (by rw [hp, Nat.zero_mul])

theorem trigMoved_periodic (hp : d.get (TIM.TRIG_PER_PERIOD n) ≠ 0) (t : Nat) : d.trigMoved n t =
    d.trigSet n (nextInstant t (d.get (TIM.TRIG_PER_PERIOD n) * 2 ^ 40) d.time / 2 ^ 40) := if_neg (by omega)

end

end Dev

/-! ## The commands -/

theorem exec_cadenceFrameStart (c : Cad) (s : State) : exec (.cadenceFrameStart c) s = s.go (·.cadFrame c) := rfl

theorem exec_triggerFire (n : Fin 8) (s : State) : exec (.triggerFire n) s = s.go (·.trigFire n) := rfl

section
variable {n : Fin 8} {s : State} (he : s.dev.flag (TIM.TRIG_SEC_HI_EN n) = true) (ht : s.dev.trigTime n ≤ s.dev.time)
include he ht

theorem runsTo_triggerFire_single (hp : s.dev.get (TIM.TRIG_PER_PERIOD n) = 0) : RunsTo (.triggerFire n) s fun d =>
    (d.get TIM.EVT_STAT_TRIG).testBit n = true ∧ d.get (TIM.TRIG_SEC_HI_EN n) = 0 ∧
    d.get (TIM.TRIG_SEC_HI_LATE n) = b2n (s.dev.stepped || decide (s.dev.trigTime n ≤ s.dev.prevTime)) := by
  have hmoved := Dev.trigMoved_single ((s.dev.trigNoted_period n (s.dev.trigLate n)).trans hp) (s.dev.trigTime n)
  obtain ⟨hevent, hen, hlate⟩ := Dev.put_en_trig (s.dev.trigNoted n (s.dev.trigLate n)) n
  refine runsTo_go (exec_triggerFire n s) (Dev.trigFire_due he ht) ?_
  rw [hmoved, Dev.logTrigger_get _ n (.head _), Dev.logTrigger_get _ n (.tail _ (.head _)),
    Dev.logTrigger_get _ n (.tail _ (.tail _ (.head _))), hevent, hlate]
  exact ⟨s.dev.trigNoted_event n _, hen, s.dev.trigNoted_late n _⟩

theorem runsTo_triggerFire_periodic (hp : s.dev.get (TIM.TRIG_PER_PERIOD n) ≠ 0)
    (hw : s.dev.time + s.dev.get (TIM.TRIG_PER_PERIOD n) * 2 ^ 40 < 2 ^ 48 * secUnits) : RunsTo (.triggerFire n) s fun d =>
      (d.get TIM.EVT_STAT_TRIG).testBit n = true ∧ d.get (TIM.TRIG_SEC_HI_EN n) = 1 ∧
      s.dev.time < d.trigTime n ∧ d.trigTime n ≤ s.dev.time + s.dev.get (TIM.TRIG_PER_PERIOD n) * 2 ^ 40 ∧
      (d.trigTime n - s.dev.trigTime n) % (s.dev.get (TIM.TRIG_PER_PERIOD n) * 2 ^ 40) = 0 := by
  have hper := s.dev.trigNoted_period n (s.dev.trigLate n)
  have hmoved := Dev.trigMoved_periodic (hper.trans_ne hp) (s.dev.trigTime n)
  rw [hper, (Dev.trigNoted_only s.dev n _).get_time] at hmoved
  obtain ⟨hafter, hbound, hwhole⟩ := nextInstant_first (p := s.dev.get (TIM.TRIG_PER_PERIOD n) * 2 ^ 40) (by omega) ht
  have hns := nextInstant_ns (now := s.dev.time) (s.dev.trigTime_ns n) (Nat.dvd_mul_left (2 ^ 40) (s.dev.get (TIM.TRIG_PER_PERIOD n)))
  generalize nextInstant (s.dev.trigTime n) (s.dev.get (TIM.TRIG_PER_PERIOD n) * 2 ^ 40) s.dev.time = next at *
  obtain ⟨hevent, hen⟩ := Dev.trigSet_status (s.dev.trigNoted n (s.dev.trigLate n)) n (next / 2 ^ 40)
  refine runsTo_go (exec_triggerFire n s) (Dev.trigFire_due he ht) ?_
  rw [hmoved, Dev.logTrigger_get _ n (.head _), Dev.logTrigger_get _ n (.tail _ (.head _)), hevent, hen, s.dev.trigNoted_en n,
    Dev.logTrigger_trigTime, Dev.trigSet_trigTime _ n (by unfold secUnits at hw; omega), hns]
  exact ⟨s.dev.trigNoted_event n _, Dev.get_of_flag rfl he, hafter, hbound, hwhole⟩

end

theorem runsTo_triggerFire_waits {n : Fin 8} {s : State}
    (h : s.dev.flag (TIM.TRIG_SEC_HI_EN n) = false ∨ s.dev.time < s.dev.trigTime n) : RunsTo (.triggerFire n) s fun d => d = s.dev :=
  runsTo_go (exec_triggerFire n s) (Dev.trigFire_waits h) rfl

/-- Settles O26: a delivery writes the index that it compares, and the pulses at the engines' crossings leave it; a firing's status and its
new instant lie apart in the trigger's registers, and the instant is the first one of the grid behind the present time. -/
theorem cadencesAndTriggers : Obligations.CadencesAndTriggers :=
  ⟨fun c s h => runsTo_go (exec_cadenceFrameStart c s) rfl (Dev.cadFrame_delivers h),
    fun c s h => runsTo_go (exec_cadenceFrameStart c s) (Dev.cadFrame_waits h) rfl,
    fun _ _ h => runsTo_triggerFire_waits h,
    fun _ _ he ht => ⟨runsTo_triggerFire_single he ht, runsTo_triggerFire_periodic he ht⟩⟩

end Sys2Proof.Machine
end

section
/-!
Proofs, the servo (R321 to R324, R347): samples by their source, the loop with its limits, and what Lodestar's states leave of the
Chronometer.
-/

namespace Sys2Proof.Machine

/-! ## What the servo's work leaves alone -/

/-- A field of the Chronometer's registers lies beside some fields. -/
abbrev TimBeside (f : Fld) (xs : List Fld) : Prop := (0x00020000 ≤ f.off ∧ f.off < 0x00030000) ∧ ∀ x ∈ xs, BitsApart f x

theorem TimBeside.mono {f : Fld} {xs ys : List Fld} (h : TimBeside f xs) (s : ys ⊆ xs) : TimBeside f ys :=
  ⟨h.1, fun x m => h.2 x (s m)⟩

theorem OnlyFaults.get_time {d e : Dev} (h : OnlyFaults d e) : e.time = d.time := by obtain ⟨_, _, _, rfl⟩ := h; rfl

theorem OnlyFaults.get_sample {d e : Dev} (h : OnlyFaults d e) : e.sample = d.sample := by obtain ⟨_, _, _, rfl⟩ := h; rfl

/-- A field of the Chronometer's registers, the time and the waiting sample stand as they were. -/
structure TimKept (f : Fld) (d e : Dev) : Prop where
  field : e.get f = d.get f
  time : e.time = d.time
  sample : e.sample = d.sample

namespace TimKept

variable {f : Fld} {d e c : Dev}

theorem refl (d : Dev) : TimKept f d d := ⟨rfl, rfl, rfl⟩

theorem trans (h : TimKept f d e) (k : TimKept f e c) : TimKept f d c :=
  ⟨k.field.trans h.field, k.time.trans h.time, k.sample.trans h.sample⟩

theorem of_regs (hr : e.regs = d.regs) (ht : e.time = d.time) (hs : e.sample = d.sample) : TimKept f d e :=
  ⟨SameFld.of_regs hr 0, ht, hs⟩

theorem of_only (h : OnlyRegs d e) (k : e.get f = d.get f) : TimKept f d e := ⟨k, h.get_time, h.get_sample⟩

theorem set (d : Dev) (x : Fld) (v ch : Nat) (h : BitsApart f x) : TimKept f d (d.set x v ch) := of_only (.set ..) (Dev.get_set_apart h ..)

theorem put (d : Dev) (x : Fld) (b : Bool) (ch : Nat) (h : BitsApart f x) : TimKept f d (d.put x b ch) := set _ _ _ _ h

theorem raiseIf (d : Dev) (b : Bool) (x : Fld) (ch : Nat) (h : BitsApart f x) : TimKept f d (d.raiseIf b x ch) :=
  of_only (.raiseIf ..) (SameFld.raiseIf d b x ch h 0)

theorem mark (d : Dev) (t : Timer) (i : Nat) : TimKept f d (d.mark t i) := of_regs rfl rfl rfl

theorem mEntry (d : Dev) (m : Int) : TimKept f d { d with mEntry := m } := of_regs rfl rfl rfl

theorem xSum (d : Dev) (x : Int × Nat) : TimKept f d { d with xSum := x } := of_regs rfl rfl rfl

theorem lockRun (d : Dev) (n : Nat) : TimKept f d { d with lockRun := n } := of_regs rfl rfl rfl

theorem when (d : Dev) (b : Bool) (g : Dev → Dev) (h : TimKept f d (g d)) : TimKept f d (d.when b g) := by
  cases b
  · exact refl d
  · exact h

theorem ite (p : Prop) [Decidable p] {x y : Dev} (h : TimKept f d x) (k : TimKept f d y) : TimKept f d (if p then x else y) := by
  split
  · exact h
  · exact k

/-- Lodestar's registers lie behind the Chronometer's. -/
theorem setRef (hf : TimBeside f []) (d : Dev) (x : Fld) (v ch : Nat) (h : x.lo + x.w ≤ 32 ∧ 0x00030000 ≤ x.off) :
    TimKept f d (d.set x v ch) := set d x v ch ⟨h.1, .inl (Nat.ne_of_lt (Nat.lt_of_lt_of_le hf.1.2 h.2))⟩

/-- The registers of the faults lie below the Chronometer's, the Logbook's above them. -/
theorem raiseFault (hf : TimBeside f []) (d : Dev) (x : FaultAt) : TimKept f d (d.raiseFault x) := by
  have h := OnlyFaults.raiseFault d x
  have hr : Dev.TimStands d (d.raiseFault x) := .raiseFault d x (.inl (by decide))
  exact ⟨hr.get f 0 hf.1.1 hf.1.2, h.get_time, h.get_sample⟩

theorem dropFault (hf : TimBeside f []) (d : Dev) (x : FaultAt) : TimKept f d (d.dropFault x) := by
  have h := OnlyFaults.dropFault d x
  have hr : Dev.TimStands d (d.dropFault x) := .dropFault d x (.inl (by decide))
  exact ⟨hr.get f 0 hf.1.1 hf.1.2, h.get_time, h.get_sample⟩

theorem logAdd (hf : TimBeside f []) (d : Dev) (i n : Nat) : TimKept f d (d.logAdd i n) := by
  have hr : Dev.TimStands d (d.logAdd i n) := .logAdd d i n (.inr (by decide))
  exact of_only (.logAdd ..) (hr.get f 0 hf.1.1 hf.1.2)

/-! ## Lodestar's states (R348, R349) -/

theorem refPins (hf : TimBeside f []) (d : Dev) : TimKept f d d.refPins := setRef hf _ _ _ _ (by decide)

theorem refF (hf : TimBeside f []) (d : Dev) : TimKept f d d.refF := by
  unfold Dev.refF
  extract_lets st put
  have hput (x : Int) : TimKept f d (put x) := setRef hf d REF.L1_F_F _ _ (by decide)
  exact ite _ (hput _) (ite _ (hput _) (refl d))

theorem refState (hf : TimBeside f []) (d : Dev) (st : Nat) : TimKept f d (d.refState st) := by
  unfold Dev.refState
  extract_lets old a b c e held g k
  have ha : TimKept f d a := (setRef hf d REF.STAT_STATE _ _ (by decide)).trans (setRef hf _ REF.EVT_STAT_STATE_CHG _ _ (by decide))
  have hb : TimKept f a b := (when _ _ _ (mark _ _ _)).trans (when _ _ _ (mark _ _ _))
  have hc : TimKept f b c := ite _ (dropFault hf _ _) (refl b)
  have he : TimKept f c e := ite _ (dropFault hf _ _) (refl c)
  have hhold : TimKept f e { held with mEntry := e.mdlM } :=
    (setRef hf e REF.HOLD_F_F_AVG (ofSigned 32 e.fAvg) 0 (by decide)).trans (mEntry held _)
  have hfree : TimKept f e ((e.put REF.STAT_HIST_OK false).when (old == 3) (·.raiseFault (Dev.devFault 189))) :=
    (setRef hf e REF.STAT_HIST_OK (b2n false) 0 (by decide)).trans (when _ _ _ (raiseFault hf _ _))
  have hg : TimKept f e g := ite _ (hhold.trans (raiseFault hf _ _)) (ite _ hfree (refl e))
  have hk : TimKept f g k := ite _ (refl g) (xSum g _)
  exact ite _ (refPins hf d)
    ((((((ha.trans hb).trans hc).trans he).trans hg).trans hk).trans ((refPins hf k).trans (refF hf _)))

theorem refEval (hf : TimBeside f []) (d : Dev) : TimKept f d d.refEval := ite _ (refState hf d 2) (refl d)

end TimKept

/-! ## Samples (R321) -/

namespace Dev

/-- A sample that is ignored is counted. -/
def ignored (d : Dev) : Dev := (d.count TIM.CNT_SRV_IGN_COUNT).raise TIM.EVT_STAT_SRV_IGN

theorem ignored_only (d : Dev) : OnlyRegs d d.ignored := (OnlyRegs.count ..).trans (.raise ..)

theorem ignored_kept (d : Dev) : RegsKept d d.ignored [(0x00020004, 0), (0x00020078, 0)] :=
  (RegsKept.count d TIM.CNT_SRV_IGN_COUNT 1 0 (by decide)).trans (.raise _ TIM.EVT_STAT_SRV_IGN 0 (by decide))

theorem ignored_event (d : Dev) : d.ignored.get TIM.EVT_STAT_SRV_IGN = 1 := get_set_self _ _ _ _ (by decide)

theorem ignored_count (d : Dev) : d.ignored.get TIM.CNT_SRV_IGN_COUNT = sat32 (d.get TIM.CNT_SRV_IGN_COUNT + 1) :=
  (get_set_apart (by decide) ..).trans (count_get _ _ _ rfl rfl)

theorem pushSample_off {d : Dev} (h : d.get TIM.SRV_CFG_EN = 0) (src : Nat) (e : Int) : d.pushSample src e = d :=
  if_pos (by rw [flag, h]; rfl)

/-- A sample waits for its processing; one that waited is ignored. -/
def sampled (d : Dev) (src : Nat) (e : Int) : Dev :=
  { (if d.sample.isSome then d.ignored else d) with sample := some (src, toSigned 48 (ofSigned 48 e)) }

theorem pushSample_on {d : Dev} (h : d.get TIM.SRV_CFG_EN = 1) (src : Nat) (e : Int) : d.pushSample src e =
    if (src = 0 || d.get TIM.SRV_STAT_INPUT != src) = true then d.ignored else d.sampled src e :=
  if_neg (by rw [flag, h]; decide)

theorem pushSample_ignores {d : Dev} {src : Nat} (h : d.get TIM.SRV_CFG_EN = 1)
    (hs : src = 0 ∨ d.get TIM.SRV_STAT_INPUT ≠ src) (e : Int) : d.pushSample src e = d.ignored :=
  (pushSample_on h src e).trans (if_pos (by simpa using hs))

/-- A sample from the selected source, where none waits. -/
theorem pushSample_takes {d : Dev} {src : Nat} (h : d.get TIM.SRV_CFG_EN = 1) (hw : d.sample = none) (hz : src ≠ 0)
    (hs : d.get TIM.SRV_STAT_INPUT = src) (e : Int) :
    d.pushSample src e = { d with sample := some (src, toSigned 48 (ofSigned 48 e)) } := by
  rw [pushSample_on h, if_neg (by simp [hz, hs]), sampled, hw]
  rfl

end Dev

theorem nearOffset_bounds (x : Int) {p : Int} (hp : 0 < p) : -p ≤ 2 * nearOffset x p ∧ 2 * nearOffset x p ≤ p := by
  have hlo := Int.emod_nonneg x (Int.ne_of_gt hp)
  have hhi := Int.emod_lt_of_pos x hp
  unfold nearOffset
  dsimp only
  split <;> omega

namespace Dev

/-- The offset of a 1PPS edge fits 48 bits: half a second, and a delay of 16 bits in ns. -/
theorem ppsOffset_fits (d : Dev) (n t : Nat) : toSigned 48 (ofSigned 48 (nearOffset t (1000000000 * 65536) - d.refDelay n)) =
    nearOffset t (1000000000 * 65536) - d.refDelay n := by
  obtain ⟨hlo, hhi⟩ := nearOffset_bounds t (p := 1000000000 * 65536) (by decide)
  obtain ⟨dlo, dhi⟩ := toSigned_bounds (n := 16) (by decide) (d.get (REF.REFIN_CFG_DELAY n))
  unfold refDelay
  exact toSigned_ofSigned (by decide) (by omega) (by omega)

theorem pinSample_others {d : Dev} {n kind : Nat} (h : d.get REF.STAT_SEL ≠ n ∨ d.get (REF.REFIN_CFG_KIND n) ≠ kind) (t : Nat) :
    ∃ e, d.pinSample n kind t = d.pushSample 0 e := by
  have hmine : (d.get REF.STAT_SEL == n && d.get (REF.REFIN_CFG_KIND n) == kind) = false := by
    rcases h with h | h <;> simp [h]
  unfold pinSample
  rw [hmine]
  exact ⟨_, rfl⟩

theorem pinSample_selected {d : Dev} {n kind : Nat} (hs : d.get REF.STAT_SEL = n) (hk : d.get (REF.REFIN_CFG_KIND n) = kind) (t : Nat) :
    ∃ e, d.pinSample n kind t = d.pushSample (if kind = 1 then 3 else 2) e ∧
      (kind ≠ 1 → e = nearOffset t (1000000000 * 65536) - d.refDelay n) := by
  unfold pinSample
  rw [hs, hk, beq_self_eq_true, beq_self_eq_true]
  exact ⟨_, rfl, fun h => if_neg h⟩

end Dev

/-! ## The loop (R322 to R324) -/

/-- A value held within ±`lim`. -/
def srvClip (lim v : Int) : Int := if v > lim then lim else if v < Neg.neg lim then Neg.neg lim else v

theorem srvClip_eq {lim : Int} (h : 0 ≤ lim) (v : Int) : srvClip lim v = max (-lim) (min lim v) := by
  unfold srvClip
  split
  · omega
  · split <;> omega

theorem srvClip_bounds {lim : Int} (h : 0 ≤ lim) (v : Int) : -lim ≤ srvClip lim v ∧ srvClip lim v ≤ lim := by
  rw [srvClip_eq h]
  omega

namespace Dev

/-- LIM, in 2^-8 ppb. -/
def srvLim (d : Dev) : Int := (min 1000000 (d.get TIM.SRV_LIM_LIM) * 256 : Nat)

theorem srvLim_bounds (d : Dev) : 0 ≤ d.srvLim ∧ d.srvLim ≤ 256000000 := by
  unfold srvLim
  omega

/-- The integral part and the output that a sample gives. -/
def srvI (d : Dev) (e : Int) : Int := srvClip d.srvLim (toSigned 32 (d.get TIM.SRV_I_I) + d.get TIM.SRV_GAIN_KI * e / 2 ^ 24)
def srvY (d : Dev) (e : Int) : Int := srvClip d.srvLim (d.get TIM.SRV_GAIN_KP * e / 2 ^ 16 + d.srvI e)

/-- Both written. -/
def srvWritten (d : Dev) (i y : Int) : Dev := (d.set TIM.SRV_I_I (ofSigned 32 i)).set TIM.SRV_Y_Y (ofSigned 32 y)

/-- CLAMP, INCR and the Logbook follow the output. -/
def srvSteered (d : Dev) (lim y : Int) : Dev :=
  ((d.srvClamp (y.natAbs == lim.natAbs)).setIncr (d.incrNom - d.incrNom * y / (1000000000 * 256))).logAdd 1743 1

/-- LOCKED judged on a sample (R324). -/
def srvJudged (d : Dev) (e : Int) : Dev :=
  if e.natAbs ≤ d.get TIM.SRV_LOCK_THR_THR * 65536 then
    let n := d.lockRun + 1
    let rise := decide (max 1 (d.get TIM.SRV_CFG_LOCK_N) ≤ n) && !d.flag TIM.SRV_STAT_LOCKED
    { (d.raiseIf rise TIM.EVT_STAT_SRV_LOCK).put TIM.SRV_STAT_LOCKED (rise || d.flag TIM.SRV_STAT_LOCKED) with
      lockRun := min 15 n }
  else d.srvUnlock

theorem srvProcess_eq (d : Dev) (e : Int) :
    d.srvProcess e = ((d.srvWritten (d.srvI e) (d.srvY e)).srvSteered d.srvLim (d.srvY e)).srvJudged e := (rfl)

end Dev

/-- What follows the output, and what LOCKED's judgement sets. -/
def steerFlds : List Fld := [TIM.SRV_STAT_CLAMP, TIM.EVT_STAT_SRV_CLAMP, TIM.INCR_LO_INCR_L, TIM.INCR_HI_INCR_H]
def lockFlds : List Fld := [TIM.SRV_STAT_LOCKED, TIM.EVT_STAT_SRV_LOCK, TIM.EVT_STAT_SRV_UNLOCK]

namespace TimKept

variable {f : Fld} {d : Dev}

theorem srvClamp (hf : TimBeside f steerFlds) (d : Dev) (c : Bool) : TimKept f d (d.srvClamp c) := by
  have h0 : TimBeside f [] := hf.mono (List.nil_subset _)
  unfold Dev.srvClamp
  extract_lets was a
  have ha : TimKept f d a := (put _ _ _ _ (hf.2 _ (by decide))).trans (raiseIf _ _ _ _ (hf.2 _ (by decide)))
  exact ite _ (ha.trans (raiseFault h0 _ _)) (ha.trans (dropFault h0 _ _))

theorem srvSteered (hf : TimBeside f steerFlds) (d : Dev) (lim y : Int) : TimKept f d (d.srvSteered lim y) :=
  (((srvClamp hf _ _).trans (set _ _ _ _ (hf.2 _ (by decide)))).trans (set _ _ _ _ (hf.2 _ (by decide)))).trans
    (logAdd (hf.mono (List.nil_subset _)) _ _ _)

theorem srvUnlock (hf : TimBeside f lockFlds) (d : Dev) : TimKept f d d.srvUnlock :=
  ((lockRun d 0).trans (raiseIf _ _ _ _ (hf.2 _ (by decide)))).trans (put _ _ _ _ (hf.2 _ (by decide)))

theorem srvJudged (hf : TimBeside f lockFlds) (d : Dev) (e : Int) : TimKept f d (d.srvJudged e) := by
  unfold Dev.srvJudged
  extract_lets n rise
  exact ite _ (((raiseIf _ _ _ _ (hf.2 _ (by decide))).trans (put _ _ _ _ (hf.2 _ (by decide)))).trans (lockRun _ _))
    (srvUnlock hf d)

/-- Behind the integral part and the output, a sample changes what follows the output, LOCKED, and Lodestar's state. -/
theorem srvProcess (hs : TimBeside f steerFlds) (hl : TimBeside f lockFlds) (d : Dev) (e : Int) :
    TimKept f (d.srvWritten (d.srvI e) (d.srvY e)) (d.srvProcess e).refEval := by
  rw [Dev.srvProcess_eq]
  exact ((srvSteered hs _ _ _).trans (srvJudged hl _ _)).trans (refEval (hs.mono (List.nil_subset _)) _)

end TimKept

namespace Dev

/-- A code of two's complement, read from the field that it was written to. -/
theorem get_ofSigned {f : Fld} {n : Nat} (hw : f.w = n) (h : f.lo + f.w ≤ 32) (d : Dev) (v : Int) (ch : Nat) :
    (d.set f (ofSigned n v) ch).get f ch = ofSigned n v := by
  rw [get_set_self _ _ _ _ h, hw, Nat.mod_eq_of_lt (ofSigned_lt n v)]

theorem srvProcess_integral (d : Dev) (e : Int) : toSigned 32 ((d.srvProcess e).refEval.get TIM.SRV_I_I) = d.srvI e := by
  obtain ⟨hlim, hmax⟩ := d.srvLim_bounds
  obtain ⟨hlo, hhi⟩ := srvClip_bounds hlim (toSigned 32 (d.get TIM.SRV_I_I) + d.get TIM.SRV_GAIN_KI * e / 2 ^ 24)
  rw [(TimKept.srvProcess (by decide) (by decide) d e).field, srvWritten, get_set_apart (by decide), get_ofSigned (n := 32) rfl (by decide)]
  exact toSigned_ofSigned (by decide) (by unfold srvI; omega) (by unfold srvI; omega)

theorem srvProcess_output (d : Dev) (e : Int) : toSigned 32 ((d.srvProcess e).refEval.get TIM.SRV_Y_Y) = d.srvY e := by
  obtain ⟨hlim, hmax⟩ := d.srvLim_bounds
  obtain ⟨hlo, hhi⟩ := srvClip_bounds hlim (d.get TIM.SRV_GAIN_KP * e / 2 ^ 16 + d.srvI e)
  rw [(TimKept.srvProcess (by decide) (by decide) d e).field, srvWritten, get_ofSigned (n := 32) rfl (by decide)]
  exact toSigned_ofSigned (by decide) (by unfold srvY; omega) (by unfold srvY; omega)

theorem srvWritten_only (d : Dev) (i y : Int) : OnlyRegs d (d.srvWritten i y) := (OnlyRegs.set ..).trans (.set ..)

theorem srvProcess_beside (d : Dev) (e : Int) : (d.srvProcess e).refEval.time = d.time ∧ (d.srvProcess e).refEval.sample = d.sample := by
  have h := TimKept.srvProcess (f := TIM.SRV_I_I) (by decide) (by decide) d e
  exact ⟨h.time.trans (srvWritten_only ..).get_time, h.sample.trans (srvWritten_only ..).get_sample⟩

theorem srvUnlock_locked (d : Dev) : d.srvUnlock.get TIM.SRV_STAT_LOCKED = 0 := put_get _ _ _ (by decide) rfl

/-- A sample outside the lock threshold ends LOCKED. -/
theorem srvProcess_unlocks {d : Dev} {e : Int} (h : d.get TIM.SRV_LOCK_THR_THR * 65536 < e.natAbs) :
    (d.srvProcess e).refEval.get TIM.SRV_STAT_LOCKED = 0 := by
  have hthr : ((d.srvWritten (d.srvI e) (d.srvY e)).srvSteered d.srvLim (d.srvY e)).get TIM.SRV_LOCK_THR_THR =
      d.get TIM.SRV_LOCK_THR_THR := by
    rw [(TimKept.srvSteered (by decide) _ _ _).field, srvWritten, get_set_apart (by decide), get_set_apart (by decide)]
  rw [(TimKept.refEval (by decide) _).field, srvProcess_eq, srvJudged, hthr, if_neg (Nat.not_le.2 h), srvUnlock_locked]

/-! ## The waiting sample -/

/-- The waiting sample is taken. -/
def unsampled (d : Dev) : Dev := { d with sample := none }

theorem unsampled_regs (d : Dev) : d.unsampled.regs = d.regs := (rfl)

theorem srvSample_none {d : Dev} (h : d.sample = none) : d.srvSample = d := by rw [srvSample, h]

theorem srvSample_some {d : Dev} {src : Nat} {e : Int} (h : d.sample = some (src, e)) : d.srvSample =
    if (src != d.get TIM.SRV_STAT_INPUT) = true then d.unsampled.ignored
    else if d.swPend = true then ({ d.unsampled with swPend := false }.stepBy (Neg.neg e)).raise REF.EVT_STAT_SW_STEP
    else if (d.flag TIM.SRV_CFG_STEP_EN && decide (d.get TIM.SRV_STEP_THR_THR * 65536 < e.natAbs)) = true then
      (d.unsampled.stepBy (Neg.neg e)).srvUnlock
    else (d.unsampled.srvProcess e).refEval := by
  rw [srvSample, h]
  rfl

/-- A step leaves the waiting sample and the pending switch. -/
theorem stepBy_servo (d : Dev) (e : Int) : (d.stepBy e).sample = d.sample ∧ (d.stepBy e).swPend = d.swPend := ⟨rfl, rfl⟩

theorem stepBy_back (d : Dev) (e : Int) : ((d.stepBy (Neg.neg e)).time : Int) = (d.time - e * 2 ^ 24) % (2 ^ 48 * secUnits : Nat) := by
  rw [stepBy, stepTo_time, Int.neg_mul, ← Int.sub_eq_add_neg]

end Dev

/-! ## The commands -/

theorem exec_srvPush (s : State) : exec .srvPush s =
    s.go fun d => d.pushSample 1 (toSigned 48 (d.get2 TIM.SRV_OFS_LO_E_L TIM.SRV_OFS_HI_E_H)) := rfl

theorem exec_ppsEdge (n : Refin) (t : Nat) (s : State) : exec (.ppsEdge n t) s = s.go fun d => d.pinSample n 2 t := rfl

theorem exec_framePulse (n : Refin) (t : Nat) (s : State) : exec (.framePulse n t) s = s.go fun d => d.pinSample n 1 t := rfl

theorem exec_servoSample (s : State) : exec .servoSample s = s.go (·.srvSample) := rfl

theorem exec_srvReset (s : State) : exec .srvReset s = s.go fun d => d.set TIM.SRV_I_I 0 := rfl

section
variable {s : State}

/-- A command whose sample the servo ignores. -/
theorem regsTo_ignored {i : Instr} {g : Dev → Dev} (hi : exec i s = s.go g) (hg : g s.dev = s.dev.ignored) : RegsTo i s fun d =>
    d.get TIM.EVT_STAT_SRV_IGN = 1 ∧ d.get TIM.CNT_SRV_IGN_COUNT = sat32 (s.dev.get TIM.CNT_SRV_IGN_COUNT + 1) ∧
    RegsKept s.dev d [(0x00020004, 0), (0x00020078, 0)] :=
  regsTo_go hi (hg ▸ s.dev.ignored_only) (hg ▸ ⟨s.dev.ignored_event, s.dev.ignored_count, s.dev.ignored_kept⟩)

theorem runsTo_pin_off {i : Instr} {n kind t : Nat} (hi : exec i s = s.go fun d => d.pinSample n kind t) (h : s.dev.get TIM.SRV_CFG_EN = 0) :
    RunsTo i s fun d => d = s.dev := runsTo_go hi (Dev.pushSample_off h _ _) rfl

theorem regsTo_pin_ignored {i : Instr} {n kind t : Nat} (hi : exec i s = s.go fun d => d.pinSample n kind t) (h : s.dev.get TIM.SRV_CFG_EN = 1)
    (ho : s.dev.get REF.STAT_SEL ≠ n ∨ s.dev.get (REF.REFIN_CFG_KIND n) ≠ kind) : RegsTo i s fun d =>
      d.get TIM.CNT_SRV_IGN_COUNT = sat32 (s.dev.get TIM.CNT_SRV_IGN_COUNT + 1) ∧ RegsKept s.dev d [(0x00020004, 0), (0x00020078, 0)] := by
  obtain ⟨e, he⟩ := Dev.pinSample_others ho t
  obtain ⟨r, hr, -, hcount, hkept⟩ := regsTo_ignored hi (he.trans (Dev.pushSample_ignores h (.inl rfl) e))
  exact ⟨r, hr, hcount, hkept⟩

section
variable (h : s.dev.get TIM.SRV_CFG_EN = 1)
include h

theorem runsTo_srvPush (hw : s.dev.sample = none) (hs : s.dev.get TIM.SRV_STAT_INPUT = 1) : RunsTo .srvPush s fun d =>
    d = { s.dev with sample := some (1, toSigned 48 (s.dev.get2 TIM.SRV_OFS_LO_E_L TIM.SRV_OFS_HI_E_H)) } := by
  obtain ⟨hlo, hhi⟩ := toSigned_bounds (n := 48) (by decide) (s.dev.get2 TIM.SRV_OFS_LO_E_L TIM.SRV_OFS_HI_E_H)
  refine runsTo_go (exec_srvPush s) (Dev.pushSample_takes h hw (by decide) hs _) ?_
  rw [toSigned_ofSigned (by decide) hlo hhi]

theorem regsTo_srvPush_ignored (hs : s.dev.get TIM.SRV_STAT_INPUT ≠ 1) : RegsTo .srvPush s fun d => d.get TIM.EVT_STAT_SRV_IGN = 1 ∧
    d.get TIM.CNT_SRV_IGN_COUNT = sat32 (s.dev.get TIM.CNT_SRV_IGN_COUNT + 1) ∧ RegsKept s.dev d [(0x00020004, 0), (0x00020078, 0)] :=
  regsTo_ignored (exec_srvPush s) (Dev.pushSample_ignores h (.inr hs) _)

section
variable {n : Refin} (t : Nat) (hw : s.dev.sample = none) (hsel : s.dev.get REF.STAT_SEL = n)
include hw hsel

theorem runsTo_ppsEdge (hs : s.dev.get TIM.SRV_STAT_INPUT = 2) (hk : s.dev.get (REF.REFIN_CFG_KIND n) = 2) :
    RunsTo (.ppsEdge n t) s fun d => d = { s.dev with sample := some (2, nearOffset t (1000000000 * 65536) - s.dev.refDelay n) } := by
  obtain ⟨e, he, hval⟩ := Dev.pinSample_selected hsel hk t
  refine runsTo_go (exec_ppsEdge n t s) (he.trans (Dev.pushSample_takes h hw (by decide) hs e)) ?_
  rw [hval (by decide), Dev.ppsOffset_fits]

theorem runsTo_framePulse (hs : s.dev.get TIM.SRV_STAT_INPUT = 3) (hk : s.dev.get (REF.REFIN_CFG_KIND n) = 1) :
    RunsTo (.framePulse n t) s fun d => d.regs = s.dev.regs ∧ ∃ e, d.sample = some (3, e) := by
  obtain ⟨e, he, -⟩ := Dev.pinSample_selected hsel hk t
  exact runsTo_go (exec_framePulse n t s) (he.trans (Dev.pushSample_takes h hw (by decide) hs e)) ⟨rfl, _, rfl⟩

end

end

/-! ## The processing of a sample -/

theorem regsTo_srvReset (s : State) : RegsTo .srvReset s fun d => d.get TIM.SRV_I_I = 0 ∧ RegsKept s.dev d [(0x00020060, 0)] :=
  regsTo_go (exec_srvReset s) (.set ..) ⟨Dev.get_set_self _ _ _ _ (by decide), .set s.dev TIM.SRV_I_I 0 0 (.head _)⟩

section
variable {src : Nat} {e : Int} (h : s.dev.sample = some (src, e))
include h

theorem runsTo_servoSample_ignored (hs : src ≠ s.dev.get TIM.SRV_STAT_INPUT) : RunsTo .servoSample s fun d =>
    d.sample = none ∧ d.time = s.dev.time ∧ d.get TIM.CNT_SRV_IGN_COUNT = sat32 (s.dev.get TIM.CNT_SRV_IGN_COUNT + 1) ∧
    RegsKept s.dev d [(0x00020004, 0), (0x00020078, 0)] := by
  have ho := s.dev.unsampled.ignored_only
  exact runsTo_go (exec_servoSample s) ((Dev.srvSample_some h).trans (if_pos (bne_iff_ne.2 hs)))
    ⟨ho.get_sample, ho.get_time, s.dev.unsampled.ignored_count,
      (RegsKept.of_regs s.dev.unsampled_regs).trans s.dev.unsampled.ignored_kept⟩

variable (hs : src = s.dev.get TIM.SRV_STAT_INPUT)
include hs

theorem servoSample_selected : s.dev.srvSample =
    if s.dev.swPend = true then ({ s.dev.unsampled with swPend := false }.stepBy (Neg.neg e)).raise REF.EVT_STAT_SW_STEP
    else if (s.dev.flag TIM.SRV_CFG_STEP_EN && decide (s.dev.get TIM.SRV_STEP_THR_THR * 65536 < e.natAbs)) = true then
      (s.dev.unsampled.stepBy (Neg.neg e)).srvUnlock
    else (s.dev.unsampled.srvProcess e).refEval := (Dev.srvSample_some h).trans (if_neg (by simp [hs]))

theorem runsTo_servoSample_switch (hp : s.dev.swPend = true) : RunsTo .servoSample s fun d => d.swPend = false ∧ d.sample = none ∧
    (d.time : Int) = (s.dev.time - e * 2 ^ 24) % (2 ^ 48 * secUnits : Nat) ∧ d.get REF.EVT_STAT_SW_STEP = 1 := by
  refine runsTo_go (exec_servoSample s) ((servoSample_selected h hs).trans (if_pos hp)) ?_
  obtain ⟨hsample, hpend⟩ := Dev.stepBy_servo { s.dev.unsampled with swPend := false } (Neg.neg e)
  rw [(OnlyRegs.raise ..).get_swPend, (OnlyRegs.raise ..).get_sample, (OnlyRegs.raise ..).get_time, Dev.stepBy_back, hsample, hpend]
  exact ⟨rfl, rfl, rfl, Dev.get_set_self _ _ _ _ (by decide)⟩

variable (hp : s.dev.swPend = false)
include hp

theorem runsTo_servoSample_step (he : s.dev.flag TIM.SRV_CFG_STEP_EN = true)
    (ht : s.dev.get TIM.SRV_STEP_THR_THR * 65536 < e.natAbs) : RunsTo .servoSample s fun d => d.sample = none ∧
      d.get TIM.SRV_STAT_LOCKED = 0 ∧ (d.time : Int) = (s.dev.time - e * 2 ^ 24) % (2 ^ 48 * secUnits : Nat) := by
  refine runsTo_go (exec_servoSample s)
    ((servoSample_selected h hs).trans ((if_neg (by simp [hp])).trans (if_pos (by simp [he, ht])))) ?_
  have hk := TimKept.srvUnlock (f := TIM.SRV_I_I) (by decide) (s.dev.unsampled.stepBy (Neg.neg e))
  rw [hk.sample, hk.time, Dev.stepBy_back, (Dev.stepBy_servo ..).1]
  exact ⟨rfl, Dev.srvUnlock_locked _, rfl⟩

theorem runsTo_servoSample_loop
    (ht : s.dev.flag TIM.SRV_CFG_STEP_EN = false ∨ e.natAbs ≤ s.dev.get TIM.SRV_STEP_THR_THR * 65536) :
    RunsTo .servoSample s fun d => d.sample = none ∧ d.time = s.dev.time ∧
      (∀ lim i : Int, lim = (min 1000000 (s.dev.get TIM.SRV_LIM_LIM) * 256 : Nat) →
        i = max (-lim) (min lim (toSigned 32 (s.dev.get TIM.SRV_I_I) + s.dev.get TIM.SRV_GAIN_KI * e / 2 ^ 24)) →
        toSigned 32 (d.get TIM.SRV_I_I) = i ∧
        toSigned 32 (d.get TIM.SRV_Y_Y) = max (-lim) (min lim (s.dev.get TIM.SRV_GAIN_KP * e / 2 ^ 16 + i))) ∧
      (s.dev.get TIM.SRV_LOCK_THR_THR * 65536 < e.natAbs → d.get TIM.SRV_STAT_LOCKED = 0) := by
  have hstays : ¬ (s.dev.flag TIM.SRV_CFG_STEP_EN && decide (s.dev.get TIM.SRV_STEP_THR_THR * 65536 < e.natAbs)) = true := by
    rcases ht with ht | ht <;> simp [ht]
  obtain ⟨htime, hsample⟩ := s.dev.unsampled.srvProcess_beside e
  have hlim := s.dev.unsampled.srvLim_bounds.1
  refine runsTo_go (exec_servoSample s) ((servoSample_selected h hs).trans ((if_neg (by simp [hp])).trans (if_neg hstays)))
    ⟨hsample, htime, fun lim i hl hi => ?_, fun hthr => Dev.srvProcess_unlocks hthr⟩
  have hI : s.dev.unsampled.srvI e = i := by
    rw [hi, hl, Dev.srvI, srvClip_eq hlim]
    rfl
  rw [Dev.srvProcess_integral, Dev.srvProcess_output, Dev.srvY, hI, srvClip_eq hlim, hl]
  exact ⟨rfl, rfl⟩

end

end

/-- Settles O25: samples by their source (`pushSample_takes`, `pushSample_ignores`), and the loop in stages: the integral part and the output
are written first, and what follows them and Lodestar's states leave them (`TimKept.srvProcess`). -/
theorem servo : Obligations.Servo :=
  ⟨fun n t s => ⟨fun h => ⟨runsTo_go (exec_srvPush s) (Dev.pushSample_off h _ _) rfl, runsTo_pin_off (exec_ppsEdge n t s) h,
        runsTo_pin_off (exec_framePulse n t s) h⟩,
      fun h hw => ⟨runsTo_srvPush h hw, fun hs hsel => runsTo_ppsEdge h t hw hsel hs, fun hs hsel => runsTo_framePulse h t hw hsel hs⟩,
      fun h => ⟨regsTo_srvPush_ignored h, regsTo_pin_ignored (exec_ppsEdge n t s) h, regsTo_pin_ignored (exec_framePulse n t s) h⟩⟩,
    fun s => ⟨fun h => runsTo_go (exec_servoSample s) (Dev.srvSample_none h) rfl, regsTo_srvReset s,
      fun _ _ h hs => runsTo_servoSample_ignored h hs,
      fun _ h => ⟨runsTo_servoSample_switch h rfl, runsTo_servoSample_step h rfl, runsTo_servoSample_loop h rfl⟩⟩⟩

end Sys2Proof.Machine
end
